-- ==== Sys2Proof/Word.lean ====
section
/-!
DEFINITION. The word types of the VT-880-M: the part's memory word is 8 bytes (00 R5), an instruction word is 32 bits
(05 R101).
-/
namespace Sys2Proof

/-- A 64-bit memory word or register (00 R5, 06 R134). -/
abbrev Word := BitVec 64

/-- A byte (00 R5). -/
abbrev Byte := BitVec 8

end Sys2Proof
end

