-- ==== Sys2Proof/Config.lean ====
section
/-!
DEFINITION. What the spec leaves open, as opaque constants with no body (nothing in Lean can evaluate them): every
statement holds whatever they are.
-/
namespace Sys2Proof.Config

/-- Which internal step the part takes at tick `n` when the agenda names none (log entry 1). -/
opaque schedule : Nat → Nat

/-- A free 64-bit value drawn at tick `n` (log entry 2): each use names the rule that leaves the value open. -/
opaque freeWord : Nat → Nat → BitVec 64

/-- The DRAM bank of a channel offset (07 R179 names banks and gives no layout; log entry 9). -/
opaque bankOf : Nat → Nat

/-- Whether a fused multiply-add of 0, infinity and a quiet NaN sets NV (02 R29 follows IEEE 754, which leaves it to the
implementation; log entry 8). -/
opaque fmaInvalid : BitVec 64 → BitVec 64 → BitVec 64 → Bool

/-- What a module's fuses and flash are made with (15 R362 to R364; log entry 13): the SHA-256 of the root public key and the first firmware; where
in an image of firmware (0) and in a signed command (1) the root public key, the security version and each signed part with its signature
stand, as offsets and lengths; and the bytes of the configuration that ends the measurement, for a fuse map, a power cap and a life-cycle state. -/
opaque rootHash : Nat
opaque factoryFlash : List Byte
opaque signedKey : Nat → Nat × Nat
opaque signedVersion : Nat → Nat × Nat
opaque signedParts : Nat → List ((Nat × Nat) × (Nat × Nat))
opaque configuration : List (List Word) → Nat → Nat → List Byte

/-- Where the staging area of 64 MiB lies in DRAM stack 0, in units of its size (15 R359 gives no address; log entry 32). -/
opaque stagingBase : Nat

/-- Whether a link port on so many lanes and with so many retired buffer rows still holds the credit reserve that 04 R79 asks for (its buffers
are not in the spec; log entry 103). -/
opaque reserveHeld : Nat → Nat → Bool

/-- What on-die entropy gave an identity key of a module (15 R363, R364): the identifier I of the `epoch`-th key, the secret chain starts of
its leaves, and the randomizers of its signatures (log entry 13). -/
opaque identityId : Nat → Nat → BitVec 128
opaque identitySecret : Nat → Nat → Nat → Nat → BitVec 256
opaque identityRandom : Nat → Nat → Nat → BitVec 256

end Sys2Proof.Config
end

