-- ==== Sys2Proof/Syntax.lean ====
section
/-!
DEFINITION. The instructions and steps of the VT-880-M: one constructor for each row of spec/opcode_table.json, in the
table's order. The first 282 are one-word instructions, the next ten two-word instructions (05 R101, R117), the last 105
the part's steps ("each whole and indivisible", 95), which carry as data what the outside world or the schedule brings.
-/
namespace Sys2Proof

/-- A 7-bit register field (05 R106). -/
abbrev Reg := Fin 128
/-- A predicate number (05 R106). -/
abbrev Pred := Fin 8
/-- A vector group number (05 R106). -/
abbrev Grp := Fin 16
/-- A format register number (05 R106). -/
abbrev Fmt := Fin 16

/-- SZ of a scalar access (05 R107). -/
inductive Size where
  | n8 | n16 | n32 | n64 | i8 | i16 | i32
  deriving DecidableEq, Repr

/-- TY of a V-format instruction (05 R108). -/
inductive Ty where
  | i32 | n32 | f32 | h16 | bf16 | i16 | x8 | f64
  deriving DecidableEq, Repr

/-- The scope of FENCE (05 R109). -/
inductive Scope where
  | core | cluster | die | module | fabric | system
  deriving DecidableEq, Repr

/-- The width of ATOM64/ATOM32 and of FS32/FS64 (05 R115, R116). -/
inductive Width where
  | w32 | w64
  deriving DecidableEq, Repr

/-- The width code of VBCAST, T = 0 to 3 (08 R199). -/
inductive BWidth where
  | w32 | w64 | w16 | w8
  deriving DecidableEq, Repr

/-- A PCI Express AtomicOp of `size` bytes (03 R46, R49): 4 or 8 for FetchAdd and Swap, 4, 8 or 16 for CAS. -/
inductive HostAtomic where
  | fetchAdd (size operand : Nat)
  | swap (size operand : Nat)
  | cas (size compare new : Nat)
  deriving DecidableEq, Repr

/-- The status of a PCI Express completion (07 R156, R157, R182). -/
inductive HostStatus where
  | ok | poisoned | unsupported | abort
  deriving DecidableEq, Repr

/-- What the scrubber finds in a word (07 R181). -/
inductive EccFinding where
  | clean | correctable | uncorrectable
  deriving DecidableEq, Repr

/-- The settings of a domain that firmware sets (03 R58, R60, 04 R83). -/
structure DomainSettings where
  partitioned : Bool
  gang : Option Nat
  gangModules : List Nat
  gangPeers : List Nat
  clusters : List (Nat × Nat)
  cacheShare : Nat
  walkShare : Nat
  interleavedRoots : List (Option Nat)
  bankRoots : List (Option Nat)
  hostRoot : Option Nat
  imasks : List Word
  ttbl : List Word
  service : Word
  saveArea : Word
  deriving DecidableEq, Repr

/-- What firmware sets up for the boot program of stage 3 (17 R376): the boot domain's settings, the DRAM bytes of the stage's sections and tables, the class table
`boot_classes`, and the addresses of the entry descriptor `root`, of `seal`, `sealed`, `result` and of the map words. A module
that has no boot program in its firmware boots with `program` false. -/
structure BootImage where
  program : Bool
  settings : DomainSettings
  sections : List (Nat × Byte)
  classes : List Word
  root : Word
  sealVa : Nat
  sealedVa : Nat
  resultVa : Nat
  mapVa : Nat
  deriving DecidableEq, Repr

/-- The instructions and steps of the part. -/
inductive Instr where
  | add (d s t : Reg)
  | sub (d s t : Reg)
  | mul (d s t : Reg)
  | mulh (d s t : Reg)
  | mulhn (d s t : Reg)
  | div (d s t : Reg)
  | divn (d s t : Reg)
  | rem (d s t : Reg)
  | remn (d s t : Reg)
  | and (d s t : Reg)
  | or (d s t : Reg)
  | xor (d s t : Reg)
  | andn (d s t : Reg)
  | shl (d s t : Reg)
  | shr (d s t : Reg)
  | shra (d s t : Reg)
  | rotl (d s t : Reg)
  | min (d s t : Reg)
  | max (d s t : Reg)
  | minn (d s t : Reg)
  | maxn (d s t : Reg)
  | lea2 (d s t : Reg)
  | lea4 (d s t : Reg)
  | lea8 (d s t : Reg)
  | addw (d s t : Reg)
  | mulw (d s t : Reg)
  | clz (d s : Reg)
  | ctz (d s : Reg)
  | popc (d s : Reg)
  | brev (d s : Reg)
  | bswap (d s : Reg)
  | absd (d s t : Reg)
  | addi (d s : Reg) (i : BitVec 12)
  | andi (d s : Reg) (i : BitVec 12)
  | ori (d s : Reg) (i : BitVec 12)
  | xori (d s : Reg) (i : BitVec 12)
  | shli (d s : Reg) (n : Fin 64)
  | shri (d s : Reg) (n : Fin 64)
  | shrai (d s : Reg) (n : Fin 64)
  | rotli (d s : Reg) (n : Fin 64)
  | movi (d : Reg) (i : BitVec 19)
  | movs (d : Reg) (i : BitVec 19)
  | bfx (d s : Reg) (p l : Fin 64)
  | bfxs (d s : Reg) (p l : Fin 64)
  | bfi (d s : Reg) (p l : Fin 64)
  | cmpeq (p : Pred) (s t : Reg)
  | cmpne (p : Pred) (s t : Reg)
  | cmplt (p : Pred) (s t : Reg)
  | cmple (p : Pred) (s t : Reg)
  | cmpltn (p : Pred) (s t : Reg)
  | cmplen (p : Pred) (s t : Reg)
  | tstnz (p : Pred) (s t : Reg)
  | tstz (p : Pred) (s t : Reg)
  | cmpeqi (p : Pred) (s : Reg) (i : BitVec 12)
  | cmpnei (p : Pred) (s : Reg) (i : BitVec 12)
  | cmplti (p : Pred) (s : Reg) (i : BitVec 12)
  | cmplei (p : Pred) (s : Reg) (i : BitVec 12)
  | cmpgti (p : Pred) (s : Reg) (i : BitVec 12)
  | cmpgei (p : Pred) (s : Reg) (i : BitVec 12)
  | cmpltni (p : Pred) (s : Reg) (i : BitVec 12)
  | cmpleni (p : Pred) (s : Reg) (i : BitVec 12)
  | cmpgtni (p : Pred) (s : Reg) (i : BitVec 12)
  | cmpgeni (p : Pred) (s : Reg) (i : BitVec 12)
  | pand (d s t : Pred)
  | por (d s t : Pred)
  | pxor (d s t : Pred)
  | pandn (d s t : Pred)
  | pnot (d s : Pred)
  | pmov (d s : Pred)
  | pall (d : Pred)
  | pnone (d : Pred)
  | sel (d s t : Reg) (f : Pred)
  | br (x : BitVec 26)
  | call (x : BitVec 26)
  | bp (p : Pred) (x : BitVec 22)
  | bnp (p : Pred) (x : BitVec 22)
  | bz (s : Reg) (x : BitVec 18)
  | bnz (s : Reg) (x : BitVec 18)
  | jr (s : Reg)
  | jrl (s : Reg)
  | ret
  | nop
  | yield
  | brk
  | fmtp (a b c : Fmt)
  | fdset (f : Fmt) (s : Reg)
  | fdget (d : Reg) (f : Fmt)
  | ld (d s : Reg) (o : BitVec 9) (z : Size)
  | st (d s : Reg) (o : BitVec 9) (z : Size)
  | ldf (d s : Reg) (o : BitVec 9)
  | ldt (d s : Reg) (o : BitVec 9)
  | stp (d s : Reg) (o : BitVec 9)
  | stf (d s : Reg) (o : BitVec 9)
  | sete (s : Reg)
  | setf (s : Reg)
  | probe (d s : Reg)
  | waitf (s : Reg)
  | waite (s : Reg)
  | fence (c : Scope)
  | jsync
  | rbegin (d : Reg)
  | rcommit
  | pref (s : Reg)
  | migr (s : Reg)
  | livem (d s : Reg) (m : Bool)
  | touch (s : Reg) (w : Bool)
  | rabort (s : Reg)
  | aadd (w : Width) (d s t : Reg)
  | aand (w : Width) (d s t : Reg)
  | aor (w : Width) (d s t : Reg)
  | axor (w : Width) (d s t : Reg)
  | amin (w : Width) (d s t : Reg)
  | amax (w : Width) (d s t : Reg)
  | aminn (w : Width) (d s t : Reg)
  | amaxn (w : Width) (d s t : Reg)
  | axchg (w : Width) (d s t : Reg)
  | adecp (w : Width) (d s : Reg)
  | aincw (w : Width) (d s t : Reg)
  | afadd (w : Width) (d s t : Reg)
  | afmin (w : Width) (d s t : Reg)
  | afmax (w : Width) (d s t : Reg)
  | aaddP (w : Width) (s t : Reg)
  | aandP (w : Width) (s t : Reg)
  | aorP (w : Width) (s t : Reg)
  | axorP (w : Width) (s t : Reg)
  | aminP (w : Width) (s t : Reg)
  | amaxP (w : Width) (s t : Reg)
  | aminnP (w : Width) (s t : Reg)
  | amaxnP (w : Width) (s t : Reg)
  | axchgP (w : Width) (s t : Reg)
  | adecpP (w : Width) (s : Reg)
  | aincwP (w : Width) (s t : Reg)
  | afaddP (w : Width) (s t : Reg)
  | afminP (w : Width) (s t : Reg)
  | afmaxP (w : Width) (s t : Reg)
  | acas64 (d s t : Reg)
  | acas32 (d s t : Reg)
  | acas128 (d s t : Reg)
  | lstat (d s : Reg)
  | lresume (s : Reg)
  | lcancel (s : Reg)
  | waitv (d s t : Reg)
  | wake1 (d s : Reg)
  | wakea (d s : Reg)
  | waken (d s t : Reg)
  | spawn (s t : Reg)
  | spawnf (d s t : Reg)
  | tend (s : Reg)
  | send (n : Fin 9) (s t : Reg)
  | tself (d : Reg)
  | srd (d : Reg) (r : BitVec 12)
  | swr (s : Reg) (r : BitVec 12)
  | vadd (d s t : Grp) (m : Pred) (y : Ty)
  | vsub (d s t : Grp) (m : Pred) (y : Ty)
  | vmul (d s t : Grp) (m : Pred) (y : Ty)
  | vmulh (d s t : Grp) (m : Pred) (y : Ty)
  | vmin (d s t : Grp) (m : Pred) (y : Ty)
  | vmax (d s t : Grp) (m : Pred) (y : Ty)
  | vand (d s t : Grp) (m : Pred) (y : Ty)
  | vor (d s t : Grp) (m : Pred) (y : Ty)
  | vxor (d s t : Grp) (m : Pred) (y : Ty)
  | vshl (d s t : Grp) (m : Pred) (y : Ty)
  | vshr (d s t : Grp) (m : Pred) (y : Ty)
  | vshra (d s t : Grp) (m : Pred) (y : Ty)
  | vabs (d s : Grp) (m : Pred) (y : Ty)
  | vneg (d s : Grp) (m : Pred) (y : Ty)
  | vsadd (d s t : Grp) (m : Pred) (y : Ty)
  | vssub (d s t : Grp) (m : Pred) (y : Ty)
  | vpopc (d s : Grp) (m : Pred) (y : Ty)
  | vclz (d s : Grp) (m : Pred) (y : Ty)
  | vmadd (d s t : Grp) (m : Pred) (y : Ty)
  | vsel (d s t : Grp) (m : Pred) (y : Ty)
  | vfadd (d s t : Grp) (m : Pred) (y : Ty)
  | vfsub (d s t : Grp) (m : Pred) (y : Ty)
  | vfmul (d s t : Grp) (m : Pred) (y : Ty)
  | vfma (d s t : Grp) (m : Pred) (y : Ty)
  | vfdiv (d s t : Grp) (m : Pred) (y : Ty)
  | vfsqrt (d s : Grp) (m : Pred) (y : Ty)
  | vfmin (d s t : Grp) (m : Pred) (y : Ty)
  | vfmax (d s t : Grp) (m : Pred) (y : Ty)
  | vfabs (d s : Grp) (m : Pred) (y : Ty)
  | vfneg (d s : Grp) (m : Pred) (y : Ty)
  | vrcp (d s : Grp) (m : Pred) (y : Ty)
  | vrsq (d s : Grp) (m : Pred) (y : Ty)
  | vexp2 (d s : Grp) (m : Pred) (y : Ty)
  | vlog2 (d s : Grp) (m : Pred) (y : Ty)
  | vfrnd (d s : Grp) (m : Pred) (y : Ty)
  | vceq (p : Pred) (s t : Grp) (m : Pred) (y : Ty)
  | vcne (p : Pred) (s t : Grp) (m : Pred) (y : Ty)
  | vclt (p : Pred) (s t : Grp) (m : Pred) (y : Ty)
  | vcle (p : Pred) (s t : Grp) (m : Pred) (y : Ty)
  | vcltn (p : Pred) (s t : Grp) (m : Pred) (y : Ty)
  | vclen (p : Pred) (s t : Grp) (m : Pred) (y : Ty)
  | vfceq (p : Pred) (s t : Grp) (m : Pred) (y : Ty)
  | vfclt (p : Pred) (s t : Grp) (m : Pred) (y : Ty)
  | vfcle (p : Pred) (s t : Grp) (m : Pred) (y : Ty)
  | vfcun (p : Pred) (s t : Grp) (m : Pred) (y : Ty)
  | vld (d : Grp) (s : Reg) (m : Pred)
  | vst (d : Grp) (s : Reg) (m : Pred)
  | vlds (d : Grp) (s t : Reg) (m : Pred)
  | vsts (d : Grp) (s t : Reg) (m : Pred)
  | vgath (d : Grp) (s : Reg) (v : Grp) (z : Bool) (m : Pred)
  | vscat (d : Grp) (s : Reg) (v : Grp) (z : Bool) (m : Pred)
  | vldf (d : Grp) (s : Reg) (m : Pred)
  | vstp (d : Grp) (s : Reg) (m : Pred)
  | vldb (d : Grp) (s : Reg) (m : Pred)
  | vperm (d s t : Grp) (m : Pred) (y : Ty)
  | vredadd (d s : Grp) (m : Pred) (y : Ty)
  | vredmin (d s : Grp) (m : Pred) (y : Ty)
  | vredmax (d s : Grp) (m : Pred) (y : Ty)
  | vfredadd (d s : Grp) (m : Pred) (y : Ty)
  | vscan (d s : Grp) (m : Pred) (y : Ty)
  | vcompr (d s : Grp) (m : Pred) (y : Ty)
  | vexpd (d s : Grp) (m : Pred) (y : Ty)
  | vslide (d s t : Grp) (m : Pred) (y : Ty)
  | vbcast (d : Grp) (s : Reg) (w : BWidth) (m : Pred)
  | vins (d : Grp) (s t : Reg)
  | vext (d : Grp) (s t : Reg)
  | vmovp (s : Reg) (r : Bool) (p : Pred)
  | vcvt (d s : Grp) (x : Ty) (m : Pred) (y : Ty)
  | vexpn (d s t : Grp) (m : Pred) (y : Ty)
  | vqnt (d s t : Grp) (m : Pred) (y : Ty)
  | vpack (d s t : Grp) (m : Pred) (y : Ty)
  | vunpk (d s : Grp) (h : Fin 2) (m : Pred) (y : Ty)
  | visect (d : Grp) (s t : Reg)
  | vunion (d : Grp) (s t : Reg)
  | vdiff (d : Grp) (s t : Reg)
  | fadd (w : Width) (d s t : Reg)
  | fsub (w : Width) (d s t : Reg)
  | fmul (w : Width) (d s t : Reg)
  | fdiv (w : Width) (d s t : Reg)
  | fsqrt (w : Width) (d s : Reg)
  | fmin (w : Width) (d s t : Reg)
  | fmax (w : Width) (d s t : Reg)
  | fabs (w : Width) (d s : Reg)
  | fneg (w : Width) (d s : Reg)
  | fma (w : Width) (d s t : Reg)
  | fcvti (w : Width) (d s : Reg)
  | fcvtf (w : Width) (d s : Reg)
  | fceq32 (p : Pred) (s t : Reg)
  | fclt32 (p : Pred) (s t : Reg)
  | fcle32 (p : Pred) (s t : Reg)
  | fcun32 (p : Pred) (s t : Reg)
  | fceq64 (p : Pred) (s t : Reg)
  | fclt64 (p : Pred) (s t : Reg)
  | fcle64 (p : Pred) (s t : Reg)
  | fcun64 (p : Pred) (s t : Reg)
  | f32to64 (d s : Reg)
  | f64to32 (d s : Reg)
  | f32toh16 (d s : Reg)
  | h16tof32 (d s : Reg)
  | f32tobf (d s : Reg)
  | bftof32 (d s : Reg)
  | fclass32 (d s : Reg)
  | fclass64 (d s : Reg)
  | tret
  | evict (d s : Reg)
  | rstrResume (d s : Reg)
  | rstrHandle (d s : Reg)
  | rstrKill (d s : Reg)
  | halt
  | idle
  | invpg (s : Reg)
  | pmarkDead (s : Reg)
  | pmarkLive (s : Reg)
  | shutOff (s : Reg)
  | shutOn (s : Reg)
  | jdrop (d s : Reg)
  | cfgh (d s t : Reg)
  | domsw
  | fqpop (d : Reg)
  | trap (n : Fin 16)
  | mzero (d s : Reg)
  | mdrain (d s t : Reg)
  | mwait (d s : Reg)
  | mpoll (d s : Reg)
  | mring (d s : Reg)
  | mstat (d : Reg)
  | xjoin (d s : Reg)
  | xleave (x : Bool)
  | xstat (d s : Reg)
  | xwait (d s : Reg)
  | mma (d s t q : Reg) (acc : Bool)
  | mmag (d s q : Reg) (acc : Bool)
  | mmat (d s t q : Reg) (acc : Bool)
  | xmmaChain (d s t q : Reg) (acc : Bool)
  | xmmaRing (d s t q : Reg) (acc : Bool)
  | lcopyCopy (d s t q : Reg) (quiet : Bool)
  | lcopyFill (d s t q : Reg) (quiet : Bool)
  | lcopyReduce (d s t q : Reg) (quiet : Bool)
  | lcopyGather (d s t q : Reg) (quiet : Bool)
  | qtile (d s t q : Reg) (clamp brole : Bool)
  | asyncTrapEntry (cid slot : Nat)
  | coreCycle (cid : Nat)
  | putWindowWrite (m q off : Nat) (data : List Byte) (poisoned : Bool)
  | deviceMemoryRead (m off len : Nat)
  | deviceMemoryWrite (m off : Nat) (data : List Byte) (poisoned : Bool)
  | completerAtomicop (m off : Nat) (op : HostAtomic)
  | qstatWrite (m q : Nat) (v : Word)
  | registerWrite (m off : Nat) (v : Word)
  | queueSet (m : Nat)
  | domainBind (m : Nat) (buffer : Unit)
  | domainUnbind (m : Nat)
  | gangAbort (m : Nat)
  | svcControl (m : Nat)
  | svcAnswer (m : Nat)
  | svcPop (m : Nat)
  | logRead (m : Nat)
  | powerCap (m : Nat)
  | attest (m : Nat)
  | identity (m : Nat)
  | fwStage (m : Nat)
  | fwCommit (m : Nat) (image : Unit) (fuses : Unit)
  | lifecycle (m : Nat) (buffer : Unit)
  | mailboxCommandDone (m : Nat)
  | d3hotEntry (m : Nat)
  | d3hotExit (m : Nat)
  | functionLevelReset (m : Nat)
  | hotReset (m : Nat)
  | fundamentalReset (m : Nat)
  | moduleBoot (m : Nat) (b : BootImage)
  | bootSeal (m : Nat)
  | bootResult (m : Nat)
  | hostCompletion (m n : Nat) (c : HostStatus) (writes : List (Nat × Byte))
  | hostCompletionTimeout (m n : Nat) (performed : Bool)
  | launchSlotTake (m q : Nat)
  | launchRefusalPut (m q : Nat)
  | launchQueueFault (m q : Nat)
  | dispatch (m : Nat)
  | launchComplete (m l : Nat)
  | spawnQueuePlace (cl : Nat)
  | schedulerEvict (cl : Nat)
  | contextRestore (cl : Nat)
  | messageArrival (n : Nat)
  | migrationLanding (n : Nat)
  | migrationAck (n : Nat)
  | serviceThreadStart (m slot : Nat)
  | homeAccessRequest (n : Nat) (hint : Nat)
  | memoryReply (n : Nat)
  | journalEntrySettle (n : Nat)
  | refreshRetryResend (cid tag : Nat)
  | noListResend (cid tag : Nat)
  | scRetryResend (cid tag : Nat)
  | shutterRetryResend (cid tag : Nat)
  | wlimExpiry (cid slot : Nat)
  | waitCancel (n : Nat)
  | translationWalkDone (n : Nat)
  | dramRefresh (m stack ch : Nat) (bank : Option Nat)
  | refreshRateChange (m stack : Nat) (hot : Bool)
  | scrubWord (m stack ch off : Nat) (e : EccFinding)
  | linkPacketReceive (n : Nat)
  | linkPortClose (m port : Nat)
  | gangTimerExpiry (m g : Nat)
  | gangPrepare (n : Nat)
  | gangPreparedReply (n : Nat)
  | gangCommit (m g : Nat)
  | gangSwitchAbort (n : Nat)
  | gangDone (n : Nat)
  | flaskJoinRequest (n : Nat)
  | flaskJoinReply (n : Nat)
  | flaskWithdraw (n : Nat)
  | flaskPourAccept (cl : Nat)
  | flaskReadyReceipt (n : Nat)
  | flaskFaultReceipt (n : Nat)
  | flaskGoReceipt (n : Nat)
  | flaskMismatchReceipt (n : Nat)
  | flaskAbortReceipt (n : Nat)
  | flaskPartialReceipt (n : Nat)
  | flaskPanelReceipt (n : Nat)
  | flaskFinishedReceipt (n : Nat)
  | flaskDecide (cl : Nat)
  | flaskCommitReceipt (n : Nat)
  | flaskLinkLoss (n : Nat)
  | flaskLeaveReceipt (n : Nat)
  | flaskOutcomeQuery (n : Nat)
  | ladleChunkIssue (cl e : Nat)
  | ladleChunkComplete (cl e k : Nat)
  | ladleDataFault (cl e : Nat)
  | ladleCompletionPut (cl e : Nat)
  | ladleCtlRequest (n : Nat)
  | matrixAccept (cl : Nat)
  | matrixJobStart (cl e : Nat)
  | ringSlotConsume (cl r : Nat)
  | matrixJobCommit (cl e : Nat)
  | matrixJobFault (cl e : Nat)
  | mdrainMessageSend (cl e : Nat)
  | allAsleepRise (m slot : Nat)
  | asleepReceipt (n : Nat)
  | allAsleepQuery (n : Nat)
  | allAsleepReply (n : Nat)
  | allAsleepRaise (n : Nat)
  | junctionOver105 (m : Nat)
  | junctionOver115 (m : Nat)
  | powerCapClockStep (m : Nat) (up : Bool)
  | linkPortDegrade (m port lanes rows : Nat)
  | qtileQuantiserDone (cid slot : Nat)
  | configurationWrite (m : Nat) (control2 : BitVec 4 × Bool) (control : BitVec 3 × BitVec 3)
  deriving DecidableEq, Repr

end Sys2Proof
end

