-- ==== Sys2Proof/WellFormed.lean ====
section
/-!
DEFINITION. Which terms of `Instr` are instructions with a word: the checks of 05 R111 that an encoding makes (a type the
instruction accepts, an even register pair, an ordered LIVEM range, the T field of the stream instructions, a named
special register). A step of the part has no word.
-/
namespace Sys2Proof

/-- i32, n32 and i16: the types of the integer lanes (08 R189). -/
def Ty.isInt (y : Ty) : Bool := y == .i32 || y == .n32 || y == .i16
/-- The float types with a fixed format (08 R190). -/
def Ty.isWideFloat (y : Ty) : Bool := y == .f32 || y == .f64 || y == .h16 || y == .bf16
/-- The float types, narrow lanes included (08 R190). -/
def Ty.isFloat (y : Ty) : Bool := y.isWideFloat || y == .x8
/-- The types of VPACK and VUNPK (08 R203). -/
def Ty.isPacked (y : Ty) : Bool := y == .i16 || y == .h16 || y == .bf16 || y == .x8

/-- The special-register numbers that name a register (06 R137). -/
def specialNamed (n : Nat) : Bool :=
  n ≤ 0x00D || (0x010 ≤ n && n ≤ 0x018) || (0x100 ≤ n && n ≤ 0x11F) || (0x140 ≤ n && n ≤ 0x14F)

/-- The term is an instruction that some word encodes (05 R111). -/
def Instr.wf : Instr → Bool
  | .add _ _ _ | .sub _ _ _ | .mul _ _ _ | .mulh _ _ _ | .mulhn _ _ _ | .div _ _ _ | .divn _ _ _ | .rem _ _ _ |
  .remn _ _ _ | .and _ _ _ | .or _ _ _ | .xor _ _ _ | .andn _ _ _ | .shl _ _ _ | .shr _ _ _ | .shra _ _ _ |
  .rotl _ _ _ | .min _ _ _ | .max _ _ _ | .minn _ _ _ | .maxn _ _ _ | .lea2 _ _ _ | .lea4 _ _ _ | .lea8 _ _ _ |
  .addw _ _ _ | .mulw _ _ _ | .clz _ _ | .ctz _ _ | .popc _ _ | .brev _ _ | .bswap _ _ | .absd _ _ _ |
  .addi _ _ _ | .andi _ _ _ | .ori _ _ _ | .xori _ _ _ | .shli _ _ _ | .shri _ _ _ | .shrai _ _ _ | .rotli _ _ _ |
  .movi _ _ | .movs _ _ | .bfx _ _ _ _ | .bfxs _ _ _ _ | .bfi _ _ _ _ | .cmpeq _ _ _ | .cmpne _ _ _ |
  .cmplt _ _ _ | .cmple _ _ _ | .cmpltn _ _ _ | .cmplen _ _ _ | .tstnz _ _ _ | .tstz _ _ _ | .cmpeqi _ _ _ |
  .cmpnei _ _ _ | .cmplti _ _ _ | .cmplei _ _ _ | .cmpgti _ _ _ | .cmpgei _ _ _ | .cmpltni _ _ _ |
  .cmpleni _ _ _ | .cmpgtni _ _ _ | .cmpgeni _ _ _ | .pand _ _ _ | .por _ _ _ | .pxor _ _ _ | .pandn _ _ _ |
  .pnot _ _ | .pmov _ _ | .pall _ | .pnone _ | .sel _ _ _ _ | .br _ | .call _ | .bp _ _ | .bnp _ _ | .bz _ _ |
  .bnz _ _ | .jr _ | .jrl _ | .ret | .nop | .yield | .brk | .fmtp _ _ _ | .fdset _ _ | .fdget _ _ | .ld _ _ _ _ |
  .st _ _ _ _ | .ldf _ _ _ | .ldt _ _ _ | .stp _ _ _ | .stf _ _ _ | .sete _ | .setf _ | .probe _ _ | .waitf _ |
  .waite _ | .fence _ | .jsync | .rbegin _ | .rcommit | .pref _ | .migr _ | .touch _ _ | .rabort _ |
  .aadd _ _ _ _ | .aand _ _ _ _ | .aor _ _ _ _ | .axor _ _ _ _ | .amin _ _ _ _ | .amax _ _ _ _ | .aminn _ _ _ _ |
  .amaxn _ _ _ _ | .axchg _ _ _ _ | .adecp _ _ _ | .aincw _ _ _ _ | .afadd _ _ _ _ | .afmin _ _ _ _ |
  .afmax _ _ _ _ | .aaddP _ _ _ | .aandP _ _ _ | .aorP _ _ _ | .axorP _ _ _ | .aminP _ _ _ | .amaxP _ _ _ |
  .aminnP _ _ _ | .amaxnP _ _ _ | .axchgP _ _ _ | .adecpP _ _ | .aincwP _ _ _ | .afaddP _ _ _ | .afminP _ _ _ |
  .afmaxP _ _ _ | .acas64 _ _ _ | .acas32 _ _ _ | .lstat _ _ | .lresume _ | .lcancel _ | .waitv _ _ _ |
  .wake1 _ _ | .wakea _ _ | .waken _ _ _ | .spawn _ _ | .spawnf _ _ _ | .tend _ | .tself _ |
  .vand _ _ _ _ _ | .vor _ _ _ _ _ | .vxor _ _ _ _ _ | .vsel _ _ _ _ _ | .vld _ _ _ | .vst _ _ _ | .vlds _ _ _ _ |
  .vsts _ _ _ _ | .vgath _ _ _ _ _ | .vscat _ _ _ _ _ | .vldf _ _ _ | .vstp _ _ _ | .vldb _ _ _ |
  .vperm _ _ _ _ _ | .vcompr _ _ _ _ | .vexpd _ _ _ _ | .vslide _ _ _ _ _ | .vbcast _ _ _ _ | .vins _ _ _ |
  .vext _ _ _ | .vmovp _ _ _ | .vcvt _ _ _ _ _ | .fadd _ _ _ _ | .fsub _ _ _ _ | .fmul _ _ _ _ | .fdiv _ _ _ _ |
  .fsqrt _ _ _ | .fmin _ _ _ _ | .fmax _ _ _ _ | .fabs _ _ _ | .fneg _ _ _ | .fma _ _ _ _ | .fcvti _ _ _ |
  .fcvtf _ _ _ | .fceq32 _ _ _ | .fclt32 _ _ _ | .fcle32 _ _ _ | .fcun32 _ _ _ | .fceq64 _ _ _ | .fclt64 _ _ _ |
  .fcle64 _ _ _ | .fcun64 _ _ _ | .f32to64 _ _ | .f64to32 _ _ | .f32toh16 _ _ | .h16tof32 _ _ | .f32tobf _ _ |
  .bftof32 _ _ | .fclass32 _ _ | .fclass64 _ _ | .tret | .evict _ _ | .rstrResume _ _ | .rstrHandle _ _ |
  .rstrKill _ _ | .halt | .idle | .invpg _ | .pmarkDead _ | .pmarkLive _ | .shutOff _ | .shutOn _ | .jdrop _ _ |
  .cfgh _ _ _ | .domsw | .fqpop _ | .trap _ | .mzero _ _ | .mdrain _ _ _ | .mwait _ _ | .mpoll _ _ | .mring _ _ |
  .mstat _ | .xjoin _ _ | .xleave _ | .xstat _ _ | .xwait _ _ | .mma _ _ _ _ _ | .mmag _ _ _ _ | .mmat _ _ _ _ _ |
  .xmmaChain _ _ _ _ _ | .xmmaRing _ _ _ _ _ | .lcopyCopy _ _ _ _ _ | .lcopyFill _ _ _ _ _ |
  .lcopyReduce _ _ _ _ _ | .lcopyGather _ _ _ _ _ | .qtile _ _ _ _ _ _ => true
  | .send n _ t => n.val ≠ 0 ∨ t.val = 0
  | .livem d s _ => d.val ≤ s.val
  | .acas128 d s t => d.val % 2 = 0 ∧ s.val % 2 = 0 ∧ t.val % 2 = 0
  | .srd _ r | .swr _ r => specialNamed r.toNat
  | .vadd _ _ _ _ y | .vsub _ _ _ _ y | .vmul _ _ _ _ y | .vmulh _ _ _ _ y | .vmin _ _ _ _ y | .vmax _ _ _ _ y |
  .vshl _ _ _ _ y | .vshr _ _ _ _ y | .vshra _ _ _ _ y | .vabs _ _ _ y | .vneg _ _ _ y | .vsadd _ _ _ _ y |
  .vssub _ _ _ _ y | .vpopc _ _ _ y | .vclz _ _ _ y | .vmadd _ _ _ _ y | .vceq _ _ _ _ y | .vcne _ _ _ _ y |
  .vclt _ _ _ _ y | .vcle _ _ _ _ y | .vcltn _ _ _ _ y | .vclen _ _ _ _ y | .vredadd _ _ _ y | .vredmin _ _ _ y |
  .vredmax _ _ _ y => y.isInt
  | .vfadd _ _ _ _ y | .vfsub _ _ _ _ y | .vfmul _ _ _ _ y | .vfma _ _ _ _ y | .vfdiv _ _ _ _ y |
  .vfsqrt _ _ _ y | .vfmin _ _ _ _ y | .vfmax _ _ _ _ y | .vfabs _ _ _ y | .vfneg _ _ _ y | .vfceq _ _ _ _ y |
  .vfclt _ _ _ _ y | .vfcle _ _ _ _ y | .vfcun _ _ _ _ y => y.isFloat
  | .vrcp _ _ _ y | .vrsq _ _ _ y | .vexp2 _ _ _ y | .vlog2 _ _ _ y | .vexpn _ _ _ _ y => y == .f32
  | .vfrnd _ _ _ y | .vfredadd _ _ _ y => y.isWideFloat
  | .vscan _ _ _ y => y.isInt || y.isWideFloat
  | .vqnt _ _ _ _ y => y == .x8
  | .vpack _ _ _ _ y | .vunpk _ _ _ _ y => y.isPacked
  | .visect _ s t | .vunion _ s t | .vdiff _ s t => t.val < s.val ∨ s.val + 4 < t.val
  | .asyncTrapEntry _ _ | .coreCycle _ | .putWindowWrite _ _ _ _ _ | .deviceMemoryRead _ _ _ |
  .deviceMemoryWrite _ _ _ _ | .completerAtomicop _ _ _ | .qstatWrite _ _ _ | .registerWrite _ _ _ | .queueSet _ |
  .domainBind _ _ | .domainUnbind _ | .gangAbort _ | .svcControl _ | .svcAnswer _ | .svcPop _ | .logRead _ |
  .powerCap _ | .attest _ | .identity _ | .fwStage _ | .fwCommit _ _ _ | .lifecycle _ _ | .mailboxCommandDone _ |
  .d3hotEntry _ | .d3hotExit _ | .functionLevelReset _ | .hotReset _ | .fundamentalReset _ | .moduleBoot _ _ |
  .bootSeal _ | .bootResult _ | .hostCompletion _ _ _ _ | .hostCompletionTimeout _ _ _ | .launchSlotTake _ _ |
  .launchRefusalPut _ _ | .launchQueueFault _ _ | .dispatch _ | .launchComplete _ _ | .spawnQueuePlace _ |
  .schedulerEvict _ | .contextRestore _ | .messageArrival _ | .migrationLanding _ | .migrationAck _ |
  .serviceThreadStart _ _ | .homeAccessRequest _ _ | .memoryReply _ | .journalEntrySettle _ |
  .refreshRetryResend _ _ | .noListResend _ _ | .scRetryResend _ _ | .shutterRetryResend _ _ | .wlimExpiry _ _ |
  .waitCancel _ | .translationWalkDone _ | .dramRefresh _ _ _ _ | .refreshRateChange _ _ _ |
  .scrubWord _ _ _ _ _ | .linkPacketReceive _ | .linkPortClose _ _ | .gangTimerExpiry _ _ | .gangPrepare _ |
  .gangPreparedReply _ | .gangCommit _ _ | .gangSwitchAbort _ | .gangDone _ | .flaskJoinRequest _ |
  .flaskJoinReply _ | .flaskWithdraw _ | .flaskPourAccept _ | .flaskReadyReceipt _ | .flaskFaultReceipt _ |
  .flaskGoReceipt _ | .flaskMismatchReceipt _ | .flaskAbortReceipt _ | .flaskPartialReceipt _ |
  .flaskPanelReceipt _ | .flaskFinishedReceipt _ | .flaskDecide _ | .flaskCommitReceipt _ | .flaskLinkLoss _ |
  .flaskLeaveReceipt _ | .flaskOutcomeQuery _ | .ladleChunkIssue _ _ | .ladleChunkComplete _ _ _ |
  .ladleDataFault _ _ | .ladleCompletionPut _ _ | .ladleCtlRequest _ | .matrixAccept _ | .matrixJobStart _ _ |
  .ringSlotConsume _ _ | .matrixJobCommit _ _ | .matrixJobFault _ _ | .mdrainMessageSend _ _ |
  .allAsleepRise _ _ | .asleepReceipt _ | .allAsleepQuery _ | .allAsleepReply _ | .allAsleepRaise _ |
  .junctionOver105 _ | .junctionOver115 _ | .powerCapClockStep _ _ | .linkPortDegrade _ _ _ _ |
  .qtileQuantiserDone _ _ | .configurationWrite _ _ _ => false

end Sys2Proof
end

