-- ==== Sys2Proof/Decode.lean ====
section
/-!
DEFINITION. The decoder and the encoder of instruction words, written from the opcode map of 05 R105 to R117. An
instruction is one 32-bit word, or two for the majors 0x38 to 0x3F (R101). A word that selects no instruction or no form
is illegal; one that selects an instruction and sets a field it does not use is reserved; illegal is found first (R111, R112).
The definitions that build an instruction beyond the 245th constructor are noncomputable only because Lean's compiler keeps
a constructor's number in a byte; the kernel evaluates them like the others.
-/
namespace Sys2Proof

/-- The fate of a word: an instruction, ILLEGAL_INSTRUCTION or RESERVED_FIELD (05 R111). -/
inductive Decoded where
  | ok (i : Instr)
  | illegal
  | reserved
  deriving DecidableEq, Repr

/-- The `len` bits of `w` from bit `lo` up. -/
def field (w lo len : Nat) : Nat := w / 2 ^ lo % 2 ^ len

/-- A register field (05 R106). -/
def reg (n : Nat) : Reg := Fin.ofNat 128 n
/-- A predicate field's number (05 R106). -/
def prd (n : Nat) : Pred := Fin.ofNat 8 n
/-- A vector group or format register field (05 R106). -/
def grp (n : Nat) : Grp := Fin.ofNat 16 n
/-- A six-bit amount, position or length field (06 R145, R146). -/
def six (n : Nat) : Fin 64 := Fin.ofNat 64 n

/-- SZ (05 R107): 111 is no size. -/
def sizeOf? : Nat → Option Size
  | 0 => some .n8 | 1 => some .n16 | 2 => some .n32 | 3 => some .n64
  | 4 => some .i8 | 5 => some .i16 | 6 => some .i32 | _ => none
/-- The code of SZ (05 R107). -/
def Size.code : Size → Nat
  | .n8 => 0 | .n16 => 1 | .n32 => 2 | .n64 => 3 | .i8 => 4 | .i16 => 5 | .i32 => 6
/-- TY (05 R108). -/
def tyOf (n : Nat) : Ty :=
  match n % 8 with
  | 0 => .i32 | 1 => .n32 | 2 => .f32 | 3 => .h16 | 4 => .bf16 | 5 => .i16 | 6 => .x8 | _ => .f64
/-- The code of TY (05 R108). -/
def Ty.code : Ty → Nat
  | .i32 => 0 | .n32 => 1 | .f32 => 2 | .h16 => 3 | .bf16 => 4 | .i16 => 5 | .x8 => 6 | .f64 => 7
/-- The scope of FENCE (05 R109): 110 and 111 are no scope. -/
def scopeOf? : Nat → Option Scope
  | 0 => some .core | 1 => some .cluster | 2 => some .die | 3 => some .module | 4 => some .fabric | 5 => some .system
  | _ => none
/-- The code of a scope (05 R109). -/
def Scope.code : Scope → Nat
  | .core => 0 | .cluster => 1 | .die => 2 | .module => 3 | .fabric => 4 | .system => 5
/-- The width code of VBCAST (08 R199). -/
def bwidthOf? : Nat → Option BWidth
  | 0 => some .w32 | 1 => some .w64 | 2 => some .w16 | 3 => some .w8 | _ => none
/-- The code of a VBCAST width (08 R199). -/
def BWidth.code : BWidth → Nat
  | .w32 => 0 | .w64 => 1 | .w16 => 2 | .w8 => 3

/-- An instruction that passed its selectors: illegal if its operands break R111, else reserved if `rsv`, the bits its
description does not use, is not zero. -/
def finish (rsv : Nat) (i : Instr) : Decoded :=
  if i.wf then (if rsv = 0 then .ok i else .reserved) else .illegal

/-- The fields of format A (05 R105). -/
structure FieldsA where
  d : Nat
  s : Nat
  t : Nat
  fn : Nat
  deriving DecidableEq, Repr

/-- Format A read from a word (05 R105). -/
def fieldsA (w : Nat) : FieldsA := ⟨field w 19 7, field w 12 7, field w 5 7, field w 0 5⟩

/-- Which fields of format A a form uses (05 R114 to R117). -/
inductive FormA where
  | dst (f : Reg → Reg → Reg → Instr)
  | ds (f : Reg → Reg → Instr)
  | st (f : Reg → Reg → Instr)
  | s (f : Reg → Instr)
  | d (f : Reg → Instr)
  | bare (i : Instr)
  | pst (f : Pred → Reg → Reg → Instr)
  | ppp (f : Pred → Pred → Pred → Instr)
  | pp (f : Pred → Pred → Instr)
  | p (f : Pred → Instr)
  | fs (f : Fmt → Reg → Instr)
  | df (f : Reg → Fmt → Instr)
  | dsBit (f : Reg → Reg → Bool → Instr)
  | sBit (f : Reg → Bool → Instr)
  | bit (f : Bool → Instr)
  | bad

/-- A form of format A with its operands (05 R106, R111). -/
def FormA.read (a : FieldsA) : FormA → Decoded
  | .dst f => finish 0 (f (reg a.d) (reg a.s) (reg a.t))
  | .ds f => finish a.t (f (reg a.d) (reg a.s))
  | .st f => finish a.d (f (reg a.s) (reg a.t))
  | .s f => finish (a.d + a.t) (f (reg a.s))
  | .d f => finish (a.s + a.t) (f (reg a.d))
  | .bare i => finish (a.d + a.s + a.t) i
  | .pst f => finish (a.d % 16) (f (prd (a.d / 16)) (reg a.s) (reg a.t))
  | .ppp f => finish (a.d % 16 + a.s % 16 + a.t % 16) (f (prd (a.d / 16)) (prd (a.s / 16)) (prd (a.t / 16)))
  | .pp f => finish (a.d % 16 + a.s % 16 + a.t) (f (prd (a.d / 16)) (prd (a.s / 16)))
  | .p f => finish (a.d % 16 + a.s + a.t) (f (prd (a.d / 16)))
  | .fs f => finish (a.d % 8 + a.t) (f (grp (a.d / 8)) (reg a.s))
  | .df f => finish (a.s % 8 + a.t) (f (reg a.d) (grp (a.s / 8)))
  | .dsBit f => finish (a.t / 2) (f (reg a.d) (reg a.s) (a.t % 2 == 1))
  | .sBit f => finish (a.d + a.t / 2) (f (reg a.s) (a.t % 2 == 1))
  | .bit f => finish (a.d + a.s + a.t / 2) (f (a.t % 2 == 1))
  | .bad => .illegal

/-- The form that FN selects in a table that counts from 0 (05, the opcode map). -/
def pick (l : List FormA) (w : Nat) : Decoded :=
  (l[(fieldsA w).fn]?.getD .bad).read (fieldsA w)

/-- Major 0x01 (05 R114). -/
def formsInt : List FormA :=
  [.dst .add, .dst .sub, .dst .mul, .dst .mulh, .dst .mulhn, .dst .div, .dst .divn, .dst .rem, .dst .remn, .dst .and,
   .dst .or, .dst .xor, .dst .andn, .dst .shl, .dst .shr, .dst .shra, .dst .rotl, .dst .min, .dst .max, .dst .minn,
   .dst .maxn, .dst .lea2, .dst .lea4, .dst .lea8, .dst .addw, .dst .mulw, .ds .clz, .ds .ctz, .ds .popc, .ds .brev,
   .ds .bswap, .dst .absd]
/-- Major 0x0C (05 R114). -/
def formsCmp : List FormA :=
  [.pst .cmpeq, .pst .cmpne, .pst .cmplt, .pst .cmple, .pst .cmpltn, .pst .cmplen, .pst .tstnz, .pst .tstz]
/-- Major 0x0E (05 R114). -/
def formsPred : List FormA :=
  [.ppp .pand, .ppp .por, .ppp .pxor, .ppp .pandn, .pp .pnot, .pp .pmov, .p .pall, .p .pnone]
/-- Major 0x14 (05 R114). -/
def formsJump : List FormA := [.s .jr, .s .jrl, .bare .ret]
/-- Major 0x15 (05 R114). -/
def formsCtl : List FormA := [.bare .nop, .bare .yield, .bare .brk]
/-- Major 0x17 (05 R114). -/
def formsFdm : List FormA := [.fs .fdset, .df .fdget]
/-- Major 0x1E (05 R115). -/
def formsPres : List FormA := [.s .sete, .s .setf, .ds .probe, .s .waitf, .s .waite]
/-- Major 0x1F from FN 1 up (05 R115); FENCE, FN 0, is read by `decFence`. -/
def formsMsync : List FormA :=
  [.bad, .bare .jsync, .d .rbegin, .bare .rcommit, .s .pref, .s .migr, .dsBit .livem, .sBit .touch, .s .rabort]
/-- Majors 0x20 and 0x21, FN[3:0] with return (05 R115). -/
def formsAtom (w : Width) : List FormA :=
  [.dst (.aadd w), .dst (.aand w), .dst (.aor w), .dst (.axor w), .dst (.amin w), .dst (.amax w), .dst (.aminn w),
   .dst (.amaxn w), .dst (.axchg w), .ds (.adecp w), .dst (.aincw w), .dst (.afadd w), .dst (.afmin w), .dst (.afmax w),
   .bad, .bad,
   .st (.aaddP w), .st (.aandP w), .st (.aorP w), .st (.axorP w), .st (.aminP w), .st (.amaxP w), .st (.aminnP w),
   .st (.amaxnP w), .st (.axchgP w), .s (.adecpP w), .st (.aincwP w), .st (.afaddP w), .st (.afminP w),
   .st (.afmaxP w)]
/-- Major 0x22 (05 R115). -/
def formsAcas : List FormA := [.dst .acas64, .dst .acas32, .dst .acas128]
/-- Major 0x23 (05 R115). -/
def formsLctl : List FormA := [.ds .lstat, .s .lresume, .s .lcancel]
/-- Major 0x24 (05 R115). -/
def formsWait : List FormA := [.dst .waitv, .ds .wake1, .ds .wakea, .dst .waken]
/-- Major 0x25 but for SEND (05 R115). -/
def formsTask : List FormA := [.st .spawn, .dst .spawnf, .s .tend, .bad, .d .tself]
/-- Majors 0x30 and 0x31 (05 R116). -/
def formsFs (w : Width) : List FormA :=
  [.dst (.fadd w), .dst (.fsub w), .dst (.fmul w), .dst (.fdiv w), .ds (.fsqrt w), .dst (.fmin w), .dst (.fmax w),
   .ds (.fabs w), .ds (.fneg w), .dst (.fma w), .ds (.fcvti w), .ds (.fcvtf w)]
/-- Major 0x32 (05 R116). -/
noncomputable def formsFcmp : List FormA :=
  [.pst .fceq32, .pst .fclt32, .pst .fcle32, .pst .fcun32, .pst .fceq64, .pst .fclt64, .pst .fcle64, .pst .fcun64]
/-- Major 0x33 (05 R116). -/
noncomputable def formsFcvt : List FormA :=
  [.ds .f32to64, .ds .f64to32, .ds .f32toh16, .ds .h16tof32, .ds .f32tobf, .ds .bftof32, .ds .fclass32, .ds .fclass64]
/-- Major 0x34 but for RSTR and the forms with a bit in T (05 R117, 14 R342). -/
noncomputable def formsSys : List FormA :=
  [.bare .tret, .ds .evict, .bad, .bare .halt, .bare .idle, .s .invpg,
   .sBit (fun s b => if b then .pmarkLive s else .pmarkDead s), .sBit (fun s b => if b then .shutOn s else .shutOff s),
   .ds .jdrop, .dst .cfgh, .bare .domsw, .d .fqpop]
/-- Major 0x36 (05 R117). -/
noncomputable def formsMctl : List FormA := [.ds .mzero, .dst .mdrain, .ds .mwait, .ds .mpoll, .ds .mring, .d .mstat]
/-- Major 0x37 (05 R117). -/
noncomputable def formsXctl : List FormA := [.ds .xjoin, .bit .xleave, .ds .xstat, .ds .xwait]

/-- FENCE (05 R109): D, S and bits [11:8] are not used. -/
def decFence (w : Nat) : Decoded :=
  match scopeOf? (field w 5 3) with
  | some c => finish (field w 19 7 + field w 12 7 + field w 8 4) (.fence c)
  | none => .illegal

/-- SEND (05 R115, 12 R303): a count of 9 up is no form, and with a count of 0 the T field is not used. -/
def decSend (w : Nat) : Decoded :=
  if field w 19 7 ≤ 8 then
    if field w 19 7 = 0 ∧ field w 5 7 ≠ 0 then .reserved
    else .ok (.send (Fin.ofNat 9 (field w 19 7)) (reg (field w 12 7)) (reg (field w 5 7)))
  else .illegal

/-- RSTR (14 R340, R342): the action stands in bits [6:5]. -/
noncomputable def decRstr (w : Nat) : Decoded :=
  let d := reg (field w 19 7)
  let s := reg (field w 12 7)
  match field w 5 2 with
  | 0 => finish (field w 7 5) (.rstrResume d s)
  | 1 => finish (field w 7 5) (.rstrHandle d s)
  | 2 => finish (field w 7 5) (.rstrKill d s)
  | _ => .illegal

/-- CMPI (05 R114): the condition stands in D[22:19]. -/
def decCmpi (w : Nat) : Decoded :=
  let p := prd (field w 23 3)
  let s := reg (field w 12 7)
  let i := BitVec.ofNat 12 (field w 0 12)
  match field w 19 4 with
  | 0 => .ok (.cmpeqi p s i) | 1 => .ok (.cmpnei p s i) | 2 => .ok (.cmplti p s i) | 3 => .ok (.cmplei p s i)
  | 4 => .ok (.cmpgti p s i) | 5 => .ok (.cmpgei p s i) | 6 => .ok (.cmpltni p s i) | 7 => .ok (.cmpleni p s i)
  | 8 => .ok (.cmpgtni p s i) | 9 => .ok (.cmpgeni p s i) | _ => .illegal

/-- SHI (05 R114): IMM[11:10] selects, IMM[9:6] is not used. -/
def decShi (w : Nat) : Decoded :=
  let d := reg (field w 19 7)
  let s := reg (field w 12 7)
  let n := six (field w 0 6)
  finish (field w 6 4) (match field w 10 2 with
    | 0 => .shli d s n | 1 => .shri d s n | 2 => .shrai d s n | _ => .rotli d s n)

/-- LD and ST (05 R107). -/
def decSized (f : Reg → Reg → BitVec 9 → Size → Instr) (w : Nat) : Decoded :=
  match sizeOf? (field w 0 3) with
  | some z => .ok (f (reg (field w 19 7)) (reg (field w 12 7)) (BitVec.ofNat 9 (field w 3 9)) z)
  | none => .illegal

/-- LDF, LDT, STP and STF accept SZ = 011 alone (05 R107). -/
def decPresence (f : Reg → Reg → BitVec 9 → Instr) (w : Nat) : Decoded :=
  if field w 0 3 = 3 then .ok (f (reg (field w 19 7)) (reg (field w 12 7)) (BitVec.ofNat 9 (field w 3 9))) else .illegal

/-- Which fields of format V a form uses (05 R116). -/
inductive FormV where
  | dst (f : Grp → Grp → Grp → Pred → Ty → Instr)
  | ds (f : Grp → Grp → Pred → Ty → Instr)
  | pst (f : Pred → Grp → Grp → Pred → Ty → Instr)
  | cvt (f : Grp → Grp → Ty → Pred → Ty → Instr)
  | half (f : Grp → Grp → Fin 2 → Pred → Ty → Instr)
  | bad

/-- A form of format V with its operands (05 R105, R108, R111). -/
def FormV.read (w : Nat) : FormV → Decoded
  | .dst f => finish 0 (f (grp (field w 22 4)) (grp (field w 18 4)) (grp (field w 14 4)) (prd (field w 11 3))
      (tyOf (field w 8 3)))
  | .ds f => finish (field w 14 4) (f (grp (field w 22 4)) (grp (field w 18 4)) (prd (field w 11 3)) (tyOf (field w 8 3)))
  | .pst f => finish (field w 22 1) (f (prd (field w 23 3)) (grp (field w 18 4)) (grp (field w 14 4))
      (prd (field w 11 3)) (tyOf (field w 8 3)))
  | .cvt f => finish (field w 17 1) (f (grp (field w 22 4)) (grp (field w 18 4)) (tyOf (field w 14 3))
      (prd (field w 11 3)) (tyOf (field w 8 3)))
  | .half f => if field w 14 4 < 2 then
        finish 0 (f (grp (field w 22 4)) (grp (field w 18 4)) (Fin.ofNat 2 (field w 14 4)) (prd (field w 11 3))
          (tyOf (field w 8 3)))
      else .illegal
  | .bad => .illegal

/-- The form that FN[7:0] selects (05 R116). -/
def pickV (l : List FormV) (w : Nat) : Decoded := (l[field w 0 8]?.getD .bad).read w

/-- Major 0x28 (05 R116). -/
def formsVint : List FormV :=
  [.dst .vadd, .dst .vsub, .dst .vmul, .dst .vmulh, .dst .vmin, .dst .vmax, .dst .vand, .dst .vor, .dst .vxor, .dst .vshl,
   .dst .vshr, .dst .vshra, .ds .vabs, .ds .vneg, .dst .vsadd, .dst .vssub, .ds .vpopc, .ds .vclz, .dst .vmadd,
   .dst .vsel]
/-- Major 0x29 (05 R116). -/
def formsVflt : List FormV :=
  [.dst .vfadd, .dst .vfsub, .dst .vfmul, .dst .vfma, .dst .vfdiv, .ds .vfsqrt, .dst .vfmin, .dst .vfmax, .ds .vfabs,
   .ds .vfneg, .ds .vrcp, .ds .vrsq, .ds .vexp2, .ds .vlog2, .ds .vfrnd]
/-- Major 0x2A (05 R116). -/
def formsVcmp : List FormV :=
  [.pst .vceq, .pst .vcne, .pst .vclt, .pst .vcle, .pst .vcltn, .pst .vclen, .pst .vfceq, .pst .vfclt, .pst .vfcle,
   .pst .vfcun]
/-- Major 0x2C (05 R116). -/
def formsVperm : List FormV :=
  [.dst .vperm, .ds .vredadd, .ds .vredmin, .ds .vredmax, .ds .vfredadd, .ds .vscan, .ds .vcompr, .ds .vexpd,
   .dst .vslide]
/-- Major 0x2E (05 R116). -/
def formsVcvt : List FormV := [.cvt .vcvt, .dst .vexpn, .dst .vqnt, .dst .vpack, .half .vunpk]

/-- Which fields of format VM a form uses (05 R105, 08 R199, R204, R208). -/
inductive FormVM where
  | block (f : Grp → Reg → Pred → Instr)
  | strided (f : Grp → Reg → Reg → Pred → Instr)
  | indexed (f : Grp → Reg → Grp → Bool → Pred → Instr)
  | noMask (f : Grp → Reg → Reg → Instr)
  | bad

/-- A form of format VM with its operands (08 R199, R204, R208). -/
def FormVM.read (w : Nat) : FormVM → Decoded
  | .block f => finish (field w 8 7) (f (grp (field w 22 4)) (reg (field w 15 7)) (prd (field w 5 3)))
  | .strided f => finish 0 (f (grp (field w 22 4)) (reg (field w 15 7)) (reg (field w 8 7)) (prd (field w 5 3)))
  | .indexed f => finish (field w 9 2) (f (grp (field w 22 4)) (reg (field w 15 7)) (grp (field w 11 4))
      (field w 8 1 == 1) (prd (field w 5 3)))
  | .noMask f => finish (field w 5 3) (f (grp (field w 22 4)) (reg (field w 15 7)) (reg (field w 8 7)))
  | .bad => .illegal

/-- The form that FN[4:0] selects (05 R116). -/
def pickVM (l : List FormVM) (w : Nat) : Decoded := (l[field w 0 5]?.getD .bad).read w

/-- Major 0x2B (05 R116). -/
def formsVmem : List FormVM :=
  [.block .vld, .block .vst, .strided .vlds, .strided .vsts, .indexed .vgath, .indexed .vscat, .block .vldf, .block .vstp,
   .block .vldb]
/-- Major 0x2F (05 R116). -/
def formsVstrm : List FormVM := [.noMask .visect, .noMask .vunion, .noMask .vdiff]

/-- Major 0x2D (08 R199). -/
def decVmov (w : Nat) : Decoded :=
  match field w 0 5 with
  | 0 => match bwidthOf? (field w 8 7) with
    | some b => finish 0 (.vbcast (grp (field w 22 4)) (reg (field w 15 7)) b (prd (field w 5 3)))
    | none => .illegal
  | 1 => (FormVM.noMask .vins).read w
  | 2 => (FormVM.noMask .vext).read w
  | 3 => if field w 8 7 < 2 then
      finish (field w 22 4) (.vmovp (reg (field w 15 7)) (field w 8 7 == 1) (prd (field w 5 3)))
    else .illegal
  | _ => .illegal

/-- Majors 0x38, 0x39, 0x3A and 0x3C: format X (05 R105, R117). `w` is word 0 and `v` word 1. -/
noncomputable def decX (w v : Nat) : Decoded :=
  let d := reg (field w 19 7)
  let s := reg (field w 12 7)
  let t := reg (field w 5 7)
  let q := reg (field v 25 7)
  let b := field v 16 1 == 1
  let rsv := field v 17 8 + field v 0 16
  match field w 26 6, field w 0 5 with
  | 0x38, 0 => finish rsv (.mma d s t q b)
  | 0x38, 1 => finish (rsv + field w 5 7) (.mmag d s q b)
  | 0x38, 2 => finish rsv (.mmat d s t q b)
  | 0x39, 0 => finish rsv (.xmmaChain d s t q b)
  | 0x39, 1 => finish rsv (.xmmaRing d s t q b)
  | 0x3A, 0 => finish rsv (.lcopyCopy d s t q b)
  | 0x3A, 1 => finish rsv (.lcopyFill d s t q b)
  | 0x3A, 2 => finish rsv (.lcopyReduce d s t q b)
  | 0x3A, 3 => finish rsv (.lcopyGather d s t q b)
  | 0x3C, 0 => finish (field v 18 7 + field v 0 16) (.qtile d s t q b (field v 17 1 == 1))
  | _, _ => .illegal

/-- Whether the major of word 0 has a second word (05 R101). -/
def twoWords (w : Nat) : Bool := 0x38 ≤ field w 26 6

/-- The decoder: the fate of word 0 `w`, with word 1 `v` where there is one (05 R111 to R117). -/
noncomputable def decode (w v : Nat) : Decoded :=
  let d := reg (field w 19 7)
  let s := reg (field w 12 7)
  let i := BitVec.ofNat 12 (field w 0 12)
  match field w 26 6 with
  | 0x01 => pick formsInt w
  | 0x02 => .ok (.addi d s i)
  | 0x03 => .ok (.andi d s i)
  | 0x04 => .ok (.ori d s i)
  | 0x05 => .ok (.xori d s i)
  | 0x06 => decShi w
  | 0x07 => .ok (.movi d (BitVec.ofNat 19 (field w 0 19)))
  | 0x08 => .ok (.movs d (BitVec.ofNat 19 (field w 0 19)))
  | 0x09 => .ok (.bfx d s (six (field w 6 6)) (six (field w 0 6)))
  | 0x0A => .ok (.bfxs d s (six (field w 6 6)) (six (field w 0 6)))
  | 0x0B => .ok (.bfi d s (six (field w 6 6)) (six (field w 0 6)))
  | 0x0C => pick formsCmp w
  | 0x0D => decCmpi w
  | 0x0E => pick formsPred w
  | 0x0F => finish (field w 3 2) (.sel d s (reg (field w 5 7)) (prd (field w 0 3)))
  | 0x10 => .ok (.br (BitVec.ofNat 26 (field w 0 26)))
  | 0x11 => .ok (.call (BitVec.ofNat 26 (field w 0 26)))
  | 0x12 => if field w 22 1 = 0 then .ok (.bp (prd (field w 23 3)) (BitVec.ofNat 22 (field w 0 22)))
      else .ok (.bnp (prd (field w 23 3)) (BitVec.ofNat 22 (field w 0 22)))
  | 0x13 => if field w 18 1 = 0 then .ok (.bz d (BitVec.ofNat 18 (field w 0 18)))
      else .ok (.bnz d (BitVec.ofNat 18 (field w 0 18)))
  | 0x14 => pick formsJump w
  | 0x15 => pick formsCtl w
  | 0x16 => finish (field w 0 14) (.fmtp (grp (field w 22 4)) (grp (field w 18 4)) (grp (field w 14 4)))
  | 0x17 => pick formsFdm w
  | 0x18 => decSized .ld w
  | 0x19 => decSized .st w
  | 0x1A => decPresence .ldf w
  | 0x1B => decPresence .ldt w
  | 0x1C => decPresence .stp w
  | 0x1D => decPresence .stf w
  | 0x1E => pick formsPres w
  | 0x1F => if field w 0 5 = 0 then decFence w else pick formsMsync w
  | 0x20 => pick (formsAtom .w64) w
  | 0x21 => pick (formsAtom .w32) w
  | 0x22 => pick formsAcas w
  | 0x23 => pick formsLctl w
  | 0x24 => pick formsWait w
  | 0x25 => if field w 0 5 = 3 then decSend w else pick formsTask w
  | 0x26 => finish (field w 12 7) (.srd d i)
  | 0x27 => finish (field w 19 7) (.swr s i)
  | 0x28 => pickV formsVint w
  | 0x29 => pickV formsVflt w
  | 0x2A => pickV formsVcmp w
  | 0x2B => pickVM formsVmem w
  | 0x2C => pickV formsVperm w
  | 0x2D => decVmov w
  | 0x2E => pickV formsVcvt w
  | 0x2F => pickVM formsVstrm w
  | 0x30 => pick (formsFs .w32) w
  | 0x31 => pick (formsFs .w64) w
  | 0x32 => pick formsFcmp w
  | 0x33 => pick formsFcvt w
  | 0x34 => if field w 0 5 = 2 then decRstr w else pick formsSys w
  | 0x35 => finish (field w 4 8 + field w 19 7 + field w 12 7) (.trap (Fin.ofNat 16 (field w 0 4)))
  | 0x36 => pick formsMctl w
  | 0x37 => pick formsXctl w
  | 0x38 => decX w v
  | 0x39 => decX w v
  | 0x3A => decX w v
  | 0x3C => decX w v
  | _ => .illegal

/-- The instruction that a word decodes to, if any. -/
def Decoded.instr? : Decoded → Option Instr
  | .ok i => some i
  | _ => none

/-- The instruction that the decoder reads from bits `w` numbered as the opcode table numbers them: word 0 in bits 31:0,
word 1 in bits 63:32. -/
noncomputable def decodeTableWord (_nbits w : Nat) : Option Instr := (decode (field w 0 32) (field w 32 32)).instr?

/-- A word of format A (05 R105). -/
def encA (op d s t fn : Nat) : Nat := op * 2 ^ 26 + d * 2 ^ 19 + s * 2 ^ 12 + t * 2 ^ 5 + fn
/-- A word of format I (05 R105). -/
def encI (op d s imm : Nat) : Nat := op * 2 ^ 26 + d * 2 ^ 19 + s * 2 ^ 12 + imm
/-- A word of format U (05 R105). -/
def encU (op d imm : Nat) : Nat := op * 2 ^ 26 + d * 2 ^ 19 + imm
/-- A word of format M (05 R105). -/
def encM (op d s o z : Nat) : Nat := op * 2 ^ 26 + d * 2 ^ 19 + s * 2 ^ 12 + o * 2 ^ 3 + z
/-- A word of format V (05 R105). -/
def encV (op d s t m y fn : Nat) : Nat :=
  op * 2 ^ 26 + d * 2 ^ 22 + s * 2 ^ 18 + t * 2 ^ 14 + m * 2 ^ 11 + y * 2 ^ 8 + fn
/-- A word of format VM (05 R105). -/
def encVM (op d s t m fn : Nat) : Nat := op * 2 ^ 26 + d * 2 ^ 22 + s * 2 ^ 15 + t * 2 ^ 8 + m * 2 ^ 5 + fn
/-- Word 1 of format X (05 R105). -/
def encQ (q flags : Nat) : Nat := q * 2 ^ 25 + flags * 2 ^ 16
/-- ATOM64 is 0x20, ATOM32 0x21 (05 R115). -/
def Width.atomMajor : Width → Nat
  | .w64 => 0x20 | .w32 => 0x21
/-- FS32 is 0x30, FS64 0x31 (05 R116). -/
def Width.floatMajor : Width → Nat
  | .w32 => 0x30 | .w64 => 0x31

/-- The words of an instruction: word 0, and word 1 of a two-word instruction (05 R105, R114 to R117). A step has none. -/
def Instr.words : Instr → Nat × Nat
  | .add d s t => (encA 0x1 d s t 0, 0)
  | .sub d s t => (encA 0x1 d s t 1, 0)
  | .mul d s t => (encA 0x1 d s t 2, 0)
  | .mulh d s t => (encA 0x1 d s t 3, 0)
  | .mulhn d s t => (encA 0x1 d s t 4, 0)
  | .div d s t => (encA 0x1 d s t 5, 0)
  | .divn d s t => (encA 0x1 d s t 6, 0)
  | .rem d s t => (encA 0x1 d s t 7, 0)
  | .remn d s t => (encA 0x1 d s t 8, 0)
  | .and d s t => (encA 0x1 d s t 9, 0)
  | .or d s t => (encA 0x1 d s t 10, 0)
  | .xor d s t => (encA 0x1 d s t 11, 0)
  | .andn d s t => (encA 0x1 d s t 12, 0)
  | .shl d s t => (encA 0x1 d s t 13, 0)
  | .shr d s t => (encA 0x1 d s t 14, 0)
  | .shra d s t => (encA 0x1 d s t 15, 0)
  | .rotl d s t => (encA 0x1 d s t 16, 0)
  | .min d s t => (encA 0x1 d s t 17, 0)
  | .max d s t => (encA 0x1 d s t 18, 0)
  | .minn d s t => (encA 0x1 d s t 19, 0)
  | .maxn d s t => (encA 0x1 d s t 20, 0)
  | .lea2 d s t => (encA 0x1 d s t 21, 0)
  | .lea4 d s t => (encA 0x1 d s t 22, 0)
  | .lea8 d s t => (encA 0x1 d s t 23, 0)
  | .addw d s t => (encA 0x1 d s t 24, 0)
  | .mulw d s t => (encA 0x1 d s t 25, 0)
  | .clz d s => (encA 0x1 d s 0 26, 0)
  | .ctz d s => (encA 0x1 d s 0 27, 0)
  | .popc d s => (encA 0x1 d s 0 28, 0)
  | .brev d s => (encA 0x1 d s 0 29, 0)
  | .bswap d s => (encA 0x1 d s 0 30, 0)
  | .absd d s t => (encA 0x1 d s t 31, 0)
  | .addi d s i => (encI 0x2 d s i.toNat, 0)
  | .andi d s i => (encI 0x3 d s i.toNat, 0)
  | .ori d s i => (encI 0x4 d s i.toNat, 0)
  | .xori d s i => (encI 0x5 d s i.toNat, 0)
  | .shli d s n => (encI 0x6 d s (0 * 2 ^ 10 + n), 0)
  | .shri d s n => (encI 0x6 d s (1 * 2 ^ 10 + n), 0)
  | .shrai d s n => (encI 0x6 d s (2 * 2 ^ 10 + n), 0)
  | .rotli d s n => (encI 0x6 d s (3 * 2 ^ 10 + n), 0)
  | .movi d i => (encU 0x7 d i.toNat, 0)
  | .movs d i => (encU 0x8 d i.toNat, 0)
  | .bfx d s p l => (encI 0x9 d s (p * 2 ^ 6 + l), 0)
  | .bfxs d s p l => (encI 0xa d s (p * 2 ^ 6 + l), 0)
  | .bfi d s p l => (encI 0xb d s (p * 2 ^ 6 + l), 0)
  | .cmpeq p s t => (encA 0xc (16 * p) s t 0, 0)
  | .cmpne p s t => (encA 0xc (16 * p) s t 1, 0)
  | .cmplt p s t => (encA 0xc (16 * p) s t 2, 0)
  | .cmple p s t => (encA 0xc (16 * p) s t 3, 0)
  | .cmpltn p s t => (encA 0xc (16 * p) s t 4, 0)
  | .cmplen p s t => (encA 0xc (16 * p) s t 5, 0)
  | .tstnz p s t => (encA 0xc (16 * p) s t 6, 0)
  | .tstz p s t => (encA 0xc (16 * p) s t 7, 0)
  | .cmpeqi p s i => (encI 0x0D (16 * p + 0) s i.toNat, 0)
  | .cmpnei p s i => (encI 0x0D (16 * p + 1) s i.toNat, 0)
  | .cmplti p s i => (encI 0x0D (16 * p + 2) s i.toNat, 0)
  | .cmplei p s i => (encI 0x0D (16 * p + 3) s i.toNat, 0)
  | .cmpgti p s i => (encI 0x0D (16 * p + 4) s i.toNat, 0)
  | .cmpgei p s i => (encI 0x0D (16 * p + 5) s i.toNat, 0)
  | .cmpltni p s i => (encI 0x0D (16 * p + 6) s i.toNat, 0)
  | .cmpleni p s i => (encI 0x0D (16 * p + 7) s i.toNat, 0)
  | .cmpgtni p s i => (encI 0x0D (16 * p + 8) s i.toNat, 0)
  | .cmpgeni p s i => (encI 0x0D (16 * p + 9) s i.toNat, 0)
  | .pand d s t => (encA 0x0E (16 * d) (16 * s) (16 * t) 0, 0)
  | .por d s t => (encA 0x0E (16 * d) (16 * s) (16 * t) 1, 0)
  | .pxor d s t => (encA 0x0E (16 * d) (16 * s) (16 * t) 2, 0)
  | .pandn d s t => (encA 0x0E (16 * d) (16 * s) (16 * t) 3, 0)
  | .pnot d s => (encA 0x0E (16 * d) (16 * s) 0 4, 0)
  | .pmov d s => (encA 0x0E (16 * d) (16 * s) 0 5, 0)
  | .pall d => (encA 0x0E (16 * d) 0 0 6, 0)
  | .pnone d => (encA 0x0E (16 * d) 0 0 7, 0)
  | .sel d s t f => (encA 0x0F d s t f, 0)
  | .br x => (0x10 * 2 ^ 26 + x.toNat, 0)
  | .call x => (0x11 * 2 ^ 26 + x.toNat, 0)
  | .bp p x => (0x12 * 2 ^ 26 + p * 2 ^ 23 + 0 * 2 ^ 22 + x.toNat, 0)
  | .bnp p x => (0x12 * 2 ^ 26 + p * 2 ^ 23 + 1 * 2 ^ 22 + x.toNat, 0)
  | .bz s x => (0x13 * 2 ^ 26 + s * 2 ^ 19 + 0 * 2 ^ 18 + x.toNat, 0)
  | .bnz s x => (0x13 * 2 ^ 26 + s * 2 ^ 19 + 1 * 2 ^ 18 + x.toNat, 0)
  | .jr s => (encA 0x14 0 s 0 0, 0)
  | .jrl s => (encA 0x14 0 s 0 1, 0)
  | .ret => (encA 0x14 0 0 0 2, 0)
  | .nop => (encA 0x15 0 0 0 0, 0)
  | .yield => (encA 0x15 0 0 0 1, 0)
  | .brk => (encA 0x15 0 0 0 2, 0)
  | .fmtp a b c => (encV 0x16 a b c 0 0 0, 0)
  | .fdset f s => (encA 0x17 (8 * f) s 0 0, 0)
  | .fdget d f => (encA 0x17 d (8 * f) 0 1, 0)
  | .ld d s o z => (encM 0x18 d s o.toNat z.code, 0)
  | .st d s o z => (encM 0x19 d s o.toNat z.code, 0)
  | .ldf d s o => (encM 0x1a d s o.toNat 3, 0)
  | .ldt d s o => (encM 0x1b d s o.toNat 3, 0)
  | .stp d s o => (encM 0x1c d s o.toNat 3, 0)
  | .stf d s o => (encM 0x1d d s o.toNat 3, 0)
  | .sete s => (encA 0x1e 0 s 0 0, 0)
  | .setf s => (encA 0x1e 0 s 0 1, 0)
  | .probe d s => (encA 0x1e d s 0 2, 0)
  | .waitf s => (encA 0x1e 0 s 0 3, 0)
  | .waite s => (encA 0x1e 0 s 0 4, 0)
  | .fence c => (encA 0x1F 0 0 c.code 0, 0)
  | .jsync => (encA 0x1f 0 0 0 1, 0)
  | .rbegin d => (encA 0x1f d 0 0 2, 0)
  | .rcommit => (encA 0x1f 0 0 0 3, 0)
  | .pref s => (encA 0x1f 0 s 0 4, 0)
  | .migr s => (encA 0x1f 0 s 0 5, 0)
  | .livem d s m => (encA 0x1F d s m.toNat 6, 0)
  | .touch s w => (encA 0x1F 0 s w.toNat 7, 0)
  | .rabort s => (encA 0x1f 0 s 0 8, 0)
  | .aadd w d s t => (encA w.atomMajor d s t 0, 0)
  | .aand w d s t => (encA w.atomMajor d s t 1, 0)
  | .aor w d s t => (encA w.atomMajor d s t 2, 0)
  | .axor w d s t => (encA w.atomMajor d s t 3, 0)
  | .amin w d s t => (encA w.atomMajor d s t 4, 0)
  | .amax w d s t => (encA w.atomMajor d s t 5, 0)
  | .aminn w d s t => (encA w.atomMajor d s t 6, 0)
  | .amaxn w d s t => (encA w.atomMajor d s t 7, 0)
  | .axchg w d s t => (encA w.atomMajor d s t 8, 0)
  | .adecp w d s => (encA w.atomMajor d s 0 9, 0)
  | .aincw w d s t => (encA w.atomMajor d s t 10, 0)
  | .afadd w d s t => (encA w.atomMajor d s t 11, 0)
  | .afmin w d s t => (encA w.atomMajor d s t 12, 0)
  | .afmax w d s t => (encA w.atomMajor d s t 13, 0)
  | .aaddP w s t => (encA w.atomMajor 0 s t 16, 0)
  | .aandP w s t => (encA w.atomMajor 0 s t 17, 0)
  | .aorP w s t => (encA w.atomMajor 0 s t 18, 0)
  | .axorP w s t => (encA w.atomMajor 0 s t 19, 0)
  | .aminP w s t => (encA w.atomMajor 0 s t 20, 0)
  | .amaxP w s t => (encA w.atomMajor 0 s t 21, 0)
  | .aminnP w s t => (encA w.atomMajor 0 s t 22, 0)
  | .amaxnP w s t => (encA w.atomMajor 0 s t 23, 0)
  | .axchgP w s t => (encA w.atomMajor 0 s t 24, 0)
  | .adecpP w s => (encA w.atomMajor 0 s 0 25, 0)
  | .aincwP w s t => (encA w.atomMajor 0 s t 26, 0)
  | .afaddP w s t => (encA w.atomMajor 0 s t 27, 0)
  | .afminP w s t => (encA w.atomMajor 0 s t 28, 0)
  | .afmaxP w s t => (encA w.atomMajor 0 s t 29, 0)
  | .acas64 d s t => (encA 0x22 d s t 0, 0)
  | .acas32 d s t => (encA 0x22 d s t 1, 0)
  | .acas128 d s t => (encA 0x22 d s t 2, 0)
  | .lstat d s => (encA 0x23 d s 0 0, 0)
  | .lresume s => (encA 0x23 0 s 0 1, 0)
  | .lcancel s => (encA 0x23 0 s 0 2, 0)
  | .waitv d s t => (encA 0x24 d s t 0, 0)
  | .wake1 d s => (encA 0x24 d s 0 1, 0)
  | .wakea d s => (encA 0x24 d s 0 2, 0)
  | .waken d s t => (encA 0x24 d s t 3, 0)
  | .spawn s t => (encA 0x25 0 s t 0, 0)
  | .spawnf d s t => (encA 0x25 d s t 1, 0)
  | .tend s => (encA 0x25 0 s 0 2, 0)
  | .send n s t => (encA 0x25 n s t 3, 0)
  | .tself d => (encA 0x25 d 0 0 4, 0)
  | .srd d r => (encI 0x26 d 0 r.toNat, 0)
  | .swr s r => (encI 0x27 0 s r.toNat, 0)
  | .vadd d s t m y => (encV 0x28 d s t m y.code 0, 0)
  | .vsub d s t m y => (encV 0x28 d s t m y.code 1, 0)
  | .vmul d s t m y => (encV 0x28 d s t m y.code 2, 0)
  | .vmulh d s t m y => (encV 0x28 d s t m y.code 3, 0)
  | .vmin d s t m y => (encV 0x28 d s t m y.code 4, 0)
  | .vmax d s t m y => (encV 0x28 d s t m y.code 5, 0)
  | .vand d s t m y => (encV 0x28 d s t m y.code 6, 0)
  | .vor d s t m y => (encV 0x28 d s t m y.code 7, 0)
  | .vxor d s t m y => (encV 0x28 d s t m y.code 8, 0)
  | .vshl d s t m y => (encV 0x28 d s t m y.code 9, 0)
  | .vshr d s t m y => (encV 0x28 d s t m y.code 10, 0)
  | .vshra d s t m y => (encV 0x28 d s t m y.code 11, 0)
  | .vabs d s m y => (encV 0x28 d s 0 m y.code 12, 0)
  | .vneg d s m y => (encV 0x28 d s 0 m y.code 13, 0)
  | .vsadd d s t m y => (encV 0x28 d s t m y.code 14, 0)
  | .vssub d s t m y => (encV 0x28 d s t m y.code 15, 0)
  | .vpopc d s m y => (encV 0x28 d s 0 m y.code 16, 0)
  | .vclz d s m y => (encV 0x28 d s 0 m y.code 17, 0)
  | .vmadd d s t m y => (encV 0x28 d s t m y.code 18, 0)
  | .vsel d s t m y => (encV 0x28 d s t m y.code 19, 0)
  | .vfadd d s t m y => (encV 0x29 d s t m y.code 0, 0)
  | .vfsub d s t m y => (encV 0x29 d s t m y.code 1, 0)
  | .vfmul d s t m y => (encV 0x29 d s t m y.code 2, 0)
  | .vfma d s t m y => (encV 0x29 d s t m y.code 3, 0)
  | .vfdiv d s t m y => (encV 0x29 d s t m y.code 4, 0)
  | .vfsqrt d s m y => (encV 0x29 d s 0 m y.code 5, 0)
  | .vfmin d s t m y => (encV 0x29 d s t m y.code 6, 0)
  | .vfmax d s t m y => (encV 0x29 d s t m y.code 7, 0)
  | .vfabs d s m y => (encV 0x29 d s 0 m y.code 8, 0)
  | .vfneg d s m y => (encV 0x29 d s 0 m y.code 9, 0)
  | .vrcp d s m y => (encV 0x29 d s 0 m y.code 10, 0)
  | .vrsq d s m y => (encV 0x29 d s 0 m y.code 11, 0)
  | .vexp2 d s m y => (encV 0x29 d s 0 m y.code 12, 0)
  | .vlog2 d s m y => (encV 0x29 d s 0 m y.code 13, 0)
  | .vfrnd d s m y => (encV 0x29 d s 0 m y.code 14, 0)
  | .vceq p s t m y => (encV 0x2a (2 * p) s t m y.code 0, 0)
  | .vcne p s t m y => (encV 0x2a (2 * p) s t m y.code 1, 0)
  | .vclt p s t m y => (encV 0x2a (2 * p) s t m y.code 2, 0)
  | .vcle p s t m y => (encV 0x2a (2 * p) s t m y.code 3, 0)
  | .vcltn p s t m y => (encV 0x2a (2 * p) s t m y.code 4, 0)
  | .vclen p s t m y => (encV 0x2a (2 * p) s t m y.code 5, 0)
  | .vfceq p s t m y => (encV 0x2a (2 * p) s t m y.code 6, 0)
  | .vfclt p s t m y => (encV 0x2a (2 * p) s t m y.code 7, 0)
  | .vfcle p s t m y => (encV 0x2a (2 * p) s t m y.code 8, 0)
  | .vfcun p s t m y => (encV 0x2a (2 * p) s t m y.code 9, 0)
  | .vld d s m => (encVM 0x2b d s 0 m 0, 0)
  | .vst d s m => (encVM 0x2b d s 0 m 1, 0)
  | .vlds d s t m => (encVM 0x2b d s t m 2, 0)
  | .vsts d s t m => (encVM 0x2b d s t m 3, 0)
  | .vgath d s v z m => (encVM 0x2b d s (8 * v + z.toNat) m 4, 0)
  | .vscat d s v z m => (encVM 0x2b d s (8 * v + z.toNat) m 5, 0)
  | .vldf d s m => (encVM 0x2b d s 0 m 6, 0)
  | .vstp d s m => (encVM 0x2b d s 0 m 7, 0)
  | .vldb d s m => (encVM 0x2b d s 0 m 8, 0)
  | .vperm d s t m y => (encV 0x2c d s t m y.code 0, 0)
  | .vredadd d s m y => (encV 0x2c d s 0 m y.code 1, 0)
  | .vredmin d s m y => (encV 0x2c d s 0 m y.code 2, 0)
  | .vredmax d s m y => (encV 0x2c d s 0 m y.code 3, 0)
  | .vfredadd d s m y => (encV 0x2c d s 0 m y.code 4, 0)
  | .vscan d s m y => (encV 0x2c d s 0 m y.code 5, 0)
  | .vcompr d s m y => (encV 0x2c d s 0 m y.code 6, 0)
  | .vexpd d s m y => (encV 0x2c d s 0 m y.code 7, 0)
  | .vslide d s t m y => (encV 0x2c d s t m y.code 8, 0)
  | .vbcast d s w m => (encVM 0x2d d s w.code m 0, 0)
  | .vins d s t => (encVM 0x2d d s t 0 1, 0)
  | .vext d s t => (encVM 0x2d d s t 0 2, 0)
  | .vmovp s r p => (encVM 0x2d 0 s r.toNat p 3, 0)
  | .vcvt d s x m y => (encV 0x2e d s x.code m y.code 0, 0)
  | .vexpn d s t m y => (encV 0x2e d s t m y.code 1, 0)
  | .vqnt d s t m y => (encV 0x2e d s t m y.code 2, 0)
  | .vpack d s t m y => (encV 0x2e d s t m y.code 3, 0)
  | .vunpk d s h m y => (encV 0x2e d s h m y.code 4, 0)
  | .visect d s t => (encVM 0x2f d s t 0 0, 0)
  | .vunion d s t => (encVM 0x2f d s t 0 1, 0)
  | .vdiff d s t => (encVM 0x2f d s t 0 2, 0)
  | .fadd w d s t => (encA w.floatMajor d s t 0, 0)
  | .fsub w d s t => (encA w.floatMajor d s t 1, 0)
  | .fmul w d s t => (encA w.floatMajor d s t 2, 0)
  | .fdiv w d s t => (encA w.floatMajor d s t 3, 0)
  | .fsqrt w d s => (encA w.floatMajor d s 0 4, 0)
  | .fmin w d s t => (encA w.floatMajor d s t 5, 0)
  | .fmax w d s t => (encA w.floatMajor d s t 6, 0)
  | .fabs w d s => (encA w.floatMajor d s 0 7, 0)
  | .fneg w d s => (encA w.floatMajor d s 0 8, 0)
  | .fma w d s t => (encA w.floatMajor d s t 9, 0)
  | .fcvti w d s => (encA w.floatMajor d s 0 10, 0)
  | .fcvtf w d s => (encA w.floatMajor d s 0 11, 0)
  | .fceq32 p s t => (encA 0x32 (16 * p) s t 0, 0)
  | .fclt32 p s t => (encA 0x32 (16 * p) s t 1, 0)
  | .fcle32 p s t => (encA 0x32 (16 * p) s t 2, 0)
  | .fcun32 p s t => (encA 0x32 (16 * p) s t 3, 0)
  | .fceq64 p s t => (encA 0x32 (16 * p) s t 4, 0)
  | .fclt64 p s t => (encA 0x32 (16 * p) s t 5, 0)
  | .fcle64 p s t => (encA 0x32 (16 * p) s t 6, 0)
  | .fcun64 p s t => (encA 0x32 (16 * p) s t 7, 0)
  | .f32to64 d s => (encA 0x33 d s 0 0, 0)
  | .f64to32 d s => (encA 0x33 d s 0 1, 0)
  | .f32toh16 d s => (encA 0x33 d s 0 2, 0)
  | .h16tof32 d s => (encA 0x33 d s 0 3, 0)
  | .f32tobf d s => (encA 0x33 d s 0 4, 0)
  | .bftof32 d s => (encA 0x33 d s 0 5, 0)
  | .fclass32 d s => (encA 0x33 d s 0 6, 0)
  | .fclass64 d s => (encA 0x33 d s 0 7, 0)
  | .tret => (encA 0x34 0 0 0 0, 0)
  | .evict d s => (encA 0x34 d s 0 1, 0)
  | .rstrResume d s => (encA 0x34 d s 0 2, 0)
  | .rstrHandle d s => (encA 0x34 d s 1 2, 0)
  | .rstrKill d s => (encA 0x34 d s 2 2, 0)
  | .halt => (encA 0x34 0 0 0 3, 0)
  | .idle => (encA 0x34 0 0 0 4, 0)
  | .invpg s => (encA 0x34 0 s 0 5, 0)
  | .pmarkDead s => (encA 0x34 0 s 0 6, 0)
  | .pmarkLive s => (encA 0x34 0 s 1 6, 0)
  | .shutOff s => (encA 0x34 0 s 0 7, 0)
  | .shutOn s => (encA 0x34 0 s 1 7, 0)
  | .jdrop d s => (encA 0x34 d s 0 8, 0)
  | .cfgh d s t => (encA 0x34 d s t 9, 0)
  | .domsw => (encA 0x34 0 0 0 10, 0)
  | .fqpop d => (encA 0x34 d 0 0 11, 0)
  | .trap n => (encI 0x35 0 0 n, 0)
  | .mzero d s => (encA 0x36 d s 0 0, 0)
  | .mdrain d s t => (encA 0x36 d s t 1, 0)
  | .mwait d s => (encA 0x36 d s 0 2, 0)
  | .mpoll d s => (encA 0x36 d s 0 3, 0)
  | .mring d s => (encA 0x36 d s 0 4, 0)
  | .mstat d => (encA 0x36 d 0 0 5, 0)
  | .xjoin d s => (encA 0x37 d s 0 0, 0)
  | .xleave x => (encA 0x37 0 0 x.toNat 1, 0)
  | .xstat d s => (encA 0x37 d s 0 2, 0)
  | .xwait d s => (encA 0x37 d s 0 3, 0)
  | .mma d s t q b => (encA 0x38 d s t 0, encQ q b.toNat)
  | .mmag d s q b => (encA 0x38 d s 0 1, encQ q b.toNat)
  | .mmat d s t q b => (encA 0x38 d s t 2, encQ q b.toNat)
  | .xmmaChain d s t q b => (encA 0x39 d s t 0, encQ q b.toNat)
  | .xmmaRing d s t q b => (encA 0x39 d s t 1, encQ q b.toNat)
  | .lcopyCopy d s t q b => (encA 0x3a d s t 0, encQ q b.toNat)
  | .lcopyFill d s t q b => (encA 0x3a d s t 1, encQ q b.toNat)
  | .lcopyReduce d s t q b => (encA 0x3a d s t 2, encQ q b.toNat)
  | .lcopyGather d s t q b => (encA 0x3a d s t 3, encQ q b.toNat)
  | .qtile d s t q c r => (encA 0x3C d s t 0, encQ q (2 * r.toNat + c.toNat))
  | .asyncTrapEntry _ _ | .coreCycle _ | .putWindowWrite _ _ _ _ _ | .deviceMemoryRead _ _ _ |
  .deviceMemoryWrite _ _ _ _ | .completerAtomicop _ _ _ | .qstatWrite _ _ _ | .registerWrite _ _ _ | .queueSet _ |
  .domainBind _ _ | .domainUnbind _ | .gangAbort _ | .svcControl _ | .svcAnswer _ | .svcPop _ | .logRead _ |
  .powerCap _ | .attest _ | .identity _ | .fwStage _ | .fwCommit _ _ _ | .lifecycle _ _ | .mailboxCommandDone _ |
  .d3hotEntry _ | .d3hotExit _ | .functionLevelReset _ | .hotReset _ | .fundamentalReset _ | .moduleBoot _ _ |
  .bootSeal _ | .bootResult _ | .hostCompletion _ _ _ _ | .hostCompletionTimeout _ _ _ | .launchSlotTake _ _ |
  .launchRefusalPut _ _ | .launchQueueFault _ _ | .dispatch _ | .launchComplete _ _ | .spawnQueuePlace _ |
  .schedulerEvict _ | .contextRestore _ | .messageArrival _ | .migrationLanding _ | .migrationAck _ |
  .serviceThreadStart _ _ | .homeAccessRequest _ _ | .memoryReply _ | .journalEntrySettle _ |
  .refreshRetryResend _ _ | .noListResend _ _ | .scRetryResend _ _ | .shutterRetryResend _ _ | .wlimExpiry _ _ |
  .waitCancel _ | .translationWalkDone _ | .dramRefresh _ _ _ _ | .refreshRateChange _ _ _ |
  .scrubWord _ _ _ _ _ | .linkPacketReceive _ | .linkPortClose _ _ | .gangTimerExpiry _ _ | .gangPrepare _ |
  .gangPreparedReply _ | .gangCommit _ _ | .gangSwitchAbort _ | .gangDone _ | .flaskJoinRequest _ |
  .flaskJoinReply _ | .flaskWithdraw _ | .flaskPourAccept _ | .flaskReadyReceipt _ | .flaskFaultReceipt _ |
  .flaskGoReceipt _ | .flaskMismatchReceipt _ | .flaskAbortReceipt _ | .flaskPartialReceipt _ |
  .flaskPanelReceipt _ | .flaskFinishedReceipt _ | .flaskDecide _ | .flaskCommitReceipt _ | .flaskLinkLoss _ |
  .flaskLeaveReceipt _ | .flaskOutcomeQuery _ | .ladleChunkIssue _ _ | .ladleChunkComplete _ _ _ |
  .ladleDataFault _ _ | .ladleCompletionPut _ _ | .ladleCtlRequest _ | .matrixAccept _ | .matrixJobStart _ _ |
  .ringSlotConsume _ _ | .matrixJobCommit _ _ | .matrixJobFault _ _ | .mdrainMessageSend _ _ |
  .allAsleepRise _ _ | .asleepReceipt _ | .allAsleepQuery _ | .allAsleepReply _ | .allAsleepRaise _ |
  .junctionOver105 _ | .junctionOver115 _ | .powerCapClockStep _ _ | .linkPortDegrade _ _ _ _ |
  .qtileQuantiserDone _ _ | .configurationWrite _ _ _ => (0, 0)

/-- The bytes of an instruction as memory holds them, each word little-endian (05 R101). -/
def encode (i : Instr) : List Byte :=
  let le := fun (w : Nat) => (List.range 4).map fun k => BitVec.ofNat 8 (w / 2 ^ (8 * k))
  if twoWords i.words.1 then le i.words.1 ++ le i.words.2 else le i.words.1

/-- The value of bytes, the lowest address first (00 R5). -/
def leNat : List Byte → Nat
  | [] => 0
  | b :: r => b.toNat + 256 * leNat r

/-- The decoder over the bytes at the program counter. -/
noncomputable def decodeBytes (l : List Byte) : Decoded := decode (leNat (l.take 4)) (leNat ((l.drop 4).take 4))

end Sys2Proof
end

