-- ==== Sys2Proof/Machine/State.lean ====
section
/-!
DEFINITION. The state of the VT-880-M, as plain data: threads, cores, homes and memory, engines, launch unit, host
interface, links. Sparse collections are tables `Tab`: an index that is not listed holds the value that the module reset
wipe leaves (15 R362: every register, queue, table and counter is zero), which the reader of the table names.
-/
namespace Sys2Proof.Machine

/-- A sparse table. -/
abbrev Tab (α : Type) := List (Nat × α)

/-- The step ends the run with a fault: no rule of the spec does, since every trap, fault record and halt of the part is a
next state. Safe. -/
inductive Fault where
  | never
  deriving DecidableEq, Repr

/-- The step has no meaning: raised by an arm of `exec` that is rejected by name. Safe. -/
inductive Refusal where
  | notModelled (mnemonic : String)
  deriving DecidableEq, Repr

/-- The states of a slot (06 R127). EVICTED is a `Context`. -/
inductive TState where
  | free | ready | parkedMem | parkedEngine | trap | faulted
  deriving DecidableEq, Repr

/-- The atomic operations of 12 R296. -/
inductive AtomKind where
  | add | and | or | xor | min | max | minn | maxn | xchg | decp | incw | fadd | fmin | fmax
  deriving DecidableEq, Repr

/-- What a request asks of its home (07 R156 to R165, 12 R282 to R297). Data are natural numbers, little-endian in memory.
`parts` is what is still to be written of a block whose words its home has checked (08 R206, 13 R307): its address and the
attributes of its leaf. -/
inductive Op where
  | load (size : Nat)
  | store (size data : Nat)
  | block (mask data : Nat)
  | parts (a mask data : Nat) (tol subn : Bool)
  | ldf | ldt
  | stp (data : Nat)
  | stf (data : Nat)
  | sete | setf | probe | waitf | waite
  | waitv (expected : Nat)
  | wake (most : Option Nat)
  | atom (k : AtomKind) (size operand : Nat)
  | cas (size compare new : Nat)
  | touch (write : Bool)
  | sector
  | orderRead
  | lctl (form handle : Nat)
  | query (seq : Nat)
  | leave
  deriving DecidableEq, Repr

/-- A request to a home (07 R153, R168; 12 R289): the requester's wait tag (core and count), the domain, the address, the
operation, the ORDERED mark, the SC mark of R169, the resend mark of R179, and whether a journal entry sent it. -/
structure Req where
  cid : Nat
  tag : Nat
  dom : Nat
  va : Nat
  op : Op
  posted : Bool
  ordered : Bool
  sc : Bool
  resend : Bool
  deriving DecidableEq, Repr

/-- The answer to a request. `begun` leaves the home only as the state of a block that is being written (08 R206). -/
inductive Ans where
  | ok
  | data (v : Nat)
  | sector (words : List Nat) (poisoned : List Bool)
  | fault (cause : Nat)
  | refresh (hint : Nat)
  | shutter
  | scRetry
  | noList
  | cancelled
  | two (a b : Nat)
  | faultAt (cause va : Nat)
  | begun (a : Nat) (tol subn : Bool)
  deriving DecidableEq, Repr

/-- Why a request is to be sent again (07 R168, R179; 12 R291, R292). -/
inductive Retry where
  | refresh | noList | sc | shutter
  deriving DecidableEq, Repr

/-- Where one request of a parked instruction, or a journal entry, stands: not sent, outstanding, outstanding with a cancel sent
(12 R290, 14 R394), to be sent again at a core cycle, or answered. -/
inductive Sent where
  | held
  | out
  | cancelling
  | again (k : Retry) (due : Nat)
  | done (a : Ans)
  deriving DecidableEq, Repr

/-- One request of a parked instruction (a lane or word of a vector access, or the whole of a scalar one). -/
structure Access where
  lane : Nat
  req : Req
  st : Sent
  backoff : Nat
  deriving DecidableEq, Repr

/-- What a parked instruction writes once every request is answered. Register numbers are those of its fields. -/
inductive Finish where
  | load (d : Nat) (z : Size)
  | word (d : Nat)
  | pair (d : Nat)
  | none
  | fence
  | lanes (d size : Nat)
  | stored (nums : List Nat)
  | two (d : Nat)
  | gather (va : Nat)
  | query (d seq : Nat)
  | leave
  | endTask
  | reissue
  deriving DecidableEq, Repr

/-- A matrix submission (10 R230): its kind (R245), its register gD and the values of gS, gT, gQ and g(T+1) read at issue. -/
structure Submission where
  kind : Nat
  d : Nat
  a : Word
  b : Word
  q : Word
  msg : Word
  acc : Bool
  deriving DecidableEq, Repr

/-- An XMMA that waits for its outcome (11 R259): its mode, ACC, gD, and the values of gS, gT and gQ. -/
structure PourAsk where
  ring : Bool
  acc : Bool
  d : Nat
  a : Word
  b : Word
  q : Word
  deriving DecidableEq, Repr

/-- A QTILE that the quantiser works on (10 R249): gD's number, the values of gD, gS, gT and gQ, the descriptor F, CLAMP and
BROLE. -/
structure QuantAsk where
  d : Nat
  tile : Word
  src : Word
  dst : Word
  theta : Word
  fmt : Nat
  clamp : Bool
  brole : Bool
  deriving DecidableEq, Repr

/-- An LCOPY whose descriptor has been read and checked (09 R214): its form FN, the number of gD, the snapshots of the descriptor and of the
source list, the values of gT and gQ, and QUIET. -/
structure CopyAsk where
  form : Nat
  d : Nat
  desc : List Word
  srcs : List Word
  compl : Word
  value : Word
  quiet : Bool
  deriving DecidableEq, Repr

/-- A wait held at the core alone (14 R394, first row): the instruction has had no effect and issues again. `invpg` is the wait of INVPG for
the requests, by their wait tags, that the endpoint of a module had translated (14 R343), which no trap ends. -/
inductive CoreWait where
  | drain
  | journal (n : Nat)
  | overlap (va size : Nat)
  | order
  | checkpoint
  | commit
  | fence (c : Scope)
  | fetch
  | spawnRoom
  | channel
  | ladleEntry (c : CopyAsk)
  | submitted (j : Submission)
  | ring (base : Nat)
  | idle
  | hostQueue
  | evicting (cid slot : Nat)
  | killing (cid slot : Nat)
  | placing (cid : Nat) (win : Nat)
  | migrate (dst : Nat)
  | unit (va : Nat)
  | invpg (m : Nat) (tags : List (Nat × Nat))
  deriving DecidableEq, Repr

/-- What a thread that is parked on an engine or a member waits for: MWAIT (10 R245), XMMA (11 R259), XWAIT (R278), XJOIN (R254,
with a WITHDRAW sent for WLIM as 1 and for an asynchronous trap as 2), QTILE (10 R249). -/
inductive EngineWait where
  | job (d id : Nat)
  | pour (p : PourAsk)
  | outcome (d seq : Nat)
  | join (d withdraw : Nat)
  | quantise (q : QuantAsk)
  deriving DecidableEq, Repr

/-- What a parked thread waits for: nothing, its own core, answers to its requests, journal entries of its own that a launch's
SCDEF keeps it waiting for (07 R169), an engine. -/
inductive Wait where
  | none
  | core (w : CoreWait)
  | mem (f : Finish) (units : List Access) (abandon : Bool)
  | entries (nums : List Nat)
  | engine (w : EngineWait)
  deriving DecidableEq, Repr

/-- A pending asynchronous trap (14 R336): its cause and detail, and for STORE_REFUSED the KIND and ENTRY of JSTAT. -/
structure Async where
  cause : Nat
  detail : Nat
  refused : Option (Nat × Nat)
  deriving DecidableEq, Repr

/-- A fetch buffer (05 R103): a 64-byte sector, its sixteen instruction words, which of its eight memory words were poisoned,
and the cause of a failed read. -/
structure Sector where
  addr : Nat
  words : List Nat
  poisoned : List Bool
  fault : Option Nat
  deriving DecidableEq, Repr

/-- A region checkpoint (07 R170). -/
structure Checkpoint where
  regs : List Word
  preds : List Word
  fds : List (BitVec 32)
  lk : Word
  tsw : Word
  d : Nat
  pc : Word
  deriving DecidableEq, Repr

/-- The registers that a trap saves into (14 R326, R327; 06 R140). -/
structure TrapRegs where
  tcause : Word
  tfaddr : Word
  tepc : Word
  tsave : Word
  tdepth : Nat
  xepc : Word
  xcause : Word
  xfaddr : Word
  xsave : Word
  tscr : Word
  deriving DecidableEq, Repr

/-- A thread in a slot (06 R127 to R140): everything but its general registers, which are entries of the core's register
file. `issue0` is the cycle from which WLIM counts, `retry0` the cycle in which the count stopped for a request that is to be sent
again (07 R154, R168, R179). -/
structure Thread where
  st : TState
  from_ : TState
  base : Nat
  win : Nat
  pc : Word
  preds : List Word
  fds : List (BitVec 32)
  tsw : Word
  lk : Word
  trap : TrapRegs
  jkind : Nat
  jentry : Nat
  live0 : Word
  live1 : Word
  wlim : Nat
  rcnt : Nat
  dom : Nat
  launch : Option (Nat × Nat)
  origin : Nat
  cls : Nat
  future : Word
  yield : Bool
  pipe : Nat
  cur : Option Sector
  nxt : Option Sector
  fetches : List Access
  wait : Wait
  issue0 : Option Nat
  retry0 : Option Nat
  parked : Nat
  held : List Async
  ckpt : Option Checkpoint
  rollback : Option Word
  dbl : Bool
  uid : Nat
  gathered : List (Nat × Ans)
  svc : Bool
  scdef : Bool
  deriving DecidableEq, Repr

/-- An evicted thread's context (14 R337). -/
structure Context where
  cid : Nat
  serial : Nat
  slot : Nat
  sched : Bool
  spilled : Bool
  th : Thread
  regs : List Word
  deriving DecidableEq, Repr

/-- The kind of a journal entry, JSTAT.KIND (06 R140). -/
abbrev JKind := Nat

/-- An entry of the posted-store journal (07 R159). -/
structure JEntry where
  num : Nat
  slot : Nat
  kind : JKind
  req : Req
  st : Sent
  backoff : Nat
  region : Bool
  scHold : Bool
  discard : Bool
  deriving DecidableEq, Repr

/-- A message (12 R303) or what a held arrival carries. -/
structure Message where
  dst : Nat
  word : Word
  dom : Nat
  cls : Nat
  payload : List Word
  sender : Nat
  tag : Word
  deriving DecidableEq, Repr

/-- A migrating thread (07 R175): where it left, where it goes, and whether any core of a cluster may take it. -/
structure Migrant where
  srcCid : Nat
  srcSlot : Nat
  dst : Nat
  anyCore : Bool
  th : Thread
  regs : List Word
  deriving DecidableEq, Repr

/-- An arrival held at a core because no slot or window is free (04 R100), with the source of its packet; of a message also the entry
descriptor that was read when it arrived (01 R10), its VA, and the launch that had loaded the class table. -/
inductive Arrival where
  | msg (src : Nat) (m : Message) (va desc : Nat) (launch : Nat × Nat)
  | mig (src : Nat) (g : Migrant)
  deriving DecidableEq, Repr

/-- The class table of a domain on a core (12 R304): words 1 to 14 and the launch that loaded them. -/
structure ClassTable where
  entries : List Word
  launch : Nat × Nat
  deriving DecidableEq, Repr

/-- The counters of RETRIES (14 R326). -/
structure Retries where
  refresh : Nat
  sc : Nat
  noList : Nat
  shutter : Nat
  deriving DecidableEq, Repr

/-- A core (00 R1, 06 R131, R133, 07 R159, R170, 14 R324, R337, R347). `doms` lists the domains that have held it since its last wipe,
which unbinding wipes (15 R361), and `locals` the bytes of local memory that were theirs: domain, first, end. -/
structure Core where
  rf : Tab Word
  slots : Tab Thread
  last : Nat
  cyc : Nat
  journal : List JEntry
  jwait : List Nat
  ckwait : List Nat
  ctxSerial : Nat
  prgn : Tab Word
  classes : Tab ClassTable
  traps : Tab (List Word)
  retries : Tab Retries
  gangShut : Bool
  softShut : Bool
  tagCount : Nat
  held : List Arrival
  doms : List Nat
  locals : List (Nat × Nat × Nat)
  deriving DecidableEq, Repr

/-- What a chunk still has to do for the bytes of one element that lie in one destination word (09 R216, 01 R24): its place in stream order,
the element, its first byte, the number of bytes, and their value once read. -/
structure CopyItem where
  at_ : Nat
  element : Nat
  lo : Nat
  len : Nat
  got : Option Nat
  deriving DecidableEq, Repr

/-- What is left of a chunk in flight, and the first failure so far in stream order: place, cause, VA (09 R220). -/
structure ChunkWork where
  items : List CopyItem
  fault : Option (Nat × Nat × Nat)
  deriving DecidableEq, Repr

/-- An operation in the ladle's table (09 R212 to R220): STATE, 0 while its LCOPY waits with the entry for the completion word (R214 step 7);
sequence number, submitter, snapshot of the descriptor and the
source list, completion word and value, the chunks below `pref` and those in `done` complete, those in flight with what is left of those
begun, those that faulted
(chunk, cause, VA), the fault-queue records (cause, VA) still to be posted and the STATE that follows them (R220 steps 4 and 5), the record
that a put of the completion word writes, and an LCANCEL that waits. A chunk that reads the host
window waits in `hostWait` for the endpoint; `hostDone` holds the answers for its words: chunk, VA, and 0 with the data, 512 or 513 with
poison that is substituted, else a cause. -/
structure LadleOp where
  st : Nat
  seq : Nat
  dom : Nat
  cid : Nat
  slot : Nat
  uid : Nat
  launch : Option (Nat × Nat)
  tag : Word
  form : Nat
  desc : List Word
  srcs : List Word
  compl : Word
  value : Word
  quiet : Bool
  age : Nat
  pref : Nat
  done : List Nat
  flight : List Nat
  work : Tab ChunkWork
  faults : List (Nat × Nat × Nat)
  due : List (Nat × Nat)
  after : Nat
  hostWait : List Nat
  hostDone : List (Nat × Nat × Nat)
  cancel : Option Req
  cause : Nat
  va : Nat
  put : Word
  isValue : Bool
  deriving DecidableEq, Repr

/-- What acceptance copies of one operand (10 R231): its record, its scale bytes, and for each tile in row-major order the
escapes of its sprue list (INDEX, VALUE). -/
structure Operand where
  rec_ : List Word
  scales : List Nat
  sprues : List (List (Nat × Nat))
  deriving DecidableEq, Repr

/-- An entry of the job queue that is not FREE (10 R228, R231, R236): `taken` region words are owned so far with the values
`old`; `feedA` and `feedB` are the bytes consumed from the rings. -/
structure Job where
  st : Nat
  seq : Nat
  dom : Nat
  cid : Nat
  slot : Nat
  uid : Nat
  launch : Option (Nat × Nat)
  order : Nat
  kind : Nat
  a : Option Operand
  bs : List Operand
  sel : List Nat
  region : Word
  acc : Bool
  dst : Word
  msg : Word
  taken : Nat
  old : List Nat
  ownedAll : Bool
  feedA : List Nat
  feedB : List Nat
  ringStartA : Nat
  ringStartB : Nat
  written : Bool
  cause : Nat
  va : Nat
  deriving DecidableEq, Repr

/-- A bound ring (10 R239): the layout of w7 of 01 R18, its domain, the slots consumed. -/
structure Ring where
  desc : Nat
  dom : Nat
  pos : Nat
  deriving DecidableEq, Repr

/-- A panel of a ring pour at a member (11 R263): the ordinal that it belongs to, the hops made, its row bytes and its copies. -/
structure Panel where
  origin : Nat
  hops : Nat
  bytes : List Nat
  op : Operand
  deriving DecidableEq, Repr

/-- A pour at a member (11 R259 to R268): its sequence number, the XMMA, its thread, the copies, the kept old values of the
committer's region words, its agreement CRC, GO, the tiles that it has summed and sent, the partials and panels that wait, the
staged elements, the parts given, the ordinals whose FINISHED arrived, the ordinals that it watches, the member's own fault (cause,
TFADDR), and the launch of its thread (15 R355). -/
structure Pour where
  seq : Nat
  ask : PourAsk
  cid : Nat
  slot : Nat
  a : Operand
  b : Operand
  committer : Bool
  old : List Nat
  crc : Nat
  go : Bool
  tiles : Nat
  partials : List (Nat × List Nat)
  panels : List Panel
  computed : List Nat
  staged : List (Nat × Nat)
  given : Bool
  finished : List Nat
  watches : List Nat
  own : Option (Nat × Nat)
  launch : Option (Nat × Nat)
  deriving DecidableEq, Repr

/-- The flask state of a cluster engine (11 R252, R255, R279): state code, domain, flask id, member count, ordinal, descriptor,
next sequence number, the outcome memory (sequence number, OUTCOME, FORD, FCAUSE; newest last), the JOINs held at ordinal 0
(ordinal, CRC), the READYs of the next pours (sequence number, ordinal, CRC), the sequence numbers that ordinal 0 decided,
the XMMAs that wait, the thread that joins and its descriptor's VA, the pour, whether the flask dissolved while the member is UNKNOWN, and whether the
cluster is switched out. -/
structure Flask where
  st : Nat
  dom : Nat
  id : Nat
  m : Nat
  k : Nat
  desc : List Word
  next : Nat
  outcomes : List (Nat × Nat × Nat × Nat)
  holdId : Nat
  joins : List (Nat × Nat)
  joinDom : Nat
  joinFrom : List (Nat × Nat)
  ready : List (Nat × Nat × Nat)
  decided : List Nat
  queue : List (Nat × Nat)
  joiner : Option Nat
  joinVa : Nat
  pour : Option Pour
  dissolved : Bool
  out : Bool
  deriving DecidableEq, Repr

/-- The engines of a cluster: `lastc` of 10 R230, the ladle's table with the sequence number of each entry and the threads that
wait for one, the job queue with
its own, the rings, the flask state. -/
structure Engines where
  lastc : Nat
  ladle : Tab LadleOp
  ladleSeq : Tab Nat
  ladleAge : Nat
  lwait : List Nat
  jobs : Tab Job
  jobSeq : Tab Nat
  jobAge : Nat
  rings : Tab Ring
  flask : Flask
  deriving DecidableEq, Repr

/-- What a packet on the flask virtual channel says (11 R254 to R278). `lost` is the fabric's LINK_UNREACHABLE answer for a
packet that an ordinal did not get: whether it was a watch, whether it was the packet that gives the member's part. -/
inductive FlaskKind where
  | join (k crc : Nat)
  | joined
  | refuse (cause : Nat)
  | withdraw (k : Nat)
  | withdrawn
  | ready (s j crc : Nat)
  | fault (s j cause : Nat)
  | go (s : Nat)
  | mismatch (s j : Nat)
  | abort (s j cause : Nat)
  | partials (s tile : Nat) (last : Bool) (v : List Nat)
  | panel (s : Nat) (p : Panel)
  | finished (s j : Nat)
  | commit (s : Nat)
  | leave (r : Req)
  | query (r : Req)
  | lost (s k : Nat) (watch part : Bool)
  deriving DecidableEq, Repr

/-- A packet on the flask virtual channel (11 R253): domain tag, flask id, the cluster that sent it, and what it says. -/
structure FlaskMsg where
  dom : Nat
  id : Nat
  src : Nat
  kind : FlaskKind
  deriving DecidableEq, Repr

/-- Why a member refuses a switch (03 R65; log entry 95). -/
inductive GangReason where
  | notBound | notInGang
  deriving DecidableEq, Repr

/-- A class-15 message between management cores (03 R65, 14 R353). -/
inductive Mgmt where
  | start (g : Nat)
  | prepare (g n out inn : Nat) (cores : List Nat)
  | prepared (g n m : Nat)
  | refused (g n m : Nat) (reason : GangReason)
  | commit (g n : Nat)
  | abort (g n : Nat)
  | done (g n m : Nat)
  | asleep (dom m : Nat)
  | query (dom r : Nat) (confirm : Bool)
  | status (dom r : Nat) (confirm : Bool) (m : Nat) (out : Bool) (count : Nat)
  | unreachable (dom r : Nat)
  | raise (dom r : Nat)
  deriving DecidableEq, Repr

/-- A task in a cluster's spawn queue (04 R98, 12 R301). -/
structure QTask where
  va : Word
  desc : Word
  arg : Word
  future : Word
  withFuture : Bool
  launch : Option (Nat × Nat)
  dom : Nat
  deriving DecidableEq, Repr

/-- A cluster (04 R87, R90, R98; 09; 10; 11): `claim` is the domain that claims the engine stores, `lastClaim` the one that last did, 0 for
none. -/
structure Cluster where
  spawn : List QTask
  cprgn : Tab Word
  claim : Nat
  lastClaim : Nat
  eng : Engines
  deriving DecidableEq, Repr

/-- A launch record in a queue's latch (03 R52): its sixteen words, the entry descriptor, and the sequence number of its slot. When it is
dispatched, words 1 to 14 of its class table follow the sixteen, if HANDLERS is not zero (12 R304), and the descriptor is the one read
then (01 R10). -/
structure Latched where
  rec_ : List Word
  desc : Word
  seq : Nat
  deriving DecidableEq, Repr

/-- A refusal completion still to be put (03 R57). -/
structure RefusedPut where
  seq : Nat
  code : Nat
  compl : Word
  deriving DecidableEq, Repr

/-- A launch queue (03 R51); `faulted` lists the faults (cause, VA) still to be reported (03 R56). -/
structure Queue where
  base : Word
  dom : Nat
  en : Bool
  sizelog : Nat
  cons : Nat
  coll : Nat
  refd : Nat
  badw : Bool
  flt : Bool
  lastref : Nat
  latch : Option Latched
  refusal : Option RefusedPut
  faulted : List (Nat × Word)
  gathered : List (Nat × Ans)
  deriving DecidableEq, Repr

/-- A placed launch (15 R355): its queue, record, cores in order of placement, whether it is complete, and whether what its completion does
is done but for the put, which waits for the queue's restart when it was refused (R356). -/
structure Launch where
  id : Nat
  queue : Nat
  dom : Nat
  rec_ : List Word
  cores : List Nat
  complete : Bool
  putPending : Bool
  deriving DecidableEq, Repr

/-- A bound domain slot of a module (03 R58), its fault queue (14 R331) with the posts that wait for room, its service thread
(14 R333), named by its count of the threads placed, its all-asleep detector (14 R351 to R353) with the rises still to be reported, each
with its change count, and whether a forced unbinding runs (15 R360). -/
structure Domain where
  tag : Nat
  set : DomainSettings
  fq : List (List Word)
  fqWait : List (List Word)
  serial : Nat
  service : Option Nat
  wantService : Bool
  asleep : Bool
  falls : Nat
  rises : List Nat
  unbinding : Bool
  deriving DecidableEq, Repr

/-- A round of the all-asleep agreement at the coordinator (14 R353). -/
structure Round where
  dom : Nat
  r : Nat
  phase : Nat
  replies : List (Nat × Bool × Nat)
  first : List (Nat × Nat)
  deriving DecidableEq, Repr

/-- The saved state of a core of a switched-out gang domain (03 R66, 14 R349). -/
structure SavedCore where
  cid : Nat
  dom : Nat
  ctxs : List Context
  bytes : List Host.Cell
  empties : List Nat
  poison : List Nat
  prgn : Tab Word
  classes : Option ClassTable
  traps : Option (List Word)
  deriving DecidableEq, Repr

/-- The saved state of a whole cluster of a switched-out gang domain (03 R67, 14 R349). -/
structure SavedCluster where
  cl : Nat
  dom : Nat
  bytes : List Host.Cell
  empties : List Nat
  poison : List Nat
  cprgn : Tab Word
  claim : Nat
  deriving DecidableEq, Repr

/-- A gang at a member module, and at its coordinator (03 R65 to R68): the switch number that the member expects, its switch in
phase 1 (n, outgoing tag, incoming tag, cores), the committed switch that its cores run through, the domain that is switched in and
the cores that it holds (R348); at the coordinator the switch in progress, who replied PREPARED and who replied DONE. -/
structure Gang where
  expect : Nat
  phase1 : Option (Nat × Nat × Nat × List Nat)
  running : Option (Nat × Nat × Nat × List Nat)
  current : Nat
  cores : List Nat
  sending : Option (Nat × Nat × Nat)
  prepared : List Nat
  done : List Nat
  deriving DecidableEq, Repr

/-- A gang after reset. -/
def Gang.fresh : Gang := ⟨0, none, none, 0, [], none, [], []⟩

/-- A fabric port (04 R78, R79). -/
structure Port where
  closed : Bool
  lanes : Nat
  rows : Nat
  errors : Nat
  deriving DecidableEq, Repr

/-- Who a non-posted host request belongs to: a core's request, a chunk of a ladle operation, a launch queue. -/
inductive HostOwner where
  | core
  | ladle (cl e k : Nat)
  | queue (q : Nat)
  deriving DecidableEq, Repr

/-- A non-posted request that the endpoint has sent onto PCI Express (07 R157). -/
structure HostReq where
  owner : HostOwner
  req : Req
  addr : Nat
  tol : Bool
  subn : Bool
  deriving DecidableEq, Repr

/-- The management mailbox (15 R358). -/
structure Mailbox where
  code : Nat
  tag : Nat
  result : Nat
  ovr : Bool
  busy : Bool
  finished : Bool
  args : List Word
  buffer : Tab Byte
  deriving DecidableEq, Repr

/-- Where the parts of something signed stand in its bytes, as offsets and lengths: the root public key, the security version, and each signed
part with its signature. The spec gives no layout (15 R359, R364, R366; log entry 13). -/
structure SignedLayout where
  key : Nat × Nat
  version : Nat × Nat
  parts : List ((Nat × Nat) × (Nat × Nat))
  deriving DecidableEq, Repr

/-- The life-cycle state and what the fuses, the flash and the boot ROM hold (15 R362 to R366; 17 R376): the part that a module reset keeps.
`fuseMap` lists the fuse words of each die's 24 physical clusters, zero where none is listed; `image` and `command` are the layouts of an
image of firmware and of a signed command. -/
structure Fuses where
  lifecycle : Nat
  rootHash : Nat
  fuseMap : List (List Word)
  image : SignedLayout
  command : SignedLayout
  keyEpoch : Option Nat
  keysMade : Nat
  leaf : Nat
  version : Nat
  flash : List Byte
  deriving DecidableEq, Repr

/-- What the endpoint last answered to the host (03 R49, R50). -/
structure HostReply where
  status : HostStatus
  data : List Byte
  deriving DecidableEq, Repr

/-- A module (03, 04 R78 to R80, 14 R331 to R334, R354, 15, 17). `staged` counts the bytes of the staging area up to the last one staged, and
`bootRoot` is the boot root thread, named by its count of the threads placed. -/
structure Module where
  queues : Tab Queue
  lastL : Tab Nat
  streak : Tab Nat
  launches : List Launch
  nextLaunch : Nat
  domains : Tab Domain
  hsq : List (List Word)
  hsWait : List (List Word)
  hsSerial : Nat
  mbox : Mailbox
  log : List (List Word)
  logged : Nat
  overrun : Nat
  gangs : Tab Gang
  saved : List SavedCore
  savedCl : List SavedCluster
  rounds : List Round
  roundNo : Tab Nat
  fuses : Fuses
  mr : Nat
  staged : Nat
  cap : Nat
  clock : Nat
  over105 : Bool
  over115 : Bool
  d3hot : Bool
  timeout : BitVec 4
  atomics : Bool
  mps : BitVec 3
  mrrs : BitVec 3
  outstanding : List HostReq
  msix : List Nat
  aer : List Nat
  reply : HostReply
  ports : Tab Port
  code : Nat
  booted : Bool
  bootHalted : Bool
  bootMode : Bool
  sealed : Bool
  boot : Option BootImage
  bootRoot : Option Nat
  logicalMap : List (List Word)
  deriving DecidableEq, Repr

/-- A waiting operation in the wait list of a word (12 R287). -/
structure WaitEntry where
  word : Nat
  pool : Nat
  home : Nat
  req : Req
  replyTo : Nat
  tol : Bool
  subn : Bool
  deriving DecidableEq, Repr

/-- A translation-cache entry (04 R94): the unit (stack or endpoint), domain, table, page base and size, leaf. -/
structure Tlb where
  unit : Nat
  dom : Nat
  table : Nat
  base : Nat
  size : Nat
  leaf : Nat
  deriving DecidableEq, Repr

/-- A request that waits for a translation walk (04 R94): its packet's source and the unit that walks. -/
structure Walk where
  unit : Nat
  dom : Nat
  table : Nat
  page : Nat
  src : Nat
  req : Req
  deriving DecidableEq, Repr

/-- Memory (00 R5, 12 R281, 07 R181): the listed bytes, addresses strictly rising and no listed byte zero (15 R362: wiped
memory reads zero); the words with P = 0; the poisoned words. Addresses are those of `Ops`. -/
structure Memory where
  cells : List Host.Cell
  empties : List Nat
  poison : List Nat
  deriving DecidableEq, Repr

/-- The body of a packet (04 R79). -/
inductive Body where
  | req (r : Req)
  | ans (cid tag : Nat) (posted : Bool) (a : Ans)
  | cancel (cid tag dom va : Nat)
  | message (m : Message)
  | migrate (g : Migrant)
  | migAck (cid slot : Nat)
  | mgmt (k : Mgmt)
  | flask (k : FlaskMsg)
  deriving DecidableEq, Repr

/-- A packet in flight (04 R75 to R79): source, destination key D, virtual channel, the port it left by and whether it has
crossed the link, for one that leaves its module. -/
structure Packet where
  src : Nat
  dst : Nat
  vc : Nat
  port : Option Nat
  crossed : Bool
  body : Body
  deriving DecidableEq, Repr

/-- The machine. `dead` lists the physical ranges of pages that are not live (07 R180). `agenda`, `tick`, `cur`, `issuing` and `ir` are the model's own: the steps still to come, the counter that
free values are drawn with, the count of the threads placed so far, and the slot that issues with the words of its instruction. -/
structure State where
  cores : Tab Core
  clusters : Tab Cluster
  modules : Tab Module
  present : List Nat
  mem : Memory
  waitq : List WaitEntry
  limits : List (Nat × Nat × Nat)
  tlb : List Tlb
  walks : List Walk
  substs : List (Nat × Nat × Nat)
  corrected : Tab Nat
  refreshing : Tab Nat
  hotStacks : List Nat
  dead : List (Nat × Nat)
  ctxs : List Context
  net : List Packet
  agenda : List Instr
  tick : Nat
  uids : Nat
  cur : Nat × Nat
  issuing : Bool
  ir : Nat
  deriving DecidableEq, Repr

/-- The flask state of a cluster after the wipe: NONE (11 R252). -/
def Flask.fresh : Flask where
  st := 0
  dom := 0
  id := 0
  m := 0
  k := 0
  desc := []
  next := 0
  outcomes := []
  holdId := 0
  joins := []
  joinDom := 0
  joinFrom := []
  ready := []
  decided := []
  queue := []
  joiner := none
  joinVa := 0
  pour := none
  dissolved := false
  out := false

/-- The engines of a cluster after the wipe: `lastc` is 23 (10 R230), nothing accepted, bound or joined (15 R362). -/
def Engines.fresh : Engines where
  lastc := 23
  ladle := []
  ladleSeq := []
  ladleAge := 0
  lwait := []
  jobs := []
  jobSeq := []
  jobAge := 0
  rings := []
  flask := Flask.fresh

/-- A cluster after the wipe (15 R362). -/
def Cluster.fresh : Cluster := ⟨[], [], 0, 0, Engines.fresh⟩

/-- The trap registers at task start (06 R138, 14 R326). -/
def TrapRegs.zero : TrapRegs := ⟨0, 0, 0, 0, 0, 0, 0, 0, 0, 0⟩

/-- A free slot after the wipe (14 R350, 15 R362). -/
def Thread.fresh : Thread where
  st := .free
  from_ := .ready
  base := 0
  win := 0
  pc := 0
  preds := List.replicate 8 0
  fds := List.replicate 15 0
  tsw := 0
  lk := 0
  trap := TrapRegs.zero
  jkind := 0
  jentry := 0
  live0 := 0
  live1 := 0
  wlim := 0
  rcnt := 0
  dom := 0
  launch := none
  origin := 0
  cls := 0
  future := 0
  yield := false
  pipe := 0
  cur := none
  nxt := none
  fetches := []
  wait := .none
  issue0 := none
  retry0 := none
  parked := 0
  held := []
  ckpt := none
  rollback := none
  dbl := false
  uid := 0
  gathered := []
  svc := false
  scdef := false

/-- A core after the wipe: `last` is 255 (06 R131), everything else zero or empty (15 R362). -/
def Core.fresh : Core where
  rf := []
  slots := []
  last := 255
  cyc := 0
  journal := []
  jwait := []
  ckwait := []
  ctxSerial := 0
  prgn := []
  classes := []
  traps := []
  retries := []
  gangShut := false
  softShut := false
  tagCount := 0
  held := []
  doms := []
  locals := []

/-- A launch queue after reset (03 R51). -/
def Queue.fresh : Queue := ⟨0, 0, false, 0, 0, 0, 0, false, false, 0, none, none, [], []⟩

/-- The mailbox after reset (15 R358, R362): BUSY reads 1 until the boot is complete, which `booted` says. -/
def Mailbox.fresh : Mailbox := ⟨0, 0, 0, false, false, false, List.replicate 8 0, []⟩

/-- What the fuses and the flash of a module hold before its first boot: MANUFACTURE and no key (15 R363), no fused site (log entry 13). -/
def Fuses.fresh : Fuses where
  lifecycle := 0
  rootHash := Config.rootHash
  fuseMap := []
  image := ⟨Config.signedKey 0, Config.signedVersion 0, Config.signedParts 0⟩
  command := ⟨Config.signedKey 1, Config.signedVersion 1, Config.signedParts 1⟩
  keyEpoch := none
  keysMade := 0
  leaf := 0
  version := 0
  flash := Config.factoryFlash

/-- A module after the wipe and before its boot: the power cap is 3,200 W (15 R367), the clock 1,600 MHz (00 R1), the
completion timeout value 0000 (07 R157). -/
def Module.fresh : Module where
  queues := []
  lastL := []
  streak := []
  launches := []
  nextLaunch := 0
  domains := []
  hsq := []
  hsWait := []
  hsSerial := 0
  mbox := Mailbox.fresh
  log := []
  logged := 0
  overrun := 0
  gangs := []
  saved := []
  savedCl := []
  rounds := []
  roundNo := []
  fuses := Fuses.fresh
  mr := 0
  staged := 0
  cap := 3200
  clock := 1600
  over105 := false
  over115 := false
  d3hot := false
  timeout := 0
  atomics := false
  mps := 0
  mrrs := 2
  outstanding := []
  msix := []
  aer := []
  reply := ⟨.ok, []⟩
  ports := []
  code := 3
  booted := false
  bootHalted := false
  bootMode := false
  sealed := false
  boot := none
  bootRoot := none
  logicalMap := []

/-- The machine right after reset (15 R362): nothing is listed, so every register, queue, table and counter reads as the wipe
leaves it. Module 0 is the one module of the fabric (log entry 6), and no step is on the agenda (log entry 1). -/
def State.reset : State where
  cores := []
  clusters := []
  modules := []
  present := [0]
  mem := ⟨[], [], []⟩
  waitq := []
  limits := []
  tlb := []
  walks := []
  substs := []
  corrected := []
  refreshing := []
  hotStacks := []
  dead := []
  ctxs := []
  net := []
  agenda := []
  tick := 0
  uids := 0
  cur := (0, 0)
  issuing := false
  ir := 0

end Sys2Proof.Machine
end

