-- ==== Sys2Proof/Machine/Tab.lean ====
section
/-!
DEFINITION. Reading and writing sparse tables, sorted sets of numbers, and the bit fields of a value.
-/
namespace Sys2Proof.Machine

/-- The value at index `k`, or `d` where the table lists none. -/
def Tab.get {α : Type} (d : α) : Tab α → Nat → α
  | [], _ => d
  | (j, v) :: r, k => if j = k then v else Tab.get d r k

/-- The table with `v` at index `k`. -/
def Tab.set {α : Type} : Tab α → Nat → α → Tab α
  | [], k, v => [(k, v)]
  | (j, w) :: r, k, v => if j = k then (j, v) :: r else (j, w) :: Tab.set r k v

/-- The table with nothing listed at index `k`. -/
def Tab.del {α : Type} (t : Tab α) (k : Nat) : Tab α := t.filter fun p => p.1 != k

/-- The value listed at index `k`, if any. -/
def Tab.find {α : Type} : Tab α → Nat → Option α
  | [], _ => none
  | (j, v) :: r, k => if j = k then some v else Tab.find r k

/-- Insertion into a sorted set of numbers. -/
def setInsert : List Nat → Nat → List Nat
  | [], n => [n]
  | a :: r, n => if n < a then n :: a :: r else if n = a then a :: r else a :: setInsert r n

/-- Removal from a set of numbers. -/
def setErase (l : List Nat) (n : Nat) : List Nat := l.filter (· != n)

/-- The smallest number of a list. -/
def leastOf : List Nat → Option Nat
  | [] => none
  | a :: r => match leastOf r with
    | none => some a
    | some b => some (min a b)

/-- A bit of a number. -/
def bit (n k : Nat) : Bool := n / 2 ^ k % 2 == 1

/-- A word read as two's complement of `w` bits (00 R4). -/
def sextNat (w n : Nat) : Int := if n % 2 ^ w < 2 ^ (w - 1) then (n % 2 ^ w : Nat) else (n % 2 ^ w : Nat) - (2 ^ w : Nat)

/-- A number with the field of `len` bits from `lo` up replaced. -/
def putField (n lo len v : Nat) : Nat :=
  n / 2 ^ (lo + len) * 2 ^ (lo + len) + v % 2 ^ len * 2 ^ lo + n % 2 ^ lo

/-- Replaces the element at index `k` of a list. -/
def listSet {α : Type} : List α → Nat → α → List α
  | [], _, _ => []
  | _ :: r, 0, v => v :: r
  | a :: r, k + 1, v => a :: listSet r k v

/-- Removes the element at index `k` of a list. -/
def listDel {α : Type} : List α → Nat → List α
  | [], _ => []
  | _ :: r, 0 => r
  | a :: r, k + 1 => a :: listDel r k

end Sys2Proof.Machine
end

