-- ==== Sys2Proof/Machine/Float.lean ====
section
/-!
DEFINITION. Floating point on exact values: IEEE binary64, binary32, binary16 and bf16 (02 R28 to R30), the narrow family
(02 R33 to R39), and the rounding that every float operation uses. An exact value is a sign, a natural significand and a power
of two; a quotient or root carries a sticky last bit, far below any rounding position.
-/
namespace Sys2Proof.Machine

/-- A value of a float format: NaN (signalling or quiet), infinity, zero, a nonzero finite (-1)^neg × m × 2^e, or the escape of
a narrow format (02 R35). -/
inductive FV where
  | nan (signalling : Bool)
  | inf (neg : Bool)
  | zero (neg : Bool)
  | fin (neg : Bool) (m : Nat) (e : Int)
  | esc
  deriving DecidableEq, Repr

/-- A binary format: exponent and fraction bits (02 R28). -/
structure FFormat where
  ebits : Nat
  mbits : Nat
  deriving DecidableEq, Repr

def f64 : FFormat := ⟨11, 52⟩
def f32 : FFormat := ⟨8, 23⟩
def h16 : FFormat := ⟨5, 10⟩
def bf16 : FFormat := ⟨8, 7⟩

/-- The exponent bias (02 R28). -/
def FFormat.bias (f : FFormat) : Int := 2 ^ (f.ebits - 1) - 1
/-- The width in bits. -/
def FFormat.width (f : FFormat) : Nat := f.ebits + f.mbits + 1
/-- The canonical NaN (02 R28). -/
def FFormat.nan (f : FFormat) : Nat := (2 ^ f.ebits - 1) * 2 ^ f.mbits + 2 ^ (f.mbits - 1)
/-- An infinity. -/
def FFormat.inf (f : FFormat) (neg : Bool) : Nat := neg.toNat * 2 ^ (f.ebits + f.mbits) + (2 ^ f.ebits - 1) * 2 ^ f.mbits
/-- A zero. -/
def FFormat.zero (f : FFormat) (neg : Bool) : Nat := neg.toNat * 2 ^ (f.ebits + f.mbits)
/-- The largest finite value. -/
def FFormat.huge (f : FFormat) (neg : Bool) : Nat := f.inf neg - 1

/-- The value that a bit pattern encodes (02 R28). -/
def FFormat.unpack (f : FFormat) (b : Nat) : FV :=
  let neg := bit b (f.ebits + f.mbits)
  let e := field b f.mbits f.ebits
  let m := field b 0 f.mbits
  if e = 2 ^ f.ebits - 1 then (if m = 0 then .inf neg else .nan (!bit b (f.mbits - 1)))
  else if e = 0 then (if m = 0 then .zero neg else .fin neg m (1 - f.bias - f.mbits))
  else .fin neg (2 ^ f.mbits + m) (e - f.bias - f.mbits)

/-! The sticky flags of TSW[24:18] as a mask, NV in bit 0 (02 R31). -/
def fNV : Nat := 1
def fDZ : Nat := 2
def fOF : Nat := 4
def fUF : Nat := 8
def fNX : Nat := 16
def fSAT : Nat := 32
def fSPR : Nat := 64
/-- A flag that is set when a condition holds. -/
def fIf (c : Bool) (f : Nat) : Nat := if c then f else 0

/-- The integer that `m × 2^e` rounds to in units of `2^q` under a rounding mode (02 R30), and whether that is inexact. -/
def roundTo (rm : Nat) (neg : Bool) (m : Nat) (e q : Int) : Nat × Bool :=
  if q ≤ e then (m * 2 ^ (e - q).toNat, false)
  else
    let sh := (q - e).toNat
    let lo := m / 2 ^ sh
    let r := m % 2 ^ sh
    let up := match rm with
      | 0 => 2 * r > 2 ^ sh || (2 * r == 2 ^ sh && lo % 2 == 1)
      | 1 => false
      | 2 => neg && r != 0
      | _ => !neg && r != 0
    (lo + up.toNat, r != 0)

/-- Rounds a nonzero exact value once to a format (02 R28 to R30): the bits and the flags OF, UF and NX. Tininess is detected
after rounding. -/
def FFormat.round (f : FFormat) (rm : Nat) (neg : Bool) (m : Nat) (e : Int) : Nat × Nat :=
  let ex : Int := m.log2 + e
  let emin : Int := 1 - f.bias
  let q := max ex emin - f.mbits
  let r := roundTo rm neg m e q
  let free := roundTo rm neg m e (ex - f.mbits)
  let tiny := ex < emin && (free.1 < 2 ^ (f.mbits + 1) || ex + 1 < emin)
  let body := ((q - (emin - f.mbits)) * 2 ^ f.mbits).toNat + r.1
  if (2 ^ f.ebits - 1) * 2 ^ f.mbits ≤ body then
    (if rm = 0 || (rm = 2 && neg) || (rm = 3 && !neg) then f.inf neg else f.huge neg, fOF ||| fNX)
  else (f.zero neg + body, fIf r.2 fNX ||| fIf (tiny && r.2) fUF)

/-- The result of an exact value that may be special: NaN is the canonical NaN (02 R29). -/
def FFormat.pack (f : FFormat) (rm : Nat) : FV → Nat × Nat
  | .nan _ => (f.nan, 0)
  | .esc => (f.nan, 0)
  | .inf neg => (f.inf neg, 0)
  | .zero neg => (f.zero neg, 0)
  | .fin neg m e => if m = 0 then (f.zero neg, 0) else f.round rm neg m e

/-! Exact arithmetic (02 R29): a value and the flags NV and DZ. -/

/-- Whether a value is a NaN; the escape counts as a signalling one (08 R188). -/
def FV.isNan : FV → Bool
  | .nan _ => true
  | .esc => true
  | _ => false
/-- Whether a value is a signalling NaN. -/
def FV.isSnan : FV → Bool
  | .nan s => s
  | .esc => true
  | _ => false
/-- The sign of a value. -/
def FV.neg : FV → Bool
  | .inf n => n
  | .zero n => n
  | .fin n _ _ => n
  | _ => false
/-- The value with its sign inverted. -/
def FV.flip : FV → FV
  | .inf n => .inf (!n)
  | .zero n => .zero (!n)
  | .fin n m e => .fin (!n) m e
  | v => v

/-- A signed significand as an integer. -/
def signed (neg : Bool) (m : Nat) : Int := if neg then -(m : Int) else m
/-- A value from a signed integer and a power of two; an exact zero takes the sign given. -/
def FV.ofInt (i : Int) (e : Int) (zneg : Bool) : FV := if i = 0 then .zero zneg else .fin (i < 0) i.natAbs e

/-- The exact sum (02 R29); an exact zero from unlike signs is -0 only when rounding down. -/
def FV.add (rm : Nat) (a b : FV) : FV × Nat :=
  if a.isNan || b.isNan then (.nan false, fIf (a.isSnan || b.isSnan) fNV)
  else match a, b with
    | .inf x, .inf y => if x = y then (.inf x, 0) else (.nan false, fNV)
    | .inf x, _ => (.inf x, 0)
    | _, .inf y => (.inf y, 0)
    | .zero x, .zero y => (.zero (if x = y then x else rm == 2), 0)
    | .zero _, b => (b, 0)
    | a, .zero _ => (a, 0)
    | .fin x m e, .fin y n g =>
      let q := min e g
      (FV.ofInt (signed x m * 2 ^ (e - q).toNat + signed y n * 2 ^ (g - q).toNat) q (rm == 2), 0)
    | _, _ => (.nan false, fNV)

/-- The exact product (02 R29). -/
def FV.mul (a b : FV) : FV × Nat :=
  if a.isNan || b.isNan then (.nan false, fIf (a.isSnan || b.isSnan) fNV)
  else
    let s := a.neg != b.neg
    match a, b with
    | .inf _, .zero _ => (.nan false, fNV)
    | .zero _, .inf _ => (.nan false, fNV)
    | .inf _, _ => (.inf s, 0)
    | _, .inf _ => (.inf s, 0)
    | .zero _, _ => (.zero s, 0)
    | _, .zero _ => (.zero s, 0)
    | .fin _ m e, .fin _ n g => (.fin s (m * n) (e + g), 0)
    | _, _ => (.nan false, fNV)

/-- The quotient `n / d × 2^e` of naturals with at least 160 significant bits and a sticky last bit. -/
def quotient (neg : Bool) (n d : Nat) (e : Int) : FV :=
  let sh := d.log2 + 160
  let q := n * 2 ^ sh / d
  .fin neg (2 * q + (if n * 2 ^ sh % d = 0 then 0 else 1)) (e - sh - 1)

/-- The quotient (02 R29, R31): DZ for a finite nonzero value over zero. -/
def FV.div (a b : FV) : FV × Nat :=
  if a.isNan || b.isNan then (.nan false, fIf (a.isSnan || b.isSnan) fNV)
  else
    let s := a.neg != b.neg
    match a, b with
    | .inf _, .inf _ => (.nan false, fNV)
    | .zero _, .zero _ => (.nan false, fNV)
    | .inf _, _ => (.inf s, 0)
    | _, .inf _ => (.zero s, 0)
    | _, .zero _ => (.inf s, fDZ)
    | .zero _, _ => (.zero s, 0)
    | .fin _ m e, .fin _ n g => (quotient s m n (e - g), 0)
    | _, _ => (.nan false, fNV)

/-- The integer square root of `n`, its bits found from bit `k - 1` down. -/
def isqrt (n : Nat) : Nat → Nat → Nat
  | 0, r => r
  | k + 1, r => if (r + 2 ^ k) * (r + 2 ^ k) ≤ n then isqrt n k (r + 2 ^ k) else isqrt n k r

/-- The square root of `n × 2^e`, `e` even, with a sticky last bit. -/
def rootOfFin (n : Nat) (e : Int) : FV :=
  let w := n * 2 ^ 256
  let r := isqrt w (w.log2 / 2 + 1) 0
  .fin false (2 * r + (if r * r = w then 0 else 1)) (e / 2 - 129)

/-- The square root (02 R29): NV for a negative operand; of -0 it is -0. -/
def FV.sqrt (a : FV) : FV × Nat :=
  match a with
  | .nan s => (.nan false, fIf s fNV)
  | .esc => (.nan false, fNV)
  | .zero n => (.zero n, 0)
  | .inf n => if n then (.nan false, fNV) else (.inf false, 0)
  | .fin n m e =>
    if n then (.nan false, fNV)
    else if e % 2 = 0 then (rootOfFin m e, 0) else (rootOfFin (2 * m) (e - 1), 0)

/-- A product added to a third value (08 R190); NV for 0 × infinity with a quiet NaN addend is the part's own (log entry 8). -/
def FV.fma (rm : Nat) (a b c : FV) (open_ : Bool) : FV × Nat :=
  let p := a.mul b
  if c.isNan && !a.isNan && !b.isNan && p.2 != 0 then (.nan false, fIf (c.isSnan || open_) fNV)
  else if p.1.isNan then (.nan false, p.2 ||| fIf c.isSnan fNV)
  else FV.add rm p.1 c

/-- The order of two values that are no NaN, zeros of either sign equal. -/
def FV.lt (a b : FV) : Bool :=
  match a, b with
  | .inf x, .inf y => x && !y
  | .inf x, _ => x
  | _, .inf y => !y
  | .zero _, .zero _ => false
  | .zero _, .fin y _ _ => !y
  | .fin x _ _, .zero _ => x
  | .fin x m e, .fin y n g =>
    let q := min e g
    signed x m * 2 ^ (e - q).toNat < signed y n * 2 ^ (g - q).toNat
  | _, _ => false
/-- Equality of two values that are no NaN, zeros of either sign equal. -/
def FV.eq (a b : FV) : Bool := !a.isNan && !b.isNan && !FV.lt a b && !FV.lt b a

/-- VFMIN and VFMAX (08 R190): which operand is the result, or the canonical NaN; -0 is below +0. -/
def FV.least (a b : FV) : Option Bool × Nat :=
  if a.isSnan || b.isSnan then (none, fNV)
  else if a.isNan && b.isNan then (none, 0)
  else if a.isNan then (some false, 0)
  else if b.isNan then (some true, 0)
  else (some (FV.lt a b || (FV.eq a b && a.neg)), 0)

/-- The lesser operand's bits (08 R190). -/
def FFormat.min (f : FFormat) (a b : Nat) : Nat × Nat :=
  match (f.unpack a).least (f.unpack b) with
  | (none, x) => (f.nan, x)
  | (some true, x) => (a, x)
  | (some false, x) => (b, x)
/-- The greater operand's bits (08 R190). -/
def FFormat.max (f : FFormat) (a b : Nat) : Nat × Nat :=
  match (f.unpack a).least (f.unpack b) with
  | (none, x) => (f.nan, x)
  | (some true, x) => (if (f.unpack b).isNan then a else b, x)
  | (some false, x) => (if (f.unpack a).isNan then b else a, x)

/-- An exact result with its flags, rounded to a format (02 R29, R30). -/
def FFormat.result (f : FFormat) (rm : Nat) (v : FV × Nat) : Nat × Nat :=
  let r := f.pack rm v.1
  (r.1, r.2 ||| v.2)

/-- A value rounded to an integer under a rounding mode: its magnitude and whether that is inexact (08 R190, R200). -/
def integral (rm : Nat) (neg : Bool) (m : Nat) (e : Int) : Nat × Bool := roundTo rm neg m e 0

/-- The conversion to an integer format with bounds `lo` and `hi` (08 R200). -/
def toInteger (rm : Nat) (lo hi : Int) : FV → Int × Nat
  | .nan _ => (0, fNV)
  | .esc => (0, fNV)
  | .inf n => (if n then lo else hi, fNV)
  | .zero _ => (0, 0)
  | .fin n m e =>
    let r := integral rm n m e
    let i := signed n r.1
    if i < lo then (lo, fNV) else if hi < i then (hi, fNV) else (i, fIf r.2 fNX)

/-- VFRND (08 R190): a value rounded to an integral value of its format; NX when it changes. -/
def FFormat.toIntegral (f : FFormat) (rm : Nat) (a : Nat) : Nat × Nat :=
  match f.unpack a with
  | .nan s => (f.nan, fIf s fNV)
  | .esc => (f.nan, fNV)
  | .inf n => (f.inf n, 0)
  | .zero n => (f.zero n, 0)
  | .fin n m e =>
    let r := integral rm n m e
    ((if r.1 = 0 then f.zero n else (f.round 0 n r.1 0).1), fIf r.2 fNX)

/-- The class mask of FCLASS (08 R211). -/
def FFormat.classMask (f : FFormat) (a : Nat) : Nat :=
  let e := field a f.mbits f.ebits
  match f.unpack a with
  | .nan s => if s then 256 else 512
  | .esc => 256
  | .inf n => if n then 1 else 128
  | .zero n => if n then 8 else 16
  | .fin n _ _ => if e = 0 then (if n then 4 else 32) else (if n then 2 else 64)

/-- The f64 or f32 of an atomic (12 R296). -/
def atomFormat (size : Nat) : FFormat := if size = 8 then f64 else f32
/-- AFADD: to nearest, ties to even (12 R296). -/
def floatAtomAdd (size m t : Nat) : Nat :=
  ((atomFormat size).result 0 (FV.add 0 ((atomFormat size).unpack m) ((atomFormat size).unpack t))).1
/-- AFMIN (12 R296). -/
def floatAtomMin (size m t : Nat) : Nat := ((atomFormat size).min m t).1
/-- AFMAX (12 R296). -/
def floatAtomMax (size m t : Nat) : Nat := ((atomFormat size).max m t).1

/-! The narrow family (02 R33 to R39). -/

/-- The fields of a narrow format descriptor (02 R33). -/
structure Narrow where
  w : Nat
  s : Nat
  e : Nat
  bias : Int
  special : Nat
  zc : Nat
  blk : Nat
  scf : Nat
  sat : Bool
  rsv : Nat
  deriving DecidableEq, Repr

/-- A descriptor's fields (02 R33). -/
def narrowOf (d : Nat) : Narrow :=
  ⟨field d 0 4, field d 4 1, field d 5 3, sextNat 8 (field d 8 8), field d 16 2, field d 18 2, field d 20 4, field d 24 4,
   bit d 28, field d 29 3⟩

/-- Whether a descriptor is legal (02 R33, R34). -/
def Narrow.legal (n : Narrow) : Bool :=
  2 ≤ n.w && n.w ≤ 8 && n.rsv == 0 && n.scf ≤ 2 && (n.blk == 0 || n.blk == 4 || n.blk == 5 || n.blk == 6) &&
  n.zc ≤ 2 && n.special ≤ 2 && n.e ≤ n.w - n.s &&
  !(n.special == 2 && (n.e < 2 || n.w - n.s - n.e == 0)) && !(n.zc != 0 && n.s == 0) && !(n.blk != 0 && n.scf == 0)

/-- M, the mantissa bits (02 R33). -/
def Narrow.m (n : Narrow) : Nat := n.w - n.s - n.e

/-- A magnitude that encodes a finite value (02 R35). -/
def Narrow.magnitude (n : Narrow) (neg : Bool) (mg : Nat) : FV :=
  if n.e = 0 then (if mg = 0 then .zero neg else .fin neg mg (-n.bias))
  else
    let ef := mg / 2 ^ n.m
    let f := mg % 2 ^ n.m
    if ef = 0 then (if f = 0 then .zero neg else .fin neg f (1 - n.bias - n.m))
    else .fin neg (2 ^ n.m + f) (ef - n.bias - n.m)

/-- The value of a code (02 R35). A NaN code is a quiet NaN (log entry 94). -/
def Narrow.decode (n : Narrow) (c : Nat) : FV :=
  let c := c % 2 ^ n.w
  let sg := n.s == 1 && bit c (n.w - 1)
  let mg := c % 2 ^ (n.w - n.s)
  if sg && mg == 0 && n.zc == 0 then .zero true
  else if sg && mg == 0 && n.zc == 1 then .esc
  else if sg && mg == 0 && n.zc == 2 then .nan false
  else if n.special == 1 && mg == 2 ^ (n.w - n.s) - 1 then .nan false
  else if n.special == 2 && n.e != 0 && mg / 2 ^ n.m == 2 ^ n.e - 1 then
    (if mg % 2 ^ n.m = 0 then .inf sg else .nan false)
  else n.magnitude sg mg

/-- The magnitude of MAXFIN (02 R36). -/
def Narrow.maxMag (n : Narrow) : Nat :=
  if n.special = 1 then 2 ^ (n.w - n.s) - 2
  else if n.special = 2 then (2 ^ n.e - 1) * 2 ^ n.m - 1
  else 2 ^ (n.w - n.s) - 1

/-- The canonical NaN code (02 R36). -/
def Narrow.nanCode (n : Narrow) : Option Nat :=
  if n.zc = 2 then some (2 ^ (n.w - 1))
  else if n.special = 1 then some (2 ^ (n.w - n.s) - 1)
  else if n.special = 2 then some ((2 ^ n.e - 1) * 2 ^ n.m + 2 ^ (n.m - 1))
  else none

/-- The sign bit of a code. -/
def Narrow.sign (n : Narrow) (sg : Bool) : Nat := if sg then 2 ^ (n.w - 1) else 0

/-- The overflow part of R38. -/
def Narrow.overflow (n : Narrow) (sg : Bool) : Nat × Nat :=
  if n.s = 0 && sg then (0, fSAT ||| fNX)
  else if n.special = 2 && !n.sat then (n.sign sg + (2 ^ n.e - 1) * 2 ^ n.m, fOF ||| fNX)
  else if n.special = 1 && !n.sat then (n.nanCode.getD 0, fOF ||| fNX)
  else ((if n.maxMag = 0 && n.zc != 0 then 0 else n.sign sg) + n.maxMag, fSAT ||| fNX)

/-- Encoding into a narrow format (02 R38, R39): the code and the flags. -/
def Narrow.encode (n : Narrow) (y : FV) : Nat × Nat :=
  match y with
  | .nan _ => match n.nanCode with
    | some c => (c, 0)
    | none => (0, fNV)
  | .esc => match n.nanCode with
    | some c => (c, 0)
    | none => (0, fNV)
  | .inf sg => if n.s = 0 && sg then (0, fSAT ||| fNX) else n.overflow sg
  | .zero sg => if sg && n.s = 1 && n.zc = 0 then (n.sign true, 0) else (0, 0)
  | .fin sg m e =>
    let half : Int := -n.bias - 1 + (if n.e = 0 then 0 else (1 : Int) - n.m)
    if n.s = 0 && sg && FV.lt (.fin false 1 half) (.fin false m e) then (0, fSAT ||| fNX)
    else
      let q : Int := if n.e = 0 then -n.bias else max (m.log2 + e) (1 - n.bias) - n.m
      let r := roundTo 0 sg m e q
      let nx := fIf r.2 fNX
      if r.1 ≠ 0 && FV.lt (n.magnitude false n.maxMag) (.fin false r.1 q) then
        let o := n.overflow sg
        (o.1, o.2 ||| nx)
      else
        let small := if n.e = 0 then r.1 == 0 else r.1 == 0 || FV.lt (.fin false r.1 q) (.fin false 1 (1 - n.bias))
        let fl := nx ||| fIf (r.2 && small) fUF
        if r.1 = 0 then (if sg && n.s = 1 && n.zc = 0 then n.sign true else 0, fl)
        else
          let mg := if n.e = 0 then r.1 else ((q - (1 - n.bias - n.m)) * 2 ^ n.m).toNat + r.1
          (n.sign sg + mg, fl)

/-- The value of a scale (02 R37). -/
def scaleValue (scf b : Nat) : FV :=
  if scf = 1 then (if b = 255 then .nan false else .fin false 1 ((b : Int) - 127))
  else if scf = 2 then bf16.unpack b
  else .fin false 1 0

/-- The f32 values rne32(2^(j/64)) for j = 0 to 63 (08 R194), computed from that formula. -/
def exp2Table : List Nat :=
  [0x3F800000, 0x3F8164D2, 0x3F82CD87, 0x3F843A29, 0x3F85AAC3, 0x3F871F62, 0x3F88980F, 0x3F8A14D5] ++
  [0x3F8B95C2, 0x3F8D1ADF, 0x3F8EA43A, 0x3F9031DC, 0x3F91C3D3, 0x3F935A2B, 0x3F94F4F0, 0x3F96942D] ++
  [0x3F9837F0, 0x3F99E046, 0x3F9B8D3A, 0x3F9D3EDA, 0x3F9EF532, 0x3FA0B051, 0x3FA27043, 0x3FA43516] ++
  [0x3FA5FED7, 0x3FA7CD94, 0x3FA9A15B, 0x3FAB7A3A, 0x3FAD583F, 0x3FAF3B79, 0x3FB123F6, 0x3FB311C4] ++
  [0x3FB504F3, 0x3FB6FD92, 0x3FB8FBAF, 0x3FBAFF5B, 0x3FBD08A4, 0x3FBF179A, 0x3FC12C4D, 0x3FC346CD] ++
  [0x3FC5672A, 0x3FC78D75, 0x3FC9B9BE, 0x3FCBEC15, 0x3FCE248C, 0x3FD06334, 0x3FD2A81E, 0x3FD4F35B] ++
  [0x3FD744FD, 0x3FD99D16, 0x3FDBFBB8, 0x3FDE60F5, 0x3FE0CCDF, 0x3FE33F89, 0x3FE5B907, 0x3FE8396A] ++
  [0x3FEAC0C7, 0x3FED4F30, 0x3FEFE4BA, 0x3FF28177, 0x3FF5257D, 0x3FF7D0DF, 0x3FFA83B3, 0x3FFD3E0C]

/-- The f32 values rne32(-log2(rne32(64 / (64 + j)))) for j = 0 to 63 (08 R195), computed from that formula. -/
def log2Table : List Nat :=
  [0x00000000, 0x3CB73CB3, 0x3D35D690, 0x3D8759C9, 0x3DB31FB7, 0x3DDE420E, 0x3E0462C4, 0x3E195751] ++
  [0x3E2E00D1, 0x3E42615F, 0x3E567AEF, 0x3E6A4F70, 0x3E7DE0B5, 0x3E88983F, 0x3E92203D, 0x3E9B8925] ++
  [0x3EA4D3C2, 0x3EAE00D1, 0x3EB71110, 0x3EC0052D, 0x3EC8DDD3, 0x3ED19BAF, 0x3EDA3F60, 0x3EE2C97E] ++
  [0x3EEB3A9E, 0x3EF39355, 0x3EFBD42A, 0x3F01FED4, 0x3F060828, 0x3F0A0650, 0x3F0DF98A, 0x3F11E20E] ++
  [0x3F15C01A, 0x3F1993E4, 0x3F1D5DA0, 0x3F211D84, 0x3F24D3C3, 0x3F28808D, 0x3F2C2410, 0x3F2FBE7F] ++
  [0x3F335004, 0x3F36D8CA, 0x3F3A58FE, 0x3F3DD0C9, 0x3F41404E, 0x3F44A7BB, 0x3F480731, 0x3F4B5ED6] ++
  [0x3F4EAECF, 0x3F51F740, 0x3F553847, 0x3F58720A, 0x3F5BA4A5, 0x3F5ED038, 0x3F61F4E5, 0x3F6512C6] ++
  [0x3F6829FA, 0x3F6B3AA0, 0x3F6E44CF, 0x3F7148A2, 0x3F744636, 0x3F773DA2, 0x3F7A2F03, 0x3F7D1A71]

/-! VRCP, VRSQ, VEXP2 and VLOG2 (08 R191 to R195). Sums are exact: numerators over a power of two and a small denominator. -/

/-- The f32 value of bits as significand and exponent; for the positive finite constants of the procedures. -/
def f32parts (b : Nat) : Nat × Int :=
  match f32.unpack b with
  | .fin _ m e => (m, e)
  | _ => (0, 0)

/-- rne32 of a quotient of naturals. -/
def rneQuot (n d : Nat) : Nat := (f32.pack 0 (quotient false n d 0)).1
/-- rne32 of 8 / sqrt(n): the root of 64 / n, its quotient carried to 512 bits. -/
def rneInvRoot (n : Nat) : Nat :=
  let w := 64 * 2 ^ 512 / n
  let r := isqrt w (w.log2 / 2 + 1) 0
  (f32.pack 0 (.fin false (2 * r + 1) (-257))).1

/-- An integer numerator over `2^k`. -/
structure Dy where
  n : Int
  k : Nat
  deriving DecidableEq, Repr
/-- Exact sum. -/
def Dy.add (a b : Dy) : Dy := ⟨a.n * 2 ^ b.k + b.n * 2 ^ a.k, a.k + b.k⟩
/-- Exact product. -/
def Dy.mul (a b : Dy) : Dy := ⟨a.n * b.n, a.k + b.k⟩
/-- An integer. -/
def Dy.int (n : Int) : Dy := ⟨n, 0⟩
/-- `m × 2^e` with `e` at most 0. -/
def Dy.ofParts (p : Nat × Int) : Dy := ⟨p.1 * 2 ^ p.2.toNat, (-p.2).toNat⟩

/-- round32 of `y / d × 2^e` (08 R191), marked inexact. -/
def roundDy (rm : Nat) (neg : Bool) (y : Dy) (d : Nat) (e : Int) (zneg : Bool) : Nat × Nat :=
  if y.n = 0 then (f32.zero zneg, fNX)
  else
    let r := f32.pack rm (quotient (neg != (y.n < 0)) y.n.natAbs d (e - y.k))
    (r.1, r.2 ||| fNX)

/-- split(x) of 08 R191 for a finite nonzero value: the integer e and m in [1, 2) as 2^(-63) units. -/
def split (m : Nat) (e : Int) : Int × Dy := (m.log2 + e, ⟨m, m.log2⟩)

/-- VRCP (08 R192). -/
def vrcp (rm a : Nat) : Nat × Nat :=
  match f32.unpack a with
  | .nan s => (f32.nan, fIf s fNV)
  | .esc => (f32.nan, fNV)
  | .zero n => (f32.inf n, fDZ)
  | .inf n => (f32.zero n, 0)
  | .fin sg m e =>
    let (ex, mm) := split m e
    if mm.n = 2 ^ mm.k then f32.pack rm (.fin sg 1 (-ex))
    else
      let j := 64 * (mm.n.toNat - 2 ^ mm.k) / 2 ^ mm.k
      let rc := Dy.ofParts (f32parts (rneQuot 128 (129 + 2 * j)))
      let d := (mm.mul rc).add (.int (-1))
      let y := rc.mul ((Dy.int 1).add ((d.mul ⟨-1, 0⟩).add ((d.mul d).add ((d.mul (d.mul d)).mul ⟨-1, 0⟩))))
      roundDy rm sg y 1 (-ex) sg

/-- VRSQ (08 R193). -/
def vrsq (rm a : Nat) : Nat × Nat :=
  match f32.unpack a with
  | .nan s => (f32.nan, fIf s fNV)
  | .esc => (f32.nan, fNV)
  | .zero n => (f32.inf n, fDZ)
  | .inf n => if n then (f32.nan, fNV) else (f32.zero false, 0)
  | .fin sg m e =>
    if sg then (f32.nan, fNV)
    else
      let (ex0, m0) := split m e
      let odd := ex0 % 2 != 0
      let ex := if odd then ex0 - 1 else ex0
      let mm : Dy := if odd then ⟨2 * m0.n, m0.k⟩ else m0
      if mm.n = 2 ^ mm.k then f32.pack rm (.fin false 1 (-(ex / 2)))
      else
        let j := 32 * (mm.n.toNat - 2 ^ mm.k) / 2 ^ mm.k
        let rc := Dy.ofParts (f32parts (rneInvRoot (65 + 2 * j)))
        let d := (mm.mul (rc.mul rc)).add (.int (-1))
        let d2 := d.mul d
        let y := rc.mul ((Dy.int 1).add ((d.mul ⟨-1, 1⟩).add ((d2.mul ⟨3, 3⟩).add
          (((d2.mul d).mul ⟨-5, 4⟩).add ((d2.mul d2).mul ⟨35, 7⟩)))))
        roundDy rm false y 1 (-(ex / 2)) false

/-- VEXP2 (08 R194): L is 0x3F317218. The power is clamped to ±400, far outside the range of f32: the rounding is the same. -/
def vexp2 (rm a : Nat) : Nat × Nat :=
  match f32.unpack a with
  | .nan s => (f32.nan, fIf s fNV)
  | .esc => (f32.nan, fNV)
  | .inf n => if n then (f32.zero false, 0) else (f32.inf false, 0)
  | .zero _ => f32.pack rm (.fin false 1 0)
  | .fin sg m e =>
    let x : Dy := ⟨signed sg m * 2 ^ e.toNat, (-e).toNat⟩
    let n := x.n / 2 ^ x.k
    let c := max (-400) (min n 400)
    let f : Dy := ⟨x.n % 2 ^ x.k, x.k⟩
    if f.n = 0 then f32.pack rm (.fin false 1 c)
    else
      let j := 64 * f.n.toNat / 2 ^ f.k
      let g := f.add ⟨-(j : Int), 6⟩
      let tb := Dy.ofParts (f32parts (exp2Table.getD j 0))
      let h := g.mul (Dy.ofParts (f32parts 0x3F317218))
      let h2 := h.mul h
      let y := tb.mul ((Dy.int 6).add ((h.mul (.int 6)).add ((h2.mul (.int 3)).add (h2.mul h))))
      roundDy rm false y 6 c false

/-- VLOG2 (08 R195): K is 0x3FB8AA3B. -/
def vlog2 (rm a : Nat) : Nat × Nat :=
  match f32.unpack a with
  | .nan s => (f32.nan, fIf s fNV)
  | .esc => (f32.nan, fNV)
  | .zero _ => (f32.inf true, fDZ)
  | .inf n => if n then (f32.nan, fNV) else (f32.inf false, 0)
  | .fin sg m e =>
    if sg then (f32.nan, fNV)
    else
      let (ex, mm) := split m e
      if mm.n = 2 ^ mm.k then f32.pack rm (FV.ofInt ex 0 false)
      else
        let j := 64 * (mm.n.toNat - 2 ^ mm.k) / 2 ^ mm.k
        let q := Dy.ofParts (f32parts (rneQuot 64 (64 + j)))
        let lj := Dy.ofParts (f32parts (log2Table.getD j 0))
        let u := (mm.mul q).add (.int (-1))
        let u2 := u.mul u
        let p := (u.mul (.int 12)).add ((u2.mul (.int (-6))).add (((u2.mul u).mul (.int 4)).add ((u2.mul u2).mul (.int (-3)))))
        let k := Dy.ofParts (f32parts 0x3FB8AA3B)
        let y := (((Dy.int ex).add lj).mul (.int 12)).add (k.mul p)
        roundDy rm false y 12 0 (rm == 2)

end Sys2Proof.Machine
end

