-- ==== Sys2Proof/Machine/Mem.lean ====
section
/-!
DEFINITION. Memory as bytes at physical addresses, with presence and poison a word. A physical address is a number: DRAM in
the order module, stack, channel, offset (03 R50, 04 R81), then the local memory of each core, the engine stores of each
cluster (04 R82) and the host memory of each module (04 R81).
-/
namespace Sys2Proof.Machine

/-- What an unlisted byte reads as: a wiped word reads zero (15 R362). -/
def Memory.blank : Byte := 0

/-- The value of the first listed cell at an address. -/
def cellAt : List Host.Cell → Nat → Byte
  | [], _ => Memory.blank
  | (b, v) :: r, a => if b = a then v else if a < b then Memory.blank else cellAt r a

/-- The cells with byte `v` at address `a`, in the canonical form: addresses rising, no listed byte that an unlisted address
reads as. -/
def cellPut : List Host.Cell → Nat → Byte → List Host.Cell
  | [], a, v => if v = Memory.blank then [] else [(a, v)]
  | (b, w) :: r, a, v =>
    if a < b then (if v = Memory.blank then (b, w) :: r else (a, v) :: (b, w) :: r)
    else if a = b then (if v = Memory.blank then r else (a, v) :: r)
    else (b, w) :: cellPut r a v

/-- Addresses strictly rising above `lo`, no blank byte. -/
def cellsWf : Nat → List Host.Cell → Bool
  | _, [] => true
  | lo, (a, v) :: r => lo ≤ a && v != Memory.blank && cellsWf (a + 1) r

/-- Numbers strictly rising from `lo`. -/
def risingFrom : Nat → List Nat → Bool
  | _, [] => true
  | lo, a :: r => lo ≤ a && risingFrom (a + 1) r

/-- The canonical form of memory. -/
def Memory.wf (m : Memory) : Bool := cellsWf 0 m.cells && risingFrom 0 m.empties && risingFrom 0 m.poison

/-- One byte of memory. -/
def Memory.byte (m : Memory) (a : Nat) : Byte := cellAt m.cells a

/-- Memory with one byte written. -/
def Memory.putByte (m : Memory) (a : Nat) (v : Byte) : Memory := { m with cells := cellPut m.cells a v }

/-- `n` bytes from `a` up as a number, the lowest address least significant (00 R5). -/
def Memory.read (m : Memory) (a : Nat) : Nat → Nat
  | 0 => 0
  | n + 1 => (m.byte a).toNat + 256 * Memory.read m (a + 1) n

/-- Memory with the low `n` bytes of `v` written from `a` up (00 R5). -/
def Memory.write (m : Memory) (a : Nat) : Nat → Nat → Memory
  | 0, _ => m
  | n + 1, v => Memory.write (m.putByte a (BitVec.ofNat 8 v)) (a + 1) n (v / 256)

/-- The number of the 8-byte word that holds address `a`. -/
def wordOf (a : Nat) : Nat := a / 8

/-- P of word `w` (12 R281). -/
def Memory.full (m : Memory) (w : Nat) : Bool := !m.empties.contains w

/-- Memory with P of word `w` set (12 R281). -/
def Memory.setFull (m : Memory) (w : Nat) (p : Bool) : Memory :=
  { m with empties := if p then setErase m.empties w else setInsert m.empties w }

/-- Whether word `w` holds the reserved poison pattern (07 R181). -/
def Memory.poisoned (m : Memory) (w : Nat) : Bool := m.poison.contains w

/-- Memory with word `w` poisoned or healed (07 R181, R183). -/
def Memory.setPoison (m : Memory) (w : Nat) (p : Bool) : Memory :=
  { m with poison := if p then setInsert m.poison w else setErase m.poison w }

/-- Memory with the addresses from `lo` to `hi - 1` zero, P = 1 and no poison (14 R350, 15 R361). -/
def Memory.wipe (m : Memory) (lo hi : Nat) : Memory where
  cells := m.cells.filter fun c => c.1 < lo || hi ≤ c.1
  empties := m.empties.filter fun w => w * 8 < lo || hi ≤ w * 8
  poison := m.poison.filter fun w => w * 8 < lo || hi ≤ w * 8

/-- The physical address of DRAM (03 R50). -/
def dramAddr (m stack ch off : Nat) : Nat := ((m * 16 + stack) * 32 + ch) * 2 ^ 31 + off
/-- The physical address of a core's local memory. -/
def localAddr (cid off : Nat) : Nat := 2 ^ 60 + cid * 2 ^ 19 + off
/-- The physical address of an engine store unit, 24 to 28, of a cluster. -/
def storeAddr (cl unit off : Nat) : Nat := 2 ^ 61 + (cl * 32 + unit) * 2 ^ 19 + off
/-- The physical address of host memory behind a module's endpoint. -/
def hostAddr (m a : Nat) : Nat := 2 ^ 62 + m * 2 ^ 52 + a

/-- Whether a physical address is host memory, which has no tag bits (12 R281). -/
def isHostAddr (a : Nat) : Bool := 2 ^ 62 ≤ a
/-- Whether a physical address lies in an engine store (04 R82). -/
def isStoreAddr (a : Nat) : Bool := 2 ^ 61 ≤ a && a < 2 ^ 62
/-- Whether a physical address is DRAM. -/
def isDramAddr (a : Nat) : Bool := a < 2 ^ 60

/-- The wait pool of a word's home controller (12 R291): its number and its size. -/
def poolOf (a : Nat) : Nat × Nat :=
  if isDramAddr a then (a / 2 ^ 31, 2048)
  else if isStoreAddr a then (2 ^ 41 + (a - 2 ^ 61) / 2 ^ 24, 256)
  else (2 ^ 40 + (a - 2 ^ 60) / 2 ^ 19, 256)

end Sys2Proof.Machine
end

