-- ==== Sys2Proof/Machine/Ops.lean ====
section
/-!
DEFINITION. The named operations of the machine: places and keys, threads and their registers, posting fault records, packets,
taking a trap and returning from one (14 R327, R329), rolling a region back (07 R172).
-/
namespace Sys2Proof.Machine

/-! Causes (14 R323). -/
def Cause.illegal : Nat := 0x001
def Cause.reserved : Nat := 0x002
def Cause.privilege : Nat := 0x003
def Cause.prefixStray : Nat := 0x004
def Cause.regWindow : Nat := 0x005
def Cause.illegalFormat : Nat := 0x006
def Cause.intDivZero : Nat := 0x040
def Cause.fpInvalid : Nat := 0x041
def Cause.fpDivZero : Nat := 0x042
def Cause.fpOverflow : Nat := 0x043
def Cause.badAddress : Nat := 0x080
def Cause.misaligned : Nat := 0x081
def Cause.badOffset : Nat := 0x082
def Cause.badCid : Nat := 0x083
def Cause.protection : Nat := 0x084
def Cause.notPresent : Nat := 0x085
def Cause.writeProtect : Nat := 0x086
def Cause.badPte : Nat := 0x087
def Cause.deadPage : Nat := 0x088
def Cause.poison : Nat := 0x089
def Cause.storeRefused : Nat := 0x08A
def Cause.unsupportedOp : Nat := 0x08B
def Cause.hostAtomicUr : Nat := 0x08C
def Cause.hostAtomicCa : Nat := 0x08D
def Cause.hostReadUr : Nat := 0x08E
def Cause.hostReadCa : Nat := 0x08F
def Cause.waitTimeout : Nat := 0x090
def Cause.regionAtomic : Nat := 0x091
def Cause.regionState : Nat := 0x092
def Cause.hostTimeout : Nat := 0x093
def Cause.badDescriptor : Nat := 0x100
def Cause.badClass : Nat := 0x101
def Cause.noHandler : Nat := 0x102
def Cause.allAsleep : Nat := 0x103
def Cause.badThread : Nat := 0x104
def Cause.ladleFault : Nat := 0x140
def Cause.ladleHandle : Nat := 0x141
def Cause.badOperand : Nat := 0x142
def Cause.badSelector : Nat := 0x143
def Cause.domainMismatch : Nat := 0x144
def Cause.sprueMismatch : Nat := 0x145
def Cause.sprueOverflow : Nat := 0x146
def Cause.ringTableFull : Nat := 0x147
def Cause.accumBusy : Nat := 0x148
def Cause.flaskMismatch : Nat := 0x180
def Cause.flaskAbort : Nat := 0x181
def Cause.flaskUnknown : Nat := 0x182
def Cause.flaskState : Nat := 0x183
def Cause.flaskLeft : Nat := 0x184
def Cause.flaskPreempted : Nat := 0x185
def Cause.linkUnreachable : Nat := 0x1C0
def Cause.breakpoint : Nat := 0x1E0
def Cause.trapState : Nat := 0x1E1
def Cause.doubleTrap : Nat := 0x1E2
def Cause.software (n : Nat) : Nat := 0x1F0 + n

/-- The class of a cause (14 R322). -/
def causeClass (c : Nat) : Nat :=
  if c < 0x040 then 0 else if c < 0x080 then 1 else if c < 0x100 then 2 else if c < 0x140 then 3
  else if c < 0x180 then 4 else if c < 0x1C0 then 5 else if c < 0x1E0 then 6 else 7

/-! Places (04 R72, R75). A cluster is numbered by CID[25:5]. -/

/-- The module of a core. -/
def cidModule (cid : Nat) : Nat := cid / 2 ^ 14
/-- The die of a core. -/
def cidDie (cid : Nat) : Nat := cid / 2 ^ 10 % 16
/-- The cluster of a core. -/
def cidCluster (cid : Nat) : Nat := cid / 32
/-- The core's number in its cluster. -/
def cidCore (cid : Nat) : Nat := cid % 32
/-- Whether the fields of a CID are valid (04 R72). -/
def cidValid (cid : Nat) : Bool := cid / 32 % 32 < 23 && cid % 32 < 24
/-- The module of a cluster. -/
def clusterModule (cl : Nat) : Nat := cl / 2 ^ 9
/-- The destination key of a cluster (04 R75). -/
def clusterKey (cl : Nat) : Nat := cl / 32 * 64 + cl % 32
/-- The destination key of a core's cluster. -/
def cidKey (cid : Nat) : Nat := clusterKey (cidCluster cid)
/-- The destination key of a DRAM channel (04 R75). -/
def channelKey (m stack ch : Nat) : Nat := (m * 16 + stack) * 64 + 32 + ch
/-- The destination key of a module's endpoint (04 R75). -/
def endpointKey (m : Nat) : Nat := m * 16 * 64 + 25
/-- The destination key of a die's management core (04 R75); the one of die 0 speaks for the module. -/
def mgmtKey (m : Nat) : Nat := m * 16 * 64 + 24
/-- The module of a destination key. -/
def keyModule (d : Nat) : Nat := d / 1024
/-- The source number of a core's packets: R78 orders the packets of one source. -/
def coreSource (cid : Nat) : Nat := 2 ^ 30 + cid
/-- The host cluster of a channel of a stack, as a cluster number (04 R74). -/
def hostCluster (m stack ch : Nat) : Nat := (m * 16 + stack) * 32 + 23 * ch / 32

/-! Parts of the state. -/

/-- The core `cid`. -/
def State.core (s : State) (cid : Nat) : Core := Tab.get Core.fresh s.cores cid
/-- The state with core `cid` replaced. -/
def State.setCore (s : State) (cid : Nat) (c : Core) : State := { s with cores := Tab.set s.cores cid c }
/-- The state with core `cid` changed. -/
def State.onCore (s : State) (cid : Nat) (f : Core → Core) : State := s.setCore cid (f (s.core cid))
/-- The cluster `cl`. -/
def State.cluster (s : State) (cl : Nat) : Cluster := Tab.get Cluster.fresh s.clusters cl
/-- The state with cluster `cl` changed. -/
def State.onCluster (s : State) (cl : Nat) (f : Cluster → Cluster) : State :=
  { s with clusters := Tab.set s.clusters cl (f (s.cluster cl)) }
/-- The module `m`. -/
def State.module (s : State) (m : Nat) : Module := Tab.get Module.fresh s.modules m
/-- The state with module `m` changed. -/
def State.onModule (s : State) (m : Nat) (f : Module → Module) : State :=
  { s with modules := Tab.set s.modules m (f (s.module m)) }
/-- The slot of a core. -/
def Core.slot (c : Core) (slot : Nat) : Thread := Tab.get Thread.fresh c.slots slot
/-- The thread `cid`, `slot`. -/
def State.thread (s : State) (cid slot : Nat) : Thread := (s.core cid).slot slot
/-- The state with the thread `cid`, `slot` changed. -/
def State.onThread (s : State) (cid slot : Nat) (f : Thread → Thread) : State :=
  s.onCore cid fun c => { c with slots := Tab.set c.slots slot (f (c.slot slot)) }
/-- The thread that issues. -/
def State.thr (s : State) : Thread := s.thread s.cur.1 s.cur.2
/-- The state with the thread that issues changed. -/
def State.onThr (s : State) (f : Thread → Thread) : State := s.onThread s.cur.1 s.cur.2 f
/-- The core cycle count of the issuing core. -/
def State.now (s : State) : Nat := (s.core s.cur.1).cyc
/-- Reads a free value: the counter `tick` selects it and moves on (log entry 2). -/
def State.free (s : State) (k : Nat) : Nat × State := ((Config.freeWord k s.tick).toNat, { s with tick := s.tick + 1 })

/-- The domain slot of module `m` bound to a tag (03 R58). -/
def State.domain? (s : State) (m dom : Nat) : Option (Nat × Domain) :=
  if dom = 0 then none else (s.module m).domains.find? fun p => p.2.tag == dom
/-- The state with the domain's entry on module `m` changed. -/
def State.onDomain (s : State) (m dom : Nat) (f : Domain → Domain) : State :=
  s.onModule m fun x => { x with domains := x.domains.map fun p => if p.2.tag == dom then (p.1, f p.2) else p }

/-- Whether a forced unbinding of a domain runs on module `m` (15 R360). -/
def State.unbinding (s : State) (m dom : Nat) : Bool :=
  match s.domain? m dom with
  | some (_, d) => d.unbinding
  | none => false

/-- The launch record words of a task's launch (01 R15). -/
def State.launchRec (s : State) (l : Option (Nat × Nat)) : List Word :=
  match l with
  | none => []
  | some (m, n) => match (s.module m).launches.find? fun x => x.id == n with
    | some x => x.rec_
    | none => []
/-- TAG of a task's launch (01 R15, 14 R332). -/
def State.launchTag (s : State) (l : Option (Nat × Nat)) : Word := (s.launchRec l).getD 7 0

/-! Registers of a thread. -/

/-- gK of the thread in a slot: entry BASE + K of its core's register file (06 R133). -/
def State.gOf (s : State) (cid slot k : Nat) : Word := Tab.get 0 (s.core cid).rf ((s.thread cid slot).base + k)
/-- Writes gK of the thread in a slot (06 R133). -/
def State.setGOf (s : State) (cid slot k : Nat) (v : Word) : State :=
  s.onCore cid fun c => { c with rf := Tab.set c.rf ((s.thread cid slot).base + k) v }
/-- gK of the issuing thread (06 R133, R134). -/
def State.g (s : State) (k : Nat) : Word := s.gOf s.cur.1 s.cur.2 k
/-- Writes gK of the issuing thread. -/
def State.setG (s : State) (k : Nat) (v : Word) : State := s.setGOf s.cur.1 s.cur.2 k v
/-- The value of gK as a number. -/
def State.gn (s : State) (k : Nat) : Nat := (s.g k).toNat

/-- All ones. -/
def ones : Word := BitVec.allOnes 64
/-- pN of a thread: p0 reads all ones (06 R135). -/
def Thread.pred (t : Thread) (n : Nat) : Word := if n = 0 then ones else t.preds.getD n 0
/-- A thread with pN written: a write to p0 is discarded (06 R135). -/
def Thread.setPred (t : Thread) (n : Nat) (v : Word) : Thread :=
  if n = 0 then t else { t with preds := listSet t.preds n v }
/-- pN of the issuing thread. -/
def State.p (s : State) (n : Nat) : Word := s.thr.pred n
/-- Writes pN of the issuing thread. -/
def State.setP (s : State) (n : Nat) (v : Word) : State := s.onThr fun t => t.setPred n v
/-- fdN of a thread: fd15 reads the native format (08 R186). -/
def Thread.fd (t : Thread) (n : Nat) : BitVec 32 := if n = 15 then 0x18 else t.fds.getD n 0
/-- A thread with fdN written: a write to fd15 is discarded (08 R186). -/
def Thread.setFd (t : Thread) (n : Nat) (v : BitVec 32) : Thread :=
  if n = 15 then t else { t with fds := listSet t.fds n v }

/-- A bit of TSW (06 R139). -/
def Thread.tswBit (t : Thread) (k : Nat) : Bool := t.tsw.getLsbD k
/-- A thread with a bit of TSW written (06 R139). -/
def Thread.setTswBit (t : Thread) (k : Nat) (b : Bool) : Thread :=
  { t with tsw := BitVec.ofNat 64 (putField t.tsw.toNat k 1 b.toNat) }
/-- TSW.K (06 R139). -/
def Thread.k (t : Thread) : Bool := t.tswBit 13
/-- TSW.PP (06 R139). -/
def Thread.pp (t : Thread) : Bool := t.tswBit 0
/-- TSW.RG (06 R139). -/
def Thread.rg (t : Thread) : Bool := t.tswBit 15
/-- TSW.MR (06 R139). -/
def Thread.mr (t : Thread) : Bool := t.tswBit 14
/-- TSW.RM (06 R139). -/
def Thread.rm (t : Thread) : Nat := field t.tsw.toNat 16 2

/-- The journal entries of a slot that have not settled, in the order in which they were taken (07 R159). -/
def Core.pending (c : Core) (slot : Nat) : List JEntry := c.journal.filter fun e => e.slot == slot
/-- JSTAT (06 R140). -/
def State.jstat (s : State) (cid slot : Nat) : Word :=
  let t := s.thread cid slot
  BitVec.ofNat 64 (((s.core cid).pending slot).length % 256 * 2 ^ 32 + t.jkind % 16 * 2 ^ 8 + t.jentry % 64)
/-- A thread's name CID‖slot (04 R72). -/
def threadName (cid slot : Nat) : Nat := cid * 256 + slot

/-- Whether a slot may issue (06 R127): READY or TRAP. -/
def TState.runs : TState → Bool
  | .ready => true
  | .trap => true
  | _ => false

/-! Fault records (14 R331, R332). -/

/-- The first seven words of a record (14 R332). -/
def recordWords (kind cause source : Nat) (w1 w2 w3 w4 w5 : Word) : List Word :=
  [BitVec.ofNat 64 (kind % 256 * 2 ^ 56 + cause % 512 * 2 ^ 47 + source % 2 ^ 34), w1, w2, w3, w4, w5, 0]

/-- Raises an MSI-X vector (03 R46). -/
def State.raiseMsix (s : State) (m v : Nat) : State := s.onModule m fun x => { x with msix := x.msix ++ [v] }
/-- Reports an error through AER (03 R46): 1 Poisoned TLP Received, 2 Unexpected Completion, 3 Completion Timeout. -/
def State.raiseAer (s : State) (m v : Nat) : State := s.onModule m fun x => { x with aer := x.aer ++ [v] }

/-- Records that wait for room enter a queue of at most `cap` records, in order; w7 takes SERIAL as they enter (14 R331, R332). -/
def enqueueRecords (cap : Nat) : List (List Word) → List (List Word) → Nat → List (List Word) × List (List Word) × Nat
  | q, [], n => (q, [], n)
  | q, r :: w, n =>
    if q.length < cap then enqueueRecords cap (q ++ [r.take 7 ++ [r.getD 7 0 + BitVec.ofNat 64 (n % 2 ^ 32 * 2 ^ 16)]]) w (n + 1)
    else (q, r :: w, n)

/-- A record with the domain of its w7 (14 R332). -/
def recordOf (dom : Nat) (r : List Word) : List Word := r ++ [BitVec.ofNat 64 (dom % 2 ^ 16)]

/-- Moves waiting records of a domain's fault queue into it (14 R331: 4,096 records). -/
def State.pumpFaultQueue (s : State) (m dom : Nat) : State :=
  s.onDomain m dom fun d =>
    let r := enqueueRecords 4096 d.fq d.fqWait d.serial
    { d with fq := r.1, fqWait := r.2.1, serial := r.2.2 }

/-- Posts a record on a domain's fault queue on a module; a producer that finds it full waits (14 R331). A record posted when
the service thread has ended asks for a new one (14 R333). -/
def State.postRecord (s : State) (m dom : Nat) (r : List Word) : State :=
  (s.onDomain m dom fun d =>
    { d with fqWait := d.fqWait ++ [recordOf dom r], wantService := d.service.isNone }).pumpFaultQueue m dom

/-- Moves waiting records into the host-service queue of 256 records; MSI-X vector 2 when it becomes non-empty (14 R334). -/
def State.pumpHostQueue (s : State) (m : Nat) : State :=
  let x := s.module m
  let r := enqueueRecords 256 x.hsq x.hsWait x.hsSerial
  let s := s.onModule m fun x => { x with hsq := r.1, hsWait := r.2.1, hsSerial := r.2.2 }
  if x.hsq.isEmpty && !r.1.isEmpty then s.raiseMsix m 2 else s

/-- Posts a record on the module's host-service queue (14 R334). -/
def State.postHostRecord (s : State) (m dom : Nat) (r : List Word) : State :=
  (s.onModule m fun x => { x with hsWait := x.hsWait ++ [recordOf dom r] }).pumpHostQueue m

/-- Adds an entry to the module error log (14 R354): a ring of 1,024, MSI-X vector 1. -/
def State.logError (s : State) (m kind dom count : Nat) (place : Nat) : State :=
  (s.onModule m fun x =>
    let e := [BitVec.ofNat 64 (kind * 2 ^ 56 + dom % 2 ^ 16 * 2 ^ 32 + count % 2 ^ 32), BitVec.ofNat 64 place, 0,
      BitVec.ofNat 64 (x.logged % 2 ^ 32)]
    { x with
      log := if x.log.length < 1024 then x.log ++ [e] else x.log.drop 1 ++ [e]
      logged := x.logged + 1
      overrun := if x.log.length < 1024 then x.overrun else x.overrun + 1 }).raiseMsix m 1

/-! Trap tables (14 R324). -/

/-- TTBLc of a domain on a core (14 R324). -/
def Core.ttbl (c : Core) (dom k : Nat) : Word := (Tab.get [] c.traps dom).getD k 0
/-- PC of a trap-table entry (14 R324). -/
def ttblPc (e : Word) : Word := BitVec.ofNat 64 (e.toNat / 4 * 4)
/-- Whether an entry names an in-thread handler (14 R325). -/
def ttblInThread (e : Word) : Bool := e.toNat % 4 == 1 && ttblPc e != 0

/-- A thread with its fetch buffers discarded (05 R103); a sector still on its way is dropped when it arrives. -/
def Thread.dropFetch (t : Thread) : Thread := { t with cur := none, nxt := none, fetches := [] }

/-- The record of a thread trap (14 R332), sent to the host-service queue for the service thread (14 R325, R333). -/
def State.postThreadRecord (s : State) (cid slot cause : Nat) (w1 w2 w4 : Word) : State :=
  let t := s.thread cid slot
  let r := recordWords 1 cause (threadName cid slot) w1 w2 (s.launchTag t.launch) w4 (s.jstat cid slot)
  if t.svc then s.postHostRecord (cidModule cid) t.dom r else s.postRecord (cidModule cid) t.dom r

/-- TCAUSE as a trap writes it (06 R140, 14 R327). -/
def causeWord (async : Bool) (cause : Nat) : Word := BitVec.ofNat 64 (async.toNat * 512 + cause % 512)

/-- The registers of a thread after a trap is pushed (14 R327). -/
def Thread.push (t : Thread) (async : Bool) (cause : Nat) (epc detail : Word) : Thread :=
  let r := t.trap
  let r' : TrapRegs := {
    tcause := causeWord async cause
    tfaddr := detail
    tepc := BitVec.ofNat 64 (epc.toNat / 4 * 4)
    tsave := t.tsw
    tdepth := r.tdepth + 1
    xepc := if r.tdepth = 1 then r.tepc else r.xepc
    xcause := if r.tdepth = 1 then r.tcause else r.xcause
    xfaddr := if r.tdepth = 1 then r.tfaddr else r.xfaddr
    xsave := if r.tdepth = 1 then r.tsave else r.xsave
    tscr := r.tscr }
  { (t.setTswBit 13 true) with trap := r', gathered := [] }

/-- Takes a trap in the thread `cid`, `slot` (14 R327): the one description of trap entry. -/
def State.take (s : State) (cid slot : Nat) (cause : Nat) (async : Bool) (epc detail : Word) : State :=
  let t := s.thread cid slot
  if t.trap.tdepth = 2 then
    (s.onThread cid slot fun t => { t with st := .faulted, wait := .none, issue0 := none, dbl := true }).postThreadRecord
      cid slot Cause.doubleTrap detail epc (causeWord async cause)
  else
    let e := (s.core cid).ttbl t.dom (causeClass cause)
    if ttblInThread e then
      s.onThread cid slot fun t =>
        { (t.push async cause epc detail).dropFetch with pc := ttblPc e, st := .trap, wait := .none, issue0 := none }
    else
      (s.onThread cid slot fun t =>
        { (t.push async cause epc detail) with st := .faulted, wait := .none, issue0 := none }).postThreadRecord
        cid slot cause detail (BitVec.ofNat 64 (epc.toNat / 4 * 4)) (causeWord async cause)

/-- A precise trap of the issuing thread at its instruction (14 R327). -/
def State.trap (s : State) (cause : Nat) (detail : Word) : State :=
  s.take s.cur.1 s.cur.2 cause false s.thr.pc detail

/-- A precise trap of the thread `cid`, `slot` at its instruction (14 R327). -/
def State.trapAt (s : State) (cid slot : Nat) (cause : Nat) (detail : Word) : State :=
  s.take cid slot cause false (s.thread cid slot).pc detail

/-! Regions (07 R172). -/

/-- Writes consecutive registers of a window. -/
def State.setRegs (s : State) (cid slot : Nat) : List Word → Nat → State
  | [], _ => s
  | v :: r, k => (s.setGOf cid slot k v).setRegs cid slot r (k + 1)
/-- The registers of a thread's window, in order. -/
def State.regsOf (s : State) (cid slot : Nat) : List Word :=
  (List.range (s.thread cid slot).win).map fun k => s.gOf cid slot k

/-- Rolls a region back (07 R172): everything that the checkpoint holds, then gD, RG, PP, RCNT and the pc after RBEGIN; the
region's unsettled entries raise no trap. -/
def State.rollbackNow (s : State) (cid slot : Nat) (value : Word) : State :=
  match (s.thread cid slot).ckpt with
  | none => s
  | some k =>
    let s := (s.setRegs cid slot k.regs 0).setGOf cid slot k.d value
    let s := s.onCore cid fun c =>
      { c with
        journal := c.journal.map fun e => if e.slot == slot && e.region then { e with discard := true } else e
        jwait := c.jwait.filter (· != slot)
        ckwait := c.ckwait.filter (· != slot) }
    s.onThread cid slot fun t =>
      { t with
        preds := k.preds
        fds := k.fds
        lk := k.lk
        tsw := BitVec.ofNat 64 (putField (putField (putField (putField t.tsw.toNat 16 10 (field k.tsw.toNat 16 10))
          14 1 (field k.tsw.toNat 14 1)) 15 1 0) 0 1 0)
        rcnt := if t.rcnt + 1 < 2 ^ 32 then t.rcnt + 1 else 2 ^ 32 - 1
        ckpt := none
        rollback := none
        pc := k.pc + 4 }

/-- A covered failure of a region (07 R172): rolled back at once when the thread is ready or parked outside a handler;
otherwise kept for the TRET or the resume that leaves depth 1. Only the first acts. -/
def State.coveredFailure (s : State) (cid slot : Nat) (value : Word) : State :=
  let t := s.thread cid slot
  if t.rollback.isSome then s
  else if t.trap.tdepth = 0 then
    (s.rollbackNow cid slot value).onThread cid slot fun t =>
      { t with st := .ready, wait := .none, issue0 := none, gathered := [] }
  else s.onThread cid slot fun t => { t with rollback := some value }

/-- The return of TRET (14 R329) for the thread `cid`, `slot` with TDEPTH not 0, or its pending rollback (07 R172). -/
def State.trapReturn (s : State) (cid slot : Nat) : State :=
  let t := s.thread cid slot
  let k := t.trap.tsave.getLsbD 13
  if t.trap.tdepth = 2 then
    s.onThread cid slot fun t =>
      { ((t.setTswBit 13 k).dropFetch) with
        pc := t.trap.tepc
        st := .trap
        wait := .none
        issue0 := none
        trap := { t.trap with tdepth := 1, tepc := BitVec.ofNat 64 (t.trap.xepc.toNat / 4 * 4),
                              tcause := BitVec.ofNat 64 (t.trap.xcause.toNat % 1024), tfaddr := t.trap.xfaddr,
                              tsave := t.trap.xsave } }
  else
    let back := fun (t : Thread) (pc : Word) =>
      { ((t.setTswBit 13 k).dropFetch) with
        pc := pc, st := .ready, wait := .none, issue0 := none, trap := { t.trap with tdepth := 0 } }
    match t.rollback with
    | none => s.onThread cid slot fun t => back t t.trap.tepc
    | some v => (s.rollbackNow cid slot v).onThread cid slot fun t => back t t.pc

/-! Completing, parking and issuing again. -/

/-- The instruction completes and the thread goes on at `pc`. -/
def State.retireTo (s : State) (pc : Word) : State := s.onThr fun t => { t with pc := pc, issue0 := none, gathered := [] }
/-- A one-word instruction completes: PC + 4 (05 R101). -/
def State.retire (s : State) : State := s.retireTo (s.thr.pc + 4)
/-- A two-word instruction completes: PC + 8 (05 R101). -/
def State.retire2 (s : State) : State := s.retireTo (s.thr.pc + 8)
/-- A prefix consumer completes: PP is cleared (05 R113). -/
def State.clearPrefix (s : State) : State := s.onThr fun t => t.setTswBit 0 false

/-- The length in bytes of the instruction at issue, from its first word (05 R101). -/
def State.irLength (s : State) : Nat := if twoWords (field s.ir 0 32) then 8 else 4

/-- A thread parked in a state on a wait in cycle `now`: it leaves the pipeline (06 R130). -/
def Thread.parkAs (t : Thread) (now : Nat) (st : TState) (w : Wait) : Thread :=
  { t with st := st, from_ := t.st, wait := w, issue0 := some (t.issue0.getD now), retry0 := none, parked := now, pipe := now }

/-- Parks the issuing thread on a wait of its own core: it has had no effect and issues again (14 R394). WLIM counts from the
first issue (12 R290). -/
def State.parkCore (s : State) (w : CoreWait) : State :=
  let now := s.now
  s.onThr fun t => t.parkAs now .parkedMem (.core w)

/-- Parks the issuing thread on requests (06 R127). -/
def State.parkMem (s : State) (f : Finish) (units : List Access) : State :=
  let now := s.now
  s.onThr fun t => t.parkAs now .parkedMem (.mem f units false)

/-- Parks the issuing thread on an engine (06 R127). -/
def State.parkEngine (s : State) (st : TState) (w : EngineWait) : State :=
  let now := s.now
  s.onThr fun t => t.parkAs now st (.engine w)

/-- A parked thread goes back to the state it was parked from (06 R128). -/
def Thread.unpark (t : Thread) : Thread := { t with st := t.from_, wait := .none }

/-! Packets (04 R75 to R79). -/

/-- The hash that chooses among live up-ports (04 R76). -/
def upHash (d : Nat) : Nat := (d ^^^ d / 2 ^ 7 ^^^ d / 2 ^ 14) % 2 ^ 22
/-- The port that a packet for key `d` takes among the live up-ports of a hop: the one at index h mod u (04 R76). -/
def upPort (d : Nat) (live : List Nat) : Option Nat := live[upHash d % live.length]?
/-- The ports of a module that are open for data, in ascending number (04 R76, R78): none in boot mode (17 R377), in D3hot (03 R47) and
above 115 °C (15 R368). -/
def Module.livePorts (x : Module) : List Nat :=
  if x.bootMode || x.d3hot || x.over115 then []
  else (List.range 36).filter fun p => !(Tab.get ⟨false, 4, 0, 0⟩ x.ports p).closed
/-- The port on which a packet leaves module `m` for key `d` (04 R76), if one is live and the module is in the fabric. -/
def State.route (s : State) (m d : Nat) : Option Nat :=
  let up := (s.module m).livePorts
  if s.present.contains (keyModule d) && !up.isEmpty && !(s.module (keyModule d)).livePorts.isEmpty
  then upPort d up else none
/-- The up-ports on which a packet for key `d` leaves the routers above cluster `cl`, as far as it climbs (04 R76): one of the two uplinks of
the cluster router, one of the four of the die router, a link port. What lies behind a link port is no part of the module (log entry 103). -/
def State.upPath (s : State) (cl d : Nat) : List (Option Nat) :=
  if d = clusterKey cl then []
  else upPort d (List.range 2) ::
    if d / 64 = cl / 32 then []
    else upPort d (List.range 4) :: if keyModule d = clusterModule cl then [] else [s.route (clusterModule cl) d]
/-- Whether a path leads from module `m` to key `d` (04 R78). -/
def State.reaches (s : State) (m d : Nat) : Bool := keyModule d == m || (s.route m d).isSome

/-- Puts a packet in flight; the caller has found that a path leads there. -/
def State.sendRaw (s : State) (m src dst vc : Nat) (b : Body) : State :=
  let port := if keyModule dst = m then none else s.route m dst
  { s with net := s.net ++ [⟨src, dst, vc, port, false, b⟩] }

/-- Sends a request from a core, or answers it LINK_UNREACHABLE (04 R78, 07 R156). -/
def State.sendReq (s : State) (r : Req) (dst vc : Nat) : State :=
  if s.reaches (cidModule r.cid) dst then s.sendRaw (cidModule r.cid) (coreSource r.cid) dst vc (.req r)
  else { s with net := s.net ++ [⟨dst, cidKey r.cid, 1, none, false, .ans r.cid r.tag r.posted
          (.fault Cause.linkUnreachable)⟩] }

/-- Sends the answer of a home to a requester (04 R79, virtual channel 1): one that no path carries back reaches it as
LINK_UNREACHABLE (04 R78; log entry 23). -/
def State.sendAns (s : State) (src : Nat) (r : Req) (a : Ans) : State :=
  s.sendRaw (keyModule src) src (cidKey r.cid) 1 (.ans r.cid r.tag r.posted
    (if s.reaches (keyModule src) (cidKey r.cid) then a else .fault Cause.linkUnreachable))

/-- Sends a class-15 message between management cores (03 R65): none where no path leads. -/
def State.sendMgmt (s : State) (m dst : Nat) (k : Mgmt) : State :=
  if s.reaches m (mgmtKey dst) then s.sendRaw m (mgmtKey m) (mgmtKey dst) 4 (.mgmt k) else s

/-- Whether packet `n` may be taken: no earlier packet of the same source, destination and virtual channel is still in flight
(04 R78), and it has crossed its link. -/
def State.deliverable (s : State) (n : Nat) : Option Packet :=
  match s.net[n]? with
  | none => none
  | some p =>
    if (p.port.isNone || p.crossed) &&
       !((s.net.take n).any fun q => q.src == p.src && q.dst == p.dst && q.vc == p.vc)
    then some p else none

/-- The state with packet `n` taken from the fabric. -/
def State.takePacket (s : State) (n : Nat) : State := { s with net := listDel s.net n }

/-- The packet of a step that receives one, if it may be taken now, and the state without it. -/
def State.receive (s : State) (n : Nat) : Option (Packet × State) :=
  (s.deliverable n).map fun p => (p, s.takePacket n)

/-- A fresh wait tag of a core (12 R289). -/
def State.newTag (s : State) (cid : Nat) : Nat × State :=
  ((s.core cid).tagCount, s.onCore cid fun c => { c with tagCount := (c.tagCount + 1) % 2 ^ 24 })

end Sys2Proof.Machine
end

