-- ==== Sys2Proof/Machine/Operands.lean ====
section
/-!
DEFINITION. The operand forms: the checks before an instruction acts (05 R112, R113), registers and vector groups (05 R106,
08 R184), branch targets (05 R110), and where a virtual address lies with the checks of the issuing core (04 R81 to R88,
07 R153, R154).
-/
namespace Sys2Proof.Machine

/-- What a meaning answers. -/
abbrev Out := Host.Outcome State Fault Refusal

/-- How an instruction stands to a pending prefix (05 R113). -/
inductive Prefix where
  | plain | consumer | neutral
  deriving DecidableEq, Repr

/-- The registers of vector group vK (05 R106). -/
def grpRegs (k : Nat) : List Nat := (List.range 8).map (8 * k + ·)

/-- The lowest register number at or beyond the window among those that the instruction names (05 R106; log entry 15). -/
def firstBeyond (win : Nat) (regs : List Nat) : Option Nat := leastOf (regs.filter (win ≤ ·))

/-- The words of the instruction as TFADDR reports them (05 R112). -/
def State.irWord (s : State) : Word := BitVec.ofNat 64 s.ir

/-- Steps 4 to 6 of 05 R112 before the instruction `k` acts: PRIVILEGE, PREFIX_STRAY, REG_WINDOW. -/
def issue (priv : Bool) (x : Prefix) (regs : List Nat) (k : State → State) (s : State) : State :=
  if priv && !s.thr.k then s.trap Cause.privilege s.irWord
  else if x == .plain && s.thr.pp then s.trap Cause.prefixStray s.irWord
  else match firstBeyond s.thr.win regs with
    | some r => s.trap Cause.regWindow (BitVec.ofNat 64 r)
    | none => k s

/-- An unprivileged instruction that is no prefix consumer. -/
def plain (regs : List Nat) (k : State → State) (s : State) : State := issue false .plain regs k s
/-- A SYS instruction (05 R117): it needs K = 1. -/
def sys (regs : List Nat) (k : State → State) (s : State) : State := issue true .plain regs k s
/-- A prefix consumer (05 R113). -/
def consume (regs : List Nat) (k : State → State) (s : State) : State := issue false .consumer regs k s

/-! Vector groups (08 R184). -/

/-- The 512-bit value of group vK of the issuing thread. -/
def State.grp (s : State) (k : Nat) : Nat :=
  (List.range 8).foldr (fun i acc => s.gn (8 * k + i) + 2 ^ 64 * acc) 0
/-- Writes group vK of the issuing thread. -/
def State.setGrp (s : State) (k : Nat) (v : Nat) : State :=
  (List.range 8).foldl (fun s i => s.setG (8 * k + i) (BitVec.ofNat 64 (v / 2 ^ (64 * i)))) s
/-- Lane `i` of width `w` of a group's value. -/
def lane (v w i : Nat) : Nat := v / 2 ^ (w * i) % 2 ^ w
/-- A group's value from its lanes of width `w`, lane 0 first. -/
def ofLanes (w : Nat) : List Nat → Nat
  | [] => 0
  | a :: r => a % 2 ^ w + 2 ^ w * ofLanes w r
/-- Lane width of a type (08 R184). -/
def tyWidth : Ty → Nat
  | .i32 => 32 | .n32 => 32 | .f32 => 32 | .h16 => 16 | .bf16 => 16 | .i16 => 16 | .x8 => 8 | .f64 => 64
/-- Lanes a group (05 R108). -/
def tyLanes (y : Ty) : Nat := 512 / tyWidth y

/-! Branch targets (05 R110). -/

/-- Whether an address may be fetched from (05 R102): the interleaved or bank-linear window with no unused bit set. -/
def fetchable (a : Nat) : Bool :=
  (field a 60 4 == 0 && field a 48 12 == 0) || (field a 60 4 == 8 && field a 58 2 == 0 && field a 31 6 == 0)

/-- A taken branch or jump to `target` (05 R110, 06 R150, R151): BAD_ADDRESS at the branch for a target that cannot be fetched
from or is not a multiple of 4, else `link` acts and the thread goes on at the target. -/
def State.jumpTo (s : State) (target : Word) (link : State → State) : State :=
  if fetchable target.toNat && target.toNat % 4 == 0 then
    let s := link s
    s.onThr fun t =>
      let inBuf := fun (b : Option Sector) => match b with
        | some x => x.addr == target.toNat / 64 * 64
        | none => false
      let t := if inBuf t.cur || inBuf t.nxt then t else t.dropFetch
      { t with pc := target, issue0 := none }
  else s.trap Cause.badAddress target

/-- A displacement in words added to the pc (05 R110). -/
def State.target (s : State) {n : Nat} (x : BitVec n) : Word := s.thr.pc + BitVec.ofInt 64 (4 * x.toInt)

/-! Addresses (04 R81, R82). -/

/-- Where a virtual address lies, seen from a core. -/
inductive Target where
  | loc (cid off : Nat)
  | unit (cid off : Nat)
  | store (cl unit off : Nat)
  | status (cl off : Nat)
  | remote (cid off : Nat)
  | interleaved (va : Nat)
  | bank (m stack ch off : Nat)
  | host (va : Nat)
  deriving DecidableEq, Repr

/-- Whether a virtual address sets a bit that its window does not use (04 R81). -/
def addressBad (va : Nat) : Bool :=
  match field va 60 4 with
  | 0x0 => field va 48 12 != 0
  | 0x8 => field va 58 2 != 0 || field va 31 6 != 0
  | 0xC => field va 48 12 != 0
  | 0xD => field va 58 2 != 0 || field va 19 13 != 0
  | 0xE => field va 24 36 != 0
  | 0xF => field va 19 41 != 0
  | _ => true

/-- The size of a unit of the cluster window (04 R82); units 30 and 31 have none. -/
def unitSize (u : Nat) : Nat :=
  if u < 24 then 0x60000 else if u < 29 then 0x40000 else if u = 29 then 0x1000 else 0

/-- Whether the offset lies beyond its unit (04 R82). -/
def offsetBad (va : Nat) : Bool :=
  match field va 60 4 with
  | 0xD => 0x60000 ≤ field va 0 19
  | 0xF => 0x60000 ≤ field va 0 19
  | 0xE => unitSize (field va 19 5) ≤ field va 0 19
  | _ => false

/-- Where an address that passed the checks lies, for core `cid` (04 R81). -/
def targetOf (cid va : Nat) : Target :=
  match field va 60 4 with
  | 0x8 => .bank (field va 46 12) (field va 42 4) (field va 37 5) (field va 0 31)
  | 0xC => .host (field va 0 48)
  | 0xD => .remote (field va 32 26) (field va 0 19)
  | 0xE =>
    let u := field va 19 5
    if u < 24 then
      (if u = cidCore cid then .loc cid (field va 0 19) else .unit (cidCluster cid * 32 + u) (field va 0 19))
    else if u < 29 then .store (cidCluster cid) u (field va 0 19)
    else .status (cidCluster cid) (field va 0 19)
  | 0xF => .loc cid (field va 0 19)
  | _ => .interleaved (field va 0 48)

/-- The path of an access (07 R154). -/
inductive Path where
  | loc | cluster | global
  deriving DecidableEq, Repr

/-- The path of a target (07 R154). -/
def Target.path : Target → Path
  | .loc _ _ => .loc
  | .unit _ _ => .cluster
  | .store _ _ _ => .cluster
  | .status _ _ => .cluster
  | _ => .global

/-- The kind of an access for protection (04 R88). -/
inductive AccessKind where
  | read | write | rmw
  deriving DecidableEq, Repr

/-- How the protection unit sees a path (04 R87, R88). -/
inductive ProtPath where
  | loc | cluster | remote
  deriving DecidableEq, Repr

/-- Whether a protection region admits an access (04 R87, R88); `unit` is that of a CPRGN region. -/
def regionAdmits (g : Word) (dom : Nat) (path : ProtPath) (unit : Option Nat) (off : Nat) (kind : AccessKind) : Bool :=
  let n := g.toNat
  bit n 44 && field n 48 16 == dom && field n 0 13 ≤ off / 64 && off / 64 ≤ field n 16 13 &&
  (path != .remote || bit n 43) && (path != .cluster || bit n 42) &&
  (match unit with
   | none => true
   | some u => field n 32 5 == u) &&
  (match kind with
   | .read => bit n 40
   | .write => bit n 41
   | .rmw => bit n 40 && bit n 41)

/-- Whether some region of a set of eight admits an access (04 R88). -/
def admitted (regs : Tab Word) (dom : Nat) (path : ProtPath) (unit : Option Nat) (off : Nat) (kind : AccessKind) : Bool :=
  (List.range 8).any fun k => regionAdmits (Tab.get 0 regs k) dom path unit off kind

/-- The protection check of the local and cluster paths (07 R153 step 5; 04 R82 for the status page). -/
def State.protects (s : State) (dom : Nat) (t : Target) (kind : AccessKind) : Bool :=
  match t with
  | .loc cid off => admitted (s.core cid).prgn dom .loc none off kind
  | .unit cid off => admitted (s.core cid).prgn dom .cluster none off kind
  | .store cl u off => admitted (s.cluster cl).cprgn dom .cluster (some u) off kind
  | .status _ _ => kind == .read
  | _ => true

/-- The fuse word of a physical cluster, while the module is in boot mode (17 R376). -/
def State.fuseWord (s : State) (cid : Nat) : Nat :=
  (((s.module (cidModule cid)).fuses.fuseMap.getD (cidDie cid) []).getD (cid / 32 % 32) 0).toNat

/-- Whether core `cid` may name a CID: its fields are valid by 04 R72, or in boot mode by 17 R377. -/
def State.cidOk (s : State) (cid named : Nat) : Bool :=
  if (s.module (cidModule cid)).bootMode then named / 32 % 32 < 24 && (named % 32 < 25 || named % 32 == 31)
  else cidValid named

/-- The module that a module number names at a core: in boot mode the module's own number is 0, and its place in the fabric is no
number of any module (17 R377). -/
def State.ownModule (s : State) (cid m : Nat) : Nat :=
  if !(s.module (cidModule cid)).bootMode then m
  else if m = 0 then cidModule cid
  else if m = cidModule cid then 2 ^ 12
  else m

/-- The lowest unfused site of a physical cluster, its boot core, as a core of the module (17 R376). -/
def State.bootCore (s : State) (cl : Nat) : Nat :=
  cl * 32 + (((List.range 25).find? fun k => !bit (s.fuseWord (cl * 32)) k).getD 31)

/-- The core that a valid CID names at core `cid`: in boot mode CORE 31 is the cluster's boot core (17 R376, R377). -/
def State.resolveCid (s : State) (cid named : Nat) : Nat :=
  let n := s.ownModule cid (cidModule named) * 2 ^ 14 + named % 2 ^ 14
  if (s.module (cidModule n)).bootMode && n % 32 == 31 then s.bootCore (cidCluster n) else n

/-- The CID by which a core names itself: in boot mode its module number is 0 (17 R377). -/
def State.shownCid (s : State) (cid : Nat) : Nat := if (s.module (cidModule cid)).bootMode then cid % 2 ^ 14 else cid

/-- Whether a core is a fused site, which takes no packet (17 R376). -/
def State.fused (s : State) (cid : Nat) : Bool :=
  (s.module (cidModule cid)).bootMode && bit (s.fuseWord cid) (cid % 32)

/-- The checks of 07 R153 at core `cid` for an access of `size` bytes (04 R72 adds BAD_CID, after the offset; log entry 16).
A failure gives its cause. -/
def State.checkAccess (s : State) (cid dom va size : Nat) (kind : AccessKind) : Except Nat Target :=
  if addressBad va then .error Cause.badAddress
  else if va % size ≠ 0 then .error Cause.misaligned
  else if offsetBad va then .error Cause.badOffset
  else match targetOf cid va with
    | .remote c o => if s.cidOk cid c then .ok (.remote c o) else .error Cause.badCid
    | t => if s.protects dom t kind then .ok t else .error Cause.protection

/-- The effective address of a scalar access (07 R153 step 1). -/
def State.address (s : State) (base : Nat) (o : BitVec 9) (size : Nat) : Nat :=
  (s.g base + BitVec.ofInt 64 (o.toInt * size)).toNat

/-- The bytes of a scalar access (05 R107). -/
def sizeBytes : Size → Nat
  | .n8 => 1 | .n16 => 2 | .n32 => 4 | .n64 => 8 | .i8 => 1 | .i16 => 2 | .i32 => 4
/-- A loaded value extended by SZ (05 R107). -/
def sizeExtend (z : Size) (v : Nat) : Word :=
  match z with
  | .i8 => BitVec.ofInt 64 (sextNat 8 v)
  | .i16 => BitVec.ofInt 64 (sextNat 16 v)
  | .i32 => BitVec.ofInt 64 (sextNat 32 v)
  | z => BitVec.ofNat 64 (v % 2 ^ (8 * sizeBytes z))

/-- The parity of a number's low 40 bits. -/
def parity40 (n : Nat) : Bool := ((List.range 40).filter (bit n ·)).length % 2 == 1

/-- The home number of an interleaved address (04 R83): bits 0 to 3 the stack, 4 to 8 the channel. -/
def homeBits (masks : List Word) (va : Nat) : Nat :=
  (List.range 9).foldr (fun i acc => (parity40 (field va 8 40 &&& field (masks.getD i 0).toNat 0 40)).toNat + 2 * acc) 0

/-- The home-local address: the nine pivot bits deleted (04 R85). -/
def hlaOf (masks : List Word) (va : Nat) : Nat :=
  let piv := (masks.take 9).map fun w => field w.toNat 40 6
  (List.range 48).foldr (fun i acc => if piv.contains i then acc else (bit va i).toNat + 2 * acc) 0

/-- The interleave masks of a domain on a module; zero where it is not bound (04 R83). -/
def State.masks (s : State) (m dom : Nat) : List Word :=
  match s.domain? m dom with
  | some (_, d) => d.set.imasks
  | none => List.replicate 9 0

/-- The module, stack and channel of the home of a DRAM-homed target (04 R81, R83). -/
def State.homeOf (s : State) (cid dom : Nat) : Target → Option (Nat × Nat × Nat)
  | .interleaved va =>
    let h := homeBits (s.masks (cidModule cid) dom) va
    some (cidModule cid, h % 16, h / 16)
  | .bank m st ch _ => some (s.ownModule cid m, st, ch)
  | _ => none

/-- The destination key of a global or cluster target (04 R75). -/
def State.targetKey (s : State) (cid dom : Nat) (t : Target) : Nat :=
  match t with
  | .loc c _ => cidKey c
  | .unit c _ => cidKey c
  | .store cl _ _ => clusterKey cl
  | .status cl _ => clusterKey cl
  | .remote c _ => cidKey (s.resolveCid cid c)
  | .host _ => endpointKey (cidModule cid)
  | t => match s.homeOf cid dom t with
    | some (m, st, ch) => channelKey m st ch
    | none => 0

end Sys2Proof.Machine
end

