-- ==== Sys2Proof/Machine/Home.lean ====
section
/-!
DEFINITION. What a home does with a request: translation and its checks (04 R91 to R95, R393), presence and wait lists
(12 R281 to R295), poison (07 R181 to R183), refresh (07 R179), shutters (14 R347), the endpoint's host accesses (07 R157,
12 R299).
-/
namespace Sys2Proof.Machine

/-! Translation tables (04 R91 to R93). -/

/-- The tables of a domain (04 R91). -/
inductive Table where
  | interleaved | bank | host
  deriving DecidableEq, Repr

/-- A leaf that a walk found, with the size of its page. -/
structure Leaf where
  pte : Nat
  size : Nat
  deriving DecidableEq, Repr

/-- The size of the page that a leaf at a level maps (04 R92). -/
def pageSize (level : Nat) : Nat := if level = 2 then 2 ^ 30 else if level = 1 then 2 ^ 21 else 2 ^ 16
/-- The index of an input address at a level (04 R92). -/
def levelIndex (level input : Nat) : Nat :=
  if level = 3 then field input 39 9 else if level = 2 then field input 30 9 else if level = 1 then field input 21 9
  else field input 16 5
/-- The size of a node at a level (04 R92). -/
def nodeSize (level : Nat) : Nat := if level = 0 then 256 else 4096

/-- The address of table node word `spa` of a stack (04 R92). -/
def spaAddr (m stack spa : Nat) : Nat := dramAddr m stack (spa / 2 ^ 31 % 32) (spa % 2 ^ 31)

/-- Whether a leaf entry at a level breaks R92 or R93. -/
def leafBad (host : Bool) (level e : Nat) : Bool :=
  level = 3 || field e 52 4 != 0 || (host && !bit e 61) || field e 0 52 % pageSize level != 0 ||
  (!bit e 61 && field e 31 21 != 0) || (!host && bit e 61 && bit e 59)

/-- Whether a non-leaf entry at a level breaks R92 or R93. -/
def nodeBad (host : Bool) (level e : Nat) : Bool :=
  level = 0 || field e 52 4 != 0 || bit e 60 || bit e 59 || bit e 58 || bit e 57 || (bit e 61 != host) ||
  field e 36 16 != 0 || field e 0 36 % nodeSize (level - 1) != 0

/-- The walk of a table from a node (04 R393 step 4); the first argument is the level plus one. -/
def walk (mem : Memory) (m stack : Nat) (host : Bool) (input : Nat) : Nat → Nat → Except Nat Leaf
  | 0, _ => .error Cause.badPte
  | level + 1, node =>
    let a := spaAddr m stack (node + 8 * levelIndex level input)
    let e := mem.read a 8
    if mem.poisoned (wordOf a) then .error Cause.poison
    else if !bit e 63 then .error Cause.notPresent
    else if bit e 56 then (if leafBad host level e then .error Cause.badPte else .ok ⟨e, pageSize level⟩)
    else if nodeBad host level e then .error Cause.badPte
    else walk mem m stack host input level (field e 0 36)

/-- The root of a domain's table for a stack (03 R58). -/
def rootOf (d : Domain) (tb : Table) (stack : Nat) : Option Nat :=
  match tb with
  | .interleaved => d.set.interleavedRoots.getD stack none
  | .bank => d.set.bankRoots.getD stack none
  | .host => d.set.hostRoot

/-- The number of a translation unit: a stack's, or the endpoint's (04 R91, R94). -/
def unitOf (m stack : Nat) (tb : Table) : Nat := if tb = .host then m * 17 + 16 else m * 17 + stack
/-- The number of a table. -/
def Table.code : Table → Nat
  | .interleaved => 0 | .bank => 1 | .host => 2

/-- Whether the unit no longer holds what it cached: which entries a cache keeps is free, so until INVPG a request may be translated with
the old entry or the new (04 R94, R95; log entry 9). -/
def State.forgets (s : State) : Bool := bit (Config.freeWord 95 s.tick).toNat 0

/-- A hit in a translation cache (04 R94, R393). -/
def State.cached (s : State) (unit dom tb input : Nat) : Option Leaf :=
  if s.forgets then none
  else (s.tlb.find? fun e => e.unit == unit && e.dom == dom && e.table == tb && e.base ≤ input && input < e.base + e.size).map
    fun e => ⟨e.leaf, e.size⟩

/-- What a translation unit has of a resource of `size` for a domain, and the domains that it shares it with: at a stack a partitioned domain its
share alone, the other domains what the shares leave (03 R60, 04 R94; log entry 89). -/
def State.unitShare (s : State) (unit dom size : Nat) (share : DomainSettings → Nat) : Nat × (Nat → Bool) :=
  let parts := if unit % 17 = 16 then [] else (s.module (unit / 17)).domains.filter fun p => p.2.set.partitioned
  match parts.find? fun p => p.2.tag == dom with
  | some p => (min size (share p.2.set), fun d => d == dom)
  | none => (size - (parts.map fun p => share p.2.set).sum, fun d => !parts.any fun p => p.2.tag == d)

/-- Caches a translation: the domain's part of the unit's 16,384 entries gives one up when it is full, which one is free; a part of no
entries caches nothing (03 R60, 04 R94; log entries 9, 89). -/
def State.cache (s : State) (unit dom tb input : Nat) (l : Leaf) : State :=
  let share := s.unitShare unit dom 16384 DomainSettings.cacheShare
  let e : Tlb := ⟨unit, dom, tb, input / l.size * l.size, l.size, l.pte⟩
  let other := fun (x : Tlb) =>
    !(x.unit == unit && x.dom == dom && x.table == tb && decide (x.base < e.base + e.size) && decide (e.base < x.base + x.size))
  let s : State := { s with tlb := s.tlb.filter other }
  let mine := s.tlb.filter fun e => e.unit == unit && share.2 e.dom
  if mine.length < share.1 then { s with tlb := s.tlb ++ [e] }
  else
    let (k, s) := s.free 94
    match mine[k % mine.length]? with
    | some v => { s with tlb := (s.tlb.filter (· != v)) ++ [e] }
    | none => s

/-- Where an access stands after translation. -/
inductive Located where
  | dram (a : Nat) (tol subn sc : Bool)
  | host (a : Nat) (tol subn sc : Bool)
  deriving DecidableEq, Repr

/-- The location that a leaf gives an input address, for channel `ch` (04 R93). -/
def Leaf.locate (l : Leaf) (m stack ch input : Nat) : Located :=
  if bit l.pte 61 then .host (field l.pte 0 52 + input % l.size) (bit l.pte 58) (bit l.pte 57) (bit l.pte 60)
  else .dram (dramAddr m stack ch (field l.pte 0 31 + input % l.size)) (bit l.pte 58) (bit l.pte 57) (bit l.pte 60)

/-- The kind of access an operation makes, for W and for protection (04 R88, R93; 12 R286, R293). -/
def Op.kind : Op → AccessKind
  | .load _ => .read
  | .store _ _ => .write
  | .block _ _ => .write
  | .parts _ _ _ _ _ => .write
  | .probe => .read
  | .waitf => .read
  | .sector => .read
  | .orderRead => .read
  | .lctl _ _ => .read
  | .query _ => .read
  | .leave => .read
  | .touch w => if w then .write else .read
  | _ => .rmw

/-- What a home needs before it translates: the module, stack, channel, table and input address of a target. -/
structure Lookup where
  m : Nat
  stack : Nat
  ch : Nat
  tb : Table
  input : Nat
  deriving DecidableEq, Repr

/-- The lookup of a target that a table maps (04 R91). -/
def State.lookup (s : State) (cid dom : Nat) (t : Target) : Option Lookup :=
  match t with
  | .interleaved va =>
    (s.homeOf cid dom t).map fun (m, st, ch) => ⟨m, st, ch, .interleaved, hlaOf (s.masks (cidModule cid) dom) va⟩
  | .bank m st ch off => some ⟨s.ownModule cid m, st, ch, .bank, ch * 2 ^ 31 + off⟩
  | .host va => some ⟨cidModule cid, 0, 0, .host, va⟩
  | _ => none

/-- Whether a channel of a stack is a host channel of one of a domain's clusters (04 R74, R86). -/
def hasHostChannel (d : DomainSettings) (stack ch : Nat) : Bool := d.clusters.contains (stack, 23 * ch / 32)

/-- Whether a domain's channel set and mode admit a channel of a module (04 R86): the set of a partitioned domain is the union of the
host channels of its clusters, and no other domain's access is admitted there (03 R60; log entry 88). -/
def State.admitsChannel (s : State) (m : Nat) (d : DomainSettings) (stack ch : Nat) : Bool :=
  if d.partitioned then hasHostChannel d stack ch
  else !(s.module m).domains.any fun p => p.2.set.partitioned && hasHostChannel p.2.set stack ch

/-- The root of the table of a lookup, for a domain bound on its module (04 R91, R393 steps 1 and 3). -/
def State.tableRoot (s : State) (dom : Nat) (l : Lookup) : Except Nat Nat :=
  match s.domain? l.m dom with
  | none => .error Cause.protection
  | some (_, d) => match rootOf d l.tb l.stack with
    | none => .error Cause.notPresent
    | some r => .ok r

/-- Steps 1 to 3 of 04 R393: binding, channel set, root. -/
def State.homeRoot (s : State) (dom : Nat) (l : Lookup) : Except Nat Nat :=
  match s.domain? l.m dom with
  | none => .error Cause.protection
  | some (_, d) =>
    if l.tb != .host && !s.admitsChannel l.m d.set l.stack l.ch then .error Cause.protection
    else s.tableRoot dom l

/-- Step 4 of 04 R393 with no cache: the walk from a root. -/
def State.walkFrom (s : State) (l : Lookup) (root : Nat) : Except Nat Leaf :=
  walk s.mem l.m l.stack (l.tb == .host) l.input 4 root

/-- Step 5 of 04 R393. -/
def leafCheck (l : Leaf) (kind : AccessKind) : Option Nat :=
  if bit l.pte 59 then some Cause.deadPage
  else if kind != .read && !bit l.pte 62 then some Cause.writeProtect
  else none

/-- A translation in one step, for the engines and units that read memory within their own step (log entry 2): R393 steps 1 to
5, the cache read and filled. -/
def State.translate (s : State) (dom : Nat) (l : Lookup) (kind : AccessKind) : Except Nat Located × State :=
  let u := unitOf l.m l.stack l.tb
  match s.homeRoot dom l with
  | .error c => if c = Cause.notPresent then
      (match s.cached u dom l.tb.code l.input with
       | some lf => (match leafCheck lf kind with
         | some c => (.error c, s)
         | none => (.ok (lf.locate l.m l.stack l.ch l.input), s))
       | none => (.error c, s))
      else (.error c, s)
  | .ok root =>
    match s.cached u dom l.tb.code l.input with
    | some lf => (match leafCheck lf kind with
      | some c => (.error c, s)
      | none => (.ok (lf.locate l.m l.stack l.ch l.input), s))
    | none => match s.walkFrom l root with
      | .error c => (.error c, s)
      | .ok lf => match leafCheck lf kind with
        | some c => (.error c, s)
        | none => (.ok (lf.locate l.m l.stack l.ch l.input), s.cache u dom l.tb.code l.input lf)

/-! Data (07 R182, R183). -/

/-- The bytes that a tolerated poisoned read gives (07 R182). -/
def substitute (subn : Bool) (n : Nat) : Nat := if subn then 256 ^ n - 1 else 0

/-- Counts a substitution at a home for a domain; KIND 3 at the first and at every 1,024th after (07 R182, 14 R354). -/
def State.countSubst (s : State) (a dom : Nat) : State :=
  let h := (poolOf a).1
  let n := match s.substs.find? fun x => x.1 == h && x.2.1 == dom with
    | some x => x.2.2
    | none => 0
  let s := { s with substs := (h, dom, n + 1) :: s.substs.filter fun x => !(x.1 == h && x.2.1 == dom) }
  if n % 1024 = 0 then s.logError (a / 2 ^ 40 % 2 ^ 12) 3 dom (if n = 0 then 1 else 1024) (a / 8 * 8 % 2 ^ 40) else s

/-- A read that consumes `n` bytes of one word (07 R182): none is POISON_CONSUMED. -/
def State.consume (s : State) (a n dom : Nat) (tol subn : Bool) : Option Nat × State :=
  if s.mem.poisoned (wordOf a) then
    if tol then (some (substitute subn n), s.countSubst a dom) else (none, s)
  else (some (s.mem.read a n), s)

/-- The state with memory replaced. -/
def State.withMem (s : State) (m : Memory) : State := { s with mem := m }

/-- A write of `n` bytes within one word (07 R183): a whole word heals; a merge into poison is refused, or on a TOL page merges
into the substitute. -/
def State.storeBytes (s : State) (a n v dom : Nat) (tol subn : Bool) : Option State :=
  if s.mem.poisoned (wordOf a) && n ≠ 8 then
    if tol then
      let m := s.mem.write (a / 8 * 8) 8 (substitute subn 8)
      some ((s.withMem ((m.write a n v).setPoison (wordOf a) false)).countSubst a dom)
    else none
  else some (s.withMem ((s.mem.write a n v).setPoison (wordOf a) false))

/-- The new value of an atomic (12 R296) on `size` bytes. -/
def atomResult (k : AtomKind) (size m t : Nat) : Nat :=
  let w := 8 * size
  let t := t % 2 ^ w
  match k with
  | .add => (m + t) % 2 ^ w
  | .and => m &&& t
  | .or => m ||| t
  | .xor => m ^^^ t
  | .min => if sextNat w m ≤ sextNat w t then m else t
  | .max => if sextNat w t ≤ sextNat w m then m else t
  | .minn => min m t
  | .maxn => max m t
  | .xchg => t
  | .decp => if 0 < sextNat w m then m - 1 else m
  | .incw => if t ≤ m then 0 else m + 1
  | .fadd => floatAtomAdd size m t
  | .fmin => floatAtomMin size m t
  | .fmax => floatAtomMax size m t

/-- Whether a module's revision and feature code has what an operation needs (04 R80). -/
def Op.supported (code : Nat) : Op → Bool
  | .atom .fadd _ _ => bit code 0
  | .atom .fmin _ _ => bit code 0
  | .atom .fmax _ _ => bit code 0
  | .cas 16 _ _ => bit code 1
  | _ => true

/-! Presence (12 R282 to R294). -/

/-- Whether an operation may be performed now on word `w` (12 R282; 07 R155 for the engine stores). -/
def condition (mem : Memory) (w : Nat) (eng : Bool) : Op → Bool
  | .ldf => mem.full w
  | .ldt => mem.full w
  | .waitf => mem.full w
  | .stp _ => !mem.full w
  | .waite => !mem.full w
  | .load _ => !eng || mem.full w
  | .store _ _ => !eng || mem.full w
  | _ => true

/-- W of a word (12 R281): its wait list holds an entry. -/
def State.watched (s : State) (w : Nat) : Bool := s.waitq.any fun e => e.word == w

/-- The bytes of a masked block that lie in word `j` of it: their mask. -/
def blockMask (mask j : Nat) : Nat := field mask (8 * j) 8

/-- The words of a block that a masked store covers only in part and finds poisoned (07 R183, 08 R206). -/
def State.blockRefused (s : State) (a mask : Nat) (tol : Bool) : Bool :=
  !tol && (List.range 8).any fun j =>
    blockMask mask j != 0 && blockMask mask j != 255 && s.mem.poisoned (wordOf a + j)

/-- Writes the masked bytes of one word of a block (08 R206). -/
def State.blockWord (s : State) (a mask data dom : Nat) (tol subn : Bool) (j : Nat) : State :=
  let k := blockMask mask j
  let b := a + 8 * j
  if k = 0 then s
  else if k = 255 then s.withMem ((s.mem.write b 8 (field data (64 * j) 64)).setPoison (wordOf b) false)
  else
    let s := if s.mem.poisoned (wordOf b) && tol then
        (s.withMem ((s.mem.write b 8 (substitute subn 8)).setPoison (wordOf b) false)).countSubst b dom
      else s
    s.withMem ((List.range 8).foldl (fun m i =>
      if bit k i then m.putByte (b + i) (BitVec.ofNat 8 (data / 2 ^ (64 * j + 8 * i))) else m) s.mem)

/-- Writes what is masked of a whole block (08 R206). -/
def State.writeBlock (s : State) (a mask data dom : Nat) (tol subn : Bool) : State :=
  (List.range 8).foldl (fun s j => s.blockWord a mask data dom tol subn j) s

/-- Performs an operation whose condition holds at address `a` (12 R282, R293 to R297; 07 R156, R158). Of a block the words are checked,
and it is begun when none is refused (08 R206): the words are then written one by one (13 R307). An atomic with return on a poisoned word
of a TOL page counts one substitution (log entry 106). -/
def State.performOp (s : State) (a : Nat) (tol subn : Bool) (r : Req) : Ans × State :=
  let w := wordOf a
  match r.op with
  | .load n => match s.consume a n r.dom tol subn with
    | (some v, s) => (.data v, s)
    | (none, s) => (.fault Cause.poison, s)
  | .ldf => match s.consume a 8 r.dom tol subn with
    | (some v, s) => (.data v, s)
    | (none, s) => (.fault Cause.poison, s)
  | .ldt => match s.consume a 8 r.dom tol subn with
    | (some v, s) => (.data v, s.withMem (s.mem.setFull w false))
    | (none, s) => (.fault Cause.poison, s)
  | .store n v => match s.storeBytes a n v r.dom tol subn with
    | some s => (.ok, s)
    | none => (.fault Cause.poison, s)
  | .block mask data =>
    if s.blockRefused a mask tol then (.fault Cause.poison, s)
    else (.begun a tol subn, s)
  | .stp v => (.ok, s.withMem (((s.mem.write a 8 v).setPoison w false).setFull w true))
  | .stf v => (.ok, s.withMem (((s.mem.write a 8 v).setPoison w false).setFull w true))
  | .sete => (.ok, s.withMem (s.mem.setFull w false))
  | .setf => (.ok, s.withMem (s.mem.setFull w true))
  | .probe => (.data ((s.mem.full w).toNat + 2 * (s.watched w).toNat), s)
  | .waitf => (.ok, s)
  | .waite => (.ok, s)
  | .atom k n t => match s.consume a n r.dom tol subn with
    | (some m, s') => match s'.storeBytes a n (atomResult k n m t) r.dom tol subn with
      | some s'' => (.data m, if s.mem.poisoned w then { s' with mem := s''.mem } else s'')
      | none => (.fault Cause.poison, s)
    | (none, s) => (.fault Cause.poison, s)
  | .cas n c v =>
    if n = 16 then
      match s.consume a 8 r.dom tol subn, s.consume (a + 8) 8 r.dom tol subn with
      | (some lo, _), (some hi, _) =>
        let s := (s.consume a 8 r.dom tol subn).2
        let s := (s.consume (a + 8) 8 r.dom tol subn).2
        let m := lo + 2 ^ 64 * hi
        (.data m, if m = c % 2 ^ 128 then
            s.withMem (((s.mem.write a 16 v).setPoison w false).setPoison (w + 1) false)
          else s)
      | _, _ => (.fault Cause.poison, s)
    else match s.consume a n r.dom tol subn with
      | (some m, s') =>
        if m = c % 2 ^ (8 * n) then
          match s'.storeBytes a n v r.dom tol subn with
          | some s'' => (.data m, if s.mem.poisoned w then { s' with mem := s''.mem } else s'')
          | none => (.fault Cause.poison, s)
        else (.data m, s')
      | (none, s) => (.fault Cause.poison, s)
  | .sector =>
    let b := a / 64 * 64
    (.sector ((List.range 16).map fun i => s.mem.read (b + 4 * i) 4)
      ((List.range 8).map fun i => s.mem.poisoned (wordOf b + i)), s)
  | _ => (.ok, s)

/-- Whether an operation changes P when it is performed, so that the word's list is served (12 R287). -/
def Op.changesP : Op → Bool
  | .ldt => true
  | .stp _ => true
  | .stf _ => true
  | .sete => true
  | .setf => true
  | _ => false

/-- Whether an entry is a presence waiter: every waiter but WAITV (12 R287). -/
def WaitEntry.presence (e : WaitEntry) : Bool :=
  match e.req.op with
  | .waitv _ => false
  | _ => true

/-- The oldest presence waiter of a word whose condition holds (12 R287). -/
def State.servable (s : State) (w : Nat) : Option WaitEntry :=
  s.waitq.find? fun e => e.word == w && e.presence && condition s.mem w (isStoreAddr (8 * w)) e.req.op

/-- Removes the first entry equal to `e`. -/
def dropEntry (e : WaitEntry) : List WaitEntry → List WaitEntry
  | [] => []
  | x :: r => if x = e then r else x :: dropEntry e r

/-- Serves a word's wait list (12 R287): performs the oldest waiter whose condition holds, until none does. Since an operation
other than LDT and STP leaves P as it is, this is the procedure's order. -/
def State.serve (s : State) (w : Nat) : Nat → State
  | 0 => s
  | fuel + 1 => match s.servable w with
    | none => s
    | some e =>
      let s := { s with waitq := dropEntry e s.waitq }
      let a := 8 * w + (match e.req.op with
        | .load _ => e.req.va % 8
        | .store _ _ => e.req.va % 8
        | _ => 0)
      let p := s.performOp a e.tol e.subn e.req
      (p.2.sendAns e.replyTo e.req p.1).serve w fuel

/-- Serves a word as often as it has waiters (12 R287). -/
def State.serveAll (s : State) (w : Nat) : State := s.serve w (s.waitq.length + 1)

/-- The limit of a domain in a pool (12 R291): the pool's size until CFGH sets it. -/
def State.poolLimit (s : State) (pool size dom : Nat) : Nat :=
  match s.limits.find? fun x => x.1 == pool && x.2.1 == dom with
  | some x => x.2.2
  | none => size

/-- Whether a pool has room for one more entry of a domain (12 R291). -/
def State.poolRoom (s : State) (a dom : Nat) : Bool :=
  let p := poolOf a
  (s.waitq.filter fun e => e.pool == p.1).length < p.2 &&
  (s.waitq.filter fun e => e.pool == p.1 && e.req.dom == dom).length < s.poolLimit p.1 p.2 dom

/-- Joins the wait list of a word (12 R287), or is answered no list (12 R291). -/
def State.joinList (s : State) (a src : Nat) (tol subn : Bool) (r : Req) : Option Ans × State :=
  if s.poolRoom a r.dom then
    (none, { s with waitq := s.waitq ++ [⟨wordOf a, (poolOf a).1, src, r, src, tol, subn⟩] })
  else match r.op with
    | .waitv _ => (some (.data 2), s)
    | _ => (some .noList, s)

/-- Answers the `n` oldest WAITV entries of a word with 0 (12 R294); returns how many. -/
def State.wakeN (s : State) (w : Nat) : Nat → Nat × State
  | 0 => (0, s)
  | n + 1 => match s.waitq.find? fun e => e.word == w && !e.presence with
    | none => (0, s)
    | some e =>
      let s := { s with waitq := dropEntry e s.waitq }
      let r := (s.sendAns e.replyTo e.req (.data 0)).wakeN w n
      (r.1 + 1, r.2)

/-- A request performed at address `a` of its home with the given leaf attributes (12 R287): its answer, or none when it waits
in the word's list. `src` is the home's key. -/
def State.homePerform (s : State) (a src : Nat) (tol subn : Bool) (r : Req) : Option Ans × State :=
  let w := wordOf a
  match r.op with
  | .waitv t => match s.consume a 8 r.dom tol subn with
    | (none, s) => (some (.fault Cause.poison), s)
    | (some m, s) => if m ≠ t % 2 ^ 64 then (some (.data 3), s) else s.joinList a src tol subn r
  | .wake most =>
    let n := (s.waitq.filter fun e => e.word == w && !e.presence).length
    let k := s.wakeN w (match most with
      | none => n
      | some q => min q n)
    (some (.data k.1), k.2)
  | op =>
    if condition s.mem w (isStoreAddr a) op then
      let p := s.performOp a tol subn r
      let p2 := if op.changesP && p.1 != .fault Cause.poison then p.2.serveAll w else p.2
      (some p.1, p2)
    else s.joinList a src tol subn r

/-- Whether a request to DRAM address `a` meets a bank under refresh (07 R179): a marked resend does not. -/
def State.refreshed (s : State) (a : Nat) (r : Req) : Bool :=
  isDramAddr a && !r.resend && Tab.find s.refreshing (a / 2 ^ 31) == some (Config.bankOf (a % 2 ^ 31))

/-- A wait hint between 16 and 1,024 cycles (07 R179). -/
def clampHint (h : Nat) : Nat := max 16 (min h 1024)

/-! The endpoint (07 R157, 12 R299, 16 R373). -/

/-- Whether an operation on a host word travels as a non-posted request (07 R157). -/
def Op.nonPosted : Op → Bool
  | .store _ _ => false
  | .block _ _ => false
  | .touch _ => false
  | _ => true

/-- Whether the host window carries an operation (12 R283, R299). -/
def Op.hostCarries : Op → Bool
  | .load _ => true
  | .store _ _ => true
  | .block _ _ => true
  | .touch _ => true
  | .sector => true
  | .orderRead => true
  | .atom .add _ _ => true
  | .atom .xchg _ _ => true
  | .cas _ _ _ => true
  | _ => false

/-- An access to host address `a` of module `m` at the endpoint: a write is issued onto PCI Express and acknowledged (07 R159),
a non-posted request is sent and waits for its completion (07 R157), an operation that PCI Express does not carry is
UNSUPPORTED_OP (12 R299). In D3hot the endpoint sends nothing (03 R47). -/
def State.hostAccess (s : State) (m a : Nat) (tol subn : Bool) (r : Req) : Option Ans × State :=
  if !r.op.hostCarries then (some (.fault Cause.unsupportedOp), s)
  else match r.op with
    | .touch _ => (some .ok, s)
    | .store n v => (some .ok, s.withMem (s.mem.write (hostAddr m a) n v))
    | .block _ _ => (some (.begun (hostAddr m a) false false), s)
    | _ =>
      if (match r.op with
          | .atom _ _ _ => !(s.module m).atomics
          | .cas _ _ _ => !(s.module m).atomics
          | _ => false)
      then (some (.fault Cause.hostAtomicUr), s)
      else (none, s.onModule m fun x => { x with outstanding := x.outstanding ++ [⟨.core, r, a, tol, subn⟩] })

/-- Step 6 of 04 R393: an SC access without the ORDERED mark is answered SC_RETRY (07 R168, R169). -/
def scRefused (sc : Bool) (r : Req) : Bool := (sc || r.sc) && !r.ordered && !(match r.op with
  | .touch _ => true
  | _ => false)

/-- Steps 6 and 7 of 04 R393 at a located word. -/
def State.atLocation (s : State) (m src hint : Nat) (l : Located) (r : Req) : Option Ans × State :=
  match l with
  | .host a tol subn sc => if scRefused sc r then (some .scRetry, s) else s.hostAccess m a tol subn r
  | .dram a tol subn sc =>
    if scRefused sc r then (some .scRetry, s)
    else match r.op with
      | .touch _ => (some .ok, s)
      | _ => if s.refreshed a r then (some (.refresh (clampHint hint)), s) else s.homePerform a src tol subn r

/-- Whether a core's local memory refuses an access that is not its own core's (14 R347). -/
def State.shuttered (s : State) (cid : Nat) : Bool := (s.core cid).gangShut || (s.core cid).softShut

/-- A request at the local memory of core `cid`, on the local, cluster or remote path (07 R154, 04 R87, 14 R347). -/
def State.atLocal (s : State) (cid off : Nat) (remote : Bool) (r : Req) : Option Ans × State :=
  if r.cid ≠ cid && s.shuttered cid then (some .shutter, s)
  else if remote && !admitted (s.core cid).prgn r.dom .remote none off r.op.kind then (some (.fault Cause.protection), s)
  else match r.op with
    | .touch _ => (some .ok, s)
    | _ => s.homePerform (localAddr cid off) (cidKey cid) false false r

/-- A request at an engine store (07 R155, 12 R283): the operations that the units do not perform are PROTECTION. -/
def Op.onStores : Op → Bool
  | .load _ => true
  | .store _ _ => true
  | .ldf => true
  | .stf _ => true
  | .probe => true
  | .waitf => true
  | .touch _ => true
  | _ => false

/-- Access of one thread's request to a place within its own cluster or core, checked already at the core (07 R153). -/
def State.atCluster (s : State) (t : Target) (statusWord : Nat → Nat → Nat) (r : Req) : Option Ans × State :=
  match t with
  | .loc c o => s.atLocal c o false r
  | .unit c o => s.atLocal c o false r
  | .store cl u o =>
    if r.op.onStores then
      (match r.op with
       | .touch _ => (some .ok, s)
       | _ => s.homePerform (storeAddr cl u o) (clusterKey cl) false false r)
    else (some (.fault Cause.protection), s)
  | .status cl o =>
    (match r.op with
     | .load n => (some (.data (statusWord cl (o / 8) / 256 ^ (o % 8) % 256 ^ n)), s)
     | .touch false => (some .ok, s)
     | _ => (some (.fault Cause.protection), s))
  | .remote c o =>
    let c := s.resolveCid r.cid c
    if s.fused c then (some (.fault Cause.linkUnreachable), s) else s.atLocal c o true r
  | _ => (some .ok, s)

end Sys2Proof.Machine
end

