-- ==== Sys2Proof/Machine/Access.lean ====
section
/-!
DEFINITION. A thread's accesses at its core (07 R153 to R177, R309 to R311): the paths, the posted-store journal, forwarding,
waiting for answers and completing with them, migration.
-/
namespace Sys2Proof.Machine

/-! Availability (04 R86, R97; 14 R348). -/

/-- Whether a cluster is available to a domain by the partitioned and shared rules (04 R97). -/
def State.clusterAvailable (s : State) (cl dom : Nat) : Bool :=
  let m := clusterModule cl
  let place := (cl / 32 % 16, cl % 32)
  match s.domain? m dom with
  | none => false
  | some (_, d) =>
    if d.set.partitioned then d.set.clusters.contains place
    else !(s.module m).domains.any fun p => p.2.set.partitioned && p.2.set.clusters.contains place

/-- The logical cores of a cluster. -/
def clusterCores (cl : Nat) : List Nat := (List.range 24).map fun k => cl * 32 + k

/-- The cores of a cluster that threads may land on: its logical cores, or in boot mode its unfused sites (17 R376, R377). -/
def State.clusterSites (s : State) (cl : Nat) : List Nat :=
  if (s.module (clusterModule cl)).bootMode then ((List.range 25).map fun k => cl * 32 + k).filter fun k => !s.fused k
  else clusterCores cl

/-- Whether a domain may have threads on a core: for a gang's domain, the core is one that the gang holds and the domain is
switched in and loaded there; for any other domain, no gang holds the core (14 R348). -/
def State.coreOpen (s : State) (cid dom : Nat) : Bool :=
  let x := s.module (cidModule cid)
  match (s.domain? (cidModule cid) dom).bind fun d => d.2.set.gang with
  | some g => let q := Tab.get Gang.fresh x.gangs g; q.current == dom && q.cores.contains cid && !(s.core cid).gangShut
  | none => !x.gangs.any fun p => p.2.cores.contains cid

/-- Whether a gang holds a core for another domain than this one (14 R348). -/
def State.coreForeign (s : State) (cid dom : Nat) : Bool :=
  (s.module (cidModule cid)).gangs.any fun p => p.2.cores.contains cid && p.2.current != dom

/-- Whether a cluster is available to a domain and switched in to it: some core of it is open (04 R86; 07 R175, R176; 14 R348). -/
def State.clusterIn (s : State) (cl dom : Nat) : Bool :=
  s.clusterAvailable cl dom && (s.clusterSites cl).any fun k => s.coreOpen k dom

/-- Whether a domain is switched in on a module: a resident domain always is, a gang's domain when it is the gang's current one
(03 R65, 14 R348). -/
def State.switchedIn (s : State) (m dom : Nat) : Bool :=
  match s.domain? m dom with
  | none => false
  | some (_, d) => match d.set.gang with
    | none => true
    | some g => (Tab.get Gang.fresh (s.module m).gangs g).current == dom

/-! Requests. -/

/-- Whether an address lies in the interleaved or the bank-linear window (07 R169). -/
def dramWindow (va : Nat) : Bool := field va 60 4 == 0 || field va 60 4 == 8

/-- A request of a thread (07 R168, R169): the ORDERED mark when nothing of the thread is unsettled. -/
def State.mkReq (s : State) (cid slot tag : Nat) (op : Op) (va : Nat) (posted : Bool) : Req where
  cid := cid
  tag := tag
  dom := (s.thread cid slot).dom
  va := va
  op := op
  posted := posted
  ordered := ((s.core cid).pending slot).isEmpty
  sc := (s.thread cid slot).scdef && dramWindow va
  resend := false

/-- The key that a request goes to: an LCTL request to the ladle that its handle names (09 R222). -/
def State.reqKey (s : State) (r : Req) : Nat :=
  match r.op with
  | .lctl _ h => clusterKey (s.ownModule r.cid (field h 33 12) * 2 ^ 9 + field h 24 9)
  | _ => s.targetKey r.cid r.dom (targetOf r.cid r.va)

/-- The virtual channel of a request (04 R79). -/
def Req.vc (r : Req) : Nat := if r.posted then 2 else 0

/-- Sends a request to its home (04 R79). -/
def State.dispatchReq (s : State) (r : Req) : State := s.sendReq r (s.reqKey r) r.vc

/-- Sends one request for each lane of the issuing thread's instruction. -/
def State.sendUnits (s : State) : List (Nat × Op × Nat) → List Access × State
  | [] => ([], s)
  | (l, op, va) :: rest =>
    let (tag, s) := s.newTag s.cur.1
    let r := s.mkReq s.cur.1 s.cur.2 tag op va false
    let q := (s.dispatchReq r).sendUnits rest
    (⟨l, r, .out, 64⟩ :: q.1, q.2)

/-- Where a unit stands after an answer: a RETRY or a no-list answer is sent again (07 R154, R168, R179; 12 R291, R292). -/
def Ans.after (a : Ans) (now backoff : Nat) : Sent × Nat :=
  match a with
  | .refresh h => (.again .refresh (now + h), backoff)
  | .noList => (.again .noList (now + backoff), min 1024 (2 * backoff))
  | .shutter => (.again .shutter now, backoff)
  | .scRetry => (.again .sc now, backoff)
  | a => (.done a, backoff)

/-- A unit with an answer. -/
def Access.answered (u : Access) (now : Nat) (a : Ans) : Access :=
  let r := a.after now u.backoff
  { u with st := r.1, backoff := r.2 }

/-- Performs units at the core's own local memory within the pass (07 R154): the ones that must wait are in the word's list. A block is
written at once (log entry 90). -/
def State.localUnits (s : State) (dom : Nat) : List (Nat × Op × Nat) → List Access × State
  | [] => ([], s)
  | (l, op, va) :: rest =>
    let (tag, s) := s.newTag s.cur.1
    let r := s.mkReq s.cur.1 s.cur.2 tag op va false
    let u : Access := ⟨l, r, .out, 64⟩
    let p := s.atLocal s.cur.1 (field va 0 19) false r
    let done := match p.1, op with
      | some (.begun a tol subn), .block mask data => (u.answered s.now .ok, p.2.writeBlock a mask data dom tol subn)
      | some a, _ => (u.answered s.now a, p.2)
      | none, _ => (u, p.2)
    let q := done.2.localUnits dom rest
    (done.1 :: q.1, q.2)

/-! Completing with answers (07 R156, R172; 12 R285 to R298; 14 R394). -/

/-- The answer of a unit, if it has one. -/
def Access.answer (u : Access) : Option Ans :=
  match u.st with
  | .done a => some a
  | _ => none

/-- The cause of a failed unit. -/
def Access.cause (u : Access) : Option Nat :=
  match u.st with
  | .done (.fault c) => some c
  | .done (.faultAt c _) => some c
  | _ => none

/-- The address that a failed unit reports. -/
def Access.faultVa (u : Access) : Nat :=
  match u.st with
  | .done (.faultAt _ va) => va
  | _ => u.req.va

/-- Whether a unit is to be sent again after a RETRY answer of its home (07 R154): its delay does not count against WLIM. -/
def Access.delayed (u : Access) : Bool :=
  match u.st with
  | .again .noList _ => false
  | .again _ _ => true
  | _ => false

/-- The units of a parked instruction. -/
def Wait.units : Wait → List Access
  | .mem _ us _ => us
  | _ => []

/-- A thread whose count against WLIM stands still while a request of it is to be sent again (07 R154, R168, R179; log entry 91). -/
def Thread.reclock (t : Thread) (now : Nat) : Thread :=
  let delayed := t.wait.units.any Access.delayed
  match t.retry0 with
  | none => if delayed then { t with retry0 := some now } else t
  | some c => if delayed then t else { t with retry0 := none, issue0 := t.issue0.map (· + (now - c)) }

/-- The data of a unit. -/
def Access.data (u : Access) : Nat :=
  match u.st with
  | .done (.data v) => v
  | _ => 0

/-- Whether a failure of an access is a covered failure of a region (07 R172): the access left the core. -/
def coveredPath (cid va : Nat) : Bool := (targetOf cid va).path != .loc

/-- Whether a unit's failure is a covered failure: of an LCTL request only that no path led to the ladle (09 R222);
no failure of a flask's join, question or leave is one. -/
def Access.covered (u : Access) : Bool :=
  match u.req.op with
  | .lctl _ _ => u.cause == some Cause.linkUnreachable
  | .query _ | .leave => false
  | _ => coveredPath u.req.cid u.req.va

/-- The jobs of a cluster without the FAULTED entries of a thread (10 R241). -/
def dropFaulted (uid : Nat) (jobs : Tab Job) : Tab Job := jobs.filter fun p => !(p.2.uid == uid && p.2.st == 3)

/-- Frees the FAULTED job entries of a thread, whose jobs may stand in any cluster it has run in (10 R241). -/
def State.dropJobsOf (s : State) (uid : Nat) : State :=
  { s with clusters := s.clusters.map fun (p : Nat × Cluster) =>
      (p.1, { p.2 with eng := { p.2.eng with jobs := dropFaulted uid p.2.eng.jobs } }) }

/-- The domain whose service thread ends has none (14 R333). -/
def State.endService (s : State) (uid : Nat) : State :=
  { s with modules := s.modules.map fun p =>
      (p.1, { p.2 with domains := p.2.domains.map fun q =>
        if q.2.service == some uid then (q.1, { q.2 with service := none }) else q }) }

/-- Ends the task in a slot (12 R302 step 4): the slot is FREE, pending asynchronous traps and the region checkpoint are gone. The
domain has no service thread once its own has ended (14 R333). -/
def State.endTask (s : State) (cid slot : Nat) : State :=
  let t := s.thread cid slot
  let s := s.dropJobsOf t.uid
  let s := if t.svc then s.endService t.uid else s
  s.onThread cid slot fun _ => Thread.fresh

/-- The bytes that an operation covers, from its address (07 R159, 08 R205). -/
def Op.span : Op → Nat
  | .store n _ => n
  | .block _ _ => 64
  | .atom _ n _ => n
  | .cas n _ _ => n
  | .load n => n
  | _ => 8

/-- The 512-bit value of a group with the data of units written, each from its lane of `size` bytes up (08 R205). -/
def laneMerge (size old : Nat) (units : List Access) : Nat :=
  units.foldl (fun v u => putField v (8 * size * u.lane) (8 * u.req.op.span) u.data) old

/-- The 512-bit value of a group of the thread in a slot. -/
def State.grpOf (s : State) (cid slot k : Nat) : Nat :=
  (List.range 8).foldr (fun i acc => (s.gOf cid slot (8 * k + i)).toNat + 2 ^ 64 * acc) 0
/-- Writes a group of the thread in a slot. -/
def State.setGrpOf (s : State) (cid slot k v : Nat) : State :=
  (List.range 8).foldl (fun s i => s.setGOf cid slot (8 * k + i) (BitVec.ofNat 64 (v / 2 ^ (64 * i)))) s

/-- The instruction of the thread in a slot completes: PC + 4 (05 R101). -/
def State.retireAt (s : State) (cid slot : Nat) : State :=
  s.onThread cid slot fun t => { t with pc := t.pc + 4, issue0 := none, gathered := [] }

/-- What a completed wait writes (07 R156, 08 R205, 12 R285 to R297). -/
def State.writeBack (s : State) (cid slot : Nat) (f : Finish) (units : List Access) : State :=
  let v := match units with
    | u :: _ => u.data
    | [] => 0
  match f with
  | .load d z => s.setGOf cid slot d (sizeExtend z v)
  | .word d => s.setGOf cid slot d (BitVec.ofNat 64 v)
  | .pair d => (s.setGOf cid slot d (BitVec.ofNat 64 v)).setGOf cid slot (d + 1) (BitVec.ofNat 64 (v / 2 ^ 64))
  | .lanes d size => s.setGrpOf cid slot d (laneMerge size (s.grpOf cid slot d) units)
  | .two d | .query d _ =>
    (match units with
     | ⟨_, _, .done (.two a b), _⟩ :: _ =>
       (s.setGOf cid slot d (BitVec.ofNat 64 a)).setGOf cid slot (d + 1) (BitVec.ofNat 64 b)
     | _ => s)
  | .fence => s.onThread cid slot fun t => t.dropFetch
  | _ => s

/-- A failure that a target reports (07 R156, R172): the region rolls back, or the thread traps precisely. In a handler inside a
region the rollback stays pending and the instruction completes with no effect (log entry 19). -/
def State.failAs (s : State) (cid slot cause va : Nat) (covered : Bool) : State :=
  let t := s.thread cid slot
  if t.rg && covered then
    let s' := s.coveredFailure cid slot (BitVec.ofNat 64 cause)
    if t.trap.tdepth = 0 then s' else s'.retireAt cid slot
  else s.trapAt cid slot cause (BitVec.ofNat 64 va)

/-- A failure that the target of an access at `va` reports. -/
def State.failAt (s : State) (cid slot cause va : Nat) : State := s.failAs cid slot cause va (coveredPath cid va)

/-- A thread waits until journal entries of its own settle (07 R169); with none unsettled it goes on. An entry outside the interleaved and
the bank-linear window does not hold it. -/
def State.waitEntries (s : State) (cid slot : Nat) (nums : List Nat) : State :=
  let nums := (((s.core cid).pending slot).filter fun e => nums.contains e.num && dramWindow e.req.va).map (·.num)
  if nums.isEmpty then s
  else
    let now := (s.core cid).cyc
    s.onThread cid slot fun t =>
      { t with st := .parkedMem, from_ := t.st, wait := .entries nums, parked := now, pipe := now }

/-- The unit whose failure an instruction reports: the lowest-numbered (08 R205; log entry 84). -/
def failedUnit (units : List Access) : Option Access := units.find? fun u => u.cause.isSome

/-- What the failure of a unit does to the thread that waits for it (07 R156, R163, R172; 12 R302). -/
def State.failUnit (s : State) (cid slot : Nat) (f : Finish) (units : List Access) (u : Access) : State :=
  let c := u.cause.getD 0
  match f with
  | .fence => if c = Cause.hostTimeout then s.trapAt cid slot c 0 else (s.writeBack cid slot f units).retireAt cid slot
  | .endTask => s.trapAt cid slot c (BitVec.ofNat 64 u.req.va)
  | _ => s.failAs cid slot c u.faultVa u.covered

/-- What a wait that was cancelled leaves (12 R290, R293; 14 R394): the instruction issues again, or its limit has passed. -/
def State.cancelledWait (s : State) (cid slot : Nat) (f : Finish) (abandon : Bool) (u : Access) : State :=
  if abandon then s.onThread cid slot fun t => { t with issue0 := none }
  else match u.req.op with
    | .waitv _ => (s.writeBack cid slot f [{ u with st := .done (.data 1) }]).retireAt cid slot
    | _ => s.trapAt cid slot Cause.waitTimeout (BitVec.ofNat 64 (u.req.va / 8 * 8))

/-- Completes the wait of a thread all of whose requests are answered (07 R156, 12 R288, R290; 14 R394): a failure that a target reports
goes before a wait that was cancelled (08 R205). -/
def State.finishWait (s : State) (cid slot : Nat) (f : Finish) (units : List Access) (abandon : Bool) : State :=
  let s := s.onThread cid slot Thread.unpark
  match f, units with
  | .gather va, u :: _ =>
    s.onThread cid slot fun t => { t with gathered := t.gathered ++ [(va, u.answer.getD .ok)] }
  | .leave, _ => s.retireAt cid slot
  | _, _ =>
    match failedUnit units, units.find? fun u => u.answer == some .cancelled with
    | some u, _ => s.failUnit cid slot f units u
    | none, some u => s.cancelledWait cid slot f abandon u
    | none, none =>
      match f with
      | .endTask => s.endTask cid slot
      | .reissue => s
      | .stored nums => (s.retireAt cid slot).waitEntries cid slot nums
      | _ => (s.writeBack cid slot f units).retireAt cid slot

/-! Cancelling (12 R290, 14 R394). -/

/-- Whether a target is the host window. -/
def Target.isHost : Target → Bool
  | .host _ => true
  | _ => false
/-- Whether a target is one of the engine stores. -/
def Target.isStore : Target → Bool
  | .store _ _ _ => true
  | _ => false

/-- Whether a request may wait in a list at its home, so that a cancel takes it back (12 R290, 14 R394): LDF, LDT, STP, WAITF, WAITE,
WAITV, and the waits of 07 R155. -/
def Req.cancellable (r : Req) : Bool :=
  match r.op with
  | .ldf | .ldt | .stp _ | .waitf | .waite | .waitv _ => true
  | .load _ | .store _ _ => (targetOf r.cid r.va).isStore
  | _ => false

/-- Whether every unit of a wait is answered or can be cancelled. -/
def allCancellable (units : List Access) : Bool := units.all fun u => u.answer.isSome || u.req.cancellable

/-- A cancel to the home of a request (12 R290). -/
def State.sendCancel (s : State) (r : Req) : State :=
  s.sendRaw (cidModule r.cid) (coreSource r.cid) (s.reqKey r) 0 (.cancel r.cid r.tag r.dom r.va)

/-- Cancels the units that have no answer: one that waits to be sent again after a no-list answer has no request outstanding
(12 R291); one whose home no path reaches is answered so (04 R78). -/
def State.cancelUnits (s : State) : List Access → List Access × State
  | [] => ([], s)
  | u :: r =>
    let p := match u.st with
      | .out =>
        if !u.req.cancellable then (u, s)
        else if s.reaches (cidModule u.req.cid) (s.reqKey u.req) then ({ u with st := .cancelling }, s.sendCancel u.req)
        else ({ u with st := .done (.fault Cause.linkUnreachable) }, s)
      | .again .noList _ => ({ u with st := .done .cancelled }, s)
      | _ => (u, s)
    let q := p.2.cancelUnits r
    (p.1 :: q.1, q.2)

/-- A unit that waits to be sent again has no request outstanding: beside a failed unit it is given up (08 R205). -/
def Access.giveUp (u : Access) : Access :=
  match u.st with
  | .again _ _ => { u with st := .done .cancelled }
  | _ => u

/-- A failure that a target has reported while other units of the instruction still wait (08 R205, 07 R172): in a region the thread rolls
back at once; otherwise the units that wait in a list are taken back, and the trap follows when none is outstanding. -/
def State.failEarly (s : State) (cid slot : Nat) (f : Finish) (units : List Access) (abandon : Bool) (u : Access) : State :=
  let t := s.thread cid slot
  let p := s.cancelUnits (units.map Access.giveUp)
  if t.rg && u.covered && t.trap.tdepth = 0 then (p.2.onThread cid slot Thread.unpark).failUnit cid slot f units u
  else if p.1.all fun u => u.answer.isSome then p.2.finishWait cid slot f p.1 abandon
  else p.2.onThread cid slot fun t => { t with wait := .mem f p.1 abandon }

/-- Goes on with the wait of a thread when every request of it is answered, or one has failed. -/
def State.settleWait (s : State) (cid slot : Nat) : State :=
  match (s.thread cid slot).wait with
  | .mem f units ab =>
    if units.all fun u => u.answer.isSome then s.finishWait cid slot f units ab
    else (match failedUnit units with
      | some u => s.failEarly cid slot f units ab u
      | none => s)
  | _ => s

/-- Parks the issuing thread on units, or completes within the pass when all are answered already: the instruction then stays in the pipeline
(06 R130, 07 R154). -/
def State.await (_ : State) (f : Finish) (p : List Access × State) : State :=
  let s := p.2
  if p.1.all fun u => u.answer.isSome then
    (s.onThr fun t => { t with from_ := t.st }).finishWait s.cur.1 s.cur.2 f p.1 false
  else (s.parkMem f p.1).settleWait s.cur.1 s.cur.2

/-! The journal (07 R159, R311). -/

/-- Whether two byte ranges meet. -/
def rangesMeet (a n b m : Nat) : Bool := a < b + m && b < a + n

/-- Whether two byte ranges touch a common 8-byte word, the unit in which accesses are ordered (13 R307, R310). -/
def wordsMeet (a n b m : Nat) : Bool := rangesMeet (a / 8 * 8) (a % 8 + n) (b / 8 * 8) (b % 8 + m)

/-- The unsettled entries of a thread that hold a word of a range, by VA (07 R159, 13 R310). -/
def State.overlapping (s : State) (cid slot va n : Nat) : List JEntry :=
  ((s.core cid).pending slot).filter fun e => wordsMeet va n e.req.va e.req.op.span

/-- Whether an entry is one that loads are forwarded from: an ST or an STF (07 R159, R311). -/
def JEntry.forwards (e : JEntry) : Bool := e.kind == 0 || e.kind == 1

/-- The byte of an entry at an address. -/
def JEntry.byteAt (e : JEntry) (a : Nat) : Nat :=
  match e.req.op with
  | .store _ v => v / 256 ^ (a - e.req.va) % 256
  | .stf v => v / 256 ^ (a - e.req.va) % 256
  | _ => 0

/-- The bytes of a load from the newest entries that hold them, the lowest address first; none when some byte is in no entry
(07 R159). -/
def forwardBytes (es : List JEntry) (va : Nat) : Nat → Option Nat
  | 0 => some 0
  | n + 1 =>
    match (es.filter fun e => rangesMeet va 1 e.req.va e.req.op.span).getLast?, forwardBytes es (va + 1) n with
    | some e, some r => some (e.byteAt va + 256 * r)
    | _, _ => none

/-- What the journal does with a load (07 R159, R311). -/
inductive Forward where
  | none | wait
  | data (v : Nat)
  deriving DecidableEq, Repr

/-- Whether a load takes its bytes from the journal, waits, or goes to its target (07 R159, R311): a load of other bytes of a word that
an entry holds is kept behind it (13 R308, R310). -/
def State.forward (s : State) (cid slot va n : Nat) : Forward :=
  let es := s.overlapping cid slot va n
  if es.isEmpty then .none
  else if (es.filter fun e => rangesMeet va n e.req.va e.req.op.span).all JEntry.forwards then
    (match forwardBytes es va n with
     | some v => .data v
     | none => .wait)
  else .wait

/-- Whether a thread's later global accesses are held by an SC access that was sent again (07 R168). -/
def State.scHeld (s : State) (cid slot : Nat) : Bool := ((s.core cid).pending slot).any (·.scHold)

/-- Whether an entry may be sent after the entries `before` of its thread (07 R159, R168, R311). -/
def JEntry.sendable (e : JEntry) (before : List JEntry) : Bool :=
  before.all fun x => x.st != .held && !x.scHold &&
    !wordsMeet e.req.va e.req.op.span x.req.va x.req.op.span

/-- Sends the entries that may be sent now, oldest first (07 R159): `before` holds the entries already passed. -/
def State.pumpFrom (s : State) (cid : Nat) (before : List JEntry) : List JEntry → State
  | [] => s.onCore cid fun c => { c with journal := before }
  | e :: rest =>
    let mine := before.filter fun x => x.slot == e.slot
    if e.st == .held && e.sendable mine then
      let e := { e with st := .out, req := { e.req with ordered := mine.isEmpty } }
      (s.dispatchReq e.req).pumpFrom cid (before ++ [e]) rest
    else s.pumpFrom cid (before ++ [e]) rest

/-- Sends the journal entries of a core that may be sent now (07 R159). -/
def State.pumpJournal (s : State) (cid : Nat) : State := s.pumpFrom cid [] (s.core cid).journal

/-- The lowest entry number that is free (07 R159; log entry 20). -/
def freeEntry (used : List Nat) : Nat := ((List.range 64).find? fun n => !used.contains n).getD 0

/-- Adds entries for the issuing thread; gives their numbers (07 R159). -/
def State.addEntries (s : State) : List (Nat × Op × Nat) → List Nat × State
  | [] => ([], s)
  | (kind, op, va) :: rest =>
    let cid := s.cur.1
    let (tag, s) := s.newTag cid
    let num := freeEntry ((s.core cid).journal.map (·.num))
    let r := { s.mkReq cid s.cur.2 tag op va true with ordered := false }
    let e : JEntry := ⟨num, s.cur.2, kind, r, .held, 64, s.thr.rg, false, false⟩
    let s := s.onCore cid fun c => { c with journal := c.journal ++ [e] }
    let q := s.addEntries rest
    (num :: q.1, q.2)

/-- Whether a thread gets `n` journal entries now: it waits in the order in which threads asked (07 R159). -/
def Core.journalRoom (c : Core) (slot n : Nat) : Bool :=
  decide (c.journal.length + n ≤ 64) && (match c.jwait with
    | [] => true
    | x :: _ => x == slot)

/-- The issuing thread asks for `n` journal entries and waits (07 R159). -/
def State.waitJournal (s : State) (n : Nat) : State :=
  let slot := s.cur.2
  (s.onCore s.cur.1 fun c =>
    { c with jwait := if c.jwait.contains slot then c.jwait else c.jwait ++ [slot] }).parkCore (.journal n)

/-- Whether the issuing thread can take `n` journal entries now (07 R159, R168). -/
def State.postReady (s : State) (n : Nat) : Bool :=
  !s.scHeld s.cur.1 s.cur.2 && (s.core s.cur.1).journalRoom s.cur.2 n

/-- Posts stores of the issuing thread (07 R159): it waits in order for free entries, waits for an SC access sent again (R168),
takes the entries and retires; under SCDEF it waits until they settle (R169). -/
def State.post (s : State) (items : List (Nat × Op × Nat)) : State :=
  let cid := s.cur.1
  let slot := s.cur.2
  let c := s.core cid
  if s.scHeld cid slot then s.parkCore .order
  else if c.journalRoom slot items.length then
    let s := s.onCore cid fun c => { c with jwait := c.jwait.filter (· != slot) }
    let q := s.addEntries items
    let s := (q.2.pumpJournal cid).retire
    if s.thr.scdef then s.waitEntries cid slot q.1 else s
  else
    s.waitJournal items.length

/-- Whether a ladle entry is held for the LCOPY of a thread that waits for its completion word (09 R214). -/
def LadleOp.heldFor (o : LadleOp) (cid slot : Nat) : Bool := o.st == 0 && o.cid == cid && o.slot == slot

/-- A thread leaves the queues for journal entries, checkpoints and ladle entries, and returns the entry that it holds unused (14 R394). -/
def State.leaveQueues (s : State) (cid slot : Nat) : State :=
  let name := threadName cid slot
  let s := { s with clusters := s.clusters.map fun (p : Nat × Cluster) =>
    (p.1, { p.2 with eng := { p.2.eng with
      lwait := p.2.eng.lwait.filter (· != name)
      ladle := p.2.eng.ladle.filter fun q => !q.2.heldFor cid slot } }) }
  s.onCore cid fun c => { c with jwait := c.jwait.filter (· != slot), ckwait := c.ckwait.filter (· != slot) }

/-! Migration (07 R175 to R177). -/

/-- Whether a thread holds a ladle operation that is not GONE or a job entry that is not FREE (09 R221, 10 R230). -/
def State.holdsEngine (s : State) (uid : Nat) : Bool :=
  s.clusters.any fun p => (p.2.eng.ladle.any fun q => q.2.uid == uid) || (p.2.eng.jobs.any fun q => q.2.uid == uid)

/-- The registers that a migration carries: the live ones and those that the instruction names (07 R175). -/
def State.carried (s : State) (named : List Nat) : List Word :=
  let t := s.thr
  (List.range t.win).map fun k =>
    if bit (t.live0.toNat + 2 ^ 64 * t.live1.toNat) k || named.contains k then s.g k else 0

/-- Sends the thread's context on the migration channel and parks it (07 R175 steps 1 and 2): it drains its journal first. -/
def State.migrate (s : State) (dst : Nat) (anyCore : Bool) (pc : Word) (named : List Nat) : State :=
  if !((s.core s.cur.1).pending s.cur.2).isEmpty then s.parkCore .drain
  else
    let t := s.thr
    let g : Migrant := ⟨s.cur.1, s.cur.2, dst, anyCore,
      { t with pc := pc, cur := none, nxt := none, fetches := [], wait := .none, issue0 := none, yield := false },
      s.carried named⟩
    let key := if anyCore then clusterKey dst else cidKey dst
    (s.sendRaw (cidModule s.cur.1) (coreSource s.cur.1) key 3 (.migrate g)).parkCore (.migrate dst)

/-- Whether the instruction at issue stays split-phase, because its migration was answered LINK_UNREACHABLE (07 R177): a mark among the
answers that it holds, under a number that is no address. -/
def Thread.stays (t : Thread) : Bool := (Tab.find t.gathered (2 ^ 65)).isSome
/-- The host cluster of a DRAM target on another stack, when a migration to it is allowed (07 R175, 04 R86). -/
def State.migrationTarget (s : State) (t : Target) : Option Nat :=
  let cid := s.cur.1
  let th := s.thr
  match s.homeOf cid th.dom t with
  | none => none
  | some (m, st, ch) =>
    let cl := hostCluster m st ch
    if (m, st) = (cidModule cid, cidDie cid) then none
    else if th.rg || th.stays || th.st == .trap || s.holdsEngine th.uid || !s.clusterIn cl th.dom ||
        !s.reaches (cidModule cid) (clusterKey cl) then none
    else some cl

/-! Scalar accesses. -/

/-- What an instruction asks for: the operation at a VA, its size, what it writes when answered, the JSTAT.KIND of its journal
entry when its global form is posted, the registers that it names, and whether it migrates (07 R175), is a release (12 R284), may
be forwarded (07 R159), is a presence operation or an atomic with return (12 R283, R299). -/
structure Ask where
  op : Op
  va : Nat
  size : Nat
  fin : Finish
  posted : Option Nat
  named : List Nat
  migrates : Bool
  release : Bool
  forwards : Bool
  atIssue : Bool

/-- An access whose path and waits are settled: it is performed, sent or posted (07 R154). A TOUCH waits, like a read, while an unsettled
journal entry of its thread overlaps it (log entry 105). -/
def State.perform (s : State) (a : Ask) (t : Target) : State :=
  let cid := s.cur.1
  let slot := s.cur.2
  match t.path with
  | .loc => s.await a.fin (s.localUnits s.thr.dom [(0, a.op, a.va)])
  | .cluster => s.await a.fin (s.sendUnits [(0, a.op, a.va)])
  | .global =>
    match a.posted with
    | some k => s.post [(k, a.op, a.va)]
    | none =>
      match s.forward cid slot a.va a.size with
      | .wait => s.parkCore (.overlap a.va a.size)
      | .data v =>
        if a.forwards then
          (s.writeBack cid slot a.fin [⟨0, s.mkReq cid slot 0 a.op a.va false, .done (.data v), 64⟩]).retire
        else s.parkCore (.overlap a.va a.size)
      | .none =>
        if s.scHeld cid slot then s.parkCore .order
        else s.await a.fin (s.sendUnits [(0, a.op, a.va)])

/-- A scalar access (07 R153, R154, R175; 12 R283, R284, R298, R299): the checks at the core, the migration, a release's drain,
then the path. -/
def State.access (s : State) (a : Ask) : State :=
  let cid := s.cur.1
  match s.checkAccess cid s.thr.dom a.va a.size a.op.kind with
  | .error c => s.trap c (BitVec.ofNat 64 a.va)
  | .ok t =>
    if t.isHost && a.atIssue && !a.op.hostCarries then s.trap Cause.unsupportedOp (BitVec.ofNat 64 a.va)
    else if t.isStore && !a.op.onStores then s.trap Cause.protection (BitVec.ofNat 64 a.va)
    else match (if a.migrates && s.thr.mr then s.migrationTarget t else none) with
      | some cl => s.migrate cl true s.thr.pc a.named
      | none =>
        if a.release && !((s.core cid).pending s.cur.2).isEmpty then s.parkCore .drain
        else s.perform a t

end Sys2Proof.Machine
end

