-- ==== Sys2Proof/Machine/MemoryOps.lean ====
section
/-!
DEFINITION. The scalar memory, presence, atomic, WAIT and MSYNC instructions (07 R156 to R177, 12 R282 to R299).
-/
namespace Sys2Proof.Machine

/-- A load-like scalar request: parks until answered. -/
def asks (op : Op) (va size : Nat) (fin : Finish) (named : List Nat) : Ask :=
  ⟨op, va, size, fin, none, named, false, false, false, true⟩

/-- LD (07 R156). -/
def execLd (d s : Reg) (o : BitVec 9) (z : Size) (st : State) : Out :=
  .next (plain [d, s] (fun st =>
    let n := sizeBytes z
    st.access { asks (.load n) (st.address s o n) n (.load d z) [d, s] with migrates := true, forwards := true }) st)
/-- ST (07 R158). -/
def execSt (d s : Reg) (o : BitVec 9) (z : Size) (st : State) : Out :=
  .next (plain [d, s] (fun st =>
    let n := sizeBytes z
    st.access { asks (.store n (st.gn d % 2 ^ (8 * n))) (st.address s o n) n .none [d, s] with
      migrates := true, posted := some 0 }) st)
/-- LDF (12 R285). -/
def execLdf (d s : Reg) (o : BitVec 9) (st : State) : Out :=
  .next (plain [d, s] (fun st =>
    st.access { asks .ldf (st.address s o 8) 8 (.word d) [d, s] with migrates := true }) st)
/-- LDT (12 R285). -/
def execLdt (d s : Reg) (o : BitVec 9) (st : State) : Out :=
  .next (plain [d, s] (fun st =>
    st.access { asks .ldt (st.address s o 8) 8 (.word d) [d, s] with migrates := true }) st)
/-- STP (12 R285). -/
def execStp (d s : Reg) (o : BitVec 9) (st : State) : Out :=
  .next (plain [d, s] (fun st =>
    st.access { asks (.stp (st.gn d)) (st.address s o 8) 8 .none [d, s] with
      migrates := true, posted := some 2, release := true }) st)
/-- STF (12 R285). -/
def execStf (d s : Reg) (o : BitVec 9) (st : State) : Out :=
  .next (plain [d, s] (fun st =>
    st.access { asks (.stf (st.gn d)) (st.address s o 8) 8 .none [d, s] with
      migrates := true, posted := some 1, release := true }) st)

/-! PRES (12 R286). -/

/-- SETE (12 R286). -/
def execSete (s : Reg) (st : State) : Out :=
  .next (plain [s] (fun st => st.access (asks .sete (st.gn s) 8 .none [s])) st)
/-- SETF (12 R286): a release. -/
def execSetf (s : Reg) (st : State) : Out :=
  .next (plain [s] (fun st => st.access { asks .setf (st.gn s) 8 .none [s] with release := true }) st)
/-- PROBE (12 R286). -/
def execProbe (d s : Reg) (st : State) : Out :=
  .next (plain [d, s] (fun st => st.access (asks .probe (st.gn s) 8 (.word d) [d, s])) st)
/-- WAITF (12 R286). -/
def execWaitf (s : Reg) (st : State) : Out :=
  .next (plain [s] (fun st => st.access (asks .waitf (st.gn s) 8 .none [s])) st)
/-- WAITE (12 R286). -/
def execWaite (s : Reg) (st : State) : Out :=
  .next (plain [s] (fun st => st.access (asks .waite (st.gn s) 8 .none [s])) st)

/-! WAITV and the WAKE family (12 R293, R294). -/

/-- WAITV (12 R293). -/
def execWaitv (d s t : Reg) (st : State) : Out :=
  .next (plain [d, s, t] (fun st => st.access (asks (.waitv (st.gn t)) (st.gn s) 8 (.word d) [d, s, t])) st)
/-- A WAKE of at most `most` waiters, a release (12 R294). -/
def wakeOp (regs : List Nat) (d s : Reg) (most : State → Option Nat) (st : State) : Out :=
  .next (plain regs (fun st =>
    st.access { asks (.wake (most st)) (st.gn s) 8 (.word d) regs with release := true }) st)
/-- WAKE1 (12 R294). -/
def execWake1 (d s : Reg) (st : State) : Out := wakeOp [d, s] d s (fun _ => some 1) st
/-- WAKEA (12 R294). -/
def execWakea (d s : Reg) (st : State) : Out := wakeOp [d, s] d s (fun _ => none) st
/-- WAKEN (12 R294). -/
def execWaken (d s t : Reg) (st : State) : Out := wakeOp [d, s, t] d s (fun st => some (st.gn t)) st

/-! Atomics (12 R296 to R299). -/

/-- The bytes of an atomic. -/
def widthBytes : Width → Nat
  | .w32 => 4
  | .w64 => 8

/-- An atomic with return: REGION_ATOMIC inside a region (07 R171), a release and an acquire (12 R298). -/
def atomicReturn (regs : List Nat) (s : Reg) (size : Nat) (op : State → Op) (fin : Finish) (st : State) : Out :=
  .next (plain regs (fun st =>
    if st.thr.rg then st.trap Cause.regionAtomic (st.g s)
    else st.access { asks (op st) (st.gn s) size fin regs with release := true }) st)

/-- A posted atomic: relaxed, a journal entry of kind 3 on the global paths (12 R298). -/
def atomicPosted (regs : List Nat) (s : Reg) (size : Nat) (op : State → Op) (st : State) : Out :=
  .next (plain regs (fun st =>
    st.access { asks (op st) (st.gn s) size .none regs with posted := some 3, atIssue := false }) st)

/-- AADD (12 R296). -/
def execAadd (w : Width) (d s t : Reg) (st : State) : Out :=
  atomicReturn [d, s, t] s (widthBytes w) (fun st => .atom .add (widthBytes w) (st.gn t)) (.word d) st
/-- AAND (12 R296). -/
def execAand (w : Width) (d s t : Reg) (st : State) : Out :=
  atomicReturn [d, s, t] s (widthBytes w) (fun st => .atom .and (widthBytes w) (st.gn t)) (.word d) st
/-- AOR (12 R296). -/
def execAor (w : Width) (d s t : Reg) (st : State) : Out :=
  atomicReturn [d, s, t] s (widthBytes w) (fun st => .atom .or (widthBytes w) (st.gn t)) (.word d) st
/-- AXOR (12 R296). -/
def execAxor (w : Width) (d s t : Reg) (st : State) : Out :=
  atomicReturn [d, s, t] s (widthBytes w) (fun st => .atom .xor (widthBytes w) (st.gn t)) (.word d) st
/-- AMIN (12 R296). -/
def execAmin (w : Width) (d s t : Reg) (st : State) : Out :=
  atomicReturn [d, s, t] s (widthBytes w) (fun st => .atom .min (widthBytes w) (st.gn t)) (.word d) st
/-- AMAX (12 R296). -/
def execAmax (w : Width) (d s t : Reg) (st : State) : Out :=
  atomicReturn [d, s, t] s (widthBytes w) (fun st => .atom .max (widthBytes w) (st.gn t)) (.word d) st
/-- AMINN (12 R296). -/
def execAminn (w : Width) (d s t : Reg) (st : State) : Out :=
  atomicReturn [d, s, t] s (widthBytes w) (fun st => .atom .minn (widthBytes w) (st.gn t)) (.word d) st
/-- AMAXN (12 R296). -/
def execAmaxn (w : Width) (d s t : Reg) (st : State) : Out :=
  atomicReturn [d, s, t] s (widthBytes w) (fun st => .atom .maxn (widthBytes w) (st.gn t)) (.word d) st
/-- AXCHG (12 R296). -/
def execAxchg (w : Width) (d s t : Reg) (st : State) : Out :=
  atomicReturn [d, s, t] s (widthBytes w) (fun st => .atom .xchg (widthBytes w) (st.gn t)) (.word d) st
/-- ADECP (12 R296). -/
def execAdecp (w : Width) (d s : Reg) (st : State) : Out :=
  atomicReturn [d, s] s (widthBytes w) (fun _ => .atom .decp (widthBytes w) 0) (.word d) st
/-- AINCW (12 R296). -/
def execAincw (w : Width) (d s t : Reg) (st : State) : Out :=
  atomicReturn [d, s, t] s (widthBytes w) (fun st => .atom .incw (widthBytes w) (st.gn t)) (.word d) st
/-- AFADD (12 R296). -/
def execAfadd (w : Width) (d s t : Reg) (st : State) : Out :=
  atomicReturn [d, s, t] s (widthBytes w) (fun st => .atom .fadd (widthBytes w) (st.gn t)) (.word d) st
/-- AFMIN (12 R296). -/
def execAfmin (w : Width) (d s t : Reg) (st : State) : Out :=
  atomicReturn [d, s, t] s (widthBytes w) (fun st => .atom .fmin (widthBytes w) (st.gn t)) (.word d) st
/-- AFMAX (12 R296). -/
def execAfmax (w : Width) (d s t : Reg) (st : State) : Out :=
  atomicReturn [d, s, t] s (widthBytes w) (fun st => .atom .fmax (widthBytes w) (st.gn t)) (.word d) st
/-- AADD, posted (12 R298). -/
def execAaddP (w : Width) (s t : Reg) (st : State) : Out :=
  atomicPosted [s, t] s (widthBytes w) (fun st => .atom .add (widthBytes w) (st.gn t)) st
/-- AAND, posted (12 R298). -/
def execAandP (w : Width) (s t : Reg) (st : State) : Out :=
  atomicPosted [s, t] s (widthBytes w) (fun st => .atom .and (widthBytes w) (st.gn t)) st
/-- AOR, posted (12 R298). -/
def execAorP (w : Width) (s t : Reg) (st : State) : Out :=
  atomicPosted [s, t] s (widthBytes w) (fun st => .atom .or (widthBytes w) (st.gn t)) st
/-- AXOR, posted (12 R298). -/
def execAxorP (w : Width) (s t : Reg) (st : State) : Out :=
  atomicPosted [s, t] s (widthBytes w) (fun st => .atom .xor (widthBytes w) (st.gn t)) st
/-- AMIN, posted (12 R298). -/
def execAminP (w : Width) (s t : Reg) (st : State) : Out :=
  atomicPosted [s, t] s (widthBytes w) (fun st => .atom .min (widthBytes w) (st.gn t)) st
/-- AMAX, posted (12 R298). -/
def execAmaxP (w : Width) (s t : Reg) (st : State) : Out :=
  atomicPosted [s, t] s (widthBytes w) (fun st => .atom .max (widthBytes w) (st.gn t)) st
/-- AMINN, posted (12 R298). -/
def execAminnP (w : Width) (s t : Reg) (st : State) : Out :=
  atomicPosted [s, t] s (widthBytes w) (fun st => .atom .minn (widthBytes w) (st.gn t)) st
/-- AMAXN, posted (12 R298). -/
def execAmaxnP (w : Width) (s t : Reg) (st : State) : Out :=
  atomicPosted [s, t] s (widthBytes w) (fun st => .atom .maxn (widthBytes w) (st.gn t)) st
/-- AXCHG, posted (12 R298). -/
def execAxchgP (w : Width) (s t : Reg) (st : State) : Out :=
  atomicPosted [s, t] s (widthBytes w) (fun st => .atom .xchg (widthBytes w) (st.gn t)) st
/-- ADECP, posted (12 R298). -/
def execAdecpP (w : Width) (s : Reg) (st : State) : Out :=
  atomicPosted [s] s (widthBytes w) (fun _ => .atom .decp (widthBytes w) 0) st
/-- AINCW, posted (12 R298). -/
def execAincwP (w : Width) (s t : Reg) (st : State) : Out :=
  atomicPosted [s, t] s (widthBytes w) (fun st => .atom .incw (widthBytes w) (st.gn t)) st
/-- AFADD, posted (12 R298). -/
def execAfaddP (w : Width) (s t : Reg) (st : State) : Out :=
  atomicPosted [s, t] s (widthBytes w) (fun st => .atom .fadd (widthBytes w) (st.gn t)) st
/-- AFMIN, posted (12 R298). -/
def execAfminP (w : Width) (s t : Reg) (st : State) : Out :=
  atomicPosted [s, t] s (widthBytes w) (fun st => .atom .fmin (widthBytes w) (st.gn t)) st
/-- AFMAX, posted (12 R298). -/
def execAfmaxP (w : Width) (s t : Reg) (st : State) : Out :=
  atomicPosted [s, t] s (widthBytes w) (fun st => .atom .fmax (widthBytes w) (st.gn t)) st
/-- ACAS64 (12 R297). -/
def execAcas64 (d s t : Reg) (st : State) : Out :=
  atomicReturn [d, s, t] s 8 (fun st => .cas 8 (st.gn d) (st.gn t)) (.word d) st
/-- ACAS32 (12 R297). -/
def execAcas32 (d s t : Reg) (st : State) : Out :=
  atomicReturn [d, s, t] s 4 (fun st => .cas 4 (st.gn d % 2 ^ 32) (st.gn t % 2 ^ 32)) (.word d) st
/-- ACAS128 (12 R297). -/
def execAcas128 (d s t : Reg) (st : State) : Out :=
  atomicReturn [d, d.val + 1, s, t, t.val + 1] s 16
    (fun st => .cas 16 (st.gn d + 2 ^ 64 * st.gn (d.val + 1)) (st.gn t + 2 ^ 64 * st.gn (t.val + 1))) (.pair d) st

/-! MSYNC (07 R162 to R177). -/

/-- Whether the target of an address lies within a scope of core `cid` (07 R163). -/
def State.inScope (s : State) (cid dom va : Nat) (c : Scope) : Bool :=
  let t := targetOf cid va
  let near : Nat × Nat × Nat := match t with
    | .loc k _ | .unit k _ => (cidModule k, k / 2 ^ 10, k)
    | .remote k _ => let k := s.resolveCid cid k; (cidModule k, k / 2 ^ 10, k)
    | .store cl _ _ | .status cl _ => (clusterModule cl, cl / 32, cl * 32 + 31)
    | .host _ => (2 ^ 20, 0, 2 ^ 40)
    | _ => match s.homeOf cid dom t with
      | some (m, st, _) => (m, m * 16 + st, 2 ^ 40)
      | none => (2 ^ 20, 0, 2 ^ 40)
  match c with
  | .core => near.2.2 == cid
  | .cluster => near.2.2 / 32 == cid / 32
  | .die => near.2.1 == cid / 2 ^ 10 && near.1 == cidModule cid
  | .module => near.1 == cidModule cid
  | .fabric => !t.isHost
  | .system => true

/-- The unsettled entries of a thread within a scope (07 R163). -/
def State.pendingIn (s : State) (cid slot : Nat) (c : Scope) : List JEntry :=
  ((s.core cid).pending slot).filter fun e => s.inScope cid e.req.dom e.req.va c

/-- FENCE (07 R163): waits for the thread's accesses within the scope, at system scope for an ordering read too, and discards the
fetch buffers. -/
def execFence (c : Scope) (st : State) : Out :=
  .next (plain [] (fun st =>
    if !(st.pendingIn st.cur.1 st.cur.2 c).isEmpty then st.parkCore (.fence c)
    else if c = .system then
      let (tag, st) := st.newTag st.cur.1
      let r := st.mkReq st.cur.1 st.cur.2 tag .orderRead (0xC * 2 ^ 60) false
      (st.dispatchReq r).parkMem .fence [⟨0, r, .out, 64⟩]
    else (st.onThr fun t => t.dropFetch).retire) st)

/-- JSYNC (07 R164). -/
def execJsync (st : State) : Out :=
  .next (plain [] (fun st =>
    if ((st.core st.cur.1).pending st.cur.2).isEmpty then st.retire else st.parkCore .drain) st)

/-- The region checkpoints of a core that are taken (07 R170): a restored thread that still waits for one holds none (R174). -/
def Core.checkpoints (c : Core) : Nat := (c.slots.filter fun p => p.2.ckpt.isSome && !c.ckwait.contains p.1).length

/-- Whether a thread gets a region checkpoint now: one of 16 is free and it asked first (07 R170). -/
def Core.checkpointFor (c : Core) (slot : Nat) : Bool :=
  decide (c.checkpoints < 16) && (match c.ckwait with
    | [] => true
    | x :: _ => x == slot)

/-- A thread with RG written (06 R139). -/
def Thread.setRg (t : Thread) (b : Bool) : Thread := t.setTswBit 15 b

/-- RBEGIN (07 R170). -/
def execRbegin (d : Reg) (st : State) : Out :=
  .next (plain [d] (fun st =>
    if st.thr.rg then st.trap Cause.regionState 0
    else if (st.core st.cur.1).checkpointFor st.cur.2 then
      let k : Checkpoint := ⟨st.regsOf st.cur.1 st.cur.2, st.thr.preds, st.thr.fds, st.thr.lk, st.thr.tsw, d, st.thr.pc⟩
      let st := st.leaveQueues st.cur.1 st.cur.2
      ((st.onThr fun t => { t.setRg true with ckpt := some k }).setG d 0).retire
    else
      (st.onCore st.cur.1 fun c =>
        { c with ckwait := if c.ckwait.contains st.cur.2 then c.ckwait else c.ckwait ++ [st.cur.2] }).parkCore
        .checkpoint) st)

/-- The unsettled entries that a thread took inside its open region (07 R173). -/
def State.regionPending (s : State) (cid slot : Nat) : List JEntry :=
  ((s.core cid).pending slot).filter fun e => e.region && !e.discard

/-- RCOMMIT (07 R173): with a rollback pending in a handler it completes without effect (log entry 19). -/
def execRcommit (st : State) : Out :=
  .next (plain [] (fun st =>
    if !st.thr.rg then st.trap Cause.regionState 0
    else if st.thr.rollback.isSome then st.retire
    else if (st.regionPending st.cur.1 st.cur.2).isEmpty then
      (st.onThr fun t => { t.setRg false with ckpt := none }).retire
    else st.parkCore .commit) st)

/-- RABORT (07 R174). -/
def execRabort (s : Reg) (st : State) : Out :=
  .next (plain [s] (fun st =>
    if !st.thr.rg then st.trap Cause.regionState 0
    else
      let v := (st.g s).setWidth 63
      let st' := st.coveredFailure st.cur.1 st.cur.2 (2 ^ 63 + v.setWidth 64)
      if st.thr.trap.tdepth = 0 then st' else st'.retire) st)

/-- PREF (07 R166): the translation is cached, and nothing else happens. -/
def execPref (s : Reg) (st : State) : Out :=
  .next (plain [s] (fun st =>
    let cid := st.cur.1
    let dom := st.thr.dom
    (match st.checkAccess cid dom (st.gn s) 8 .read with
     | .error _ => st
     | .ok t => match st.lookup cid dom t with
       | none => st
       | some l => if st.reaches (cidModule cid) (st.targetKey cid dom t) then (st.translate dom l .read).2 else st).retire) st)

/-- Where MIGR goes: a cluster, or a core (07 R176). -/
inductive Place where
  | bad (cause : Nat)
  | here
  | cluster (cl : Nat)
  | core (cid : Nat)
  deriving DecidableEq, Repr

/-- The place that an address names for MIGR (07 R176). An invalid field of a CID traps BAD_CID, as in an access (04 R72; log entry 96). -/
def State.placeOf (s : State) (cid dom va : Nat) : Place :=
  if addressBad va then .bad Cause.badAddress
  else match targetOf cid va with
    | .remote k _ =>
      if !s.cidOk cid k then .bad Cause.badCid
      else if s.resolveCid cid k = cid then .here else .core (s.resolveCid cid k)
    | .interleaved _ | .bank _ _ _ _ =>
      (match s.homeOf cid dom (targetOf cid va) with
       | some (m, st, ch) => if (m, st) = (cidModule cid, cidDie cid) then .here else .cluster (hostCluster m st ch)
       | none => .here)
    | _ => .bad Cause.badAddress

/-- Whether MIGR may move the issuing thread at all: it is not in TRAP, holds no engine's entry, and a path leads there (07 R176, R177). -/
def State.mayMove (s : State) (cl : Nat) : Bool :=
  s.thr.st != .trap && !s.holdsEngine s.thr.uid && s.reaches (cidModule s.cur.1) (clusterKey cl)

/-- MIGR (07 R176): it completes without moving when the target is not available to the domain; so it does when the named core is a
fused site, which answers LINK_UNREACHABLE (07 R177, 17 R376). -/
def execMigr (s : Reg) (st : State) : Out :=
  .next (plain [s] (fun st =>
    let dom := st.thr.dom
    if st.thr.rg then st.trap Cause.regionState 0
    else match st.placeOf st.cur.1 dom (st.gn s) with
      | .bad c => st.trap c (st.g s)
      | .here => st.retire
      | .cluster cl =>
        if !st.present.contains (clusterModule cl) then st.trap Cause.linkUnreachable (st.g s)
        else if st.mayMove cl && st.clusterIn cl dom then st.migrate cl true (st.thr.pc + 4) [s] else st.retire
      | .core k =>
        if !st.present.contains (cidModule k) then st.trap Cause.linkUnreachable (st.g s)
        else if st.mayMove (cidCluster k) && st.clusterAvailable (cidCluster k) dom && st.coreOpen k dom && !st.fused k then
          st.migrate k false (st.thr.pc + 4) [s]
        else st.retire) st)

/-- LIVEM (05 R115). -/
def execLivem (d s : Reg) (m : Bool) (st : State) : Out :=
  .next (plain [d, s] (fun st =>
    let mask := (2 ^ (s.val + 1) - 2 ^ d.val) % 2 ^ 128
    let lo := BitVec.ofNat 64 mask
    let hi := BitVec.ofNat 64 (mask / 2 ^ 64)
    (st.onThr fun t =>
      { t with live0 := if m then t.live0 ||| lo else lo, live1 := if m then t.live1 ||| hi else hi }).retire) st)

/-- TOUCH (07 R165). -/
def execTouch (s : Reg) (w : Bool) (st : State) : Out :=
  .next (plain [s] (fun st =>
    st.access { asks (.touch w) (st.gn s) 8 .none [s] with atIssue := false }) st)

end Sys2Proof.Machine
end

