-- ==== Sys2Proof/Machine/Within.lean ====
section
/-!
DEFINITION. Accesses that an instruction, an engine or a unit of the part makes within its own step (log entry 2), and the words
of the engine status page (10 R245, R248).
-/
namespace Sys2Proof.Machine

/-! The status page (10 R248). -/

/-- A job id (10 R229). -/
def jobId (seq entry : Nat) : Nat := seq % 2 ^ 16 * 32 + entry

/-- The status word of a job entry that is not FREE (10 R245). -/
def Job.status (j : Job) (entry : Nat) : Nat :=
  j.st * 2 ^ 56 + (if j.st = 3 then j.cause % 512 * 2 ^ 47 else 0) + j.kind * 2 ^ 37 + cidCore j.cid * 2 ^ 32 +
    j.slot % 256 * 2 ^ 24 + jobId j.seq entry

/-- The word of a bound ring on the status page (10 R248). -/
def Ring.status (r : Ring) : Nat := r.pos % 2 ^ 24 * 2 ^ 40 + 2 ^ 36 + r.desc % 2 ^ 36

/-- Word `i` of a cluster's status page as a reader of domain `dom` sees it (10 R248). -/
def State.statusWord (s : State) (cl dom i : Nat) : Nat :=
  let e := (s.cluster cl).eng
  if i < 32 then (match Tab.find e.jobs i with
    | some j => if j.dom = dom then j.status i else 0
    | none => 0)
  else if i < 40 then (match Tab.find e.rings (i - 32) with
    | some r => if r.dom = dom then r.status else 0
    | none => 0)
  else 0

/-! Accesses within a step. -/

/-- What such an access finds: done with its data, a failure with its cause, a wait, or a word of host memory, which the endpoint
must be asked for. -/
inductive Read where
  | ok (v : Nat)
  | fail (cause : Nat)
  | blocked (w : CoreWait)
  | ask
  deriving DecidableEq, Repr

/-- The request that stands for an access made within a step: ORDERED and marked as a resend, so that it is answered at once. -/
def insideReq (cid dom va : Nat) (op : Op) : Req := ⟨cid, 2 ^ 24, dom, va, op, false, true, false, true⟩

/-- What an answer means for such an access; one that would wait leaves the state as it was. -/
def State.settled (s : State) (va : Nat) (p : Option Ans × State) : Read × State :=
  match p.1 with
  | some (.data v) => (.ok v, p.2)
  | some (.fault c) => (.fail c, p.2)
  | some .shutter => (.blocked (.unit va), s)
  | some .noList => (.blocked (.unit va), s)
  | some _ => (.ok 0, p.2)
  | none => (.blocked (.unit va), s)

/-- An access to host memory within a step: a load needs the endpoint's answer, a plain store is posted (07 R157, R159). -/
def State.actHost (s : State) (m a va : Nat) (tol subn : Bool) (r : Req) (got : Option Ans) : Read × State :=
  match r.op, got with
  | .load _, some (.data v) => (.ok v, s)
  | .load _, some (.fault c) => (.fail c, s)
  | .load _, _ => (.ask, s)
  | op, _ => if op.nonPosted then (.fail Cause.unsupportedOp, s) else s.settled va (s.hostAccess m a tol subn r)

/-- An access at a target that passed the checks of core `cid` (07 R154), performed within the step; `got` is the endpoint's
answer to an earlier ask. -/
def State.actAt (s : State) (cid dom : Nat) (t : Target) (va : Nat) (op : Op) (got : Option Ans) : Read × State :=
  let r := insideReq cid dom va op
  if t.isStore && !op.onStores then (.fail Cause.protection, s)
  else if t.path == .global && !s.reaches (cidModule cid) (s.targetKey cid dom t) then (.fail Cause.linkUnreachable, s)
  else match s.lookup cid dom t with
    | none => s.settled va (s.atCluster t (fun cl i => s.statusWord cl dom i) r)
    | some l => match s.translate dom l op.kind with
      | (.error c, s) => (.fail c, s)
      | (.ok (.dram a tol subn _), s) => s.settled va (s.homePerform a (s.targetKey cid dom t) tol subn r)
      | (.ok (.host a tol subn _), s) => s.actHost l.m a va tol subn r got

/-- An access of `size` bytes for core `cid` with the checks of 07 R153. -/
def State.act (s : State) (cid dom va size : Nat) (op : Op) (got : Option Ans) : Read × State :=
  match s.checkAccess cid dom va size op.kind with
  | .error c => (.fail c, s)
  | .ok t => s.actAt cid dom t va op got

/-- Where a host address lies for a domain, if it can be read. -/
def State.hostWord (s : State) (cid dom va n : Nat) : Read × State :=
  match s.lookup cid dom (targetOf cid va) with
  | none => (.fail Cause.protection, s)
  | some l => match s.translate dom l .read with
    | (.ok (.host a _ _ _), s) => (.ok (s.mem.read (hostAddr l.m a) n), s)
    | (.ok (.dram a _ _ _), s) => (.ok (s.mem.read a n), s)
    | (.error c, s) => (.fail c, s)

/-- A read of a unit of the part that keeps no instruction waiting: a host word is read within the step too (log entry 2). -/
def State.readWhole (s : State) (cid dom va n : Nat) : Read × State :=
  match s.act cid dom va n (.load n) none with
  | (.ask, s) => s.hostWord cid dom va n
  | r => r

/-- Whether the page of a DRAM target is an SC page (04 R93). -/
def State.scPage (s : State) (cid dom : Nat) (t : Target) : Bool :=
  match s.lookup cid dom t with
  | none => false
  | some l => match (s.translate dom l .read).1 with
    | .ok (.dram _ _ _ sc) => sc
    | .ok (.host _ _ _ sc) => sc
    | .error _ => false

/-- The answer that a thread has gathered for a host word. -/
def State.gatheredAt (s : State) (va : Nat) : Option Ans := Tab.find s.thr.gathered va

/-- A plain load of `n` bytes that an instruction of the issuing thread makes within its own step (07 R153, R156, R159). -/
def State.readNow (s : State) (va n : Nat) : Read × State :=
  let cid := s.cur.1
  let dom := s.thr.dom
  match s.checkAccess cid dom va n .read with
  | .error c => (.fail c, s)
  | .ok t =>
    if t.path != .global then s.actAt cid dom t va (.load n) none
    else match s.forward cid s.cur.2 va n with
      | .data v => (.ok v, s)
      | .wait => (.blocked (.overlap va n), s)
      | .none =>
        if s.scHeld cid s.cur.2 then (.blocked .order, s)
        else if !((s.core cid).pending s.cur.2).isEmpty &&
            ((s.thr.scdef && dramWindow va) || s.scPage cid dom t) then (.blocked .drain, s)
        else s.actAt cid dom t va (.load n) (s.gatheredAt va)

/-- The issuing thread asks the endpoint for a word of host memory and issues again with the answer (log entry 2). -/
def State.gather (s : State) (va n : Nat) : State := s.await (.gather va) (s.sendUnits [(0, .load n, va)])

/-- The issuing thread goes on with what a read within its step found: a failure traps precisely with the address (07 R156). -/
def State.reading (s : State) (va n : Nat) (k : Nat → State → State) : State :=
  match s.readNow va n with
  | (.ok v, s) => k v s
  | (.fail c, s) => s.trap c (BitVec.ofNat 64 va)
  | (.blocked w, s) => s.parkCore w
  | (.ask, s) => s.gather va n

end Sys2Proof.Machine
end

