-- ==== Sys2Proof/Machine/Place.lean ====
section
/-!
DEFINITION. Slots and windows (04 R96), starting tasks (01 R14, 12 R300), which cores a domain may use (04 R97, 14 R348), the
thread-context store (04 R99, 14 R337 to R339), messages and migrations that arrive (04 R100, 07 R175, 12 R303, R304).
-/
namespace Sys2Proof.Machine

/-! Slots and windows (04 R96). -/

/-- The free slots of a core, in ascending order. -/
def Core.freeSlots (c : Core) : List Nat := (List.range 256).filter fun k => (c.slot k).st == .free

/-- The runs of granules in use: first granule and length (06 R133). -/
def Core.runs (c : Core) : List (Nat × Nat) :=
  (c.slots.filter fun p => p.2.st != .free).map fun p => (p.2.base / 8, p.2.win / 8)

/-- The lowest-numbered run of `n` free granules among the 512 (04 R96). -/
def firstRun (used : List (Nat × Nat)) (n : Nat) : Option Nat :=
  (List.range (513 - n)).find? fun g => used.all fun r => g + n ≤ r.1 || r.1 + r.2 ≤ g

/-- The slot and base that a thread with a window of `win` registers takes while more than `spare` slots are free (04 R96). -/
def Core.room (c : Core) (spare win : Nat) : Option (Nat × Nat) :=
  match c.freeSlots with
  | [] => none
  | k :: r => if r.length < spare then none else (firstRun c.runs (win / 8)).map fun g => (k, 8 * g)

/-- Whether a core can take `n` threads under 04 R96. -/
def Core.fits (c : Core) (win : Nat) : Nat → Bool
  | 0 => true
  | n + 1 => match c.room 4 win with
    | none => false
    | some (k, b) =>
      Core.fits { c with slots := Tab.set c.slots k { Thread.fresh with st := .ready, base := b, win := win } } win n

/-! Entry descriptors (01 R14). -/

/-- Whether an entry descriptor breaks 01 R14. -/
def descBad (e : Nat) : Bool := field e 44 20 != 0 || field e 32 8 < 8 || 128 < field e 32 8 || field e 32 8 % 8 != 0
/-- WIN. -/
def descWin (e : Nat) : Nat := field e 32 8
/-- The initial TSW: FTE, MR and RM from the descriptor, everything else zero. -/
def descTsw (e : Nat) : Word := BitVec.ofNat 64 (field e 41 1 * 2 ^ 25 + field e 42 2 * 2 ^ 16 + field e 40 1 * 2 ^ 14)
/-- The address of the first instruction, for a descriptor at `va`. -/
def descPc (va e : Nat) : Word := BitVec.ofInt 64 (va + 4 * sextNat 32 e)

/-! Tasks (12 R300). -/

/-- SCDEF of a launch (01 R15). -/
def State.launchSc (s : State) (l : Option (Nat × Nat)) : Bool := bit ((s.launchRec l).getD 4 0).toNat 25
/-- The cores of a launch in order of placement (04 R97). -/
def State.launchCores (s : State) (l : Option (Nat × Nat)) : List Nat :=
  match l with
  | none => []
  | some (m, n) => match (s.module m).launches.find? fun x => x.id == n with
    | some x => x.cores
    | none => []

/-- A READY task that starts through the entry descriptor `e` at `va`, with the given window, all of it live (06 R138), before it is
placed. -/
def newTask (dom : Nat) (l : Option (Nat × Nat)) (sc : Bool) (va e win : Nat) : Thread :=
  { Thread.fresh with
    st := .ready
    win := win
    pc := descPc va e
    tsw := descTsw e
    live0 := BitVec.ofNat 64 (2 ^ win - 1)
    live1 := BitVec.ofNat 64 ((2 ^ win - 1) / 2 ^ 64)
    dom := dom
    launch := l
    scdef := sc }

/-- A domain holds a core from now on (15 R361). -/
def State.holdCore (s : State) (cid dom : Nat) : State := s.onCore cid fun c => { c with doms := setInsert c.doms dom }

/-- Puts a thread into a slot with its window at `base` and its registers from g0 up; the rest of the window is zero (06 R133). -/
def State.putThread (s : State) (cid slot base : Nat) (t : Thread) (regs : List Word) : State :=
  ((s.holdCore cid t.dom).onThread cid slot fun _ => { t with base := base }).setRegs cid slot
    ((regs ++ List.replicate t.win 0).take t.win) 0

/-- Starts a new task in a slot. -/
def State.startTask (s : State) (cid slot base : Nat) (t : Thread) (regs : List Word) : State :=
  let s := { s with uids := s.uids + 1 }
  s.putThread cid slot base { t with uid := s.uids } regs

/-! The cores of a domain (04 R97, 14 R348; 03 R65). -/

/-- Whether phase 1 of a switch stops the placement of a domain's work on a core (03 R65). -/
def State.placementStopped (s : State) (cid dom : Nat) : Bool :=
  (s.module (cidModule cid)).gangs.any fun p => match p.2.phase1, p.2.running with
    | some (_, o, _, cores), _ => o == dom && cores.contains cid
    | none, some (_, o, _, cores) => o == dom && cores.contains cid
    | none, none => false

/-- Whether a core may be given a new task of a domain. -/
def State.mayPlace (s : State) (cid dom : Nat) : Bool :=
  let x := s.module (cidModule cid)
  s.clusterAvailable (cidCluster cid) dom && s.coreOpen cid dom && !s.placementStopped cid dom &&
    !x.over115 && !x.d3hot

/-- The READY and TRAP threads of a core (04 R98): a restored thread that waits for a region checkpoint is parked (07 R174). -/
def Core.running (c : Core) : Nat :=
  (c.slots.filter fun p => p.2.st.runs && !(p.2.ckpt.isSome && c.ckwait.contains p.1)).length

/-- The element with the least key, the first one of equals. -/
def leastBy {α : Type} (f : α → Nat) : List α → Option α
  | [] => none
  | a :: r => match leastBy f r with
    | none => some a
    | some b => if f b < f a then some b else some a

/-- Insertion before the first element with a smaller key. -/
def insertBy {α : Type} (f : α → Nat) (a : α) : List α → List α
  | [] => [a]
  | b :: r => if f b < f a then a :: b :: r else b :: insertBy f a r

/-- A list with the greatest keys first, equals in their order. -/
def sortBy {α : Type} (f : α → Nat) (l : List α) : List α := l.foldl (fun acc a => insertBy f a acc) []

/-! The thread-context store (14 R337). -/

/-- A context id (14 R339). -/
def contextId (cid serial : Nat) : Nat := 2 ^ 63 + cid * 2 ^ 16 + serial % 2 ^ 16

/-- Whether a domain's context store on a core is full (14 R337). -/
def State.storeFull (s : State) (cid dom : Nat) : Bool :=
  decide (8 ≤ (s.ctxs.filter fun x => x.cid == cid && !x.spilled).length) &&
  decide (4096 ≤ (s.ctxs.filter fun x => cidModule x.cid == cidModule cid && x.th.dom == dom && x.spilled).length)

/-- Whether a unit waits between the resends of 12 R291: it has no request outstanding. -/
def Access.betweenResends (u : Access) : Bool :=
  match u.st with
  | .again .noList _ => true
  | _ => false

/-- The context of a thread as an eviction saves it: without its fetch buffers and its yield mark; an instruction that waits at the
core alone, or only between the resends of 12 R291, has had no effect and issues again; a word that a VLDF has read meanwhile is read
again (14 R394). -/
def Thread.saved (t : Thread) : Thread :=
  let t := { t.dropFetch with yield := false, pipe := 0 }
  match t.wait with
  | .core _ => t.unpark
  | .entries _ => t.unpark
  | .mem _ us _ =>
    if (us.any Access.betweenResends) && us.all (fun u => u.betweenResends || (u.answer.isSome && u.req.op == .ldf)) then t.unpark else t
  | _ => t

/-- Stores a context; the oldest cached one of its domain spills when eight are cached (14 R337). -/
def State.storeContext (s : State) (k : Context) : State :=
  let here := s.ctxs.filter fun x => x.cid == k.cid && !x.spilled
  if here.length < 8 then { s with ctxs := s.ctxs ++ [k] }
  else match here.find? fun x => x.th.dom == k.th.dom with
    | some o => { s with ctxs := (s.ctxs.map fun x =>
        if x.cid == o.cid && x.serial == o.serial then { x with spilled := true } else x) ++ [k] }
    | none => { s with ctxs := s.ctxs ++ [{ k with spilled := true }] }

/-- Whether a thread can leave its slot now: it is not PARKED-ENGINE, sends no migration, and its journal entries have settled
(06 R128; 07 R161, R177; 14 R339). A QTILE of an evicted thread goes on after its restore (log entry 97). -/
def State.mayLeave (s : State) (cid slot : Nat) : Bool :=
  (match (s.thread cid slot).wait with
   | .engine (.join _ _) => true
   | .engine (.quantise _) => true
   | .engine _ => false
   | .core (.migrate _) => false
   | _ => true) && ((s.core cid).pending slot).isEmpty

/-- Evicts a thread to the context store (14 R337, R339); `sched` says that the cluster scheduler does. Gives the serial. -/
def State.evict (s : State) (cid slot : Nat) (sched : Bool) : Nat × State :=
  let serial := (s.core cid).ctxSerial
  let k : Context := ⟨cid, serial, slot, sched, false, (s.thread cid slot).saved, s.regsOf cid slot⟩
  let s := (s.storeContext k).leaveQueues cid slot
  (serial, s.onCore cid fun c =>
    { c with slots := Tab.set c.slots slot Thread.fresh, ctxSerial := (serial + 1) % 2 ^ 16 })

/-- The state without a context: threads are told apart by their count. -/
def State.dropContext (s : State) (k : Context) : State :=
  { s with ctxs := s.ctxs.filter fun x => x.th.uid != k.th.uid }

/-- The slot and base that a context is restored to: its old slot when it is free, else the lowest free one (14 R338); none while a gang
holds the core for another domain. -/
def State.restoreRoom (s : State) (k : Context) : Option (Nat × Nat) :=
  let c := s.core k.cid
  if s.coreForeign k.cid k.th.dom || c.gangShut then none
  else match firstRun c.runs (k.th.win / 8), c.freeSlots with
  | some g, f :: r => some (if (f :: r).contains k.slot then k.slot else f, 8 * g)
  | _, _ => none

/-- Restores a context into a slot: it takes a free region checkpoint or waits for one in the order of 07 R170 (R174), and a wait
whose answers are all held completes (06 R129). -/
def State.restore (s : State) (k : Context) (slot base : Nat) : State :=
  let s := (s.dropContext k).putThread k.cid slot base k.th k.regs
  let c := s.core k.cid
  let s := if k.th.ckpt.isSome && (decide (16 < c.checkpoints) || !c.ckwait.isEmpty) then
      s.onCore k.cid fun c => { c with ckwait := c.ckwait ++ [slot] }
    else s
  s.settleWait k.cid slot

/-- Whether the saved state of a context is READY because its answers completed the parked instruction (14 R338). -/
def Context.ready (k : Context) : Bool :=
  k.sched && (match k.th.wait with
    | .mem _ units _ => units.all fun u => u.answer.isSome
    | .engine _ => false
    | _ => true)

/-- The first context that the cluster scheduler restores on a core, in order of eviction (14 R338). -/
def State.restorable (s : State) (cid : Nat) : Option Context :=
  s.ctxs.find? fun k => k.cid == cid && k.ready && s.coreOpen cid k.th.dom && !(s.module (cidModule cid)).over115 &&
    (s.restoreRoom k).isSome

/-! Eviction by the cluster scheduler (04 R99). -/

/-- Whether a unit waits in a wait list at a home. -/
def State.listed (s : State) (u : Access) : Bool := s.waitq.any fun e => e.req.cid == u.req.cid && e.req.tag == u.req.tag

/-- Whether a restored thread still waits for a region checkpoint (07 R174). -/
def State.unplaced (s : State) (cid slot : Nat) : Bool :=
  (s.core cid).ckwait.contains slot && (s.thread cid slot).ckpt.isSome

/-- Whether a thread is evictable (04 R99); a restored one that waits for a checkpoint is not (07 R174). -/
def State.evictable (s : State) (cid slot : Nat) : Bool :=
  let t := s.thread cid slot
  t.st == .parkedMem && !t.svc && !s.storeFull cid t.dom && !s.unplaced cid slot &&
  (match t.wait with
   | .mem _ units _ => units.any s.listed
   | .engine (.join _ _) => true
   | _ => false)

/-- The evictable threads of some cores, the longest parked first; of two parked equally long the one of the lower core, then of the lower
slot (04 R99; log entry 98). -/
def State.evictables (s : State) (cids : List Nat) : List (Nat × Nat) :=
  let all := cids.flatMap fun cid =>
    ((List.range 256).filter fun k => s.evictable cid k).map fun k => (cid, k)
  let age := fun (p : Nat × Nat) => (s.core p.1).cyc - (s.thread p.1 p.2).parked
  sortBy (fun p => age p) all

/-- The evictable thread that frees enough for a window of `win` registers with `spare` slots to spare, sought over all the cores given
(04 R99; log entry 98). What a ready context would take first is not free (14 R338). -/
def State.evictionFor (s : State) (cids : List Nat) (spare win : Nat) : Option (Nat × Nat) :=
  (s.evictables cids).find? fun p =>
    let t := (s.evict p.1 p.2 true).2
    ((t.core p.1).room spare win).isSome && (t.restorable p.1).isNone

/-! The spawn queue (04 R98). -/

/-- The cores of a cluster that may run a queued task: those that hold its launch; every core of the cluster for a task of the
service thread, which has no launch (log entry 21). -/
def State.taskCores (s : State) (cl : Nat) (q : QTask) : List Nat :=
  (clusterCores cl).filter fun k =>
    (match q.launch with
     | none => true
     | l => (s.launchCores l).contains k) && s.mayPlace k q.dom

/-- Starts a queued task on a core with room (12 R300, R301). -/
def State.startQueued (s : State) (cid : Nat) (q : QTask) : State :=
  let e := q.desc.toNat
  match (s.core cid).room 4 (descWin e) with
  | none => s
  | some (slot, base) =>
    s.startTask cid slot base
      { newTask q.dom q.launch (s.launchSc q.launch) q.va.toNat e (descWin e) with
        origin := if q.withFuture then 2 else 1
        future := q.future } [q.arg, q.future]

/-- The core that takes a queued task: the fewest READY and TRAP threads, ties to the lower core (04 R98). A context that the
scheduler restores comes first on its core (14 R338). -/
def State.coreFor (s : State) (cl : Nat) (q : QTask) : Option Nat :=
  leastBy (fun k => (s.core k).running) ((s.taskCores cl q).filter fun k =>
    ((s.core k).room 4 (descWin q.desc.toNat)).isSome && (s.restorable k).isNone)

/-- The state with the head of a spawn queue removed. -/
def State.dropHead (s : State) (cl : Nat) : State := s.onCluster cl fun c => { c with spawn := c.spawn.drop 1 }

/-- The cluster whose spawn queue of 512 entries takes a task (04 R98). -/
def State.queueFor (s : State) (cl : Nat) (l : Option (Nat × Nat)) (spill : Bool) : Option Nat :=
  let room := fun c => decide ((s.cluster c).spawn.length < 512)
  if room cl then some cl
  else if spill then ((s.launchCores l).map cidCluster).find? room
  else none

/-! Messages (12 R303, R304) and held arrivals (04 R100). -/

/-- The record of a message that could not be delivered (12 R303, 14 R332), posted on module `m`. -/
def State.messageFailed (s : State) (m cause : Nat) (g : Message) : State :=
  s.postRecord m g.dom (recordWords 4 cause g.sender 0 0 g.tag 0 g.word)

/-- The launch that a message task belongs to (15 R357). -/
def State.messageLaunch (s : State) (cid dom : Nat) (l : Nat × Nat) : Option (Nat × Nat) :=
  let ls := (s.module (cidModule cid)).launches.filter fun y => !y.complete
  if ls.any fun y => y.id == l.2 then some l
  else (ls.find? fun y => y.dom == dom && y.cores.contains cid).map fun y => (cidModule cid, y.id)

/-- What serves a message (01 R14, 12 R304): nothing, for an unserved class; a descriptor whose read is held back; the descriptor at a VA,
with the launch that loaded the class table. -/
inductive Served where
  | unserved
  | waits
  | entry (va desc : Nat) (launch : Nat × Nat)
  deriving DecidableEq, Repr

/-- The entry descriptor that serves a message that arrives (01 R10, R14; 12 R304). One that cannot be read makes the class unserved, as a
bad one does (log entry 99); so does the end of the domain's last launch on the core (15 R357), but of the boot domain, which has none. -/
def State.served (s : State) (g : Message) : Served :=
  match Tab.find (s.core g.dst).classes g.dom with
  | none => .unserved
  | some tb =>
    let va := (tb.entries.getD (g.cls - 1) 0).toNat
    if va = 0 || (g.dom != 0xFFFF && (s.messageLaunch g.dst g.dom tb.launch).isNone) then .unserved
    else match (s.readWhole g.dst g.dom va 8).1 with
      | .ok e => if descBad e then .unserved else .entry va e tb.launch
      | .blocked _ => .waits
      | _ => .unserved

/-- The module that sent a packet. -/
def sourceModule (src : Nat) : Nat :=
  if 2 ^ 62 ≤ src then keyModule (src % 2 ^ 24) else if 2 ^ 30 ≤ src then cidModule (src - 2 ^ 30) else keyModule src

/-- Starts the task of a message through the descriptor read at its arrival (12 R304, 04 R100); none when the arrival must wait: no
slot or window is free, or a ready context comes first (14 R338). -/
def State.startMessage (s : State) (g : Message) (va e : Nat) (tl : Nat × Nat) : Option State :=
  if (s.restorable g.dst).isSome then none
  else
    let l := s.messageLaunch g.dst g.dom tl
    ((s.core g.dst).room 0 (descWin e)).map fun p =>
      s.startTask g.dst p.1 p.2
        { newTask g.dom l (s.launchSc l) va e (descWin e) with origin := 3, cls := g.cls } g.payload

/-- Lands a migrating thread on a core (07 R175): the source is acknowledged, and the thread is eligible from the core's next cycle
(06 R131); it carries no region, since MIGR in a region traps (R172). None when no slot or window is free, or a ready context comes first
(14 R338). -/
def State.land (s : State) (cid : Nat) (g : Migrant) : Option State :=
  if (s.restorable cid).isSome then none
  else ((s.core cid).room 0 g.th.win).map fun p =>
    (s.putThread cid p.1 p.2 { g.th with st := .ready, pipe := (s.core cid).cyc, ckpt := none } g.regs).sendRaw (cidModule cid)
      (coreSource cid) (cidKey g.srcCid) 3 (.migAck g.srcCid g.srcSlot)

/-- Serves the oldest arrival held at a core, if it can be placed now (04 R100). -/
def State.serveHeld (s : State) (cid : Nat) : State :=
  match (s.core cid).held with
  | [] => s
  | a :: r =>
    let t := match a with
      | .msg _ g va e l => s.startMessage g va e l
      | .mig _ g => s.land cid g
    match t with
    | none => s
    | some t => t.onCore cid fun c => { c with held := r }

/-- The window that the oldest held arrival of a core needs. -/
def State.heldWindow (s : State) (cid : Nat) : Option Nat :=
  match (s.core cid).held with
  | [] => none
  | .msg _ _ _ e _ :: _ => some (descWin e)
  | .mig _ g :: _ => some g.th.win

/-- Whether a message is among the arrivals that a core holds, so that its channel waits (04 R100). -/
def State.holdsMessage (s : State) (cid : Nat) : Bool := (s.core cid).held.any fun a => match a with
  | .msg _ _ _ _ _ => true
  | .mig _ _ => false

/-- Whether a thread is among the arrivals that a core holds. -/
def State.holdsMigrant (s : State) (cid : Nat) : Bool := (s.core cid).held.any fun a => match a with
  | .msg _ _ _ _ _ => false
  | .mig _ _ => true

/-! Steps. -/

/-- SPAWN_QUEUE_PLACE (04 R98). -/
def execSpawnQueuePlace (cl : Nat) (s : State) : Out :=
  .next (match (s.cluster cl).spawn with
    | [] => s
    | q :: _ => match s.coreFor cl q with
      | none => s
      | some cid => (s.dropHead cl).startQueued cid q)

/-- SCHEDULER_EVICT (04 R99, R100): for a held arrival of a core of the cluster, else for the head of the spawn queue when it fits no
core of its launch; what it is evicted for is placed in the same step. The thread that is chosen leaves once its journal entries have
settled (07 R161). -/
def execSchedulerEvict (cl : Nat) (s : State) : Out :=
  .next (match (clusterCores cl).findSome? fun cid => match s.heldWindow cid with
      | none => none
      | some w => if ((s.core cid).room 0 w).isSome then none
        else (s.evictionFor [cid] 0 w) with
    | some (cid, slot) => if s.mayLeave cid slot then (s.evict cid slot true).2.serveHeld cid else s
    | none => match (s.cluster cl).spawn with
      | [] => s
      | q :: _ =>
        let cores := s.taskCores cl q
        let w := descWin q.desc.toNat
        if cores.any fun k => ((s.core k).room 4 w).isSome then s
        else match s.evictionFor cores 4 w with
          | none => s
          | some (cid, slot) => if s.mayLeave cid slot then ((s.evict cid slot true).2.dropHead cl).startQueued cid q else s)

/-- CONTEXT_RESTORE (14 R338). -/
def execContextRestore (cl : Nat) (s : State) : Out :=
  .next (if (s.module (clusterModule cl)).d3hot then s
    else match (clusterCores cl).findSome? s.restorable with
      | none => s
      | some k => match s.restoreRoom k with
        | none => s
        | some (slot, base) => s.restore k slot base)

/-- MESSAGE_ARRIVAL (12 R303, R304; 04 R100; 14 R347, R348): a shuttered core returns the message to its sender's router, and behind
a held arrival, or while the read of its entry descriptor is held back, its channel waits. -/
def execMessageArrival (n : Nat) (s : State) : Out :=
  .next (match s.receive n with
    | some (⟨src, _, _, _, _, .message g⟩, t) =>
      let cid := g.dst
      if (s.module (cidModule cid)).d3hot || s.shuttered cid || s.holdsMessage cid then s
      else if s.fused cid then t.messageFailed (sourceModule src) Cause.linkUnreachable g
      else if !s.clusterAvailable (cidCluster cid) g.dom || s.coreForeign cid g.dom then
        t.messageFailed (sourceModule src) Cause.protection g
      else (match t.served g with
        | .waits => s
        | .unserved => t.messageFailed (cidModule cid) Cause.noHandler g
        | .entry va e l => (match t.startMessage g va e l with
          | some t => t
          | none => t.onCore cid fun c => { c with held := c.held ++ [.msg src g va e l] }))
    | _ => s)

/-- The core that takes a migrating thread: the named one, or the core of the cluster with the fewest READY and TRAP threads that can
take it (07 R175, R176). -/
def State.landingCore (s : State) (g : Migrant) : Option Nat :=
  if !g.anyCore then some g.dst
  else leastBy (fun k => (s.core k).running) ((s.clusterSites g.dst).filter fun k =>
    s.coreOpen k g.th.dom && !s.shuttered k && ((s.core k).room 0 g.th.win).isSome && (s.restorable k).isNone)

/-- MIGRATION_LANDING (07 R175, R176; 04 R100; 14 R347): a thread for which no core of the cluster has room waits on its channel, one
for a named core is held there. In D3hot nothing lands (03 R47). -/
def execMigrationLanding (n : Nat) (s : State) : Out :=
  .next (match s.receive n with
    | some (⟨src, _, _, _, _, .migrate g⟩, t) =>
      (match t.landingCore g with
       | none => s
       | some cid =>
         if (s.module (cidModule cid)).d3hot || s.shuttered cid || s.holdsMigrant cid || !s.coreOpen cid g.th.dom then s
         else match t.land cid g with
           | some t => t
           | none => t.onCore cid fun c => { c with held := c.held ++ [.mig src g] })
    | _ => s)

/-- MIGRATION_ACK (07 R175): the source slot becomes FREE. -/
def execMigrationAck (n : Nat) (s : State) : Out :=
  .next (match s.receive n with
    | some (⟨_, _, _, _, _, .migAck cid slot⟩, t) =>
      (match (t.thread cid slot).wait with
       | .core (.migrate _) => t.onThread cid slot fun _ => Thread.fresh
       | _ => t)
    | _ => s)

/-- A core that a domain's service thread may run on, with room for it (14 R333): which one is free (log entry 22). -/
def State.serviceCores (s : State) (m dom win : Nat) : List Nat :=
  ((List.range (16 * 32 * 32)).map fun k => m * 2 ^ 14 + k).filter fun cid =>
    cidValid cid && s.mayPlace cid dom && ((s.core cid).room 4 win).isSome

/-- SERVICE_THREAD_START (14 R333): starts the service thread of the domain in a slot of the module when it has none and one is
wanted. -/
def execServiceThreadStart (m slot : Nat) (s : State) : Out :=
  .next (match Tab.find (s.module m).domains slot with
    | none => s
    | some d =>
      let va := d.set.service.toNat
      if !d.wantService || d.service.isSome || d.unbinding then s
      else match s.readWhole (m * 2 ^ 14) d.tag va 8 with
        | (.ok e, s) =>
          if descBad e then s
          else
            let cores := s.serviceCores m d.tag (descWin e)
            let (k, s) := s.free 333
            (match cores[k % cores.length]? with
             | none => s
             | some cid => match (s.core cid).room 4 (descWin e) with
               | none => s
               | some (sl, base) =>
                 let t := { newTask d.tag none false va e (descWin e) with svc := true }
                 let s := s.startTask cid sl base (t.setTswBit 13 true) []
                 s.onDomain m d.tag fun d =>
                   { d with service := some s.uids, wantService := false })
        | _ => s)

end Sys2Proof.Machine
end

