-- ==== Sys2Proof/Machine/Ladle.lean ====
section
/-!
DEFINITION. The ladle copy engine (09 R212 to R226): LCOPY, LSTAT, LRESUME, LCANCEL and the steps of the engine.
-/
namespace Sys2Proof.Machine

/-! Asynchronous traps (14 R336). -/

/-- A thread with one more pending asynchronous trap, if it is the one that `uid` names. -/
def Thread.raised (t : Thread) (uid : Nat) (a : Async) : Thread :=
  if t.uid = uid && t.st != .free then { t with held := t.held ++ [a] } else t

/-- A context with the trap pending, if it is that of the thread. -/
def Context.raised (k : Context) (uid : Nat) (a : Async) : Context := { k with th := k.th.raised uid a }

/-- Raises an asynchronous trap in the thread that `uid` names, wherever its registers are (06 R129, 09 R221): in a slot, in the
context store, in a save area. One that has ended takes none. -/
def State.raiseAsync (s : State) (uid : Nat) (a : Async) : State :=
  { s with
    cores := s.cores.map fun (p : Nat × Core) =>
      (p.1, { p.2 with slots := p.2.slots.map fun (q : Nat × Thread) => (q.1, q.2.raised uid a) })
    ctxs := s.ctxs.map fun k => k.raised uid a
    modules := s.modules.map fun (p : Nat × Module) =>
      (p.1, { p.2 with saved := p.2.saved.map fun (x : SavedCore) =>
        { x with ctxs := x.ctxs.map fun k => k.raised uid a } }) }

/-! Copy descriptors (01 R22, R23; 09 R214). -/

/-- The largest power of two, up to 8, that divides ESIZE (01 R23). -/
def sizeAlign (n : Nat) : Nat := if n % 8 = 0 then 8 else if n % 4 = 0 then 4 else if n % 2 = 0 then 2 else 1
/-- ESIZE of a descriptor. -/
def copyEsize (h0 : Nat) : Nat := field h0 4 7
/-- The dimension entries of a descriptor's words: COUNT word, SSTRIDE, DSTRIDE (01 R22). -/
def copyDims : List Word → List (Nat × Int × Int)
  | c :: a :: b :: r => (c.toNat, a.toInt, b.toInt) :: copyDims r
  | _ => []

/-- Whether a header breaks 01 R22 for the form FN of LCOPY: 0 copy, 1 fill, 2 reduce, 3 gather. -/
def copyHeaderBad (fn h0 gbase : Nat) : Bool :=
  let nsrc := field h0 36 4
  let etype := field h0 32 2
  let es := copyEsize h0
  let rank := field h0 0 4
  field h0 40 24 != 0 || field h0 34 2 != 0 || field h0 12 4 != 0 ||
  (if fn = 2 then nsrc = 0 || 8 < nsrc || 1 < etype || es != (if etype = 0 then 4 else 2) else nsrc != 0 || etype != 0) ||
  es = 0 || 64 < es || rank = 0 || 10 < rank || (fn = 3 && rank < 2) || (fn = 1 && 8 < es) || (fn != 3 && gbase != 0)

/-- The bytes of a copy's stream (09 R215). -/
def streamLength (es : Nat) (dims : List (Nat × Int × Int)) : Nat := dims.foldl (fun n d => n * d.1) es

/-- Whether the dimensions and addresses break 01 R22, R23 or the limits of 09 R214 step 5. -/
def copyBodyBad (fn h0 dst src gbase : Nat) (dims : List (Nat × Int × Int)) (srcs : List Word) : Bool :=
  let es := copyEsize h0
  let a := sizeAlign es
  dims.any (fun d => 2 ^ 32 ≤ d.1 || d.1 = 0 || d.2.1 % a != 0 || d.2.2 % a != 0) ||
  dst % a != 0 || gbase % a != 0 || ((fn = 0 || fn = 2) && src % a != 0) || (fn = 3 && src % 4 != 0) ||
  0x080000000000 < streamLength es dims ||
  (bit h0 11 && (es % 8 != 0 || dst % 8 != 0 || dims.any fun d => d.2.2 % 8 != 0)) ||
  srcs.any (fun v => v.toNat % a != 0) || (fn = 1 && dims.any fun d => d.2.1 != 0)

/-- The cause of the first rule that a copy descriptor breaks (01 R395): the domain first, every other rule is BAD_DESCRIPTOR. -/
def copyBad (dom fn : Nat) (desc srcs : List Word) : Option Nat :=
  let h := fun k => (desc.getD k 0).toNat
  if field (h 0) 16 16 ≠ dom then some Cause.domainMismatch
  else if copyHeaderBad fn (h 0) (h 3) || copyBodyBad fn (h 0) (h 1) (h 2) (h 3) (copyDims (desc.drop 4)) srcs then
    some Cause.badDescriptor
  else none

/-! LCOPY (09 R214). -/

/-- The issuing thread goes on with the words that it reads at some addresses, in order (07 R156). -/
def State.readingAll (s : State) : List Nat → List Word → (List Word → State → State) → State
  | [], acc, k => k acc s
  | va :: r, acc, k => s.reading va 8 fun v s => s.readingAll r (acc ++ [BitVec.ofNat 64 v]) k

/-- The lowest free entry of a ladle's table of 32 (09 R212). -/
def Engines.freeLadle (e : Engines) : Option Nat := (List.range 32).find? fun k => (Tab.find e.ladle k).isNone

/-- A handle (09 R213). -/
def ladleHandle (cl seq entry : Nat) : Nat := cl % 2 ^ 21 * 2 ^ 24 + seq % 2 ^ 16 * 2 ^ 8 + entry % 32

/-- A cluster as its handles name it: of module 0 in boot mode (17 R377). -/
def State.shownCluster (s : State) (cl : Nat) : Nat := if (s.module (clusterModule cl)).bootMode then cl % 2 ^ 9 else cl

/-- The engine part of a cluster changed. -/
def State.onEng (s : State) (cl : Nat) (f : Engines → Engines) : State :=
  s.onCluster cl fun c => { c with eng := f c.eng }

/-- The entry of a ladle given to the LCOPY of a thread, before the operation is accepted (09 R212, R214 step 6). -/
def State.newLadleOp (s : State) (cid slot : Nat) (a : CopyAsk) (seq : Nat) : LadleOp where
  st := 0
  seq := seq
  dom := (s.thread cid slot).dom
  cid := cid
  slot := slot
  uid := (s.thread cid slot).uid
  launch := (s.thread cid slot).launch
  tag := s.launchTag (s.thread cid slot).launch
  form := a.form
  desc := a.desc
  srcs := a.srcs
  compl := a.compl
  value := a.value
  quiet := a.quiet
  age := 0
  pref := 0
  done := []
  flight := []
  work := []
  faults := []
  due := []
  after := 0
  hostWait := []
  hostDone := []
  cancel := none
  cause := 0
  va := 0
  put := 0
  isValue := false

/-- The entry freed (09 R212). -/
def State.freeLadle (s : State) (cl e : Nat) : State := s.onEng cl fun x => { x with ladle := Tab.del x.ladle e }

/-- The entry that the LCOPY of a thread holds. -/
def Engines.heldLadle (e : Engines) (cid slot : Nat) : Option Nat := (e.ladle.find? fun p => p.2.heldFor cid slot).map Prod.fst

/-- A ladle's entry `k` given out: its sequence number goes up by one, and the thread has left the queue (09 R212). -/
def Engines.giveLadle (e : Engines) (k name : Nat) (o : LadleOp) : Engines :=
  { e with
    lwait := e.lwait.filter (· != name)
    ladleSeq := Tab.set e.ladleSeq k o.seq
    ladle := Tab.set e.ladle k o }

/-- Step 6 of 09 R214: the entry of a thread's LCOPY, given out in the order of asking. -/
def State.takeLadle (s : State) (cid slot : Nat) (a : CopyAsk) : Option (Nat × State) :=
  let cl := cidCluster cid
  let name := threadName cid slot
  let e := (s.cluster cl).eng
  match e.heldLadle cid slot with
  | some k => some (k, s)
  | none =>
    if e.lwait.isEmpty || e.lwait.head? == some name then
      e.freeLadle.map fun k =>
        (k, s.onEng cl fun e => e.giveLadle k name (s.newLadleOp cid slot a ((Tab.get 0 e.ladleSeq k + 1) % 2 ^ 16)))
    else none

/-- A parked thread that goes on; one at issue is left as it is. -/
def Thread.goOn (t : Thread) : Thread := if t.st == .parkedMem then t.unpark else t

/-- Step 8 of 09 R214: the operation in entry `k` is ACTIVE, gD is its handle, and the LCOPY completes. -/
def State.acceptLadle (s : State) (cid slot d k : Nat) : State :=
  let cl := cidCluster cid
  let seq := Tab.get 0 (s.cluster cl).eng.ladleSeq k
  let s := s.onEng cl fun e =>
    { e with
      ladle := e.ladle.map fun (p : Nat × LadleOp) => if p.1 = k then (k, { p.2 with st := 1, age := e.ladleAge }) else p
      ladleAge := e.ladleAge + 1 }
  (s.setGOf cid slot d (BitVec.ofNat 64 (ladleHandle (s.shownCluster cl) seq k))).onThread cid slot fun t =>
    { t.goOn with pc := t.pc + 8, issue0 := none, gathered := [] }

/-- Steps 6 to 8 of 09 R214 for a thread whose LCOPY has read its descriptor: a table entry, the completion word made empty, the handle. The
entry stays the thread's own while the home holds the completion word back. Says whether the LCOPY is done. -/
def State.offerCopy (s : State) (cid slot : Nat) (a : CopyAsk) : Bool × State :=
  match s.takeLadle cid slot a with
  | none => (false, s)
  | some (k, s) =>
    match s.act cid (s.thread cid slot).dom a.compl.toNat 8 .sete none with
    | (.fail c, t) => (true, (t.freeLadle (cidCluster cid) k).trapAt cid slot c a.compl)
    | (.ok _, t) => (true, t.acceptLadle cid slot a.d k)
    | _ => (false, s)

/-- Steps 6 to 8 of 09 R214 at issue: a thread that gets no entry yet asks for one, and the snapshot of its descriptor is kept (01 R10). -/
def State.acceptCopy (s : State) (a : CopyAsk) : State :=
  let p := s.offerCopy s.cur.1 s.cur.2 a
  if p.1 then p.2
  else
    let name := threadName s.cur.1 s.cur.2
    (p.2.onEng (cidCluster s.cur.1) fun e =>
      { e with lwait := if e.lwait.contains name || (e.heldLadle s.cur.1 s.cur.2).isSome then e.lwait else e.lwait ++ [name] }).parkCore
      (.ladleEntry a)

/-- Step 4 of 09 R214: the words of the descriptor at `va`, and the sources of a REDUCE. -/
def State.readCopy (s : State) (fn va : Nat) (k : List Word → List Word → State → State) : State :=
  s.readingAll ((List.range 4).map fun i => va + 8 * i) [] fun h s =>
    let h0 := (h.getD 0 0).toNat
    let rank := if field h0 0 4 ≤ 10 then field h0 0 4 else 0
    let nsrc := if fn = 2 && field h0 36 4 ≤ 8 then field h0 36 4 else 0
    s.readingAll ((List.range (3 * rank)).map fun i => va + 32 + 8 * i) h fun desc s =>
      s.readingAll ((List.range nsrc).map fun i => ((h.getD 2 0).toNat + 8 * i) % 2 ^ 64) [] fun srcs s => k desc srcs s

/-- LCOPY of form FN (09 R214). -/
def lcopyOp (fn : Nat) (d s t q : Reg) (quiet : Bool) (st : State) : Out :=
  .next (plain [d, s, t, q] (fun st =>
    let cid := st.cur.1
    let dom := st.thr.dom
    if st.thr.rg then st.trap Cause.regionState 0
    else match st.checkAccess cid dom (st.gn s) 8 .read, st.checkAccess cid dom (st.gn t) 8 .rmw with
      | .error c, _ => st.trap c (st.g s)
      | .ok _, .error c => st.trap c (st.g t)
      | .ok _, .ok _ =>
        if !((st.core cid).pending st.cur.2).isEmpty then st.parkCore .drain
        else st.readCopy fn (st.gn s) fun desc srcs st =>
          match copyBad dom fn desc srcs with
          | some c => st.trap c (st.g s)
          | none => st.acceptCopy ⟨fn, d, desc, srcs, st.g t, st.g q, quiet⟩) st)

/-- LCOPY.copy (09 R214, R216). -/
def execLcopyCopy (d s t q : Reg) (quiet : Bool) (st : State) : Out := lcopyOp 0 d s t q quiet st
/-- LCOPY.fill (09 R214, R216). -/
def execLcopyFill (d s t q : Reg) (quiet : Bool) (st : State) : Out := lcopyOp 1 d s t q quiet st
/-- LCOPY.reduce (09 R214, R216). -/
def execLcopyReduce (d s t q : Reg) (quiet : Bool) (st : State) : Out := lcopyOp 2 d s t q quiet st
/-- LCOPY.gather (09 R214, R216). -/
def execLcopyGather (d s t q : Reg) (quiet : Bool) (st : State) : Out := lcopyOp 3 d s t q quiet st

/-! LSTAT, LRESUME and LCANCEL (09 R222 to R225). -/

/-- Whether a handle sets a reserved bit (09 R213). -/
def handleMalformed (h : Nat) : Bool := field h 45 19 != 0 || field h 5 3 != 0

/-- An LCTL request to the ladle that the handle names; `bad` acts on a malformed one (09 R222). -/
def lctlOp (form : Nat) (regs : List Nat) (s : Reg) (fin : Finish) (bad : State → State) (st : State) : Out :=
  .next (plain regs (fun st =>
    let h := st.gn s
    if handleMalformed h then bad st
    else if !st.cidOk st.cur.1 (field h 24 21 * 32) then st.trap Cause.badCid (st.g s)
    else st.await fin (st.sendUnits [(0, .lctl form h, h)])) st)

/-- LSTAT (09 R222, R223). -/
def execLstat (d s : Reg) (st : State) : Out :=
  lctlOp 0 [d.val, d.val + 1, s.val] s (.two d) (fun st => ((st.setG d 0).setG (d.val + 1) 0).retire) st
/-- LRESUME (09 R222, R224). -/
def execLresume (s : Reg) (st : State) : Out :=
  lctlOp 1 [s] s .none (fun st => st.trap Cause.ladleHandle (st.g s)) st
/-- LCANCEL (09 R222, R225). -/
def execLcancel (s : Reg) (st : State) : Out :=
  lctlOp 2 [s] s .none (fun st => st.trap Cause.ladleHandle (st.g s)) st

/-! The stream (09 R215, R216). -/

/-- The dimensions of an operation. -/
def LadleOp.dims (o : LadleOp) : List (Nat × Int × Int) := copyDims (o.desc.drop 4)
/-- ESIZE of an operation. -/
def LadleOp.esize (o : LadleOp) : Nat := copyEsize (o.desc.getD 0 0).toNat
/-- The bytes of its stream (09 R215). -/
def LadleOp.length (o : LadleOp) : Nat := streamLength o.esize o.dims
/-- Its chunks (09 R215). -/
def LadleOp.chunks (o : LadleOp) : Nat := (o.length + 4095) / 4096

/-- The indices of element `n`, dimension 0 fastest (01 R23). -/
def indicesOf : List (Nat × Int × Int) → Nat → List Nat
  | [], _ => []
  | d :: r, n => n % d.1 :: indicesOf r (n / d.1)

/-- The source offset of an element by its indices (01 R23). -/
def srcOffset (dims : List (Nat × Int × Int)) (ix : List Nat) : Int :=
  (dims.zip ix).foldl (fun v p => v + p.1.2.1 * (p.2 : Int)) 0
/-- The destination offset of an element by its indices (01 R23). -/
def dstOffset (dims : List (Nat × Int × Int)) (ix : List Nat) : Int :=
  (dims.zip ix).foldl (fun v p => v + p.1.2.2 * (p.2 : Int)) 0
/-- An address as 64 bits. -/
def address64 (i : Int) : Nat := (BitVec.ofInt 64 i).toNat

/-- The parts of a byte range that lie in one word each: address and length. -/
def wordParts (va n : Nat) : List (Nat × Nat) :=
  (List.range (n / 8 + 2)).filterMap fun k =>
    let w := va / 8 * 8 + 8 * k
    let lo := max va w
    let hi := min (va + n) (w + 8)
    if lo < hi then some (lo, hi - lo) else none

/-- What one access of a chunk comes to: done with its bytes, a failure with its cause and the address of the request (09 R220), a
wait, or a word of host memory that the endpoint must be asked for. -/
inductive Pull where
  | ok (v : Nat)
  | fail (cause va : Nat)
  | blocked
  | ask (va : Nat)
  deriving DecidableEq, Repr

/-- An access of the ladle for an operation, checked as a thread access of its domain at the submitting core (09 R218); its own core's
memory is reached on the local path, which no shutter refuses (14 R347). -/
def State.ladleAct (s : State) (o : LadleOp) (va : Nat) (op : Op) : Read × State := s.act o.cid o.dom va 1 op none

/-- How the endpoint has answered an operation for the word at `va` and a chunk. -/
def LadleOp.hostAnswer (o : LadleOp) (c va : Nat) : Option Nat :=
  (o.hostDone.find? fun x => x.1 == c && x.2.1 == va / 8 * 8).map fun x => x.2.2

/-- A read of the ladle for chunk `c`, within one word. -/
def State.ladleLoad (s : State) (o : LadleOp) (c va n : Nat) : Read × State :=
  match s.ladleAct o va (.load n) with
  | (.ask, s) => (match o.hostAnswer c va with
    | none => (.ask, s)
    | some 0 => s.hostWord o.cid o.dom va n
    | some k => if 512 ≤ k then (.ok (substitute (k == 513) n), s) else (.fail k, s))
  | r => r

/-- Reads the bytes of some parts of a range at `va`, each part within one word (log entry 53). -/
def State.pull (s : State) (o : LadleOp) (c va : Nat) : List (Nat × Nat) → Pull × State
  | [] => (.ok 0, s)
  | (a, n) :: r => match s.ladleLoad o c (a % 2 ^ 64) n with
    | (.ok v, s) => (match s.pull o c va r with
      | (.ok w, s) => (.ok (v * 256 ^ (a - va) + w), s)
      | q => q)
    | (.fail k, s) => (.fail k (a % 2 ^ 64), s)
    | (.blocked _, s) => (.blocked, s)
    | (.ask, s) => (.ask (a % 2 ^ 64), s)

/-- Writes `n` bytes at `va` within one word: a word as STF under PSET, else as ST (09 R216). -/
def State.push (s : State) (o : LadleOp) (va n v : Nat) : Pull × State :=
  match s.ladleAct o va (if bit (o.desc.getD 0 0).toNat 11 then .stf v else .store n v) with
  | (.ok _, s) => (.ok 0, s)
  | (.fail k, s) => (.fail k va, s)
  | (_, s) => (.blocked, s)

/-- The sum of an element over the rest of the source list, in list order (09 R216 REDUCE). -/
def State.reduceFrom (s : State) (o : LadleOp) (c : Nat) (off : Int) (f : FFormat) (acc : Nat) : List Word → Pull × State
  | [] => (.ok acc, s)
  | b :: r =>
    let va := address64 (b.toNat + off)
    match s.pull o c va (wordParts va o.esize) with
    | (.ok v, s) => s.reduceFrom o c off f (f.result 0 (FV.add 0 (f.unpack acc) (f.unpack v))).1 r
    | q => q

/-- The bytes `lo` to `hi - 1` of an element's value (09 R216): of a REDUCE, whose elements lie within a word, the whole. -/
def State.elementValue (s : State) (o : LadleOp) (c : Nat) (ix : List Nat) (lo hi : Nat) : Pull × State :=
  let src := (o.desc.getD 2 0).toNat
  let off := srcOffset o.dims ix
  let get := fun (s : State) (a : Int) =>
    let va := address64 (a + lo)
    s.pull o c va (wordParts va (hi - lo))
  match o.form with
  | 0 => get s (src + off)
  | 1 => (.ok (src / 256 ^ lo % 256 ^ (hi - lo)), s)
  | 2 =>
    let f := if field (o.desc.getD 0 0).toNat 32 2 = 0 then f32 else bf16
    (match o.srcs with
     | [] => (.ok 0, s)
     | b :: r =>
       let va := address64 (b.toNat + off)
       match s.pull o c va (wordParts va o.esize) with
       | (.ok v, s) => s.reduceFrom o c off f v r
       | q => q)
  | _ =>
    let i1 := ix.getD 1 0
    let stride := ((o.dims.getD 1 (0, 0, 0)).2).1
    let ia := address64 (src + 4 * i1)
    match s.pull o c ia (wordParts ia 4) with
    | (.ok idx, s) => get s ((o.desc.getD 3 0).toNat + off + stride * ((idx : Int) - i1))
    | q => q

/-! Chunks (09 R215 to R217). -/

/-- The destination of element `n` (01 R23). -/
def LadleOp.dstOf (o : LadleOp) (n : Nat) : Nat := address64 ((o.desc.getD 1 0).toNat + dstOffset o.dims (indicesOf o.dims n))

/-- What a chunk has to do for its part of element `n`: an item for each word of the destination. A FILL reads nothing. -/
def LadleOp.elementItems (o : LadleOp) (c n : Nat) : List CopyItem :=
  let es := o.esize
  let lo := 4096 * c - n * es
  let hi := min es (min (4096 * c + 4096) o.length - n * es)
  let base := o.dstOf n
  (wordParts (base + lo) (hi - lo)).map fun p =>
    let k := p.1 - base
    ⟨n * es + k, n, k, p.2, if o.form = 1 then some ((o.desc.getD 2 0).toNat / 256 ^ k % 256 ^ p.2) else none⟩

/-- What chunk `c` has to do, in stream order. -/
def LadleOp.chunkItems (o : LadleOp) (c : Nat) : List CopyItem :=
  let es := o.esize
  let first := 4096 * c / es
  let last := (min (4096 * c + 4096) o.length - 1) / es
  (List.range (last + 1 - first)).flatMap fun i => o.elementItems c (first + i)

/-- What is left of a chunk in flight. -/
def LadleOp.workOf (o : LadleOp) (c : Nat) : ChunkWork := Tab.get ⟨o.chunkItems c, none⟩ o.work c

/-- The earlier of two failures in stream order. -/
def earlier (a : Option (Nat × Nat × Nat)) (b : Nat × Nat × Nat) : Option (Nat × Nat × Nat) :=
  match a with
  | none => some b
  | some x => if x.1 ≤ b.1 then some x else some b

/-- An item's next access: the read of its bytes, then their write (09 R216). -/
def State.copyItem (s : State) (o : LadleOp) (c : Nat) (x : CopyItem) : Pull × State :=
  match x.got with
  | none => s.elementValue o c (indicesOf o.dims x.element) x.lo (x.lo + x.len)
  | some v => s.push o ((o.dstOf x.element + x.lo) % 2 ^ 64) x.len v

/-- What a chunk's work becomes when the next access of its item `i` answers (09 R216, R220). -/
def ChunkWork.after (w : ChunkWork) (i : Nat) (x : CopyItem) : Pull → ChunkWork
  | .ok v => if x.got.isNone then { w with items := listSet w.items i { x with got := some v } } else { w with items := listDel w.items i }
  | .fail k va => ⟨listDel w.items i, earlier w.fault (x.at_, k, va)⟩
  | _ => w

/-- Whether a chunk's access waits: for its home, or for an answer of the endpoint. -/
inductive Held where
  | no
  | yes
  | ask (va : Nat)
  deriving DecidableEq, Repr

/-- Some accesses of a chunk, one after the other, each one free among those that may be next: of two elements that name one destination
word, or overlap a source, either may be last, word by word (01 R24). -/
def State.copySome (s : State) (o : LadleOp) (c : Nat) (w : ChunkWork) : Nat → Held × ChunkWork × State
  | 0 => (.no, w, s)
  | n + 1 =>
    let (k, t) := s.free 24
    let i := k % w.items.length
    match w.items[i]? with
    | none => (.no, w, s)
    | some x => match t.copyItem o c x with
      | (.blocked, _) => (.yes, w, t)
      | (.ask va, _) => (.ask va, w, t)
      | (p, t) => t.copySome o c (w.after i x p) n

/-- The accesses that a chunk still has to make. -/
def ChunkWork.left (w : ChunkWork) : Nat := (w.items.map fun x => if x.got.isNone then 2 else 1).sum

/-- Makes one or more accesses of a chunk: how many is free, so that the accesses of several chunks interleave in any order (09 R216). -/
def State.copyChunk (s : State) (o : LadleOp) (c : Nat) : Held × ChunkWork × State :=
  let w := o.workOf c
  let (k, s) := s.free 24
  s.copySome o c w (k % w.left + 1)

/-! The steps of the engine. -/

/-- Whether the engines of a module stand still: in D3hot (03 R47). -/
def Module.still (x : Module) : Bool := x.d3hot

/-- The lowest chunk that an ACTIVE operation may issue (09 R217). -/
def LadleOp.nextChunk (o : LadleOp) : Option Nat :=
  if o.st = 1 && o.faults.isEmpty && o.due.isEmpty && o.cancel.isNone then
    (List.range 16).map (o.pref + ·) |>.find? fun c => decide (c < o.chunks) && !o.done.contains c && !o.flight.contains c
  else none

/-- The chunks of a ladle in flight. -/
def Engines.inFlight (e : Engines) : Nat := (e.ladle.flatMap fun p => p.2.flight).length

/-- Whether a ladle may issue a chunk (09 R217). -/
def Engines.mayIssue (e : Engines) : Bool := decide (e.inFlight < 16) && e.ladle.any fun p => p.2.nextChunk.isSome

/-- LADLE_CHUNK_ISSUE (09 R217): at most 16 chunks of the ladle in flight, in order of acceptance and then of chunks. -/
def execLadleChunkIssue (cl e : Nat) (s : State) : Out :=
  .next (
    let eng := (s.cluster cl).eng
    match Tab.find eng.ladle e with
    | none => s
    | some o => match o.nextChunk with
      | none => s
      | some c =>
        if (s.module (clusterModule cl)).still || 16 ≤ eng.inFlight ||
            eng.ladle.any (fun p => decide (p.2.age < o.age) && p.2.nextChunk.isSome) then s
        else s.onEng cl fun x => { x with ladle := Tab.set x.ladle e { o with flight := o.flight ++ [c] } })

/-- The completed prefix moved over the chunks done (09 R217). -/
def LadleOp.advance (o : LadleOp) : Nat → LadleOp
  | 0 => o
  | n + 1 => if o.done.contains o.pref then
      { o with pref := o.pref + 1, done := setErase o.done o.pref }.advance n
    else o

/-- The operation with chunk `c` complete or faulted. -/
def LadleOp.landed (o : LadleOp) (c : Nat) (fault : Option (Nat × Nat × Nat)) : LadleOp :=
  let o := { o with flight := setErase o.flight c, work := Tab.del o.work c, hostDone := o.hostDone.filter fun x => x.1 != c }
  match fault with
  | none => { o with done := setInsert o.done c }.advance 16
  | some (_, k, va) => { o with faults := o.faults ++ [(c, k, va)] }

/-- The operation in an entry replaced. -/
def State.setLadle (s : State) (cl e : Nat) (o : LadleOp) : State :=
  s.onEng cl fun x => { x with ladle := Tab.set x.ladle e o }

/-- Asks the endpoint for the host word at `va` for a chunk (07 R157): the chunk goes on with its answer (log entry 2). -/
def State.askHost (s : State) (cl e k va : Nat) (o : LadleOp) : State :=
  let va := va / 8 * 8
  match s.lookup o.cid o.dom (targetOf o.cid va) with
  | none => s
  | some l => match s.translate o.dom l .read with
    | (.ok (.host a tol subn _), s) | (.ok (.dram a tol subn _), s) =>
      let h : HostReq := ⟨.ladle cl e k, insideReq o.cid o.dom va (.load 8), a, tol, subn⟩
      (s.onModule l.m fun x => { x with outstanding := x.outstanding ++ [h] }).setLadle cl e
        { o with hostWait := o.hostWait ++ [k] }
    | (.error _, s) => s

/-- The operation after some accesses of chunk `c`: the chunk is complete or has faulted when none is left (09 R217, R220). -/
def LadleOp.worked (o : LadleOp) (c : Nat) (w : ChunkWork) : LadleOp :=
  if w.items.isEmpty then o.landed c w.fault else { o with work := Tab.set o.work c w }

/-- LADLE_CHUNK_COMPLETE (09 R216 to R218): accesses of a chunk in flight are made, and the chunk is complete or has faulted with the last of
them; one that must wait keeps the chunk in flight. The ladle issues every chunk that it may before that (17 R384; log entry 93). -/
def execLadleChunkComplete (cl e k : Nat) (s : State) : Out :=
  .next (match Tab.find (s.cluster cl).eng.ladle e with
    | none => s
    | some o =>
      if !o.flight.contains k || o.hostWait.contains k || (s.module (clusterModule cl)).still || (s.cluster cl).eng.mayIssue then s
      else
        let (h, w, t) := s.copyChunk o k
        let t := t.setLadle cl e (o.worked k w)
        match h with
        | .ask va => t.askHost cl e k va (o.worked k w)
        | _ => t)

/-- The status word and the layout of a record (09 R219). -/
def progressWord (mark cause : Nat) (o : LadleOp) : Nat :=
  let mask := (List.range 15).foldl (fun v i => if o.done.contains (o.pref + 1 + i) then v + 2 ^ i else v) 0
  mark * 2 ^ 56 + cause % 512 * 2 ^ 47 + o.pref % 2 ^ 31 * 2 ^ 16 + mask

/-- The fault-queue record of an operation (09 R220, 14 R332). -/
def State.ladleRecord (s : State) (cl e : Nat) (o : LadleOp) (cause va : Nat) : State :=
  s.postRecord (clusterModule cl) o.dom (recordWords 2 cause (threadName o.cid o.slot) (BitVec.ofNat 64 va)
    (BitVec.ofNat 64 (ladleHandle (s.shownCluster cl) o.seq e)) o.tag 0 0)

/-- Whether the domain's fault queue on a module takes a record at once (14 R331). -/
def State.recordRoom (s : State) (m dom : Nat) : Bool :=
  match s.domain? m dom with
  | none => true
  | some (_, d) => d.fqWait.isEmpty && decide (d.fq.length < 4096)

/-- LADLE_FAULT unless QUIET (09 R220, R221). -/
def State.ladleTrap (s : State) (cl e : Nat) (o : LadleOp) : State :=
  if o.quiet then s else s.raiseAsync o.uid ⟨Cause.ladleFault, ladleHandle (s.shownCluster cl) o.seq e, none⟩

/-- The operation with a refused put of its completion word, whose records are still to be posted (09 R220). -/
def LadleOp.putFail (o : LadleOp) (word : Nat) (isValue : Bool) (cause : Nat) (due : List (Nat × Nat)) : LadleOp :=
  { o with put := BitVec.ofNat 64 word, isValue := isValue, cause := cause, faults := [], due := due, after := 3 }

/-- The lowest-numbered faulting chunk (09 R219). -/
def LadleOp.firstFault (o : LadleOp) : Option (Nat × Nat × Nat) := leastBy (fun x => x.1) o.faults

/-- Steps 4 to 6 of 09 R220, as far as the domain's fault queue has room (14 R331): the records are posted, the entry takes its STATE, and
LADLE_FAULT is raised once. -/
def State.postDue (s : State) (cl e : Nat) (o : LadleOp) : List (Nat × Nat) → State
  | [] => (s.setLadle cl e { o with st := o.after, due := [] }).ladleTrap cl e o
  | (c, va) :: r =>
    if s.recordRoom (clusterModule cl) o.dom then (s.ladleRecord cl e o c va).postDue cl e o r
    else s.setLadle cl e { o with due := (c, va) :: r }

/-- LADLE_DATA_FAULT (09 R220): once every chunk in flight is complete or has faulted, the record is put; then what is due goes on. -/
def execLadleDataFault (cl e : Nat) (s : State) : Out :=
  .next (match Tab.find (s.cluster cl).eng.ladle e with
    | none => s
    | some o =>
      if o.st ≠ 1 || !o.flight.isEmpty || (s.module (clusterModule cl)).still then s
      else if !o.due.isEmpty then s.postDue cl e o o.due
      else match o.firstFault with
        | none => s
        | some (_, cause, va) =>
          let w := progressWord 0xFD cause o
          match s.ladleAct o o.compl.toNat (.stf w) with
          | (.ok _, t) =>
            t.postDue cl e { o with cause := cause, va := va, faults := [], due := [(cause, va)], after := 2 } [(cause, va)]
          | (.fail c, t) =>
            let l := [(cause, va), (c, o.compl.toNat)]
            t.postDue cl e { o.putFail w false c l with va := va } l
          | _ => s)

/-- The put of the completion value (09 R219). -/
def State.putValue (s : State) (cl e : Nat) (o : LadleOp) : State :=
  match s.ladleAct o o.compl.toNat (.stf o.value.toNat) with
  | (.ok _, t) => t.freeLadle cl e
  | (.fail c, t) =>
    let l := [(c, o.compl.toNat)]
    t.postDue cl e (o.putFail o.value.toNat true c l) l
  | _ => s

/-- The end of an LCANCEL (09 R225): the put of its record, the answer, the entry freed. -/
def State.putCancel (s : State) (cl e : Nat) (o : LadleOp) (r : Req) : State :=
  if o.st = 3 then (s.freeLadle cl e).sendAns (clusterKey cl) r .ok
  else match s.ladleAct o o.compl.toNat (.stf (progressWord 0xFD 0 o)) with
    | (.ok _, t) => (t.freeLadle cl e).sendAns (clusterKey cl) r .ok
    | (.fail c, t) => (t.freeLadle cl e).sendAns (clusterKey cl) r (.faultAt c o.compl.toNat)
    | _ => s

/-- LADLE_COMPLETION_PUT (09 R219, R225): of the completion value when every chunk is complete, or of the record of a cancel when none
is in flight. A fault of a chunk comes first, with its own records (log entry 101). -/
def execLadleCompletionPut (cl e : Nat) (s : State) : Out :=
  .next (match Tab.find (s.cluster cl).eng.ladle e with
    | none => s
    | some o =>
      if !o.flight.isEmpty || !o.faults.isEmpty || !o.due.isEmpty || (s.module (clusterModule cl)).still then s
      else match o.cancel with
        | some r => s.putCancel cl e o r
        | none => if o.st = 1 && o.pref = o.chunks then s.putValue cl e o else s)

/-- What LSTAT returns for an entry (09 R223). -/
def LadleOp.statusPair (o : LadleOp) : Nat × Nat :=
  (progressWord o.st (if o.st = 1 then 0 else o.cause) o, if o.st = 2 then o.va else if o.st = 3 then o.compl.toNat else 0)

/-- The operation that a handle names in a ladle, unless it is stale (09 R213). -/
def State.ladleNamed (s : State) (cl h dom : Nat) : Option LadleOp :=
  (Tab.find (s.cluster cl).eng.ladle (field h 0 5)).filter fun o => o.st != 0 && o.seq == field h 8 16 && o.dom == dom

/-- LRESUME at the ladle (09 R224): its answer, or none while it must wait. -/
def State.resumeLadle (s : State) (cl e : Nat) (o : LadleOp) : Option (Ans × State) :=
  if o.st = 2 then
    (match s.ladleAct o o.compl.toNat .sete with
     | (.ok _, t) => some (.ok, t.setLadle cl e { o with st := 1, cause := 0, va := 0 })
     | (.fail c, t) => some (.faultAt c o.compl.toNat, t)
     | _ => none)
  else if o.st = 3 then
    (match s.ladleAct o o.compl.toNat (.stf o.put.toNat) with
     | (.ok _, t) =>
       some (.ok, if o.isValue then t.freeLadle cl e
         else t.setLadle cl e { o with st := 2, cause := field o.put.toNat 47 9 })
     | (.fail c, t) => some (.faultAt c o.compl.toNat, t.setLadle cl e { o with cause := c })
     | _ => none)
  else some (.fault Cause.ladleHandle, s)

/-- LADLE_CTL_REQUEST (09 R222 to R225): the ladle takes the requests one at a time; one behind an LCANCEL that is not done waits, and in
D3hot it takes none (03 R47). -/
def execLadleCtlRequest (n : Nat) (s : State) : Out :=
  .next (match s.receive n with
    | some (⟨_, _, _, _, _, .req r⟩, t) =>
      (match r.op with
       | .lctl form h =>
         let cl := cidCluster (s.resolveCid r.cid (field h 24 21 * 32))
         let e := field h 0 5
         let key := clusterKey cl
         if (s.module (clusterModule cl)).still then s
         else (match t.ladleNamed cl h r.dom with
          | none => t.sendAns key r (if form = 0 then .two 0 0 else if form = 1 then .fault Cause.ladleHandle else .ok)
          | some o =>
            if form = 0 then t.sendAns key r (.two o.statusPair.1 o.statusPair.2)
            else if o.cancel.isSome then s
            else if form = 1 then
              (match t.resumeLadle cl e o with
               | some (a, t) => t.sendAns key r a
               | none => s)
            else if o.st = 3 then (t.freeLadle cl e).sendAns key r .ok
            else t.setLadle cl e { o with cancel := some r })
       | _ => s)
    | _ => s)

end Sys2Proof.Machine
end

