-- ==== Sys2Proof/Machine/Sums.lean ====
section
/-!
DEFINITION. Matrix operand records as data (01 R18 to R20), expansion (02 R40, R41) and the matrix sum (02 R42 to R44).
-/
namespace Sys2Proof.Machine

/-! The fields of an operand record (01 R18). -/

/-- Word `k` of a record. -/
def recWord (w : List Word) (k : Nat) : Nat := (w.getD k 0).toNat
def recBase (w : List Word) : Nat := recWord w 0
def recStride (w : List Word) : Nat := field (recWord w 1) 32 24
def recCols (w : List Word) : Nat := field (recWord w 1) 16 16
def recRows (w : List Word) : Nat := field (recWord w 1) 0 16
def recKind (w : List Word) : Nat := field (recWord w 2) 32 8
def recFormat (w : List Word) : Nat := field (recWord w 2) 0 32
def recScales (w : List Word) : Nat := recWord w 3
def recSprue (w : List Word) : Nat := recWord w 4
def recIndir (w : List Word) : Nat := recWord w 5
def recSel (w : List Word) : Nat := field (recWord w 6) 32 24
def recSelv (w : List Word) : Bool := bit (recWord w 6) 17
def recRing (w : List Word) : Bool := bit (recWord w 6) 16
def recDomain (w : List Word) : Nat := field (recWord w 6) 0 16
/-- The narrow format of a record of KIND 0. -/
def recNarrow (w : List Word) : Narrow := narrowOf (recFormat w)
/-- Whether a record's tiles may hold escapes (01 R20). -/
def recEscapes (w : List Word) : Bool := recKind w == 0 && (recNarrow w).zc == 1
/-- The scale format of a record: 0 for none. -/
def recScf (w : List Word) : Nat := if recKind w = 0 then (recNarrow w).scf else 0
/-- Bits of an element. -/
def recBits (w : List Word) : Nat := if recKind w = 0 then (recNarrow w).w else if recKind w = 3 then 32 else 16
/-- The packed bytes of a row (01 R18). -/
def recRowBytes (w : List Word) : Nat := (recCols w * recBits w + 7) / 8
/-- The bytes of operand data from BASE (10 R232). -/
def recExtent (w : List Word) : Nat := (recRows w - 1) * recStride w + recRowBytes w
/-- Tiles in a row of tiles. -/
def recTileCols (w : List Word) : Nat := (recCols w + 127) / 128
/-- Tiles of an operand. -/
def recTiles (w : List Word) : Nat := (recRows w + 127) / 128 * recTileCols w

/-- The VA of a tile of a stored operand. -/
def tileVa (w : List Word) (t : Nat) : Nat :=
  recBase w + t / recTileCols w * 128 * recStride w + t % recTileCols w * 16 * recBits w

/-- The number of scales of an operand, and the index of the scale of element (i, j) (01 R19); `colBlocks` says that blocks run down
the columns, as in a B operand. -/
def scaleCount (w : List Word) (colBlocks : Bool) : Nat :=
  let b := 2 ^ (recNarrow w).blk
  if (recNarrow w).blk = 0 then 1
  else if colBlocks then recCols w * ((recRows w + b - 1) / b)
  else recRows w * ((recCols w + b - 1) / b)
def scaleIndex (w : List Word) (colBlocks : Bool) (i j : Nat) : Nat :=
  let b := 2 ^ (recNarrow w).blk
  if (recNarrow w).blk = 0 then 0
  else if colBlocks then j * ((recRows w + b - 1) / b) + i / b
  else i * ((recCols w + b - 1) / b) + j / b

/-! Expansion (02 R40, R41). -/

/-- A narrow code expanded with its scale (02 R41). -/
def expand (n : Narrow) (c : Nat) (sc : FV) : FV :=
  match n.decode c with
  | .esc => .esc
  | v =>
    if v.isNan || sc.isNan then .nan false
    else match (v.mul sc).1 with
      | .fin neg m e =>
        let q : Int := m.log2 + e - 7
        .fin neg (roundTo 1 neg m e q).1 q
      | x => x

/-- The code of element `j` of a row. -/
def rowCode (bits row j : Nat) : Nat := row / 2 ^ (bits * j) % 2 ^ bits

/-- The value that element (i, j) of a stored operand brings to a sum (02 R41, R44), from the bits of its row. -/
def elementOf (op : Operand) (colBlocks : Bool) (i j row : Nat) : FV :=
  let w := op.rec_
  let c := rowCode (recBits w) row j
  match recKind w with
  | 0 => expand (recNarrow w) c
      (scaleValue (recScf w) (op.scales.getD (scaleIndex w colBlocks i j) 0))
  | 1 => h16.unpack c
  | 2 => bf16.unpack c
  | _ => f32.unpack c

/-- The sprue value of element (i, j) (01 R20, 10 R233), an f32. -/
def sprueOf (op : Operand) (i j : Nat) : FV :=
  let tile := i / 128 * recTileCols op.rec_ + j / 128
  let index := i % 128 * 128 + j % 128
  match (op.sprues.getD tile []).find? fun e => e.1 == index with
  | some e => f32.unpack e.2
  | none => .zero false

/-- The positions of the escapes of a tile, in row-major order, from the rows' bits (01 R20). -/
def tileEscapes (w : List Word) (rows : List Nat) (t : Nat) : List Nat :=
  let n := recNarrow w
  let r0 := t / recTileCols w * 128
  let c0 := t % recTileCols w * 128
  (List.range (min 128 (recRows w - r0))).flatMap fun r =>
    let row := rows.getD (r0 + r) 0
    ((List.range (min 128 (recCols w - c0))).filter fun c => n.decode (rowCode n.w row (c0 + c)) == .esc).map fun c => r * 128 + c

/-! The sum (02 R42, R43). -/

/-- A term of a sum: the elements of A and B and their sprue values. -/
structure Term where
  a : FV
  b : FV
  wa : FV
  wb : FV
  deriving DecidableEq, Repr

/-- rne32 of an exact value (02 R42). -/
def rne32 (v : FV) : Nat := (f32.pack 0 v).1

/-- An element in the dense product: an escape stands as 0 (02 R42). -/
def dense (v : FV) : FV := if v = .esc then .zero false else v

/-- floor(log2 |p|) of a finite nonzero product. -/
def exponentOf : FV → Option Int
  | .fin _ m e => some (m.log2 + e)
  | _ => none

/-- The greatest exponent of some products. -/
def greatestExponent : List FV → Option Int
  | [] => none
  | p :: r => match exponentOf p, greatestExponent r with
    | some a, some b => some (max a b)
    | some a, none => some a
    | none, x => x

/-- trunc(p, q) in units of 2^q. -/
def truncated (q : Int) : FV → Int
  | .fin neg m e => signed neg (roundTo 1 neg m e q).1
  | _ => 0

/-- The dense sum of a K-block (02 R42, R43). -/
def blockSum (ps : List FV) : Nat :=
  let pos := ps.contains (.inf false)
  let neg := ps.contains (.inf true)
  if ps.any FV.isNan || (pos && neg) then f32.nan
  else if pos then f32.inf false
  else if neg then f32.inf true
  else match greatestExponent ps with
    | none => 0
    | some emax =>
      let q := emax - 39
      rne32 (FV.ofInt (ps.foldl (fun t p => t + truncated q p) 0) q false)

/-- s + x × y rounded once (02 R42, R43). -/
def mulAdd (s : Nat) (x y : FV) : Nat := rne32 (FV.fma 0 x y (f32.unpack s) false).1

/-- The sprue steps of a K-block, in ascending k (02 R42). -/
def sprueSteps (s : Nat) : List Term → Nat
  | [] => s
  | t :: r =>
    let s := if t.a = .esc && t.b = .esc then mulAdd s t.wa t.wb
      else if t.a = .esc then mulAdd s t.wa t.b
      else if t.b = .esc then mulAdd s t.a t.wb
      else s
    sprueSteps s r

/-- One K-block added to the accumulator (02 R42). -/
def addBlock (acc : Nat) (ts : List Term) : Nat :=
  let s := sprueSteps (blockSum (ts.map fun t => ((dense t.a).mul (dense t.b)).1)) ts
  rne32 (FV.add 0 (f32.unpack acc) (f32.unpack s)).1

/-- The sum over K-blocks of 32 in ascending k (02 R42); the first argument bounds the blocks. -/
def matrixSum : Nat → Nat → List Term → Nat
  | 0, acc, _ => acc
  | _ + 1, acc, [] => acc
  | n + 1, acc, ts => matrixSum n (addBlock acc (ts.take 32)) (ts.drop 32)

/-- The terms of element (i, j) of a product, k from `k0` for `n` (02 R42); `t` says that B is stored transposed (10 R233). `ra` and `rb` are the
operands' rows. -/
def termsOf (a b : Operand) (t : Bool) (ra rb : List Nat) (i j k0 n : Nat) : List Term :=
  (List.range n).map fun x =>
    let k := k0 + x
    let (p, q) := if t then (j, k) else (k, j)
    ⟨elementOf a false i k (ra.getD i 0), elementOf b (!t) p q (rb.getD p 0), sprueOf a i k, sprueOf b p q⟩

/-! Regions (10 R233). -/

def regStride (g : Word) : Nat := field g.toNat 42 12
def regRows (g : Word) : Nat := field g.toNat 31 11
def regCols (g : Word) : Nat := field g.toNat 20 11
def regBase (g : Word) : Nat := field g.toNat 0 20

/-- Whether a region word breaks 10 R233, in a store of `size` bytes. -/
def regionBad (g : Word) (size : Nat) : Bool :=
  field g.toNat 54 10 != 0 || regStride g % 2 != 0 || regStride g < regCols g || regRows g = 0 || 512 < regRows g ||
  regCols g = 0 || 512 < regCols g || regBase g % 8 != 0 ||
  size < regBase g + 4 * ((regRows g - 1) * regStride g + regCols g)

/-- Words of a row of a region. -/
def regRowWords (g : Word) : Nat := (regCols g + 1) / 2
/-- The accumulator addresses of a region's words, ascending (10 R233). -/
def regionWords (g : Word) : List Nat :=
  (List.range (regRows g)).flatMap fun i =>
    (List.range (regRowWords g)).map fun k => regBase g + 4 * i * regStride g + 8 * k
/-- The number of words of a region. -/
def regWordCount (g : Word) : Nat := regRows g * regRowWords g
/-- Whether word `n` of a region holds the outside f32 of an odd CCOLS (10 R233). -/
def regOutside (g : Word) (n : Nat) : Bool := regCols g % 2 == 1 && n % regRowWords g == regRowWords g - 1
/-- The old value of element (i, j), from the old values of the region's words. -/
def regOld (g : Word) (old : List Nat) (i j : Nat) : Nat := field (old.getD (i * regRowWords g + j / 2) 0) (j % 2 * 32) 32
/-- The final value of word `n` of a region whose element (i, j) is `value i j` (10 R233, R236). -/
def regWordValue (g : Word) (old : List Nat) (value : Nat → Nat → Nat) (n : Nat) : Nat :=
  let i := n / regRowWords g
  let j := 2 * (n % regRowWords g)
  value i j + 2 ^ 32 * (if regOutside g n then field (old.getD n 0) 32 32 else value i (j + 1))

end Sys2Proof.Machine
end

