-- ==== Sys2Proof/Machine/Records.lean ====
section
/-!
DEFINITION. What the cluster engines read of the cluster window: operand records, operand data, scale arrays, sprue directories and
lists (01 R18 to R21, 10 R231 to R234), and the words of the accumulator store and the flask buffer.
-/
namespace Sys2Proof.Machine

/-- The result of a read or a check of an engine: a failure gives its cause and the address or value concerned; cause 0 says that a
shutter holds the read back (14 R347). -/
abbrev Check := Except (Nat × Nat)

/-! Addresses (10 R232). -/

/-- Whether `n` bytes at a VA lie whole within one of units 0 to 23 or 28 of the cluster window (10 R232). -/
def fitsUnit (va n : Nat) : Bool :=
  let u := field va 19 5
  field va 60 4 == 0xE && field va 24 36 == 0 && (u < 24 || u == 28) && field va 0 19 + n ≤ unitSize u

/-- Whether a VA lies in the flask buffer, unit 28, which 11 R260 step 1 shuts out. -/
def inBuffer (va : Nat) : Bool := field va 19 5 == 28

/-- The physical address of a VA of the cluster window, for a core of the cluster. -/
def enginePlace (cid va : Nat) : Nat :=
  let u := field va 19 5
  if u < 24 then localAddr (cidCluster cid * 32 + u) (field va 0 19) else storeAddr (cidCluster cid) u (field va 0 19)

/-- Whether a shutter holds an engine's access for a job of core `cid` back (14 R347): on the cluster path, not the local one. -/
def State.engineHeld (s : State) (cid va : Nat) : Bool :=
  let u := field va 19 5
  decide (u < 24) && u != cidCore cid && s.shuttered (cidCluster cid * 32 + u)

/-- Whether the protection regions admit an engine's access of a domain (10 R234 step 5). -/
def State.engineAdmits (s : State) (cid dom va : Nat) (kind : AccessKind) : Bool := s.protects dom (targetOf cid va) kind

/-- Whether the word at a VA is poisoned. -/
def State.enginePoison (s : State) (cid va : Nat) : Bool := s.mem.poisoned (wordOf (enginePlace cid va))

/-- A word of a record, table or array (10 R234 step 3); `late` leaves poison for a later step. -/
def State.engineRead (s : State) (cid dom va : Nat) (late : Bool) : Check Nat :=
  if !fitsUnit va 8 || va % 8 ≠ 0 then .error (Cause.badOperand, va)
  else if !s.engineAdmits cid dom va .read then .error (Cause.protection, va)
  else if s.engineHeld cid va then .error (0, va)
  else if s.enginePoison cid va && !late then .error (Cause.poison, va)
  else .ok (s.mem.read (enginePlace cid va) 8)

/-- Words of a record, table or array, in order. -/
def State.engineReads (s : State) (cid dom : Nat) (late : Bool) : List Nat → Check (List Word)
  | [] => .ok []
  | va :: r => match s.engineRead cid dom va late with
    | .error e => .error e
    | .ok v => match s.engineReads cid dom late r with
      | .error e => .error e
      | .ok l => .ok (BitVec.ofNat 64 v :: l)

/-- The VAs of `n` words from `va` up. -/
def wordsFrom (va n : Nat) : List Nat := (List.range n).map fun k => va + 8 * k

/-! The record's own rules (01 R18, R395). -/

/-- What an operand record is wanted for: whether it is the A record of MMAG, whether its blocks run down the columns, whether a ring may
bring the operand, and whether unit 28 may hold any of it, which a pour shuts out (11 R260). -/
structure Role where
  sel : Bool
  colBlocks : Bool
  ring : Bool
  buffer : Bool
  deriving DecidableEq, Repr

/-- Whether `n` bytes at a VA lie whole within one of the units that a role admits (10 R232, 11 R260). -/
def Role.fits (r : Role) (va n : Nat) : Bool := fitsUnit va n && (r.buffer || !inBuffer va)

/-- Whether w0, w1 or the upper part of w2 breaks 01 R18 or 10 R232. -/
def recHeadBad (w : List Word) (r : Role) : Bool :=
  (!recRing w && (!r.fits (recBase w) 8 || recBase w % 8 != 0)) ||
  field (recWord w 1) 56 8 != 0 || recStride w % 8 != 0 || recCols w = 0 || 512 < recCols w || recRows w = 0 || 512 < recRows w ||
  field (recWord w 2) 40 24 != 0 || 3 < recKind w

/-- Whether a VA does not start `n` bytes of an array on a multiple of 8 within a unit (10 R232). -/
def Role.arrayBad (r : Role) (va n : Nat) : Bool := va % 8 != 0 || !r.fits va n

/-- Whether the words after FORMAT, or a rule across words, break 01 R18 or 10 R232. -/
def recTailBad (w : List Word) (r : Role) : Bool :=
  (recKind w != 0 && recFormat w != 0) || recStride w < recRowBytes w ||
  (!recRing w && !r.fits (recBase w) (recExtent w)) ||
  (if recScf w = 0 then recScales w != 0 else r.arrayBad (recScales w) (scaleCount w r.colBlocks * recScf w)) ||
  (recSprue w != 0 && (!recEscapes w || r.arrayBad (recSprue w) (8 * recTiles w))) ||
  (if r.sel then r.arrayBad (recIndir w) 8 else recIndir w != 0) ||
  field (recWord w 6) 56 8 != 0 || field (recWord w 6) 18 14 != 0 || recSelv w != r.sel ||
  (if r.sel then recSel w % 2 != 0 || !r.fits (0xE * 2 ^ 60 + recSel w) (2 * ((recRows w + 15) / 16)) else recSel w != 0) ||
  (if recRing w then
      field (recWord w 7) 36 28 != 0 || field (recWord w 7) 32 4 < 9 || field (recWord w 7) 24 8 < 2 || 18 < field (recWord w 7) 32 4 ||
      recEscapes w || !r.ring
    else recWord w 7 != 0)

/-- The cause of the first rule that a record breaks (01 R395, 02 R33, R34). -/
def recordBad (dom : Nat) (w : List Word) (r : Role) : Option Nat :=
  if recDomain w ≠ dom then some Cause.domainMismatch
  else if recHeadBad w r then some Cause.badOperand
  else if recKind w = 0 && !(recNarrow w).legal then some Cause.illegalFormat
  else if recTailBad w r then some Cause.badOperand
  else none

/-- The address or value concerned: the descriptor of an ILLEGAL_FORMAT (14 R323), else the record's VA. -/
def recordDetail (c va : Nat) (w : List Word) : Nat := if c = Cause.illegalFormat then recFormat w else va

/-- A record read and checked (10 R234 step 3): all of its 64 bytes lie within a unit (10 R232). -/
def State.readRecord (s : State) (cid dom va : Nat) (r : Role) (late : Bool) : Check (List Word) :=
  if r.arrayBad va 64 then .error (Cause.badOperand, va)
  else match s.engineReads cid dom late (wordsFrom va 8) with
    | .error e => .error e
    | .ok w => match recordBad dom w r with
      | some c => .error (c, recordDetail c va w)
      | none => .ok w

/-! Operand data (01 R18). -/

/-- The VAs of the words of operand data. -/
def dataWords (w : List Word) : List Nat :=
  (List.range (recRows w)).flatMap fun i => wordsFrom (recBase w + i * recStride w) ((recRowBytes w + 7) / 8)

/-- The bits of each row of operand data in the scratchpad. -/
def State.dataRows (s : State) (cid : Nat) (w : List Word) : List Nat :=
  (List.range (recRows w)).map fun i => s.mem.read (enginePlace cid (recBase w + i * recStride w)) (recRowBytes w)

/-- The bits of each row of an operand that a ring brought, from its bytes (10 R239). -/
def fedRows (w : List Word) (bytes : List Nat) : List Nat :=
  (List.range (recRows w)).map fun i =>
    ((bytes.drop (i * recStride w)).take (recRowBytes w)).foldr (fun b v => b + 256 * v) 0

/-! Scales and sprue lists (10 R231, R234 steps 5 to 7). -/

/-- The VAs of the words of the scale array. -/
def scaleWords (w : List Word) (r : Role) : List Nat :=
  if recScf w = 0 then [] else wordsFrom (recScales w) ((scaleCount w r.colBlocks * recScf w + 7) / 8)

/-- The scales of an operand. -/
def State.scalesOf (s : State) (cid : Nat) (w : List Word) (r : Role) : List Nat :=
  if recScf w = 0 then []
  else (List.range (scaleCount w r.colBlocks)).map fun k => s.mem.read (enginePlace cid (recScales w + k * recScf w)) (recScf w)

/-- What is found in one operand after its record: whether a shutter holds back the read of a directory or of a list's header, a list whose
VA breaks 10 R232, whether a shutter holds back another read, and the failures of protection, of the sprue lists and of poison. -/
structure Found where
  listHeld : Bool
  address : Option (Nat × Nat)
  held : Bool
  protection : Option (Nat × Nat)
  sprue : Option (Nat × Nat)
  poison : Option (Nat × Nat)
  deriving DecidableEq, Repr

/-- Nothing found. -/
def Found.none : Found := ⟨false, .none, false, .none, .none, .none⟩

/-- The first failure of two operands at each step. -/
def Found.join (a b : Found) : Found :=
  ⟨a.listHeld || b.listHeld, a.address <|> b.address, a.held || b.held, a.protection <|> b.protection, a.sprue <|> b.sprue,
    a.poison <|> b.poison⟩

/-- What stops acceptance at step 3: a list's VA (10 R232), which a directory word gives that may be read. -/
def Found.early (f : Found) : Option (Nat × Nat) := if f.listHeld then some (0, 0) else f.address

/-- The first failure of steps 5 to 7 (10 R234): protection, then, once every read is made, the sprue lists and poison. -/
def Found.late (f : Found) : Option (Nat × Nat) :=
  f.protection <|> (if f.held then some (0, 0) else f.sprue <|> f.poison)

/-- What reading some words for an operand finds: a shutter, protection and poison. -/
def State.foundIn (s : State) (cid dom : Nat) (vas : List Nat) : Found where
  listHeld := false
  address := .none
  held := vas.any fun va => s.engineHeld cid va
  protection := (vas.find? fun va => !s.engineAdmits cid dom va .read).map fun va => (Cause.protection, va)
  sprue := .none
  poison := (vas.find? fun va => s.enginePoison cid va).map fun va => (Cause.poison, va)

/-- A word of the cluster window whose checks are made elsewhere. -/
def State.engineWord (s : State) (cid va : Nat) : Nat := s.mem.read (enginePlace cid va) 8

/-- Whether the word at a VA may be read, and holds what was written. -/
def State.engineSound (s : State) (cid dom va : Nat) : Bool := s.engineAdmits cid dom va .read && !s.enginePoison cid va

/-- A sprue list with a header that may be read, at `d`, against the escapes `es` of its tile (01 R20): what is found, and its entries. -/
def State.entriesOf (s : State) (cid dom d : Nat) (es : List Nat) : Found × List (Nat × Nat) :=
  let h := s.engineWord cid d
  let count := field h 0 8
  let cap := field h 8 8
  let vas := wordsFrom (d + 8) (min count cap)
  let ents := vas.map fun va => s.engineWord cid va
  let f := s.foundIn cid dom (d :: vas)
  let bad := field h 16 48 != 0 || cap = 0 || cap < count || ents.map (fun e => field e 48 16) != es ||
    ents.any fun e => field e 32 16 != 0
  (if bad then { f with sprue := some (Cause.sprueMismatch, d) } else f, ents.map fun e => (field e 48 16, field e 0 32))

/-- The sprue list that a directory word names, against the escapes `es` of its tile (01 R20, 10 R232): its header and its CAP entries lie
within a unit. What may not be read is found with the directory or the header. -/
def State.listOf (s : State) (cid dom : Nat) (r : Role) (dirVa tile : Nat) (es : List Nat) : Found × List (Nat × Nat) :=
  if !s.engineSound cid dom dirVa then (.none, [])
  else if s.engineHeld cid dirVa then ({ Found.none with listHeld := true }, [])
  else
    let d := s.engineWord cid dirVa
    if d = 0 then (if es.isEmpty then (.none, []) else ({ Found.none with sprue := some (Cause.sprueMismatch, tile) }, []))
    else if r.arrayBad d 8 then ({ Found.none with address := some (Cause.badOperand, d) }, [])
    else if !s.engineSound cid dom d then (s.foundIn cid dom [d], [])
    else if s.engineHeld cid d then ({ Found.none with listHeld := true }, [])
    else if r.arrayBad d (8 + 8 * field (s.engineWord cid d) 8 8) then ({ Found.none with address := some (Cause.badOperand, d) }, [])
    else s.entriesOf cid dom d es

/-- The copies that acceptance makes of an operand (10 R231) and what steps 5 to 7 of R234 find in it. A ring operand has no data yet. -/
def State.scanOperand (s : State) (cid dom : Nat) (w : List Word) (r : Role) : Found × Operand :=
  let data := if recRing w then [] else dataWords w
  let fd := s.foundIn cid dom data
  let fd := if recEscapes w then fd else { fd with poison := .none, held := false }
  let fs := s.foundIn cid dom (scaleWords w r)
  let scales := s.scalesOf cid w r
  if recEscapes w then
    let rows := s.dataRows cid w
    let tiles := (List.range (recTiles w)).map fun t =>
      let es := tileEscapes w rows t
      if recSprue w = 0 then
        ((if es.isEmpty then Found.none else { Found.none with sprue := some (Cause.sprueMismatch, tileVa w t) }), [])
      else s.listOf cid dom r (recSprue w + 8 * t) (tileVa w t) es
    let dir := if recSprue w = 0 then Found.none else s.foundIn cid dom (wordsFrom (recSprue w) (recTiles w))
    ((tiles.foldl (fun f t => f.join t.1) ((fd.join fs).join dir)), ⟨w, scales, tiles.map (·.2)⟩)
  else (fd.join fs, ⟨w, scales, []⟩)

/-! Regions (10 R233, R236). -/

/-- The VA of an accumulator address (10 R233). -/
def accVa (x : Nat) : Nat := 0xE * 2 ^ 60 + (24 + x / 0x40000) * 2 ^ 19 + x % 0x40000
/-- The physical address of an accumulator address. -/
def accPlace (cl x : Nat) : Nat := storeAddr cl (24 + x / 0x40000) (x % 0x40000)

/-- The first word of a region that the protection regions do not admit. -/
def State.regionDenied (s : State) (cid dom : Nat) (g : Word) (kind : AccessKind) : Option (Nat × Nat) :=
  ((regionWords g).find? fun x => !s.engineAdmits cid dom (accVa x) kind).map fun x => (Cause.protection, accVa x)

/-- Writes a word of a store with its check bits, sets it full and serves its waiters (10 R236, 12 R287). -/
def State.putWord (s : State) (a v : Nat) : State :=
  (s.withMem (((s.mem.write a 8 v).setPoison (wordOf a) false).setFull (wordOf a) true)).serveAll (wordOf a)

/-- Takes a word of a store: its value is the engine's and it is empty (10 R236). -/
def State.takeWord (s : State) (a : Nat) : State :=
  (s.withMem (s.mem.setFull (wordOf a) false)).serveAll (wordOf a)

/-- Takes the words of a region from address `xs` on until one is empty or, where its data are needed, poisoned: the values taken, the poisoned address, and the state (10 R236). -/
def State.takeRegion (s : State) (place : Nat → Nat) (needed : Nat → Bool) : List Nat → Nat → List Nat × Option Nat × State
  | [], _ => ([], none, s)
  | x :: r, n =>
    let a := place x
    if !s.mem.full (wordOf a) then ([], none, s)
    else if needed n && s.mem.poisoned (wordOf a) then ([], some x, s)
    else
      let v := s.mem.read a 8
      let q := (s.takeWord a).takeRegion place needed r (n + 1)
      (v :: q.1, q.2)

/-- Commits the words of a region in ascending order, each with its final value (10 R236). -/
def State.commitRegion (s : State) (place : Nat → Nat) (value : Nat → Nat) : List Nat → Nat → State
  | [], _ => s
  | x :: r, n => (s.putWord (place x) (value n)).commitRegion place value r (n + 1)

/-- The words of a region after a fault (10 R240): every element 0x7FC0_0000, the outside f32 and its poison kept, every word full. -/
def State.spoilRegion (s : State) (place : Nat → Nat) (g : Word) (old : List Nat) : List Nat → Nat → State
  | [], _ => s
  | x :: r, n =>
    let a := place x
    let s := if regOutside g n then
        let m := match old[n]? with
          | some v => s.mem.write a 8 (0x7FC00000 + 2 ^ 32 * field v 32 32)
          | none => s.mem.write a 4 0x7FC00000
        (s.withMem (m.setFull (wordOf a) true)).serveAll (wordOf a)
      else s.putWord a 0x7FC000007FC00000
    s.spoilRegion place g old r (n + 1)

end Sys2Proof.Machine
end

