-- ==== Sys2Proof/Machine/Matrix.lean ====
section
/-!
DEFINITION. The matrix engine (10 R227 to R248): the instructions that submit jobs, MWAIT, MPOLL, MRING and MSTAT, and the steps of
the engine.
-/
namespace Sys2Proof.Machine

/-! Submissions (10 R230, R242 to R244). -/

/-- Parks the issuing thread with a submission (10 R230). -/
def submit (regs : List Nat) (j : State → Submission) (st : State) : Out :=
  .next (plain regs (fun st => st.parkCore (.submitted (j st))) st)

/-- MMA (10 R242). -/
def execMma (d s t q : Reg) (acc : Bool) (st : State) : Out :=
  submit [d, s, t, q] (fun st => ⟨0, d, st.g s, st.g t, st.g q, 0, acc⟩) st
/-- MMAG (10 R242). -/
def execMmag (d s q : Reg) (acc : Bool) (st : State) : Out :=
  submit [d, s, q] (fun st => ⟨1, d, st.g s, 0, st.g q, 0, acc⟩) st
/-- MMAT (10 R242). -/
def execMmat (d s t q : Reg) (acc : Bool) (st : State) : Out :=
  submit [d, s, t, q] (fun st => ⟨2, d, st.g s, st.g t, st.g q, 0, acc⟩) st
/-- MZERO (10 R243). -/
def execMzero (d s : Reg) (st : State) : Out := submit [d, s] (fun st => ⟨3, d, 0, 0, st.g s, 0, false⟩) st
/-- MDRAIN (10 R244). -/
def execMdrain (d s t : Reg) (st : State) : Out :=
  submit [d.val, s.val, t.val, t.val + 1] (fun st => ⟨4, d, 0, st.g t, st.g s, st.g (t.val + 1), false⟩) st

/-! Acceptance (10 R234). -/

/-- The roles of the records of a job kind (10 R233, R242). -/
def roleA (kind : Nat) : Role := ⟨kind == 1, false, true, true⟩
def roleB (kind : Nat) : Role := ⟨false, kind != 2, kind != 1, true⟩

/-- Step 2 for a record's VA: the checks of 07 R153 but protection, which the read makes, then 10 R232 for the 64 bytes of the record. -/
def recordVaBad (va : Nat) : Option Nat :=
  if addressBad va then some Cause.badAddress
  else if va % 8 ≠ 0 then some Cause.misaligned
  else if offsetBad va then some Cause.badOffset
  else if !fitsUnit va 64 then some Cause.badOperand
  else none

/-- The bytes of an element and of a row that MDRAIN writes (10 R244). -/
def drainSize (msg : Word) : Nat := if bit msg.toNat 4 then 2 else 4
def drainRowBytes (g msg : Word) : Nat := 8 * ((regCols g * drainSize msg + 7) / 8)

/-- Step 2 of MDRAIN (10 R244). -/
def State.drainBad (s : State) (cid : Nat) (j : Submission) : Option (Nat × Nat) :=
  let va := j.b.toNat
  let m := j.msg.toNat
  if field va 60 4 ≠ 0xD || field va 58 2 ≠ 0 || field va 19 13 ≠ 0 then some (Cause.badAddress, va)
  else if va % 8 ≠ 0 then some (Cause.misaligned, va)
  else if !s.cidOk cid (field va 32 26) then some (Cause.badCid, va)
  else if 0x60000 < field va 0 19 + regRows j.q * drainRowBytes j.q j.msg then some (Cause.badOffset, va)
  else if field m 5 3 ≠ 0 || field m 0 4 = 0 || field m 0 4 = 15 then some (Cause.badOperand, m)
  else none

/-- Step 2 (10 R234). -/
def State.stepTwo (s : State) (cid : Nat) (j : Submission) : Option (Nat × Nat) :=
  let at_ := fun (v : Word) => (recordVaBad v.toNat).map fun c => (c, v.toNat)
  match j.kind with
  | 0 => at_ j.a <|> at_ j.b
  | 1 => at_ j.a
  | 2 => at_ j.a <|> at_ j.b
  | 3 => none
  | _ => s.drainBad cid j

/-- The ring of a domain with a record's descriptor (10 R239). -/
def Engines.ringOf (e : Engines) (dom : Nat) (w : List Word) : Option (Nat × Ring) :=
  e.rings.find? fun r => r.2.dom == dom && r.2.desc == recWord w 7

/-- The selectors of MMAG's blocks of 16 rows (01 R21): the whole array is read, then each entry is held to the table's COUNT. -/
def State.readSelectors (s : State) (cid dom count va n : Nat) : Check (List Nat) := do
  let ws ← s.engineReads cid dom false (wordsFrom (va / 8 * 8) ((va % 8 + 2 * n + 7) / 8))
  let sel := (List.range n).map fun q => field (ws.getD ((va % 8 + 2 * q) / 8) 0).toNat ((va + 2 * q) % 8 * 8) 16
  if sel.any fun x => decide (count ≤ x) then .error (Cause.badSelector, va) else .ok sel

/-- Records read and checked, in order (10 R234 step 3). -/
def State.readRecords (s : State) (cid dom : Nat) (r : Role) : List Nat → Check (List (List Word))
  | [] => .ok []
  | va :: rest => match s.readRecord cid dom va r false with
    | .error e => .error e
    | .ok w => match s.readRecords cid dom r rest with
      | .error e => .error e
      | .ok l => .ok (w :: l)

/-- The words of an indirection table (01 R21, 10 R234 step 3): it is read as far as a COUNT in range says, within its unit, and then
checked. -/
def State.tableWords (s : State) (cid dom va selVa : Nat) : Check (Nat × List Word) := do
  let head ← s.engineRead cid dom va false
  let count := field head 0 16
  let ranged := 0 < count && count ≤ 1024
  if ranged && !fitsUnit va (8 + 8 * count) then .error (Cause.badOperand, va)
  else
    let table ← s.engineReads cid dom false (if ranged then wordsFrom (va + 8) count else [])
    if field head 16 48 ≠ 0 then .error (Cause.badOperand, va)
    else if !ranged then .error (Cause.badSelector, selVa)
    else .ok (count, table)

/-- The selectors of MMAG and the B record of each block (01 R21, 10 R234 step 3). -/
def State.readTable (s : State) (cid dom : Nat) (a : List Word) : Check (List Nat × List (List Word)) := do
  let selVa := 0xE * 2 ^ 60 + recSel a
  let (count, table) ← s.tableWords cid dom (recIndir a) selVa
  let sel ← s.readSelectors cid dom count selVa ((recRows a + 15) / 16)
  let bs ← s.readRecords cid dom (roleB 1) (sel.map fun x => (table.getD x 0).toNat)
  .ok (sel, bs)

/-- The records of a job (10 R234 step 3). -/
def State.jobRecords (s : State) (cid dom : Nat) (e : Engines) (j : Submission) : Check (List Nat × List Word × List (List Word)) := do
  let a ← s.readRecord cid dom j.a.toNat (roleA j.kind) false
  let unbound := fun (w : List Word) => recRing w && (e.ringOf dom w).isNone
  if unbound a then .error (Cause.badOperand, j.a.toNat)
  else if j.kind = 1 then
    let p ← s.readTable cid dom a
    .ok (p.1, a, p.2)
  else
    let b ← s.readRecord cid dom j.b.toNat (roleB j.kind) false
    if unbound b || (recRing a && recRing b && field (recWord a 7) 0 24 = field (recWord b 7) 0 24) then
      .error (Cause.badOperand, j.b.toNat)
    else .ok ([], a, [b])

/-- Whether an operand pair and a region agree (10 R227, R233). -/
def shapesAgree (kind : Nat) (a b : List Word) (g : Word) : Bool :=
  recKind a == recKind b && recRows a == regRows g &&
  (if kind = 2 then recCols a == recCols b && recRows b == regCols g else recCols a == recRows b && recCols b == regCols g)

/-- The slots of a ring operand as far as the protection regions do not admit them (10 R234 step 5). -/
def State.ringDenied (s : State) (cid dom : Nat) (w : List Word) : Found :=
  if recRing w then
    let n := field (recWord w 7) 24 8 * 2 ^ (field (recWord w 7) 32 4)
    { s.foundIn cid dom (wordsFrom (0xE * 2 ^ 60 + field (recWord w 7) 0 24) (n / 8)) with poison := .none, held := false }
  else .none

/-- What acceptance copies for a submission (10 R231), or its first failure (10 R234). -/
def State.acceptChecks (s : State) (cid slot : Nat) (e : Engines) (j : Submission) :
    Check (Option Operand × List Operand × List Nat) := do
  let t := s.thread cid slot
  let dom := t.dom
  if t.rg then .error (Cause.regionState, 0)
  else match s.stepTwo cid j with
    | some x => .error x
    | none =>
      let denied := fun k => s.regionDenied cid dom j.q k
      if 2 < j.kind then
        if regionBad j.q 0x100000 then .error (Cause.badOperand, j.q.toNat)
        else match denied (if j.kind = 3 then .rmw else .read) with
          | some x => .error x
          | none => .ok (none, [], [])
      else
        let (sel, a, bs) ← s.jobRecords cid dom e j
        let qa := s.scanOperand cid dom a (roleA j.kind)
        let qb := bs.map fun b => s.scanOperand cid dom b (roleB j.kind)
        let found := (a :: bs).foldl (fun f w => f.join (s.ringDenied cid dom w)) ((qb.foldl (fun f q => f.join q.1) qa.1))
        match found.early with
        | some x => .error x
        | none =>
          if regionBad j.q 0x100000 || bs.any (fun b => !shapesAgree j.kind a b j.q) then .error (Cause.badOperand, j.q.toNat)
          else match (found.join { Found.none with protection := denied .rmw }).late with
            | some x => .error x
            | none => .ok (some qa.2, qb.map (·.2), sel)

/-- The pending submissions of a core: slot and submission (10 R230). -/
def Core.submissions (c : Core) : List (Nat × Submission) :=
  c.slots.filterMap fun p => match p.2.wait with
    | .core (.submitted j) => some (p.1, j)
    | _ => none

/-- The entries of a core's jobs that are not FREE (10 R228). -/
def Engines.jobsOf (e : Engines) (cid : Nat) : Nat := (e.jobs.filter fun p => p.2.cid == cid).length

/-- The core whose submission is accepted next (10 R230). -/
def State.nextSubmitter (s : State) (cl : Nat) : Option Nat :=
  let e := (s.cluster cl).eng
  ((List.range 24).map fun k => cl * 32 + (e.lastc + 1 + k) % 24).find? fun cid =>
    !(s.core cid).submissions.isEmpty && decide (e.jobsOf cid < 4)

/-- The lowest FREE entry (10 R230). -/
def Engines.freeJob (e : Engines) : Option Nat := (List.range 32).find? fun k => (Tab.find e.jobs k).isNone

/-- A job that has been accepted (10 R231). -/
def State.newJob (s : State) (cid slot : Nat) (j : Submission) (p : Option Operand × List Operand × List Nat) (seq order : Nat) :
    Job where
  st := 1
  seq := seq
  dom := (s.thread cid slot).dom
  cid := cid
  slot := slot
  uid := (s.thread cid slot).uid
  launch := (s.thread cid slot).launch
  order := order
  kind := j.kind
  a := p.1
  bs := p.2.1
  sel := p.2.2
  region := j.q
  acc := j.acc
  dst := j.b
  msg := j.msg
  taken := 0
  old := []
  ownedAll := j.kind == 4
  feedA := []
  feedB := []
  ringStartA := 0
  ringStartB := 0
  written := false
  cause := 0
  va := 0

/-- MATRIX_ACCEPT (10 R230, R234). -/
def execMatrixAccept (cl : Nat) (s : State) : Out :=
  .next (
    let e := (s.cluster cl).eng
    if (s.module (clusterModule cl)).still then s
    else match e.freeJob, s.nextSubmitter cl with
    | some k, some cid =>
      (match leastBy (fun q => (s.thread cid q.1).parked) (s.core cid).submissions with
       | none => s
       | some (slot, j) =>
         let turn := fun (s : State) => s.onEng cl fun e => { e with lastc := cidCore cid }
         match s.acceptChecks cid slot e j with
         | .error (0, _) => s
         | .error (c, va) => ((turn s).onThread cid slot Thread.unpark).trapAt cid slot c (BitVec.ofNat 64 va)
         | .ok p =>
           let seq := (Tab.get 0 e.jobSeq k + 1) % 2 ^ 16
           let s := (turn s).onEng cl fun e =>
             { e with jobs := Tab.set e.jobs k (s.newJob cid slot j p seq e.jobAge)
                      jobSeq := Tab.set e.jobSeq k seq, jobAge := e.jobAge + 1 }
           let len := if j.kind < 3 then 8 else 4
           (s.setGOf cid slot j.d (BitVec.ofNat 64 (jobId seq k))).onThread cid slot fun t =>
             { t.unpark with pc := t.pc + BitVec.ofNat 64 len, issue0 := none, gathered := [] })
    | _, _ => s)

/-! Running (10 R235 to R240). -/

/-- The job in an entry replaced. -/
def State.setJob (s : State) (cl e : Nat) (j : Job) : State := s.onEng cl fun x => { x with jobs := Tab.set x.jobs e j }
/-- The entry is FREE (10 R228). -/
def State.freeJobEntry (s : State) (cl e : Nat) : State := s.onEng cl fun x => { x with jobs := Tab.del x.jobs e }

/-- The words of a region not yet taken. -/
def Job.untaken (j : Job) : List Nat := (regionWords j.region).drop j.taken
/-- Whether a job needs the data of word `n` of its region (10 R236). -/
def Job.needs (j : Job) (n : Nat) : Bool := j.acc || regOutside j.region n

/-- Takes what can be taken of a RUNNING job's region (10 R236 step 1). -/
def State.takeForJob (s : State) (cl e : Nat) (j : Job) : State :=
  let p := s.takeRegion (accPlace cl) j.needs j.untaken j.taken
  let n := j.taken + p.1.length
  p.2.2.setJob cl e { j with
    taken := n
    old := j.old ++ p.1
    ownedAll := n == regWordCount j.region
    cause := if p.2.1.isSome then Cause.poison else j.cause
    va := match p.2.1 with
      | some x => accVa x
      | none => j.va }

/-- MATRIX_JOB_START (10 R235, R236): the oldest QUEUED job starts when none is RUNNING; a RUNNING one goes on taking its region. -/
def execMatrixJobStart (cl e : Nat) (s : State) : Out :=
  .next (
    let jobs := (s.cluster cl).eng.jobs
    match Tab.find jobs e with
    | none => s
    | some j =>
      if (s.module (clusterModule cl)).still then s
      else if j.st = 1 then
        (if jobs.any fun p => p.2.st == 2 || (p.2.st == 1 && decide (p.2.order < j.order)) then s
         else
           let j := { j with st := 2 }
           if j.ownedAll then s.setJob cl e j else (s.setJob cl e j).takeForJob cl e j)
      else if j.st = 2 && !j.ownedAll && j.cause = 0 then s.takeForJob cl e j
      else s)

/-- The bytes that an operand takes from its ring (10 R239). -/
def ringBytes (w : List Word) : Nat := recRows w * recStride w
/-- Whether a ring has brought an operand whole. -/
def ringFed (w : List Word) (feed : List Nat) : Bool := !recRing w || decide (ringBytes w ≤ feed.length)

/-- The record of a job's operand: A, or the B record of a job with one. -/
def Job.recOf (j : Job) (second : Bool) : Option (List Word) :=
  if second then (match j.bs with
    | [b] => some b.rec_
    | _ => none)
  else j.a.map (·.rec_)

/-- Whether an operand of a job still wants slots of a ring. -/
def Job.wants (j : Job) (second : Bool) (r : Ring) : Bool :=
  match j.recOf second with
  | none => false
  | some w => recRing w && r.dom == j.dom && r.desc == recWord w 7 && !ringFed w (if second then j.feedB else j.feedA)

/-- Takes the words of a slot in ascending order (10 R239 step 3). -/
def State.emptySlot (s : State) (cid : Nat) : List Nat → State
  | [] => s
  | va :: r => (s.takeWord (enginePlace cid va)).emptySlot cid r

/-- RING_SLOT_CONSUME (10 R239): the next slot of a ring that the RUNNING job wants, once every word of it is full. -/
def execRingSlotConsume (cl r : Nat) (s : State) : Out :=
  .next (
    let eng := (s.cluster cl).eng
    match Tab.find eng.rings r, eng.jobs.find? fun p => p.2.st == 2 with
    | some ring, some (e, j) =>
      if (s.module (clusterModule cl)).still || !j.ownedAll || j.cause ≠ 0 || !(j.wants false ring || j.wants true ring) then s
      else
        let size := 2 ^ (field ring.desc 32 4)
        let va := 0xE * 2 ^ 60 + field ring.desc 0 24 + ring.pos % field ring.desc 24 8 * size
        let vas := wordsFrom va (size / 8)
        if s.engineHeld j.cid va || vas.any fun a => !s.mem.full (wordOf (enginePlace j.cid a)) then s
        else match vas.find? fun a => s.enginePoison j.cid a with
          | some a => s.setJob cl e { j with cause := Cause.poison, va := a }
          | none =>
            let bytes := (List.range size).map fun k => (s.mem.byte (enginePlace j.cid (va + k))).toNat
            let j := if j.wants false ring then { j with feedA := j.feedA ++ bytes } else { j with feedB := j.feedB ++ bytes }
            ((s.emptySlot j.cid vas).setJob cl e j).onEng cl fun x =>
              { x with rings := Tab.set x.rings r { ring with pos := ring.pos + 1 } }
    | _, _ => s)

/-- The rows of an operand as a running job reads them: poison and changed escapes are faults (10 R238, R240). -/
def State.runRows (s : State) (cid : Nat) (op : Operand) (feed : List Nat) : Check (List Nat) :=
  let w := op.rec_
  if recRing w then .ok (fedRows w feed)
  else if s.engineHeld cid (recBase w) then .error (0, recBase w)
  else match (dataWords w).find? fun va => s.enginePoison cid va with
    | some va => .error (Cause.poison, va)
    | none =>
      let rows := s.dataRows cid w
      match (if recEscapes w then List.range (recTiles w) else []).find? fun t =>
          tileEscapes w rows t != (op.sprues.getD t []).map (·.1) with
      | some t => .error (Cause.sprueMismatch, tileVa w t)
      | none => .ok rows

/-- The rows of several operands. -/
def State.runAll (s : State) (cid : Nat) (feed : List Nat) : List Operand → Check (List (List Nat))
  | [] => .ok []
  | op :: r => match s.runRows cid op feed with
    | .error e => .error e
    | .ok x => match s.runAll cid feed r with
      | .error e => .error e
      | .ok l => .ok (x :: l)

/-- The value of element (i, j) of a product (10 R237). -/
def Job.element (j : Job) (a : Operand) (ra : List Nat) (rbs : List (List Nat)) (i k : Nat) : Nat :=
  let q := if j.kind = 1 then i / 16 else 0
  let n := recCols a.rec_
  matrixSum ((n + 31) / 32) (if j.acc then regOld j.region j.old i k else 0)
    (match j.bs[q]? with
     | none => []
     | some b => termsOf a b (j.kind == 2) ra (rbs.getD q []) i k 0 n)

/-- The final values of a region-writing job's elements (10 R236, R237, R243). -/
def State.jobValues (s : State) (j : Job) : Check (Nat → Nat → Nat) :=
  match j.a with
  | none => .ok fun _ _ => 0
  | some a => do
    let ra ← s.runRows j.cid a j.feedA
    let rbs ← s.runAll j.cid j.feedB j.bs
    .ok (j.element a ra rbs)

/-- Whether a job's rings have brought its operands (10 R239). -/
def Job.allFed (j : Job) : Bool :=
  (match j.recOf false with
   | some w => ringFed w j.feedA
   | none => true) &&
  (match j.recOf true with
   | some w => ringFed w j.feedB
   | none => true)

/-! MDRAIN (10 R244). -/

/-- An element of a region as MDRAIN writes it. -/
def drainElement (msg : Word) (v : Nat) : Nat := if bit msg.toNat 4 then (bf16.pack 0 (f32.unpack v)).1 else v

/-- The destination words of MDRAIN: address and value. -/
def State.drainWords (s : State) (cl : Nat) (j : Job) : List (Nat × Nat) :=
  let g := j.region
  let size := drainSize j.msg
  let rb := drainRowBytes g j.msg
  let per := 8 / size
  (List.range (regRows g)).flatMap fun i =>
    (List.range (rb / 8)).map fun k =>
      (j.dst.toNat + i * rb + 8 * k, (List.range per).foldr (fun x v =>
        let c := k * per + x
        (if c < regCols g then
          drainElement j.msg (s.mem.read (accPlace cl (regBase g + 4 * (i * regStride g + c))) 4) else 0) + 256 ^ size * v) 0)

/-- Writes the destination words in order, on the remote path under the job's domain; a refusal or a wait ends it. -/
def State.drainTo (s : State) (j : Job) : List (Nat × Nat) → Read × State
  | [] => (.ok 0, s)
  | (va, v) :: r => match s.act j.cid j.dom va 8 (.stf v) none with
    | (.ok _, s) => s.drainTo j r
    | (.fail c, s) => (.fail c, s)
    | q => q

/-- The first destination word that the target refuses. -/
def State.drainFault (s : State) (j : Job) : List (Nat × Nat) → Option Nat
  | [] => none
  | (va, v) :: r => match s.act j.cid j.dom va 8 (.stf v) none with
    | (.ok _, s) => s.drainFault j r
    | _ => some va

/-- Whether every word of a region is full. -/
def State.regionFull (s : State) (cl : Nat) (g : Word) : Bool :=
  (regionWords g).all fun x => s.mem.full (wordOf (accPlace cl x))
/-- The first poisoned word of a region. -/
def State.regionPoison (s : State) (cl : Nat) (g : Word) : Option Nat :=
  (regionWords g).find? fun x => s.mem.poisoned (wordOf (accPlace cl x))

/-! Reporting a job (10 R241, R245). -/

/-- What MWAIT and MPOLL report of a job id; an entry reported FAULTED is freed (10 R229, R241, R245). -/
def State.reportJob (s : State) (cl dom id : Nat) : (Nat × Nat) × State :=
  match Tab.find (s.cluster cl).eng.jobs (id % 32) with
  | none => ((0, 0), s)
  | some j =>
    if id / 2 ^ 21 ≠ 0 || jobId j.seq (id % 32) ≠ id || j.dom ≠ dom then ((0, 0), s)
    else if j.st = 3 then ((j.status (id % 32), j.va), s.freeJobEntry cl (id % 32))
    else ((j.status (id % 32), 0), s)

/-- Whether a job id names a QUEUED or RUNNING job of the domain. -/
def State.jobLive (s : State) (cl dom id : Nat) : Bool :=
  let x := field (s.reportJob cl dom id).1.1 56 8
  x == 1 || x == 2

/-- A thread in MWAIT gets its report (10 R245). -/
def State.mwaitDone (s : State) (cid slot d id : Nat) : State :=
  let r := s.reportJob (cidCluster cid) (s.thread cid slot).dom id
  let s := r.2.onThread cid slot Thread.unpark
  ((s.setGOf cid slot d (BitVec.ofNat 64 r.1.1)).setGOf cid slot (d + 1) (BitVec.ofNat 64 r.1.2)).retireAt cid slot

/-- The threads of a cluster that are in MWAIT: core, slot, register, job id. -/
def State.mwaiters (s : State) (cl : Nat) : List (Nat × Nat × Nat × Nat) :=
  (clusterCores cl).flatMap fun cid => (s.core cid).slots.filterMap fun p => match p.2.wait with
    | .engine (.job d id) => some (cid, p.1, d, id)
    | _ => none

/-- Every MWAIT of a cluster whose job is neither QUEUED nor RUNNING completes (10 R245). -/
def State.wakeMwaiters (s : State) (cl : Nat) : State :=
  (s.mwaiters cl).foldl (fun s w =>
    if s.jobLive cl (s.thread w.1 w.2.1).dom w.2.2.2 then s else s.mwaitDone w.1 w.2.1 w.2.2.1 w.2.2.2) s

/-- MWAIT (10 R245). -/
def execMwait (d s : Reg) (st : State) : Out :=
  .next (plain [d.val, d.val + 1, s.val] (fun st =>
    let cl := cidCluster st.cur.1
    let id := st.gn s
    if st.jobLive cl st.thr.dom id then st.parkEngine .parkedEngine (.job d id)
    else
      let r := st.reportJob cl st.thr.dom id
      ((r.2.setG d (BitVec.ofNat 64 r.1.1)).setG (d.val + 1) (BitVec.ofNat 64 r.1.2)).retire) st)

/-- MPOLL (10 R245). -/
def execMpoll (d s : Reg) (st : State) : Out :=
  .next (plain [d.val, d.val + 1, s.val] (fun st =>
    let r := st.reportJob (cidCluster st.cur.1) st.thr.dom (st.gn s)
    ((r.2.setG d (BitVec.ofNat 64 r.1.1)).setG (d.val + 1) (BitVec.ofNat 64 r.1.2)).retire) st)

/-! Commit and fault (10 R236, R240, R244). -/

/-- A job faults (10 R240): its region is filled, its entry FAULTED, its submitter trapped, its MWAITs answered. -/
def State.faultJob (s : State) (cl e : Nat) (j : Job) (cause va : Nat) : State :=
  let s := if j.kind = 4 then s else s.spoilRegion (accPlace cl) j.region j.old (regionWords j.region) 0
  let s := s.setJob cl e { j with st := 3, cause := cause, va := va }
  (s.raiseAsync j.uid ⟨cause, jobId j.seq e, none⟩).wakeMwaiters cl

/-- The fault that a RUNNING job meets now, if any, with the state that its writes leave (10 R238, R240, R244). -/
def State.jobFault (s : State) (cl : Nat) (j : Job) : Option (Nat × Nat × State) :=
  if j.cause ≠ 0 then some (j.cause, j.va, s)
  else if !j.ownedAll || !j.allFed then none
  else if j.kind = 4 then
    if j.written then
      let dst := s.resolveCid j.cid (field j.dst.toNat 32 26)
      if s.reaches (cidModule j.cid) (cidKey dst) then none else some (Cause.linkUnreachable, j.dst.toNat, s)
    else if !s.regionFull cl j.region then none
    else match s.regionPoison cl j.region with
      | some x => some (Cause.poison, accVa x, s)
      | none =>
        let ws := s.drainWords cl j
        match s.drainTo j ws with
        | (.fail c, t) => some (c, (s.drainFault j ws).getD 0, t)
        | _ => none
  else match s.jobValues j with
    | .error (0, _) => none
    | .error (c, va) => some (c, va, s)
    | .ok _ => none

/-- MATRIX_JOB_FAULT (10 R240). -/
def execMatrixJobFault (cl e : Nat) (s : State) : Out :=
  .next (match Tab.find (s.cluster cl).eng.jobs e with
    | none => s
    | some j =>
      if j.st ≠ 2 || (s.module (clusterModule cl)).still then s
      else match s.jobFault cl j with
        | none => s
        | some (c, va, t) => t.faultJob cl e j c va)

/-- MATRIX_JOB_COMMIT (10 R236, R237, R243, R244): the region gets its final values and the entry is FREE; an MDRAIN has made its writes. -/
def execMatrixJobCommit (cl e : Nat) (s : State) : Out :=
  .next (match Tab.find (s.cluster cl).eng.jobs e with
    | none => s
    | some j =>
      if j.st ≠ 2 || !j.ownedAll || !j.allFed || j.cause ≠ 0 || j.written || (s.module (clusterModule cl)).still then s
      else if j.kind = 4 then
        (if !s.regionFull cl j.region || (s.regionPoison cl j.region).isSome then s
         else match s.drainTo j (s.drainWords cl j) with
           | (.ok _, t) => t.setJob cl e { j with written := true }
           | _ => s)
      else match s.jobValues j with
        | .error _ => s
        | .ok value =>
          ((s.commitRegion (accPlace cl) (regWordValue j.region j.old value) (regionWords j.region) 0).freeJobEntry cl e).wakeMwaiters
            cl)

/-- MDRAIN_MESSAGE_SEND (10 R244): the message follows every write; a target that holds a message back-pressures it. -/
def execMdrainMessageSend (cl e : Nat) (s : State) : Out :=
  .next (match Tab.find (s.cluster cl).eng.jobs e with
    | none => s
    | some j =>
      let m := clusterModule cl
      let dst := s.resolveCid j.cid (field j.dst.toNat 32 26)
      let cls := field j.msg.toNat 0 4
      if j.st ≠ 2 || !j.written || (s.module m).still || !s.reaches m (cidKey dst) ||
          s.holdsMessage dst then s
      else
        let g : Message := ⟨dst, BitVec.ofNat 64 (cls * 2 ^ 32 + dst), j.dom, cls,
          [j.dst, j.region, j.msg, BitVec.ofNat 64 (jobId j.seq e)], 0, s.launchTag j.launch⟩
        ((s.sendRaw m (clusterKey cl) (cidKey dst) 4 (.message g)).freeJobEntry cl e).wakeMwaiters cl)

/-! MRING and MSTAT (10 R246, R247). -/

/-- Whether a ring word breaks the rules of a bind (01 R18, 10 R239). -/
def ringWordBad (w : Nat) : Bool :=
  let size := 2 ^ (field w 32 4)
  field w 32 4 < 9 || 18 < field w 32 4 || field w 24 8 < 2 || field w 0 24 % 8 != 0 ||
  !fitsUnit (0xE * 2 ^ 60 + field w 0 24) (field w 24 8 * size)

/-- Whether a QUEUED or RUNNING job of a domain names the ring with a slot base (10 R246). -/
def State.ringBusy (s : State) (cl dom base : Nat) : Bool :=
  (s.cluster cl).eng.jobs.any fun p =>
    (p.2.st == 1 || p.2.st == 2) && p.2.dom == dom &&
    ((p.2.a.toList ++ p.2.bs).any fun op => recRing op.rec_ && field (recWord op.rec_ 7) 0 24 == base)

/-- MRING (10 R246). -/
def execMring (d s : Reg) (st : State) : Out :=
  .next (plain [d, s] (fun st =>
    let cid := st.cur.1
    let cl := cidCluster cid
    let dom := st.thr.dom
    let w := st.gn s
    let base := field w 0 24
    let unbind := bit w 63
    let eng := (st.cluster cl).eng
    if field w 36 27 ≠ 0 || (!unbind && ringWordBad w) then st.trap Cause.badOperand (st.g s)
    else if !unbind && (wordsFrom (0xE * 2 ^ 60 + base) (field w 24 8 * 2 ^ (field w 32 4) / 8)).any
        (fun va => !st.engineAdmits cid dom va .rmw) then st.trap Cause.protection (st.g s)
    else match eng.rings.find? fun r => r.2.dom == dom && field r.2.desc 0 24 == base with
      | some (k, r) =>
        if st.ringBusy cl dom base then st.parkCore (.ring base)
        else
          let st := st.onEng cl fun e =>
            { e with rings := if unbind then Tab.del e.rings k else Tab.set e.rings k ⟨w % 2 ^ 36, dom, 0⟩ }
          (st.setG d (BitVec.ofNat 64 r.pos)).retire
      | none =>
        if unbind then (st.setG d 0).retire
        else match (List.range 8).find? fun k => (Tab.find eng.rings k).isNone with
          | none => st.trap Cause.ringTableFull (st.g s)
          | some k =>
            ((st.onEng cl fun e => { e with rings := Tab.set e.rings k ⟨w % 2 ^ 36, dom, 0⟩ }).setG d 0).retire) st)

/-- MSTAT (10 R247). -/
def execMstat (d : Reg) (st : State) : Out :=
  .next (plain [d] (fun st =>
    let e := (st.cluster (cidCluster st.cur.1)).eng
    let dom := st.thr.dom
    let v := e.jobsOf st.cur.1 + 2 ^ 8 * (e.jobs.filter fun p => p.2.dom == dom).length +
      2 ^ 16 * (e.rings.filter fun r => r.2.dom == dom).length
    (st.setG d (BitVec.ofNat 64 v)).retire) st)

end Sys2Proof.Machine
end

