-- ==== Sys2Proof/Machine/Flask.lean ====
section
/-!
DEFINITION. The flask (11 R252 to R280): XJOIN, XMMA, XLEAVE, XSTAT and XWAIT, and the steps of a cluster engine as a member.
-/
namespace Sys2Proof.Machine

/-! Members and packets (11 R252, R253). -/

/-- The flask state of a cluster engine. -/
def State.flask (s : State) (cl : Nat) : Flask := (s.cluster cl).eng.flask
/-- The state with the flask state of a cluster engine changed. -/
def State.onFlask (s : State) (cl : Nat) (f : Flask → Flask) : State := s.onEng cl fun e => { e with flask := f e.flask }
/-- The state with the pour of a member replaced. -/
def State.setPour (s : State) (cl : Nat) (p : Pour) : State := s.onFlask cl fun f => { f with pour := some p }

/-- The cluster of an ordinal of a descriptor (01 R25). -/
def memberOf (desc : List Word) (k : Nat) : Nat := field (desc.getD (2 + k / 2) 0).toNat (k % 2 * 32) 21
/-- The cluster of an ordinal. -/
def Flask.member (f : Flask) (k : Nat) : Nat := memberOf f.desc k
/-- The ordinals of a flask. -/
def Flask.ordinals (f : Flask) : List Nat := List.range f.m
/-- The other ordinals. -/
def Flask.others (f : Flask) : List Nat := f.ordinals.filter (· != f.k)
/-- The decider of a pour (11 R266). -/
def Flask.decider (f : Flask) (ring : Bool) : Nat := if ring then 0 else f.m - 1
/-- The ordinal of a cluster. -/
def Flask.ordinalOf (f : Flask) (cl : Nat) : Nat := (f.ordinals.find? fun k => f.member k == cl).getD 0

/-- The sequence number that a packet of a pour carries, and whether it gives a member's part (11 R266). -/
def FlaskKind.seqPart : FlaskKind → Nat × Bool
  | .ready s _ _ | .fault s _ _ | .go s | .mismatch s _ | .abort s _ _ | .panel s _ | .commit s => (s, false)
  | .partials s _ last _ => (s, last)
  | .finished s _ => (s, true)
  | _ => (0, false)

/-- The packet that answers one that no live path carries (04 R78, 11 R270): what the sender gets back, given the ordinal that it was for. -/
def FlaskMsg.lostTo (g : FlaskMsg) (k : Nat) : Option Body :=
  match g.kind with
  | .join _ _ | .withdraw _ => some (.flask { g with kind := .refuse Cause.linkUnreachable })
  | .leave r | .query r => some (.ans r.cid r.tag false (.fault Cause.linkUnreachable))
  | .joined | .refuse _ | .withdrawn | .lost _ _ _ _ => none
  | x => some (.flask { g with kind := .lost x.seqPart.1 k false x.seqPart.2 })

/-- Sends a flask packet from one cluster to another, which is ordinal `k` (11 R253); one that no path carries comes back. -/
def State.sendFlask (s : State) (src dst k dom id : Nat) (kind : FlaskKind) : State :=
  let m := clusterModule src
  let g : FlaskMsg := ⟨dom, id, src, kind⟩
  if s.reaches m (clusterKey dst) then s.sendRaw m (clusterKey src) (clusterKey dst) 5 (.flask g)
  else match g.lostTo k with
    | some (.ans c t p a) => { s with net := s.net ++ [⟨clusterKey dst, cidKey c, 1, none, false, .ans c t p a⟩] }
    | some b => { s with net := s.net ++ [⟨clusterKey dst, clusterKey src, 5, none, false, b⟩] }
    | none => s

/-- Sends a packet from a member to some ordinals of its flask. -/
def State.sendTo (s : State) (cl : Nat) (kind : FlaskKind) : List Nat → State
  | [] => s
  | k :: r =>
    let f := s.flask cl
    (s.sendFlask cl (f.member k) k f.dom f.id kind).sendTo cl kind r

/-- The flask layout of TFADDR (11 R268). -/
def flaskLayout (s k cause : Nat) : Nat := s % 2 ^ 32 * 2 ^ 32 + k % 64 * 2 ^ 9 + cause % 512

/-- The cluster of a destination key. -/
def keyCluster (d : Nat) : Nat := d / 64 * 32 + d % 64

/-- A flask packet that may be taken now: the cluster that it reached, the message, the state without it. In D3hot, and while the cluster is
switched out (11 R273), packets wait. -/
def State.receiveFlask (s : State) (n : Nat) : Option (Nat × FlaskMsg × State) :=
  match s.receive n with
  | some (⟨_, dst, _, _, _, .flask g⟩, t) =>
    let cl := keyCluster dst
    if (s.module (clusterModule cl)).still || (s.flask cl).out then none else some (cl, g, t)
  | _ => none

/-- Whether a packet's domain tag and flask id are those of a member (11 R253). -/
def Flask.knows (f : Flask) (g : FlaskMsg) : Bool := f.st != 0 && f.dom == g.dom && f.id == g.id

/-! Agreement CRC (11 R257). -/

/-- One step of the CRC. -/
def crcStep (c : Nat) : Nat := if bit c 63 then (c * 2 % 2 ^ 64) ^^^ 0x42F0E1EBA9EA3693 else c * 2
/-- One byte of the CRC. -/
def crcByte (c b : Nat) : Nat := (List.range 8).foldl (fun c _ => crcStep c) (c ^^^ (b * 2 ^ 56))
/-- crc64 over words stored little-endian. -/
def crc64 (ws : List Word) : Nat :=
  ws.foldl (fun c w => (List.range 8).foldl (fun c k => crcByte c (field w.toNat (8 * k) 8)) c) 0

/-! XJOIN (11 R254, R255). -/

/-- Reads words for the issuing thread; a failure reports `tf`, and one that a target reports is covered by a region (07 R172). -/
def State.readingAs (s : State) (tf : Word) : List Nat → List Word → (List Word → State → State) → State
  | [], acc, k => k acc s
  | va :: r, acc, k =>
    match s.checkAccess s.cur.1 s.thr.dom va 8 .read with
    | .error c => s.trap c tf
    | .ok _ => match s.readNow va 8 with
      | (.ok v, s) => s.readingAs tf r (acc ++ [BitVec.ofNat 64 v]) k
      | (.fail c, s) => s.failAs s.cur.1 s.cur.2 c tf.toNat (coveredPath s.cur.1 va)
      | (.blocked w, s) => s.parkCore w
      | (.ask, s) => s.gather va 8

/-- M of a flask descriptor. -/
def flaskM (w0 : Word) : Nat := field w0.toNat 32 7
/-- The words of the member entries. -/
def flaskEntryWords (m : Nat) : Nat := (m + 1) / 2

/-- The cause of the first rule that a flask descriptor breaks, for a cluster and its domain (01 R25, R26, R395). -/
def flaskBad (dom cl : Nat) (desc : List Word) : Option Nat :=
  let w0 := (desc.getD 0 0).toNat
  let w1 := (desc.getD 1 0).toNat
  let m := flaskM (desc.getD 0 0)
  let entries := (List.range m).map fun k => field (desc.getD (2 + k / 2) 0).toNat (k % 2 * 32) 32
  if field w1 0 16 ≠ dom then some Cause.domainMismatch
  else if field w0 39 25 ≠ 0 || m < 2 || 64 < m || field w1 16 48 ≠ 0 || entries.any (fun e => 2 ^ 21 ≤ e || 23 ≤ e % 32) ||
      (m % 2 = 1 && field (desc.getD (2 + m / 2) 0).toNat 32 32 ≠ 0) || entries.eraseDups.length ≠ m || !entries.contains cl then
    some Cause.badDescriptor
  else none

/-- Step 6 of 11 R254: the state is JOINING, JOIN goes to the cluster of entry 0, the thread parks. -/
def State.joinFlask (s : State) (d : Nat) (va : Word) (desc : List Word) : State :=
  let cl := cidCluster s.cur.1
  let m := flaskM (desc.getD 0 0)
  let k := ((List.range m).find? fun i => memberOf desc i == cl).getD 0
  let uid := s.thr.uid
  let dom := s.thr.dom
  let id := field (desc.getD 0 0).toNat 0 32
  let s := s.onFlask cl fun f =>
    { f with st := 1, dom := dom, id := id, m := m, k := k, desc := desc, joiner := some uid, joinVa := va.toNat, outcomes := [],
             next := 0, ready := [], decided := [], dissolved := false }
  (s.sendFlask cl (memberOf desc 0) 0 dom id (.join k (crc64 desc))).parkEngine .parkedMem (.join d 0)

/-- XJOIN (11 R254). -/
def execXjoin (d s : Reg) (st : State) : Out :=
  .next (plain [d, s] (fun st =>
    let cid := st.cur.1
    let va := st.gn s
    if (st.flask (cidCluster cid)).st ≠ 0 then st.trap Cause.flaskState (st.g s)
    else match st.checkAccess cid st.thr.dom va 8 .read with
      | .error c => st.trap c (st.g s)
      | .ok _ =>
        st.readingAs (st.g s) (wordsFrom va 2) [] fun h st =>
          let m := flaskM (h.getD 0 0)
          let n := if 2 ≤ m && m ≤ 64 then flaskEntryWords m else 0
          st.readingAs (st.g s) (wordsFrom (va + 16) n) h fun desc st =>
            match flaskBad st.thr.dom (cidCluster cid) desc with
            | some c => st.trap c (st.g s)
            | none => st.joinFlask d (st.g s) desc) st)

/-- FLASK_JOIN_REQUEST (11 R255): ordinal 0 gathers the joins of one flask id at a time, and answers every member when it holds them all. -/
def execFlaskJoinRequest (n : Nat) (s : State) : Out :=
  .next (match s.receiveFlask n with
    | some (cl, ⟨dom, id, src, .join k crc⟩, t) =>
      let f := t.flask cl
      let free := f.joins.isEmpty || (f.holdId == id && f.joinDom == dom)
      if !(f.st == 0 || (f.st == 1 && f.id == id && f.dom == dom)) || !free || f.joins.any (fun j => j.1 == k) then
        t.sendFlask cl src k dom id (.refuse Cause.flaskState)
      else
        let joins := f.joins ++ [(k, crc)]
        let from_ := f.joinFrom ++ [(k, src)]
        if f.st == 1 && f.k == 0 && (List.range f.m).all fun j => joins.any fun x => x.1 == j then
          let same := joins.all fun x => joins.all fun y => x.2 == y.2
          let t := t.onFlask cl fun f => { f with joins := [], joinFrom := [], holdId := 0, joinDom := 0 }
          from_.foldl (fun t x =>
            t.sendFlask cl x.2 x.1 dom id (if same then .joined else .refuse Cause.flaskMismatch)) t
        else t.onFlask cl fun f => { f with joins := joins, joinFrom := from_, holdId := id, joinDom := dom }
    | _ => s)

/-- FLASK_WITHDRAW (11 R255): a JOIN that ordinal 0 no longer holds has been answered. -/
def execFlaskWithdraw (n : Nat) (s : State) : Out :=
  .next (match s.receiveFlask n with
    | some (cl, ⟨dom, id, src, .withdraw k⟩, t) =>
      let f := t.flask cl
      if f.holdId == id && f.joinDom == dom && f.joinFrom.contains (k, src) then
        (t.onFlask cl fun f => { f with joins := f.joins.filter (·.1 != k), joinFrom := f.joinFrom.filter (·.1 != k) }).sendFlask
          cl src k dom id .withdrawn
      else t
    | _ => s)

/-- Where a thread is: its slot. -/
def State.slotOf (s : State) (uid : Nat) : Option (Nat × Nat) :=
  s.cores.findSome? fun p => (p.2.slots.find? fun q => q.2.uid == uid && q.2.st != .free).map fun q => (p.1, q.1)

/-- How a join ends for its thread: with its ordinal, with a cause, or with nothing done, so that XJOIN issues again. -/
inductive JoinEnd where
  | joined (k : Nat)
  | failed (cause : Nat)
  | again
  deriving DecidableEq, Repr

/-- The wait of an evicted thread whose join is settled: its answer is kept with the saved context (11 R254, 06 R129). -/
def joinedWait (d va : Nat) (e : JoinEnd) : Wait :=
  let u := fun (a : Ans) => Wait.mem (.word d) [⟨0, insideReq 0 0 va (.query 0), .done a, 64⟩] false
  match e with
  | .joined k => u (.data k)
  | .failed c => u (.fault c)
  | .again => .none

/-- A context with its join settled. -/
def Context.settleJoin (k : Context) (uid va : Nat) (e : JoinEnd) : Context :=
  if k.th.uid ≠ uid then k
  else match k.th.wait with
    | .engine (.join d _) => { k with th := (match e with
        | .again => k.th.unpark
        | _ => { k.th with wait := joinedWait d va e }) }
    | _ => k

/-- The thread that joins goes on (11 R254 step 7). -/
def State.settleJoin (s : State) (uid va : Nat) (e : JoinEnd) : State :=
  match s.slotOf uid with
  | some (cid, slot) =>
    (match (s.thread cid slot).wait with
     | .engine (.join d _) =>
       let s := s.onThread cid slot Thread.unpark
       (match e with
        | .joined k => (s.setGOf cid slot d (BitVec.ofNat 64 k)).retireAt cid slot
        | .failed c => s.trapAt cid slot c (BitVec.ofNat 64 va)
        | .again => s.onThread cid slot fun t => { t with issue0 := none })
     | _ => s)
  | none =>
    { s with
      ctxs := s.ctxs.map fun k => k.settleJoin uid va e
      modules := s.modules.map fun (p : Nat × Module) =>
        (p.1, { p.2 with saved := p.2.saved.map fun (x : SavedCore) =>
          { x with ctxs := x.ctxs.map fun k => k.settleJoin uid va e } }) }

/-- Whether a join was withdrawn for an asynchronous trap, by a thread in a slot or evicted since (14 R394). -/
def State.joinAsync (s : State) (uid : Nat) : Bool :=
  match s.slotOf uid with
  | some (cid, slot) => (match (s.thread cid slot).wait with
    | .engine (.join _ 2) => true
    | _ => false)
  | none => (s.ctxs ++ s.modules.flatMap fun (p : Nat × Module) => p.2.saved.flatMap fun (x : SavedCore) => x.ctxs).any fun k =>
    k.th.uid == uid && (match k.th.wait with
      | .engine (.join _ 2) => true
      | _ => false)

/-- The flask state NONE, with the joins that the engine holds as ordinal 0 kept. -/
def Flask.none (f : Flask) : Flask :=
  { Flask.fresh with holdId := f.holdId, joins := f.joins, joinDom := f.joinDom, joinFrom := f.joinFrom, out := f.out }

/-- FLASK_JOIN_REPLY (11 R254 step 7). -/
def execFlaskJoinReply (n : Nat) (s : State) : Out :=
  .next (match s.receiveFlask n with
    | some (cl, g, t) =>
      let f := t.flask cl
      let uid := f.joiner.getD 0
      let fail := fun (e : JoinEnd) => (t.onFlask cl Flask.none).settleJoin uid f.joinVa e
      (match g.kind with
       | .joined =>
         if f.st = 1 && f.knows g then
           (t.onFlask cl fun f => { f with st := 2, next := 1, outcomes := [], joiner := .none }).settleJoin uid f.joinVa (.joined f.k)
         else t
       | .refuse c => if f.st = 1 && f.knows g then fail (.failed c) else t
       | .withdrawn =>
         if f.st = 1 && f.knows g then fail (if t.joinAsync uid then .again else .failed Cause.waitTimeout) else t
       | _ => s)
    | _ => s)

/-! Outcomes (11 R268, R276 to R279). -/

/-- gD and gD+1 of XSTAT and XWAIT (11 R276); `detail` is FORD and FCAUSE, which a member that has returned to NONE with the outcome
reports too. -/
def flaskReport (f : Flask) (s outcome detail : Nat) : Word × Word :=
  if f.st = 0 then
    (BitVec.ofNat 64 (outcome * 2 ^ 48 + s), BitVec.ofNat 64 (if outcome = 3 || outcome = 4 then detail % 2 ^ 15 else 0))
  else
    (BitVec.ofNat 64 (f.st * 2 ^ 56 + outcome * 2 ^ 48 + f.m % 128 * 2 ^ 40 + f.k % 64 * 2 ^ 32 + (if s = 0 then f.next else s) % 2 ^ 32),
     BitVec.ofNat 64 (f.id * 2 ^ 32 + (if outcome = 3 || outcome = 4 then detail % 2 ^ 15 else 0)))

/-- The outcome of a sequence number in the memory: OUTCOME and detail (11 R279). -/
def Flask.remembered (f : Flask) (s : Nat) : Option (Nat × Nat) :=
  (f.outcomes.find? fun o => o.1 == s).map fun o => (o.2.1, o.2.2.1 * 2 ^ 9 + o.2.2.2)

/-- The threads of a cluster in XWAIT: core, slot, register, sequence number. -/
def State.xwaiters (s : State) (cl : Nat) : List (Nat × Nat × Nat × Nat) :=
  (clusterCores cl).flatMap fun cid => (s.core cid).slots.filterMap fun p => match p.2.wait with
    | .engine (.outcome d q) => some (cid, p.1, d, q)
    | _ => .none

/-- Completes one XWAIT (11 R278). -/
def State.xwaitDone (s : State) (cid slot d : Nat) (r : Word × Word) : State :=
  (((s.onThread cid slot Thread.unpark).setGOf cid slot d r.1).setGOf cid slot (d + 1) r.2).retireAt cid slot

/-- Completes every XWAIT of a sequence number at a member (11 R278). -/
def State.wakeXwaits (s : State) (cl q outcome detail : Nat) : State :=
  (s.xwaiters cl).foldl (fun s w =>
    if w.2.2.2 = q then s.xwaitDone w.1 w.2.1 w.2.2.1 (flaskReport (s.flask cl) q outcome detail) else s) s

/-- Every XMMA that still waits traps FLASK_STATE (11 R259). -/
def State.failQueue (s : State) (cl : Nat) : State :=
  let q := (s.flask cl).queue
  q.foldl (fun s x => (s.onThread x.1 x.2 Thread.unpark).trapAt x.1 x.2 Cause.flaskState 0)
    (s.onFlask cl fun f => { f with queue := [] })

/-- A member returns to NONE (11 R275, R278): what still waits on the flask ends. -/
def State.leaveFlask (s : State) (cl : Nat) : State :=
  let s := (s.failQueue cl).onFlask cl Flask.none
  (s.xwaiters cl).foldl (fun s w => s.xwaitDone w.1 w.2.1 w.2.2.1 (flaskReport (s.flask cl) w.2.2.2 0 0)) s

/-- How the issuing thread of an XMMA ends: it resumes with its sequence number, or it traps. -/
inductive PourEnd where
  | commits
  | traps (cause tfaddr : Nat)
  deriving DecidableEq, Repr

/-- The issuing thread of a pour goes on (11 R267, R268). -/
def State.endThread (s : State) (p : Pour) (e : PourEnd) : State :=
  let s := s.onThread p.cid p.slot Thread.unpark
  match e with
  | .commits => (s.setGOf p.cid p.slot p.ask.d (BitVec.ofNat 64 p.seq)).onThread p.cid p.slot fun t =>
      { t with pc := t.pc + 8, issue0 := .none, gathered := [] }
  | .traps c va => s.trapAt p.cid p.slot c (BitVec.ofNat 64 va)

/-- Records the outcome of `q` at a member, which returns to JOINED, or to NONE when the flask was dissolved while it was UNKNOWN (11 R267, R268, R272, R279); `e` says how its thread ends. -/
def State.settlePour (s : State) (cl q outcome ford fcause : Nat) (e : PourEnd) : State :=
  let f := s.flask cl
  let t := s.onFlask cl fun f =>
    { f with st := 2, next := q + 1, pour := .none
             outcomes := ((f.outcomes.filter fun o => o.1 != q).reverse.take 15).reverse ++ [(q, outcome, ford, fcause)]
             ready := f.ready.filter fun r => decide (q < r.1) }
  let t := match f.pour with
    | some p => if p.seq = q && f.st ≠ 5 then t.endThread p e else t
    | .none => t
  let t := t.wakeXwaits cl q outcome (ford * 2 ^ 9 + fcause)
  if f.dissolved then t.leaveFlask cl else t

/-- The flask buffer's word at a byte offset. -/
def bufferPlace (cl x : Nat) : Nat := storeAddr cl 28 x

/-- Writes a committer's region back with the old values (11 R268 step 2). -/
def State.restoreRegion (s : State) (cl : Nat) (p : Pour) : State :=
  if p.committer then s.commitRegion (bufferPlace cl) (fun n => p.old.getD n 0) (regionWords p.ask.q) 0 else s

/-- Writes a committer's region with the staged values (11 R267). -/
def State.writeStaged (s : State) (cl : Nat) (p : Pour) : State :=
  if p.committer then
    s.commitRegion (bufferPlace cl) (regWordValue p.ask.q p.old fun i j => Tab.get 0 p.staged (i * regCols p.ask.q + j))
      (regionWords p.ask.q) 0
  else s

/-- A member learns ABORT or MISMATCH of its next sequence number (11 R258, R268): `mis` is MISMATCH. -/
def State.abortPour (s : State) (cl ford cause : Nat) (mis : Bool) : State :=
  let f := s.flask cl
  let q := f.next
  let s := if f.k = 0 then s.onFlask cl fun f => { f with decided := f.decided ++ [q] } else s
  let outcome := if mis then 4 else 3
  let c := if mis then Cause.flaskMismatch else cause
  match f.pour with
  | .none => s.settlePour cl q outcome ford c .commits
  | some p =>
    let e : PourEnd := if mis then .traps Cause.flaskMismatch (flaskLayout q ford Cause.flaskMismatch)
      else match p.own with
        | some (oc, va) => if ford = f.k then .traps oc va else .traps Cause.flaskAbort (flaskLayout q ford cause)
        | .none => .traps Cause.flaskAbort (flaskLayout q ford cause)
    (s.restoreRegion cl p).settlePour cl q outcome ford c e

/-- A member faults after GO, or may always do so while its part is not given (11 R268): ABORT goes to every member. -/
def State.faultPour (s : State) (cl : Nat) (p : Pour) (cause va : Nat) : State :=
  let f := s.flask cl
  let s := s.setPour cl { p with own := some (cause, va) }
  (s.sendTo cl (.abort p.seq f.k cause) f.others).abortPour cl f.k cause false

/-- A member faults with a cause that its TFADDR names in the flask layout (11 R268). -/
def State.faultSelf (s : State) (cl : Nat) (p : Pour) (cause : Nat) : State :=
  s.faultPour cl p cause (flaskLayout p.seq (s.flask cl).k cause)

/-- A member becomes UNKNOWN (11 R271, R275): its thread traps, the XMMAs that wait trap, XWAIT of its sequence number ends. -/
def State.becomeUnknown (s : State) (cl : Nat) (p : Pour) : State :=
  let s := s.onFlask cl fun f => { f with st := 5 }
  let s := (s.endThread p (.traps Cause.flaskUnknown p.seq)).failQueue cl
  s.wakeXwaits cl p.seq 5 0

/-! XMMA (11 R259 to R261). -/

/-- The checks of 07 R153 on the VA of a record but protection, which the read makes (11 R259 step 3). -/
def plainVaBad (va : Nat) : Option Nat :=
  if addressBad va then some Cause.badAddress
  else if va % 8 ≠ 0 then some Cause.misaligned
  else if offsetBad va then some Cause.badOffset
  else .none

/-- XMMA (11 R259): the local checks; then the thread parks and waits for its turn. -/
def xmmaOp (ring : Bool) (d s t q : Reg) (acc : Bool) (st : State) : Out :=
  .next (plain [d, s, t, q] (fun st =>
    let cl := cidCluster st.cur.1
    let f := st.flask cl
    if st.thr.rg then st.trap Cause.regionState 0
    else if f.dom ≠ st.thr.dom || f.st = 0 || f.st = 1 || f.st = 5 then st.trap Cause.flaskState 0
    else match plainVaBad (st.gn s), plainVaBad (st.gn t) with
      | some c, _ => st.trap c (st.g s)
      | .none, some c => st.trap c (st.g t)
      | .none, .none =>
        let ask : PourAsk := ⟨ring, acc, d, st.g s, st.g t, st.g q⟩
        (st.onFlask cl fun f => { f with queue := f.queue ++ [st.cur] }).parkEngine .parkedEngine (.pour ask)) st)

/-- XMMA.chain (11 R259). -/
def execXmmaChain (d s t q : Reg) (acc : Bool) (st : State) : Out := xmmaOp false d s t q acc st
/-- XMMA.ring (11 R259). -/
def execXmmaRing (d s t q : Reg) (acc : Bool) (st : State) : Out := xmmaOp true d s t q acc st

/-- The roles of a pour's records (11 R260 step 1): neither selectors nor a ring, and nothing in unit 28. -/
def pourRole (colBlocks : Bool) : Role := ⟨false, colBlocks, false, false⟩

/-- A record of a pour (11 R260 step 1); TFADDR is the address concerned. -/
def State.pourRecord (s : State) (cid dom va : Nat) (colBlocks : Bool) : Check (List Word) :=
  match s.readRecord cid dom va (pourRole colBlocks) true with
  | .error (c, x) => .error (c, if c = Cause.illegalFormat then va else x)
  | .ok w => .ok w

/-- Whether a pour's pairing and shapes hold (10 R227, 11 R261). -/
def pourShapes (ring : Bool) (m : Nat) (committer : Bool) (a b : List Word) (g : Word) : Bool :=
  let rows := if ring then m * recRows a else recRows a
  recKind a == recKind b && recCols a == recRows b && decide (rows ≤ 256) && decide (recCols b ≤ 256) &&
  (!committer || (regRows g == rows && regCols g == recCols b))

/-- The VA of a flask-buffer offset. -/
def bufferVa (x : Nat) : Nat := 0xE * 2 ^ 60 + 28 * 2 ^ 19 + x

/-- The operands of a pour, or the first failure of 11 R260; the second part says whether the member is a committer. -/
def State.pourChecks (s : State) (cl cid slot : Nat) (ask : PourAsk) : Check (Operand × Operand × Bool) := do
  let f := s.flask cl
  let dom := (s.thread cid slot).dom
  let committer := ask.ring || f.k == f.m - 1
  let a ← s.pourRecord cid dom ask.a.toNat false
  let b ← s.pourRecord cid dom ask.b.toNat true
  let qa := s.scanOperand cid dom a (pourRole false)
  let qb := s.scanOperand cid dom b (pourRole true)
  let recs := s.foundIn cid dom (wordsFrom ask.a.toNat 8 ++ wordsFrom ask.b.toNat 8)
  let found := (qa.1.join qb.1).join { recs with protection := .none }
  match found.early with
  | some x => .error x
  | .none =>
    if (if committer then regionBad ask.q 0x40000 else ask.q != 0) || !pourShapes ask.ring f.m committer a b ask.q then
      .error (Cause.badOperand, ask.q.toNat)
    else
      let words := if committer then regionWords ask.q else []
      let denied := (words.find? fun x => !s.engineAdmits cid dom (bufferVa x) .rmw).map fun x => (Cause.protection, bufferVa x)
      let busy := (words.find? fun x => !s.mem.full (wordOf (bufferPlace cl x))).map fun x => (Cause.accumBusy, bufferVa x)
      let spoiled := (words.find? fun x => s.mem.poisoned (wordOf (bufferPlace cl x))).map fun x => (Cause.poison, bufferVa x)
      match (found.join { Found.none with protection := denied }).late <|> busy <|> spoiled with
      | some x => .error x
      | .none => .ok (qa.2, qb.2, committer)

/-- The agreement record (11 R256). -/
def agreement (f : Flask) (ask : PourAsk) (a b : List Word) (dom : Nat) : List Word :=
  let w := fun (n : Nat) => BitVec.ofNat 64 n
  [w (ask.acc.toNat * 2 ^ 41 + ask.ring.toNat * 2 ^ 40 + f.m * 2 ^ 32 + f.id), w f.next,
   w (recKind a * 2 ^ 32 + recFormat a), w (recKind b * 2 ^ 32 + recFormat b),
   w ((if ask.ring then recCols a else 0) * 2 ^ 32 + recCols b * 2 ^ 16 + (if ask.ring then f.m * recRows a else recRows a)),
   w dom, 0, 0]

/-- The pour of the XMMA that is accepted now, before its checks. -/
def newPour (f : Flask) (ask : PourAsk) (cid slot : Nat) (l : Option (Nat × Nat)) : Pour where
  seq := f.next
  ask := ask
  cid := cid
  slot := slot
  a := ⟨[], [], []⟩
  b := ⟨[], [], []⟩
  committer := false
  old := []
  crc := 0
  go := false
  tiles := 0
  partials := []
  panels := []
  computed := []
  staged := []
  given := false
  finished := []
  watches := []
  own := .none
  launch := l

/-- FLASK_POUR_ACCEPT (11 R259, R260): the oldest XMMA that waits claims the next sequence number; FAULT or READY goes to ordinal 0. -/
def execFlaskPourAccept (cl : Nat) (s : State) : Out :=
  .next (
    let f := s.flask cl
    if f.st ≠ 2 || f.out || (s.module (clusterModule cl)).still then s
    else match f.queue with
      | [] => s
      | (cid, slot) :: rest => match (s.thread cid slot).wait with
        | .engine (.pour ask) =>
          let p := newPour f ask cid slot (s.thread cid slot).launch
          let start := fun (s : State) (p : Pour) => s.onFlask cl fun f => { f with st := 3, queue := rest, pour := some p }
          (match s.pourChecks cl cid slot ask with
           | .error (0, _) => s
           | .error (c, va) => (start s { p with own := some (c, va) }).sendTo cl (.fault f.next f.k c) [0]
           | .ok (a, b, committer) =>
             let words := if committer then regionWords ask.q else []
             let q := s.takeRegion (bufferPlace cl) (fun _ => false) words 0
             let crc := crc64 (agreement f ask a.rec_ b.rec_ f.dom)
             (start q.2.2 { p with a := a, b := b, committer := committer, old := q.1, crc := crc }).sendTo cl (.ready f.next f.k crc)
               [0])
        | _ => s.onFlask cl fun f => { f with queue := rest })

/-! Before GO (11 R258). -/

/-- Whether a packet for sequence number `q` is one that ordinal 0 still has to decide on. -/
def Flask.deciding (f : Flask) (q : Nat) : Bool :=
  decide (2 ≤ f.st) && f.k == 0 && decide (f.next ≤ q) && !f.decided.contains q

/-- FLASK_READY_RECEIPT (11 R258). -/
def execFlaskReadyReceipt (n : Nat) (s : State) : Out :=
  .next (match s.receiveFlask n with
    | some (cl, ⟨dom, id, src, .ready q j crc⟩, t) =>
      let f := t.flask cl
      if !f.knows ⟨dom, id, src, .ready q j crc⟩ || !f.deciding q then t
      else
        let ready := f.ready ++ [(q, j, crc)]
        let crcOf := fun k => (ready.find? fun r => r.1 == q && r.2.1 == k).map fun r => r.2.2
        if f.ordinals.all fun k => (crcOf k).isSome then
          let t := t.onFlask cl fun f => { f with ready := ready.filter (·.1 != q), decided := f.decided ++ [q] }
          (match f.ordinals.find? fun k => crcOf k != crcOf 0 with
           | some k => t.sendTo cl (.mismatch q k) f.ordinals
           | .none => t.sendTo cl (.go q) f.ordinals)
        else t.onFlask cl fun f => { f with ready := ready }
    | _ => s)

/-- FLASK_FAULT_RECEIPT (11 R258). -/
def execFlaskFaultReceipt (n : Nat) (s : State) : Out :=
  .next (match s.receiveFlask n with
    | some (cl, ⟨dom, id, src, .fault q j c⟩, t) =>
      let f := t.flask cl
      if !f.knows ⟨dom, id, src, .fault q j c⟩ || !f.deciding q then t
      else (t.onFlask cl fun f => { f with decided := f.decided ++ [q] }).sendTo cl (.abort q j c) f.ordinals
    | _ => s)

/-! The pour (11 R262, R263, R265). -/

/-- The tiles of a chain's result (11 R262). -/
def Pour.tileCount (p : Pour) : Nat := (recRows p.a.rec_ + 127) / 128 * ((recCols p.b.rec_ + 127) / 128)

/-- The elements of a tile, row-major. -/
def Pour.tileElements (p : Pour) (t : Nat) : List (Nat × Nat) :=
  let n := recCols p.b.rec_
  let tc := (n + 127) / 128
  let r0 := t / tc * 128
  let c0 := t % tc * 128
  (List.range (min 128 (recRows p.a.rec_ - r0))).flatMap fun r =>
    (List.range (min 128 (n - c0))).map fun c => (r0 + r, c0 + c)

/-- The sum of one element of a pour. -/
def pourSum (a b : Operand) (ra rb : List Nat) (i j x : Nat) : Nat :=
  let k := recCols a.rec_
  matrixSum ((k + 31) / 32) x (termsOf a b false ra rb i j 0 k)

/-- rne32(C_old + y) under ACC (11 R262, R263). -/
def Pour.withOld (p : Pour) (i j y : Nat) : Nat :=
  if p.ask.acc then rne32 (FV.add 0 (f32.unpack (regOld p.ask.q p.old i j)) (f32.unpack y)).1 else y

/-- One tile of a chain at a member, from the partials that it starts with: the sums, sent on or staged (11 R262). -/
def State.chainTile (s : State) (cl : Nat) (p : Pour) (ra rb : List Nat) (xs : List Nat) : Pour × State :=
  let f := s.flask cl
  let es := p.tileElements p.tiles
  let ys := (es.zip (List.range es.length)).map fun e => pourSum p.a p.b ra rb e.1.1 e.1.2 (xs.getD e.2 0)
  let last := p.tiles + 1 == p.tileCount
  if p.committer then
    let n := regCols p.ask.q
    let st := (es.zip ys).map fun e => (e.1.1 * n + e.1.2, p.withOld e.1.1 e.1.2 e.2)
    ({ p with tiles := p.tiles + 1, staged := p.staged ++ st }, s)
  else
    ({ p with tiles := p.tiles + 1, given := last }, s.sendTo cl (.partials p.seq p.tiles last ys) [f.k + 1])

/-- The tiles of a chain that a member can sum now, in ascending order (11 R262); the first argument bounds them. -/
def State.chainTiles (s : State) (cl : Nat) (ra rb : List Nat) : Nat → Pour → Pour × State
  | 0, p => (p, s)
  | n + 1, p =>
    if p.tileCount ≤ p.tiles then (p, s)
    else match (if (s.flask cl).k = 0 then some (p.tiles, []) else p.partials.find? fun x => x.1 == p.tiles) with
      | .none => (p, s)
      | some x =>
        let q := s.chainTile cl p ra rb x.2
        q.2.chainTiles cl ra rb n { q.1 with partials := q.1.partials.filter fun y => y.1 != x.1 }

/-- The elements that a panel brings to a ring member's region (11 R263). -/
def Pour.panelElements (p : Pour) (x : Panel) (rb : List Nat) : List (Nat × Nat) :=
  let r := recRows p.a.rec_
  let n := regCols p.ask.q
  (List.range r).flatMap fun i => (List.range n).map fun j =>
    let row := x.origin * r + i
    (row * n + j, p.withOld row j (pourSum x.op p.b x.bytes rb i j 0))

/-- One panel at a ring member: it is forwarded until it has made M - 1 hops, and its rows are staged (11 R263). -/
def State.ringPanel (s : State) (cl : Nat) (p : Pour) (rb : List Nat) (x : Panel) : Pour × State :=
  let f := s.flask cl
  let s := if x.hops + 1 < f.m then
      s.sendTo cl (.panel p.seq { x with hops := x.hops + 1 }) [(f.k + f.m - 1) % f.m]
    else s
  ({ p with computed := p.computed ++ [x.origin], staged := p.staged ++ p.panelElements x rb }, s)

/-- The panels of a ring that a member holds. -/
def State.ringPanels (s : State) (cl : Nat) (rb : List Nat) : List Panel → Pour → Pour × State
  | [], p => (p, s)
  | x :: r, p => let q := s.ringPanel cl p rb x; q.2.ringPanels cl rb r q.1

/-- FINISHED once the whole region is staged, and so every panel forwarded (11 R266). -/
def State.ringFinished (s : State) (cl : Nat) (p : Pour) : Pour × State :=
  let f := s.flask cl
  if p.computed.length = f.m && !p.given then
    ({ p with given := true }, s.sendTo cl (.finished p.seq f.k) [0])
  else (p, s)

/-- A member in POURING does what its data, partials and panels allow (11 R262, R263); a fault met while reading aborts the pour (11 R265). -/
def State.pourOn (s : State) (cl : Nat) (p : Pour) : State :=
  match s.runRows p.cid p.a [], s.runRows p.cid p.b [] with
  | .error (c, va), _ => if c = 0 then s.setPour cl p else (s.setPour cl p).faultPour cl p c va
  | .ok _, .error (c, va) => if c = 0 then s.setPour cl p else (s.setPour cl p).faultPour cl p c va
  | .ok ra, .ok rb =>
    let s := s.setPour cl p
    if p.ask.ring then
      let k := (s.flask cl).k
      let mine := if p.computed.contains k then [] else [(⟨k, 0, ra, p.a⟩ : Panel)]
      let q := s.ringPanels cl rb (mine ++ p.panels) p
      let q := q.2.ringFinished cl { q.1 with panels := [] }
      q.2.setPour cl q.1
    else
      let q := s.chainTiles cl ra rb (p.tileCount + 1) p
      q.2.setPour cl q.1

/-- Whether any operand of a pour is held back by a shutter (14 R347): then the pour waits. -/
def State.pourHeld (s : State) (p : Pour) : Bool := s.engineHeld p.cid (recBase p.a.rec_) || s.engineHeld p.cid (recBase p.b.rec_)

/-- Sets a member's watches (11 R270): one at the decider, or, for the decider, one at each other member. A watch that no path carries is answered. -/
def State.watch (s : State) (cl : Nat) (p : Pour) : State :=
  let f := s.flask cl
  let d := f.decider p.ask.ring
  let ks := if f.k = d then f.others else [d]
  let gone := ks.filter fun k => !s.reaches (clusterModule cl) (clusterKey (f.member k))
  let s := s.setPour cl { p with watches := ks.filter fun k => !gone.contains k }
  { s with net := s.net ++ gone.map fun k =>
    ⟨clusterKey (f.member k), clusterKey cl, 5, .none, false, .flask ⟨f.dom, f.id, cl, .lost p.seq k true false⟩⟩ }

/-- FLASK_GO_RECEIPT (11 R262, R263, R270). -/
def execFlaskGoReceipt (n : Nat) (s : State) : Out :=
  .next (match s.receiveFlask n with
    | some (cl, ⟨dom, id, src, .go q⟩, t) =>
      let f := t.flask cl
      (match f.pour with
       | .none => t
       | some p =>
         if !f.knows ⟨dom, id, src, .go q⟩ || f.st ≠ 3 || p.seq ≠ q then t
         else if t.pourHeld p then s
         else
           let p := { p with go := true, own := .none }
           let t := (t.onFlask cl fun f => { f with st := 4 }).watch cl p
           t.pourOn cl ((t.flask cl).pour.getD p))
    | _ => s)

/-- FLASK_PARTIAL_RECEIPT (11 R262): kept until the member has its GO. -/
def execFlaskPartialReceipt (n : Nat) (s : State) : Out :=
  .next (match s.receiveFlask n with
    | some (cl, ⟨dom, id, src, .partials q tile last v⟩, t) =>
      let f := t.flask cl
      (match f.pour with
       | .none => t
       | some p =>
         if !f.knows ⟨dom, id, src, .partials q tile last v⟩ || p.seq ≠ q || (f.st ≠ 3 && f.st ≠ 4) then t
         else if t.pourHeld p then s
         else
           let p := { p with partials := p.partials ++ [(tile, v)] }
           if f.st = 4 then t.pourOn cl p else t.setPour cl p)
    | _ => s)

/-- FLASK_PANEL_RECEIPT (11 R263): kept until the member has its GO. -/
def execFlaskPanelReceipt (n : Nat) (s : State) : Out :=
  .next (match s.receiveFlask n with
    | some (cl, ⟨dom, id, src, .panel q x⟩, t) =>
      let f := t.flask cl
      (match f.pour with
       | .none => t
       | some p =>
         if !f.knows ⟨dom, id, src, .panel q x⟩ || p.seq ≠ q || (f.st ≠ 3 && f.st ≠ 4) then t
         else if t.pourHeld p then s
         else
           let p := { p with panels := p.panels ++ [x] }
           if f.st = 4 then t.pourOn cl p else t.setPour cl p)
    | _ => s)

/-! Decision, commit and abort (11 R266 to R268). -/

/-- FLASK_FINISHED_RECEIPT (11 R266): at the decider of a ring. -/
def execFlaskFinishedReceipt (n : Nat) (s : State) : Out :=
  .next (match s.receiveFlask n with
    | some (cl, ⟨dom, id, src, .finished q j⟩, t) =>
      let f := t.flask cl
      (match f.pour with
       | .none => t
       | some p =>
         if !f.knows ⟨dom, id, src, .finished q j⟩ || p.seq ≠ q || (f.st ≠ 3 && f.st ≠ 4) then t
         else t.setPour cl { p with finished := setInsert p.finished j })
    | _ => s)

/-- FLASK_DECIDE (11 R266, R267): the decider commits, writes its region and sends COMMIT to every member. -/
def execFlaskDecide (cl : Nat) (s : State) : Out :=
  .next (
    let f := s.flask cl
    match f.pour with
    | .none => s
    | some p =>
      let ready := if p.ask.ring then p.finished.length = f.m else p.tiles = p.tileCount
      if f.st ≠ 4 || f.out || (s.module (clusterModule cl)).still || f.k ≠ f.decider p.ask.ring || !ready then s
      else ((s.writeStaged cl p).sendTo cl (.commit p.seq) f.others).settlePour cl p.seq 2 0 0 .commits)

/-- FLASK_COMMIT_RECEIPT (11 R267, R272). -/
def execFlaskCommitReceipt (n : Nat) (s : State) : Out :=
  .next (match s.receiveFlask n with
    | some (cl, ⟨dom, id, src, .commit q⟩, t) =>
      let f := t.flask cl
      (match f.pour with
       | .none => t
       | some p =>
         if !f.knows ⟨dom, id, src, .commit q⟩ || p.seq ≠ q || (f.st ≠ 4 && f.st ≠ 5) then t
         else (t.writeStaged cl p).settlePour cl q 2 0 0 .commits)
    | _ => s)

/-- ABORT of a pour at a member: the decider, which had not decided, decides it for every member (11 R266). -/
def State.takeAbort (s : State) (cl ford cause : Nat) : State :=
  let f := s.flask cl
  match f.pour with
  | .none => s.abortPour cl ford cause false
  | some p =>
    let s := if f.st = 4 && f.k = f.decider p.ask.ring then s.sendTo cl (.abort p.seq ford cause) f.others else s
    s.abortPour cl ford cause false

/-- FLASK_ABORT_RECEIPT (11 R258, R266, R268, R272). -/
def execFlaskAbortReceipt (n : Nat) (s : State) : Out :=
  .next (match s.receiveFlask n with
    | some (cl, ⟨dom, id, src, .abort q j c⟩, t) =>
      let f := t.flask cl
      if !f.knows ⟨dom, id, src, .abort q j c⟩ || f.st < 2 || q ≠ f.next then t else t.takeAbort cl j c
    | _ => s)

/-- FLASK_MISMATCH_RECEIPT (11 R258). -/
def execFlaskMismatchReceipt (n : Nat) (s : State) : Out :=
  .next (match s.receiveFlask n with
    | some (cl, ⟨dom, id, src, .mismatch q j⟩, t) =>
      let f := t.flask cl
      if !f.knows ⟨dom, id, src, .mismatch q j⟩ || (f.st ≠ 2 && f.st ≠ 3) || q ≠ f.next then t
      else t.abortPour cl j Cause.flaskMismatch true
    | _ => s)

/-- FLASK_LINK_LOSS (11 R271). -/
def execFlaskLinkLoss (n : Nat) (s : State) : Out :=
  .next (match s.receiveFlask n with
    | some (cl, ⟨dom, id, src, .lost q k watch part⟩, t) =>
      let f := t.flask cl
      (match f.pour with
       | .none => t
       | some p =>
         if !f.knows ⟨dom, id, src, .lost q k watch part⟩ || p.seq ≠ q || (f.st ≠ 3 && f.st ≠ 4) then t
         else if f.st = 3 then t.faultSelf cl p Cause.linkUnreachable
         else if f.k = f.decider p.ask.ring then t.takeAbort cl k Cause.linkUnreachable
         else
           let p := if part then { p with given := false } else p
           if !p.given then t.faultSelf cl p Cause.linkUnreachable
           else if watch then t.becomeUnknown cl p
           else t)
    | _ => s)

/-! XLEAVE (11 R275). -/

/-- Sends LEAVE to every other member, one request each: the units of the leaving thread. -/
def State.leaveUnits (s : State) (cl : Nat) (f : Flask) : List Nat → List Access × State
  | [] => ([], s)
  | k :: r =>
    let (tag, s) := s.newTag s.cur.1
    let q : Req := { s.mkReq s.cur.1 s.cur.2 tag .leave 0 false with sc := false }
    let p := (s.sendFlask cl (f.member k) k f.dom f.id (.leave q)).leaveUnits cl f r
    (⟨k, q, .out, 64⟩ :: p.1, p.2)

/-- Leaves as from JOINED (11 R275): the member is in NONE, and the thread waits for every acknowledgement. -/
def State.leaveNow (s : State) (cl : Nat) : State :=
  let f := s.flask cl
  s.await .leave ((s.leaveFlask cl).leaveUnits cl f f.others)

/-- The region of an UNKNOWN member that discards it (11 R275). -/
def State.discardRegion (s : State) (cl : Nat) : State :=
  match (s.flask cl).pour with
  | some p => if p.committer then s.spoilRegion (bufferPlace cl) p.ask.q p.old (regionWords p.ask.q) 0 else s
  | .none => s

/-- XLEAVE in UNKNOWN (11 R275). -/
def State.leaveUnknown (s : State) (cl : Nat) (discard : Bool) : State :=
  if discard then (s.discardRegion cl).leaveNow cl else s.trap Cause.flaskState 0

/-- XLEAVE (11 R275). -/
def execXleave (x : Bool) (st : State) : Out :=
  .next (plain [] (fun st =>
    let cl := cidCluster st.cur.1
    let f := st.flask cl
    if f.st = 0 || f.dom ≠ st.thr.dom then st.retire
    else if f.st = 1 then st.trap Cause.flaskState 0
    else if f.st = 2 then st.leaveNow cl
    else if f.st = 5 then st.leaveUnknown cl x
    else match f.pour with
      | .none => st.leaveNow cl
      | some p =>
        if f.st = 4 && p.given && f.k ≠ f.decider p.ask.ring then (st.becomeUnknown cl p).leaveUnknown cl x
        else (st.faultSelf cl p Cause.flaskLeft).leaveNow cl) st)

/-- FLASK_LEAVE_RECEIPT (11 R275): every LEAVE is acknowledged, so that the leaver goes on. -/
def execFlaskLeaveReceipt (n : Nat) (s : State) : Out :=
  .next (match s.receiveFlask n with
    | some (cl, ⟨dom, id, src, .leave r⟩, t) =>
      let f := t.flask cl
      let ack := fun (t : State) => t.sendAns (clusterKey cl) r .ok
      if !f.knows ⟨dom, id, src, .leave r⟩ || f.st = 1 then ack t
      else if f.st = 2 then ack (t.leaveFlask cl)
      else match f.pour with
        | .none => ack (t.leaveFlask cl)
        | some p =>
          if f.st = 5 then ack (t.onFlask cl fun f => { f with dissolved := true })
          else if f.st = 4 && p.given && f.k ≠ f.decider p.ask.ring then
            ack ((t.becomeUnknown cl p).onFlask cl fun f => { f with dissolved := true })
          else ack ((t.takeAbort cl (f.ordinalOf src) Cause.flaskLeft).leaveFlask cl)
    | _ => s)

/-! XSTAT and XWAIT (11 R276 to R278). -/

/-- The flask state that a thread of a domain sees: NONE where it belongs to another domain (11 R252). -/
def State.flaskFor (s : State) (cl dom : Nat) : Flask :=
  let f := s.flask cl
  if f.dom = dom then f else Flask.fresh

/-- The cluster that decides, or decided, the outcome of a sequence number (11 R266): of one that the member does not hold, a chain's. -/
def Flask.deciderOf (f : Flask) (q : Nat) : Nat × Nat :=
  let ring := match f.pour with
    | some p => p.seq == q && p.ask.ring
    | .none => false
  (f.decider ring, f.member (f.decider ring))

/-- gD and gD+1 of the issuing thread, which goes on. -/
def State.reportNow (s : State) (d : Nat) (r : Word × Word) : State := ((s.setG d r.1).setG (d + 1) r.2).retire

/-- XSTAT (11 R277). -/
def execXstat (d s : Reg) (st : State) : Out :=
  .next (plain [d.val, d.val + 1, s.val] (fun st =>
    let cl := cidCluster st.cur.1
    let q := field (st.gn s) 0 32
    let f := st.flaskFor cl st.thr.dom
    if f.st = 0 || q = 0 then st.reportNow d (flaskReport f q 0 0)
    else match f.remembered q with
      | some (o, x) => st.reportNow d (flaskReport f q o x)
      | .none =>
        let (tag, st) := st.newTag st.cur.1
        let r : Req := { st.mkReq st.cur.1 st.cur.2 tag (.query q) 0 false with sc := false }
        let k := f.deciderOf q
        (st.sendFlask cl k.2 k.1 f.dom f.id (.query r)).parkMem (.query d q) [⟨0, r, .out, 64⟩]) st)

/-- FLASK_OUTCOME_QUERY (11 R277): the answer is the OUTCOME with the detail from bit 8 up. A member in NONE gives 5; one of another flask
discards the packet (R253). -/
def execFlaskOutcomeQuery (n : Nat) (s : State) : Out :=
  .next (match s.receiveFlask n with
    | some (cl, ⟨dom, id, src, .query r⟩, t) =>
      let f := t.flask cl
      let q := match r.op with
        | .query q => q
        | _ => 0
      let v :=
        if f.st = 0 then 5
        else match f.remembered q with
          | some (o, x) => o + 2 ^ 8 * x
          | .none => match f.pour with
            | some p => if p.seq = q then 1 else 0
            | .none => 0
      if f.st ≠ 0 && !f.knows ⟨dom, id, src, .query r⟩ then t else t.sendAns (clusterKey cl) r (.data v)
    | _ => s)

/-- What an XSTAT learns (11 R277): an UNKNOWN member resolves its sequence number by it (11 R272). -/
def State.learnOutcome (s : State) (cl q v : Nat) : State :=
  let f := s.flask cl
  let o := v % 2 ^ 8
  let x := v / 2 ^ 8
  match f.pour with
  | some p =>
    if f.st = 5 && p.seq = q then
      (if o = 2 then (s.writeStaged cl p).settlePour cl q 2 0 0 .commits
       else if o = 3 then s.abortPour cl (x / 2 ^ 9) (x % 2 ^ 9) false
       else s)
    else s
  | .none => s

/-- Whether XWAIT has its answer at once (11 R278): OUTCOME and detail. -/
def Flask.waitAnswer (f : Flask) (q : Nat) : Option (Nat × Nat) :=
  if f.st = 0 then some (0, 0)
  else match f.remembered q with
    | some x => some x
    | .none =>
      if (match f.pour with
          | some p => f.st == 5 && p.seq == q
          | .none => false) then some (5, 0)
      else if q = f.next then .none else some (0, 0)

/-- XWAIT (11 R278). -/
def execXwait (d s : Reg) (st : State) : Out :=
  .next (plain [d.val, d.val + 1, s.val] (fun st =>
    let q := field (st.gn s) 0 32
    let f := st.flaskFor (cidCluster st.cur.1) st.thr.dom
    match f.waitAnswer q with
    | some (o, x) => st.reportNow d (flaskReport f q o x)
    | .none => st.parkEngine .parkedEngine (.outcome d q)) st)

/-! Pre-emption and lost paths (11 R271, R273). -/

/-- A member that a gang switch meets in AGREEING faults with FLASK_PREEMPTED, once (11 R273). -/
def State.preemptPour (s : State) (cl : Nat) : State :=
  let f := s.flask cl
  match f.pour with
  | some p =>
    if f.st = 3 && p.own.isNone then
      (s.setPour cl { p with own := some (Cause.flaskPreempted, flaskLayout p.seq f.k Cause.flaskPreempted) }).sendTo cl
        (.fault p.seq f.k Cause.flaskPreempted) [0]
    else s
  | .none => s

/-- The watches of a member that no live path carries any more are answered (11 R270, 04 R78). -/
def State.dropWatches (s : State) (cl : Nat) : State :=
  let f := s.flask cl
  match f.pour with
  | .none => s
  | some p =>
    let gone := p.watches.filter fun k => !s.reaches (clusterModule cl) (clusterKey (f.member k))
    let s := s.setPour cl { p with watches := p.watches.filter fun k => !gone.contains k }
    { s with net := s.net ++ gone.map fun k =>
      ⟨clusterKey (f.member k), clusterKey cl, 5, .none, false, .flask ⟨f.dom, f.id, cl, .lost p.seq k true false⟩⟩ }

end Sys2Proof.Machine
end

