-- ==== Sys2Proof/Machine/Launch.lean ====
section
/-!
DEFINITION. The launch unit and the dispatcher (01 R15, R16; 03 R51 to R64; 04 R89, R90, R97; 15 R355, R356): taking slots, refusing
records, placing launches, completing them.
-/
namespace Sys2Proof.Machine

/-! The launch unit's accesses. -/

/-- A launch queue of a module. -/
def Module.queue (x : Module) (q : Nat) : Queue := Tab.get Queue.fresh x.queues q
/-- The state with a launch queue changed. -/
def State.onQueue (s : State) (m q : Nat) (f : Queue → Queue) : State :=
  s.onModule m fun x => { x with queues := Tab.set x.queues q (f (x.queue q)) }

/-- An access of the launch unit of a module to one word in a domain, with the checks of 07 R153. It has no core and no cluster of its
own, so the windows that name them are BAD_ADDRESS (log entry 24). -/
def State.unitAct (s : State) (m dom va : Nat) (op : Op) (got : Option Ans) : Read × State :=
  if 0xE ≤ field va 60 4 then (.fail Cause.badAddress, s) else s.act (m * 2 ^ 14) dom va 8 op got

/-- The launch unit asks the endpoint for a word of host memory for a queue, once (03 R52; log entry 2). -/
def State.askQueue (s : State) (m q dom va : Nat) : State :=
  if (s.module m).outstanding.any fun h => h.owner == .queue q then s
  else match s.lookup (m * 2 ^ 14) dom (targetOf (m * 2 ^ 14) va) with
    | none => s
    | some l => match s.translate dom l .read with
      | (.ok (.host a tol subn _), s) | (.ok (.dram a tol subn _), s) =>
        let h : HostReq := ⟨.queue q, insideReq (m * 2 ^ 14) dom va (.load 8), a, tol, subn⟩
        s.onModule l.m fun x => { x with outstanding := x.outstanding ++ [h] }
      | (.error _, s) => s

/-- What the launch unit finds in some words: their values, a failure with its cause and VA, a wait, or a host word to ask for. -/
inductive Gathered where
  | words (ws : List Word)
  | fail (cause va : Nat)
  | blocked
  | ask (va : Nat)
  deriving DecidableEq, Repr

/-- The words at some addresses, read in order as the launch unit of queue `q`. -/
def State.unitWords (s : State) (m q dom : Nat) : List Nat → Gathered × State
  | [] => (.words [], s)
  | va :: r => match s.unitAct m dom va (.load 8) (Tab.find ((s.module m).queue q).gathered va) with
    | (.ok v, s) => (match s.unitWords m q dom r with
      | (.words ws, s) => (.words (BitVec.ofNat 64 v :: ws), s)
      | p => p)
    | (.fail c, s) => (.fail c va, s)
    | (.blocked _, s) => (.blocked, s)
    | (.ask, s) => (.ask va, s)

/-- Makes words empty in order; gives the first failure (03 R52 step 3), or says that a word must wait. -/
def State.unitEmpty (s : State) (m dom : Nat) : List Nat → Gathered × State
  | [] => (.words [], s)
  | va :: r => match s.unitAct m dom va .sete none with
    | (.ok _, s) => s.unitEmpty m dom r
    | (.fail c, s) => (.fail c va, s)
    | (.blocked _, s) => (.blocked, s)
    | (.ask, s) => (.ask va, s)

/-! Checks of a record (01 R15, R16; 03 R58, R59). -/

/-- One bits of a number's low `w` bits. -/
def popCount (w n : Nat) : Nat := ((List.range w).filter (bit n ·)).length

/-- The refusal code of the first rule that a record breaks, in the order of 01 R15's table, then 01 R16, then 03 R59 (log entry 25).
`desc` is the entry descriptor, `table` whether the class table could be read. -/
def recordRefusal (d : Domain) (tag : Nat) (ws : List Word) (desc : Option Nat) (table : Bool) : Option Nat :=
  let w := fun k => (ws.getD k 0).toNat
  let threads := field (w 4) 48 9
  let cores := field (w 4) 32 16
  let win := field (w 5) 0 8
  let rows : List (Bool × Nat) := [
    (match desc with
     | none => true
     | some e => descBad e, 3),
    (w 2 % 8 != 0, 6),
    (field (w 4) 57 7 != 0, 1),
    (threads == 0 || decide (252 < threads), 4),
    (cores == 0 || decide (8832 < cores), 4),
    (field (w 4) 28 4 != 0, 1),
    (field (w 4) 19 5 != 0, 1),
    (field (w 4) 0 16 == 0 || field (w 4) 0 16 != tag, 2),
    (field (w 5) 18 46 != 0, 1),
    (decide (384 < field (w 5) 8 10), 4),
    (win != 0 && (decide (win < 8) || decide (128 < win) || win % 8 != 0), 4),
    (field (w 6) 39 25 != 0, 1),
    (field (w 6) 16 23 == 0, 4),
    (field (w 6) 0 16 == 0, 4),
    (!table, 3),
    ((List.range 6).any fun k => w (9 + k) != 0, 1),
    (field (w 15) 8 56 != 0, 1),
    (field (w 15) 0 8 != 1, 5),
    (decide (4096 < threads * (if win = 0 then descWin (desc.getD 0) else win)), 4),
    (decide (popCount 16 (field (w 6) 0 16) * popCount 23 (field (w 6) 16 23) * 24 < cores), 4),
    (bit (w 4) 26 != d.set.partitioned, 7),
    (bit (w 4) 24 != d.set.gang.isSome, 7)]
  (rows.find? fun r => r.1).map Prod.snd

/-! Taking a slot (03 R52). -/

/-- The launch unit stops a queue at an access that fails; LAUNCH_QUEUE_FAULT reports it (03 R56). -/
def State.stopQueue (s : State) (m q cause va : Nat) : State :=
  s.onQueue m q fun x => { x with faulted := x.faulted ++ [(cause, BitVec.ofNat 64 va)], gathered := [] }

/-- What a read of the entry descriptor or of the class table comes to: some words, none when it cannot be read, or not yet. -/
def Gathered.readable : Gathered → Option (Option (List Word))
  | .words ws => some (some ws)
  | .fail _ _ => some none
  | _ => none

/-- A queue whose record of a slot is refused with a code (01 R15; 03 R52 step 4, R57). -/
def Queue.refuse (y : Queue) (seq code : Nat) (compl : Word) : Queue :=
  { y with refd := min 0xFFFF (y.refd + 1), lastref := code, refusal := some ⟨seq, code, compl⟩ }

/-- Steps 3 and 4 of 03 R52 for a record that has been read and checked: the slot is emptied and CONS counts it, then the record is
latched or refused. -/
def State.slotTaken (s : State) (m q dom slot : Nat) (ws : List Word) (desc : Nat) (refusal : Option Nat) : State :=
  match s.unitEmpty m dom ((List.range 16).map fun k => slot + 8 * k) with
  | (.fail c va, t) => t.stopQueue m q c va
  | (.words _, t) => t.onQueue m q fun x =>
      let y := { x with cons := (x.cons + 1) % 2 ^ 32, gathered := [] }
      (match refusal with
       | none => { y with latch := some ⟨ws, BitVec.ofNat 64 desc, x.cons⟩ }
       | some c => y.refuse x.cons c (ws.getD 2 0))
  | _ => s

/-- What the launch unit finds behind a record: it must wait, or the entry descriptor and words 1 to 14 of the class table, each none when
it cannot be read. -/
inductive Behind where
  | wait (s : State)
  | found (desc : Option Nat) (table : Option (List Word)) (s : State)

/-- Reads the entry descriptor and the class table that a record names (01 R10, R15; 12 R304). -/
def State.behind (s : State) (m q dom : Nat) (ws : List Word) : Behind :=
  match s.unitWords m q dom [(ws.getD 0 0).toNat] with
  | (.ask va, t) => .wait (t.askQueue m q dom va)
  | (r, t) => match r.readable with
    | none => .wait s
    | some e =>
      let h := (ws.getD 8 0).toNat
      let vas := if h = 0 then [] else (List.range 14).map fun k => (h + 8 * (k + 1)) % 2 ^ 64
      match t.unitWords m q dom vas with
      | (.ask va, t) => .wait (t.askQueue m q dom va)
      | (r, t) => match r.readable with
        | none => .wait s
        | some table => .found (e.map fun v => (v.getD 0 0).toNat) table t

/-- The end of the take: the record is checked with what stands behind it (01 R15, R16; 03 R59). -/
def State.takeRecord (s : State) (m q : Nat) (d : Domain) (slot : Nat) (ws : List Word) : State :=
  match s.behind m q d.tag ws with
  | .wait t => t
  | .found desc table t =>
    t.slotTaken m q d.tag slot ws (desc.getD 0) (recordRefusal d d.tag ws desc table.isSome)

/-- Whether a KIND 3 record of a queue still waits for room in a fault queue (14 R331). -/
def Module.recordWaits (x : Module) (q : Nat) : Bool :=
  x.domains.any fun p => p.2.fqWait.any fun r =>
    field (r.getD 0 0).toNat 56 8 == 3 && field (r.getD 0 0).toNat 0 34 == q

/-- Whether a queue may take its next slot (03 R52, R56; 14 R331; 15 R356): enabled, its latch and its refusal put done, not stopped, no
record of it waiting, no completion put of its launches to be retried. -/
def Module.takes (x : Module) (q : Nat) : Bool :=
  let y := x.queue q
  y.en && y.latch.isNone && y.refusal.isNone && !y.flt && y.faulted.isEmpty && !x.recordWaits q &&
    !(x.launches.any fun l => l.queue == q && l.putPending) && !x.d3hot

/-- LAUNCH_SLOT_TAKE (03 R52): the launch unit takes the next slot of a queue once its w15 is full. Its own wait on w15 stands in no wait
list: it tests P at its step (log entry 100). -/
def execLaunchSlotTake (m q : Nat) (s : State) : Out :=
  .next (
    let x := s.module m
    let y := x.queue q
    if !x.takes q || 64 ≤ q then s
    else match s.domain? m y.dom with
      | none => s.stopQueue m q Cause.protection (y.base.toNat + 128 * (y.cons % 2 ^ y.sizelog) + 120)
      | some (_, d) =>
        let slot := (y.base.toNat + 128 * (y.cons % 2 ^ y.sizelog)) % 2 ^ 64
        match s.unitAct m y.dom (slot + 120) .waitf none with
        | (.fail c, t) => t.stopQueue m q c (slot + 120)
        | (.ok _, t) => (match t.unitWords m q y.dom ((List.range 16).map fun k => slot + 8 * k) with
          | (.fail c va, t) => t.stopQueue m q c va
          | (.ask va, t) => t.askQueue m q y.dom va
          | (.blocked, _) => s
          | (.words ws, t) => t.takeRecord m q d slot ws)
        | _ => s)

/-- The refusal completion word (01 R15). -/
def refusalWord (code : Nat) : Nat := 0xFF * 2 ^ 56 + code % 256

/-- A KIND 3 record of a queue (03 R56, R57; 14 R332). -/
def State.queueRecord (s : State) (m q cause : Nat) (va : Word) (wherefrom detail : Nat) : State :=
  s.postRecord m ((s.module m).queue q).dom
    (recordWords 3 cause q va (BitVec.ofNat 64 wherefrom) 0 (BitVec.ofNat 64 detail) 0)

/-- LAUNCH_REFUSAL_PUT (03 R57): the refusal completion is put in the domain bound to the queue, or a record says why it cannot be. -/
def execLaunchRefusalPut (m q : Nat) (s : State) : Out :=
  .next (
    let y := (s.module m).queue q
    match y.refusal with
    | none => s
    | some r =>
      if (s.module m).d3hot then s
      else
        let clear := fun (s : State) => s.onQueue m q fun x => { x with refusal := none }
        match s.unitAct m y.dom r.compl.toNat (.stf (refusalWord r.code)) none with
        | (.ok _, t) => clear t
        | (.fail c, t) => (clear t).queueRecord m q c r.compl r.seq r.code
        | _ => s)

/-- LAUNCH_QUEUE_FAULT (03 R56, 15 R356): the queue stops with FLT set and CONS unchanged, and a KIND 3 record is posted for its oldest
fault. -/
def execLaunchQueueFault (m q : Nat) (s : State) : Out :=
  .next (
    let y := (s.module m).queue q
    match y.faulted with
    | [] => s
    | (c, va) :: r =>
      if (s.module m).d3hot then s
      else (s.onQueue m q fun x => { x with flt := true, faulted := r }).queueRecord m q c va y.cons 0)

/-! Wipes (01 R12; 04 R90; 14 R350). -/

/-- Answers every waiter on the words of an address range with retry and forgets it, so that W is 0 (12 R292, 14 R350). -/
def State.retryWaiters (s : State) (lo hi : Nat) : State :=
  let mine := s.waitq.filter fun e => lo ≤ e.word * 8 && e.word * 8 < hi
  mine.foldl (fun s e => s.sendAns e.replyTo e.req .shutter)
    { s with waitq := s.waitq.filter fun e => !(lo ≤ e.word * 8 && e.word * 8 < hi) }

/-- The addresses from `lo` to `hi - 1` zero with P = 1 and W = 0 (14 R350). -/
def State.wipeRange (s : State) (lo hi : Nat) : State :=
  { s with mem := s.mem.wipe lo hi }.retryWaiters lo hi

/-! The engine-store claim (04 R90). -/

/-- The region that the launch unit writes for unit 24 + n (04 R90). -/
def claimRegion (dom n : Nat) : Word :=
  BitVec.ofNat 64 (dom * 2 ^ 48 + 2 ^ 44 + 2 ^ 42 + 2 ^ 41 + 2 ^ 40 + (24 + n) * 2 ^ 32 + 0xFFF * 2 ^ 16)

/-- Whether CPRGN0 to CPRGN4 of a cluster are zero or hold a domain (04 R97). -/
def Cluster.claimable (c : Cluster) (dom : Nat) : Bool :=
  (List.range 5).all fun n => let r := Tab.get 0 c.cprgn n; r == 0 || field r.toNat 48 16 == dom

/-- Ends the claim on a cluster when no launch of its domain with ENG = 1 is placed there and the flask state is NONE: the domain's rings
are unbound and CPRGN0 to CPRGN4 are zero (04 R90). -/
def State.releaseClaim (s : State) (cl : Nat) : State :=
  let c := s.cluster cl
  let dom := c.claim
  let held := (s.module (clusterModule cl)).launches.any fun l =>
    l.dom == dom && !l.putPending && bit (l.rec_.getD 4 0).toNat 27 && l.cores.any fun k => cidCluster k == cl
  if dom = 0 || held || c.eng.flask.st ≠ 0 then s
  else s.onCluster cl fun c =>
    { c with
      claim := 0
      cprgn := (List.range 5).foldl (fun t n => Tab.set t n 0) c.cprgn
      eng := { c.eng with rings := c.eng.rings.filter fun p => p.2.dom != dom } }

/-- Claims the engine stores of a cluster for a domain (04 R90): kept when it holds them, wiped when another held them last. -/
def State.claim (s : State) (cl dom : Nat) : State :=
  let c := s.cluster cl
  if (List.range 5).all fun n => field (Tab.get 0 c.cprgn n).toNat 48 16 == dom then
    s.onCluster cl fun c => { c with claim := dom, lastClaim := dom }
  else
    let s := if c.lastClaim = dom then s else s.wipeRange (storeAddr cl 24 0) (storeAddr cl 29 0)
    s.onCluster cl fun c =>
      { c with claim := dom, lastClaim := dom, cprgn := (List.range 5).foldl (fun t n => Tab.set t n (claimRegion dom n)) c.cprgn }

/-! Placement (04 R97). -/

/-- WIN of a latched launch: its record's, else its descriptor's (01 R15). -/
def Latched.win (l : Latched) : Nat :=
  let w := field (l.rec_.getD 5 0).toNat 0 8
  if w = 0 then descWin l.desc.toNat else w
/-- A word of a latched record. -/
def Latched.word (l : Latched) (k : Nat) : Nat := (l.rec_.getD k 0).toNat
/-- The domain of a latched launch. -/
def Latched.dom (l : Latched) : Nat := field (l.word 4) 0 16
/-- THREADS. -/
def Latched.threads (l : Latched) : Nat := field (l.word 4) 48 9
/-- CORES. -/
def Latched.cores (l : Latched) : Nat := field (l.word 4) 32 16
/-- LOCALK. -/
def Latched.localK (l : Latched) : Nat := field (l.word 5) 8 10
/-- ENG. -/
def Latched.eng (l : Latched) : Bool := bit (l.word 4) 27
/-- PRIO. -/
def Latched.prio (l : Latched) : Nat := field (l.word 4) 16 3

/-- Whether a core is feasible for a latched launch (04 R97), its cluster being in CLMASK and its die in DIEMASK. -/
def State.feasible (s : State) (cid : Nat) (l : Latched) : Bool :=
  s.mayPlace cid l.dom && (s.core cid).fits l.win l.threads &&
  (l.localK == 0 || !(s.module (cidModule cid)).launches.any fun x =>
    x.cores.contains cid && field (x.rec_.getD 5 0).toNat 8 10 != 0 && s.switchedIn (cidModule cid) x.dom) &&
  (!l.eng || (s.cluster (cidCluster cid)).claimable l.dom)

/-- The cores of a die that a test admits for a launch, by cluster, in ascending order (04 R97). -/
def Latched.coresOn (l : Latched) (ok : Nat → Bool) (m die : Nat) : List (List Nat) :=
  (((List.range 23).filter fun c => bit (l.word 6) (16 + c)).map fun c =>
    (clusterCores ((m * 16 + die) * 32 + c)).filter ok).filter fun x => !x.isEmpty

/-- How many cores some clusters hold. -/
def coreCount (cls : List (List Nat)) : Nat := cls.foldl (fun n c => n + c.length) 0

/-- The procedure of 04 R97 over the cores that a test admits: the cores in order of placement, or none. -/
def Latched.choose (l : Latched) (ok : Nat → Bool) (m : Nat) : Option (List Nat) :=
  let dies := ((List.range 16).filter fun d => bit (l.word 6) d).map (l.coresOn ok m)
  let byCount := sortBy (fun d => coreCount d) (dies.filter fun d => !d.isEmpty)
  let chosen := match byCount with
    | [] => []
    | d :: r => if l.cores ≤ coreCount d then [d] else d :: r
  let order := chosen.flatMap fun d => (sortBy (fun c => c.length) d).flatMap id
  if order.length < l.cores then none else some (order.take l.cores)

/-- The placement of a latched launch (04 R97): its cores in order of placement, or none. -/
def State.place (s : State) (m : Nat) (l : Latched) : Option (List Nat) := l.choose (fun k => s.feasible k l) m

/-! Dispatch (03 R63, R64). -/

/-- The latches that are eligible: queue and launch (03 R63), none of a domain that is being unbound (15 R360). -/
def State.eligibleLatches (s : State) (m : Nat) : List (Nat × Latched) :=
  let x := s.module m
  (List.range 64).filterMap fun q => match (x.queue q).latch with
    | none => none
    | some l => if (bit (l.word 4) 24 && !s.switchedIn m l.dom) || s.unbinding m l.dom then none else some (q, l)

/-- The greatest of some numbers. -/
def greatest : List Nat → Option Nat
  | [] => none
  | a :: r => match greatest r with
    | none => some a
    | some b => some (max a b)

/-- The queue that select() returns (03 R63), with its latch and level. -/
def State.selectLatch (s : State) (m : Nat) : Option (Nat × Latched × Nat) :=
  let x := s.module m
  let es := s.eligibleLatches m
  let levels := es.map fun e => e.2.prio
  match greatest levels with
  | none => none
  | some h =>
    let waiting := levels.filter fun l => decide (l < h) && decide (16 ≤ Tab.get 0 x.streak l)
    let lv := (greatest waiting).getD h
    let last := Tab.get 63 x.lastL lv
    (leastBy (fun e => (e.1 + 63 - last) % 64) (es.filter fun e => e.2.prio == lv)).map fun e => (e.1, e.2, lv)

/-- The pointers and counts after a dispatch of queue `q` at level `lv`, while the levels `ls` held a latch (03 R63). -/
def Module.dispatched (x : Module) (q lv : Nat) (ls : List Nat) : Module :=
  { x with
    lastL := Tab.set x.lastL lv q
    streak := (List.range 8).map fun l =>
      (l, if l = lv || !ls.contains l then 0 else if l < lv then Tab.get 0 x.streak l + 1 else Tab.get 0 x.streak l) }

/-- Whose the bytes of a local memory are when the first `n` become a domain's (04 R89; 15 R361). -/
def takeLocals (ls : List (Nat × Nat × Nat)) (dom n : Nat) : List (Nat × Nat × Nat) :=
  (dom, 0, n) :: ls.filterMap fun x => if x.2.2 ≤ n then none else some (x.1, max n x.2.1, x.2.2)

/-- What placing a launch does to a core before its root threads start (01 R12; 04 R89; 12 R304; 14 R324). -/
def State.prepareCore (s : State) (cid : Nat) (l : Latched) (id : Nat) : State :=
  let k := l.localK
  let m := cidModule cid
  let s := if k = 0 then s else s.wipeRange (localAddr cid 0) (localAddr cid (k * 1024))
  let table := match s.domain? m l.dom with
    | some (_, d) => d.set.ttbl
    | none => []
  let region := BitVec.ofNat 64
    (l.dom * 2 ^ 48 + 2 ^ 44 + 2 ^ 43 + 2 ^ 42 + 2 ^ 41 + 2 ^ 40 + (k * 16 - 1) * 2 ^ 16)
  (s.holdCore cid l.dom).onCore cid fun c =>
    { c with
      prgn := if k = 0 then c.prgn else Tab.set c.prgn 0 region
      locals := if k = 0 then c.locals else takeLocals c.locals l.dom (k * 1024)
      traps := if (Tab.find c.traps l.dom).isSome then c.traps else Tab.set c.traps l.dom table
      classes := if l.word 8 = 0 then c.classes else Tab.set c.classes l.dom ⟨l.rec_.drop 16, (m, id)⟩ }

/-- Starts the root threads of one core, `c` being its place in the order of placement (01 R16, 04 R96). -/
def State.startRoots (s : State) (cid c : Nat) (l : Latched) (id : Nat) : State :=
  (List.range l.threads).foldl (fun s i =>
    match (s.core cid).room 4 l.win with
    | none => s
    | some (slot, base) =>
      s.startTask cid slot base
        (newTask l.dom (some (cidModule cid, id)) (bit (l.word 4) 25) (l.word 0) l.desc.toNat l.win)
        [l.rec_.getD 1 0, BitVec.ofNat 64 (c * l.threads + i), BitVec.ofNat 64 (l.cores * l.threads)]) s

/-- The clusters of some cores, each once. -/
def clustersOf (cores : List Nat) : List Nat :=
  cores.foldl (fun acc k => if acc.contains (cidCluster k) then acc else acc ++ [cidCluster k]) []

/-- Places a launch on its cores (01 R12, R16; 04 R89, R90). -/
def State.startLaunch (s : State) (m q : Nat) (l : Latched) (cores : List Nat) : State :=
  let id := (s.module m).nextLaunch
  let s := s.onModule m fun x =>
    { x with nextLaunch := id + 1, launches := x.launches ++ [⟨id, q, l.dom, l.rec_, cores, false, false⟩] }
  let s := cores.foldl (fun s k => s.prepareCore k l id) s
  let s := if l.eng then (clustersOf cores).foldl (fun s cl => s.claim cl l.dom) s else s
  (cores.zip (List.range cores.length)).foldl (fun s k => s.startRoots k.1 k.2 l id) s

/-- The clusters of a module whose engine stores are claimed. -/
def State.claimed (s : State) (m : Nat) : List Nat :=
  (s.clusters.filter fun p => clusterModule p.1 == m && p.2.claim != 0).map Prod.fst

/-- The launch that select() returned, once its entry descriptor and class table are read (01 R10, 12 R304): refused when a check fails
now, else placed, or left latched when it cannot be placed. A refusal and a failed placement change neither `last` nor `streak` (03 R64). -/
def State.dispatchOf (s : State) (m q lv : Nat) (l : Latched) (d : Domain) : State :=
  match s.behind m q l.dom l.rec_ with
  | .wait t => t
  | .found desc table t =>
    match recordRefusal d d.tag l.rec_ desc table.isSome with
    | some c => t.onQueue m q fun y => { y with latch := none, gathered := [] }.refuse l.seq c (l.rec_.getD 2 0)
    | none =>
      let l := { l with rec_ := l.rec_.take 16 ++ table.getD [], desc := BitVec.ofNat 64 (desc.getD 0) }
      let t := t.onQueue m q fun y => { y with gathered := [] }
      match t.place m l with
      | none => t
      | some cores =>
        let ls := (t.eligibleLatches m).map fun e => e.2.prio
        let t := t.onQueue m q fun y => { y with latch := none }
        (t.onModule m fun x => x.dispatched q lv ls).startLaunch m q l cores

/-- DISPATCH (03 R63, R64): the latch that select() returns is placed and emptied; when it cannot be placed nothing is dispatched. Claims
whose time has come end first (04 R90). In D3hot dispatch is stopped (03 R47). -/
def execDispatch (m : Nat) (s : State) : Out :=
  .next (if (s.module m).d3hot then s
    else
      let s := (s.claimed m).foldl State.releaseClaim s
      match s.selectLatch m with
      | none => s
      | some (q, l, lv) => match s.domain? m l.dom with
        | none => s
        | some (_, d) => s.dispatchOf m q lv l d)

/-! The end of a launch (15 R355, R356). -/

/-- Whether a thread belongs to a launch. -/
def Thread.belongs (t : Thread) (m l : Nat) : Bool := t.st != .free && t.launch == some (m, l)

/-- Whether a held arrival is a task of a launch (12 R304, 15 R357). -/
def State.arrivalOf (s : State) (m l : Nat) : Arrival → Bool
  | .msg _ g _ _ t => s.messageLaunch g.dst g.dom t == some (m, l)
  | .mig _ g => g.th.launch == some (m, l)

/-- Whether a task of a launch exists, whatever its state (15 R355). -/
def State.hasTask (s : State) (m l : Nat) : Bool :=
  (s.cores.any fun p => p.2.slots.any (fun q => q.2.belongs m l) || p.2.held.any (s.arrivalOf m l)) ||
  (s.ctxs.any fun k => k.th.launch == some (m, l)) ||
  (s.modules.any fun p => p.2.saved.any fun x => x.ctxs.any fun k => k.th.launch == some (m, l)) ||
  (s.clusters.any fun p => p.2.spawn.any fun q => q.launch == some (m, l)) ||
  (s.net.any fun p => match p.body with
    | .migrate g => g.th.launch == some (m, l)
    | _ => false)

/-- Whether engine work of a launch is still to come to its end (15 R355): at its member UNKNOWN is the outcome of a pour (11 R269). -/
def State.hasWork (s : State) (m l : Nat) : Bool :=
  s.clusters.any fun p =>
    (p.2.eng.ladle.any fun q => q.2.launch == some (m, l) && q.2.st == 1) ||
    (p.2.eng.jobs.any fun q => q.2.launch == some (m, l) && (q.2.st == 1 || q.2.st == 2)) ||
    (match p.2.eng.flask.pour with
     | some x => x.launch == some (m, l) && p.2.eng.flask.st != 5
     | none => false)

/-- A module whose launches are compared with the state: each is complete from the first moment at which nothing of it is left (15 R355). -/
def State.markComplete (s : State) (m : Nat) (x : Module) : Module :=
  { x with launches := x.launches.map fun l => if s.hasTask m l.id || s.hasWork m l.id then l else { l with complete := true } }

/-- What every step ends with for the launches placed on the modules (15 R355). -/
def State.watchLaunches (s : State) : State :=
  { s with modules := s.modules.map fun (p : Nat × Module) =>
      if p.2.launches.any fun l => !l.complete then (p.1, s.markComplete p.1 p.2) else p }

/-- The entries that a complete launch leaves in the engines are freed without a put (15 R356 step 1). -/
def State.freeEntries (s : State) (m l : Nat) : State :=
  { s with clusters := s.clusters.map fun (p : Nat × Cluster) =>
    (p.1, { p.2 with eng := { p.2.eng with
      ladle := p.2.eng.ladle.filter fun q => !(q.2.launch == some (m, l))
      jobs := p.2.eng.jobs.filter fun q => !(q.2.launch == some (m, l)) } }) }

/-- What the end of a launch does to a core, or to what a gang switch saved of it (15 R356 steps 2 and 3; 04 R89; 12 R304; 14 R324). -/
def State.leaveCore (s : State) (cid : Nat) (l : Launch) : State :=
  let last := !(s.module (cidModule cid)).launches.any fun x =>
    x.id != l.id && x.dom == l.dom && !x.putPending && x.cores.contains cid
  let local_ := field (l.rec_.getD 5 0).toNat 8 10 != 0
  if s.coreForeign cid l.dom then
    s.onModule (cidModule cid) fun x => { x with saved := x.saved.map fun (y : SavedCore) =>
      if y.cid = cid ∧ y.dom = l.dom then
        { y with prgn := if local_ then Tab.set y.prgn 0 0 else y.prgn,
                 classes := if last then none else y.classes, traps := if last then none else y.traps }
      else y }
  else s.onCore cid fun c =>
    { c with
      prgn := if local_ then Tab.set c.prgn 0 0 else c.prgn
      classes := if last then Tab.del c.classes l.dom else c.classes
      traps := if last then Tab.del c.traps l.dom else c.traps }

/-- The put of COMPLVAL (15 R356 step 4); a refused one stops the queue, and is retried after its restart. -/
def State.putCompletion (s : State) (m : Nat) (l : Launch) : Option State :=
  let compl := (l.rec_.getD 2 0).toNat
  match s.unitAct m l.dom compl (.stf (l.rec_.getD 3 0).toNat) none with
  | (.ok _, t) => some (t.onModule m fun x => { x with launches := x.launches.filter fun y => y.id != l.id })
  | (.fail c, t) => some ((t.onModule m fun x => { x with launches := x.launches.map fun y =>
      if y.id = l.id then { y with putPending := true } else y }).stopQueue m l.queue c compl)
  | _ => none

/-- Steps 1 to 3 of 15 R356. -/
def State.retireLaunch (s : State) (m : Nat) (l : Launch) : State :=
  let s := (s.freeEntries m l.id).onModule m fun x => { x with launches := x.launches.map fun y =>
    if y.id = l.id then { y with putPending := true } else y }
  let s := l.cores.foldl (fun s k => s.leaveCore k l) s
  (clustersOf l.cores).foldl State.releaseClaim s

/-- LAUNCH_COMPLETE (15 R355, R356): a launch that is complete, or whose refused put is to be retried; nothing while a forced unbinding of
the domain runs (R360). -/
def execLaunchComplete (m l : Nat) (s : State) : Out :=
  .next (match (s.module m).launches.find? fun x => x.id == l with
    | none => s
    | some x =>
      let y := (s.module m).queue x.queue
      if (s.module m).d3hot || s.unbinding m x.dom then s
      else if x.putPending then
        (if y.flt || !y.faulted.isEmpty || (s.module m).recordWaits x.queue then s else (s.putCompletion m x).getD s)
      else if !x.complete then s
      else ((s.retireLaunch m x).putCompletion m x).getD s)

end Sys2Proof.Machine
end

