-- ==== Sys2Proof/Machine/Fetch.lean ====
section
/-!
DEFINITION. Fetching an instruction from a thread's two fetch buffers (05 R101 to R104, R111, R112), what the issuing core does
with its words, and which internal step the part takes when the agenda names none (log entry 1).
-/
namespace Sys2Proof.Machine

/-- What a fetch finds: the two words of an instruction (the second is 0 for a one-word instruction), a sector that no buffer
holds, or a failure with its cause and the address of the word that failed (05 R102). -/
inductive Fetched where
  | words (w v : Nat)
  | need (a : Nat)
  | fail (cause a : Nat)
  deriving DecidableEq, Repr

/-- The buffer that holds the sector of an address (05 R103). -/
def Thread.sectorOf (t : Thread) (a : Nat) : Option Sector :=
  match t.cur with
  | some x => if x.addr = a / 64 * 64 then some x else t.nxt.filter fun y => y.addr == a / 64 * 64
  | none => t.nxt.filter fun y => y.addr == a / 64 * 64

/-- One instruction word from the buffers (05 R102, R103). -/
def Thread.fetchOne (t : Thread) (a : Nat) : Fetched :=
  if !fetchable a then .fail Cause.badAddress a
  else match t.sectorOf a with
    | none => .need (a / 64 * 64)
    | some x => match x.fault with
      | some c => .fail c a
      | none =>
        if x.poisoned.getD (a % 64 / 8) false then .fail Cause.poison a
        else .words (x.words.getD (a % 64 / 4) 0) 0

/-- The fetch of the instruction at the pc (05 R101, R112 step 1). -/
def Thread.fetch (t : Thread) : Fetched :=
  match t.fetchOne t.pc.toNat with
  | .words w _ =>
    if twoWords w then
      (match t.fetchOne (t.pc + 4).toNat with
       | .words v _ => .words w v
       | r => r)
    else .words w 0
  | r => r

/-- The words of an instruction as `ir` holds them: word 1 in the upper half (05 R112). -/
def irOf (w v : Nat) : Nat := w + 2 ^ 32 * v

/-- What the issuing core does once the buffers answer: a trap taken, or an instruction to be executed. -/
inductive Issued where
  | done (s : State)
  | run (i : Instr) (s : State)

/-- Steps 1 to 3 of 05 R112 for the thread that issues. A thread that no longer runs issues nothing. -/
noncomputable def State.issueNow (s : State) : Issued :=
  let s := { s with issuing := false }
  if s.thr.st.runs then
    match s.thr.fetch with
    | .need _ => .done s
    | .fail c a => .done (s.trap c (BitVec.ofNat 64 a))
    | .words w v =>
      let s := { s with ir := irOf w v }
      (match decode w v with
       | .ok i => .run i s
       | .illegal => .done (s.trap Cause.illegal s.irWord)
       | .reserved => .done (s.trap Cause.reserved s.irWord))
  else .done s

/-- Whether a constructor is a step of the part and no instruction. -/
def isStep (i : Instr) : Bool := i.words == (0, 0)

/-- An internal step read from a number: every step that the part takes by itself is the reading of some number. A step that
cannot be taken in a state leaves the state as it is. -/
noncomputable def internalStep (k : Nat) : Instr :=
  let a := k / 64 % 2 ^ 26
  let b := k / 2 ^ 32 % 2 ^ 8
  let c := k / 2 ^ 40
  match k % 64 with
  | 0 => .asyncTrapEntry a b
  | 1 => .launchSlotTake a b
  | 2 => .launchRefusalPut a b
  | 3 => .launchQueueFault a b
  | 4 => .dispatch a
  | 5 => .launchComplete a c
  | 6 => .spawnQueuePlace a
  | 7 => .schedulerEvict a
  | 8 => .contextRestore a
  | 9 => .messageArrival c
  | 10 => .migrationLanding c
  | 11 => .migrationAck c
  | 12 => .serviceThreadStart a b
  | 13 => .homeAccessRequest c a
  | 14 => .memoryReply c
  | 15 => .journalEntrySettle c
  | 16 => .refreshRetryResend a c
  | 17 => .noListResend a c
  | 18 => .scRetryResend a c
  | 19 => .shutterRetryResend a c
  | 20 => .wlimExpiry a b
  | 21 => .waitCancel c
  | 22 => .translationWalkDone c
  | 23 => .dramRefresh a b (c % 32) (some (c / 32))
  | 24 => .dramRefresh a b (c % 32) none
  | 25 => .linkPacketReceive c
  | 26 => .gangTimerExpiry a b
  | 27 => .gangPrepare c
  | 28 => .gangPreparedReply c
  | 29 => .gangCommit a b
  | 30 => .gangSwitchAbort c
  | 31 => .gangDone c
  | 32 => .flaskJoinRequest c
  | 33 => .flaskJoinReply c
  | 34 => .flaskWithdraw c
  | 35 => .flaskPourAccept a
  | 36 => .flaskReadyReceipt c
  | 37 => .flaskFaultReceipt c
  | 38 => .flaskGoReceipt c
  | 39 => .flaskMismatchReceipt c
  | 40 => .flaskAbortReceipt c
  | 41 => .flaskPartialReceipt c
  | 42 => .flaskPanelReceipt c
  | 43 => .flaskFinishedReceipt c
  | 44 => .flaskDecide a
  | 45 => .flaskCommitReceipt c
  | 46 => .flaskLinkLoss c
  | 47 => .flaskLeaveReceipt c
  | 48 => .flaskOutcomeQuery c
  | 49 => .ladleChunkIssue a b
  | 50 => .ladleChunkComplete a b c
  | 51 => .ladleDataFault a b
  | 52 => .ladleCompletionPut a b
  | 53 => .ladleCtlRequest c
  | 54 => .matrixAccept a
  | 55 => .matrixJobStart a b
  | 56 => .ringSlotConsume a b
  | 57 => .matrixJobCommit a b
  | 58 => .matrixJobFault a b
  | 59 => .mdrainMessageSend a b
  | 60 => if b = 0 then .allAsleepRise a c else if b = 1 then .asleepReceipt c else if b = 2 then .allAsleepQuery c
          else if b = 3 then .allAsleepReply c else if b = 4 then .allAsleepRaise c else if b = 5 then .bootSeal a
          else if b = 6 then .bootResult a else .mailboxCommandDone a
  | 61 => .qtileQuantiserDone a b
  | 62 => if b = 0 then .queueSet a else if b = 1 then .domainUnbind a else if b = 2 then .gangAbort a
          else if b = 3 then .svcControl a else if b = 4 then .svcAnswer a else if b = 5 then .svcPop a
          else if b = 6 then .logRead a else if b = 7 then .powerCap a else if b = 8 then .attest a
          else if b = 9 then .identity a else if b = 10 then .fwStage a else .powerCapClockStep a (b % 2 == 0)
  | _ => .coreCycle a

/-- The step of the part that comes next while no thread issues: the agenda's first, or an internal step that the schedule
chooses (log entry 1). An agenda entry that is no step is dropped. -/
noncomputable def State.nextStep (s : State) : Option Instr × State :=
  match s.agenda with
  | i :: r => (if isStep i then some i else none, { s with agenda := r, tick := s.tick + 1 })
  | [] => (some (internalStep (Config.schedule s.tick)), { s with tick := s.tick + 1 })

/-- A thread in which a tool places an instruction: the current slot's own, or a new READY thread with a window of 128
registers at base 0 when the slot is free or its thread does not run (log entry 6). -/
def Thread.toIssue (t : Thread) : Thread :=
  if t.st.runs then t else { Thread.fresh with st := .ready, win := 128, wait := .none }

/-- The thread with the two words `w` and `v` in its fetch buffers at its pc. -/
def Thread.withWords (t : Thread) (w v : Nat) : Thread :=
  let pc := if fetchable t.pc.toNat && fetchable (t.pc + 4).toNat then t.pc.toNat / 4 * 4 else 0
  let at0 := pc % 64 / 4
  let blank := List.replicate 16 0
  let clean := List.replicate 8 false
  let x : Sector := ⟨pc / 64 * 64, listSet (listSet blank at0 w) (at0 + 1) v, clean, none⟩
  let y : Sector := ⟨pc / 64 * 64 + 64, if at0 = 15 then listSet blank 0 v else blank, clean, none⟩
  { t with pc := BitVec.ofNat 64 pc, cur := some x, nxt := some y }

end Sys2Proof.Machine
end

