-- ==== Sys2Proof/Machine/Flags.lean ====
section
/-!
DEFINITION. The sticky flags of TSW and the float traps (02 R31, R32), and the formats of a prefix consumer (08 R187).
-/
namespace Sys2Proof.Machine

/-- TSW with flags set: bit 0 of `f` is NV, at TSW[18] (02 R31). -/
def Thread.raise (t : Thread) (f : Nat) : Thread := { t with tsw := t.tsw ||| BitVec.ofNat 64 (f % 128 * 2 ^ 18) }

/-- TSW.FTE (06 R139). -/
def Thread.fte (t : Thread) : Bool := t.tswBit 25

/-- The cause of a float trap: the first of NV, DZ, OF (02 R32). -/
def floatCause (f : Nat) : Option Nat :=
  if bit f 0 then some Cause.fpInvalid else if bit f 1 then some Cause.fpDivZero
  else if bit f 2 then some Cause.fpOverflow else none

/-- The issuing thread's flags set, and then a float trap under FTE, or `k` (02 R31, R32). -/
def State.flagged (s : State) (f : Nat) (k : State → State) : State :=
  let s := s.onThr fun t => t.raise f
  match (if s.thr.fte then floatCause f else none) with
  | some c => s.trap c 0
  | none => k s

/-- Format A of a consumer (08 R187): PFA's register under a prefix, else fd0. -/
def Thread.fmtA (t : Thread) : Nat := (t.fd (if t.pp then field t.tsw.toNat 1 4 else 0)).toNat
/-- Format B of a consumer (08 R187). -/
def Thread.fmtB (t : Thread) : Nat := (t.fd (if t.pp then field t.tsw.toNat 5 4 else 0)).toNat
/-- Format C of a consumer (08 R187). -/
def Thread.fmtC (t : Thread) : Nat := (t.fd (if t.pp then field t.tsw.toNat 9 4 else 0)).toNat

/-- The check of the descriptors that an instruction decodes or encodes with, in the order A, B, C (02 R34, 08 R187; log entry
17): ILLEGAL_FORMAT with the failing descriptor. -/
def checkFormats (l : List Nat) (k : State → State) (s : State) : State :=
  match l.find? fun d => !(narrowOf d).legal with
  | some d => s.trap Cause.illegalFormat (BitVec.ofNat 64 d)
  | none => k s

end Sys2Proof.Machine
end

