-- ==== Sys2Proof/Machine/Quantise.lean ====
section
/-!
DEFINITION. QTILE (10 R249, R250): the checks at issue, then what the cluster engine's quantiser reads and writes.
-/
namespace Sys2Proof.Machine

/-- QTILE at issue (10 R249): the check of F, REGION_STATE, the VAs of the records; then it waits for the quantiser. -/
def execQtile (d s t q : Reg) (clamp brole : Bool) (st : State) : Out :=
  .next (consume [d, s, t, q] (fun st =>
    let f := st.thr.fmtA
    checkFormats [f] (fun st =>
      if st.thr.rg then st.trap Cause.regionState 0
      else match recordVaBad (st.gn s), recordVaBad (st.gn t) with
        | some c, _ => st.trap c (st.g s)
        | none, some c => st.trap c (st.g t)
        | none, none =>
          st.parkEngine .parkedMem (.quantise ⟨d, st.g d, st.g s, st.g t, st.g q, f, clamp, brole⟩)) st) st)

/-- The tile of a QTILE: the records of the source and the destination, and the first and past-the-last row and column (10 R250). -/
structure TileJob where
  cid : Nat
  dom : Nat
  q : QuantAsk
  src : List Word
  dst : List Word
  r0 : Nat
  r1 : Nat
  c0 : Nat
  c1 : Nat

/-- A record of QTILE (10 R249 step 3): every breach of 01 R18 is BAD_OPERAND but that of the domain; a poisoned word does not stop it. -/
def State.tileRecord (s : State) (cid dom va : Nat) (colBlocks : Bool) : Check (List Word) :=
  match s.readRecord cid dom va ⟨false, colBlocks, true, true⟩ true with
  | .error (c, x) => if c = Cause.illegalFormat then .error (Cause.badOperand, va) else .error (c, x)
  | .ok w => .ok w

/-- Step 3 (10 R249): the records. -/
def State.tileRecords (s : State) (cid dom : Nat) (q : QuantAsk) : Check TileJob := do
  let src ← s.tileRecord cid dom q.src.toNat false
  if (recKind src ≠ 2 && recKind src ≠ 3) || recRing src then .error (Cause.badOperand, q.src.toNat)
  else
    let dst ← s.tileRecord cid dom q.dst.toNat q.brole
    let f := narrowOf q.fmt
    if recKind dst ≠ 0 || recFormat dst ≠ q.fmt || f.scf ≠ 1 || f.blk = 0 || recRing dst ||
        recRows dst ≠ recRows src || recCols dst ≠ recCols src then .error (Cause.badOperand, q.dst.toNat)
    else
      let t := q.tile.toNat
      if recTiles src ≤ t then .error (Cause.badOperand, t)
      else
        let r0 := t / recTileCols src * 128
        let c0 := t % recTileCols src * 128
        .ok ⟨cid, dom, q, src, dst, r0, min (recRows src) (r0 + 128), c0, min (recCols src) (c0 + 128)⟩

/-- The VA of the part of row `i` of an operand that lies in the tile. -/
def TileJob.rowVa (j : TileJob) (w : List Word) (i : Nat) : Nat := recBase w + i * recStride w + j.c0 * recBits w / 8
/-- The bytes of that part. -/
def TileJob.rowBytes (j : TileJob) (w : List Word) : Nat := ((j.c1 - j.c0) * recBits w + 7) / 8
/-- The rows of the tile. -/
def TileJob.rows (j : TileJob) : List Nat := (List.range (j.r1 - j.r0)).map (j.r0 + ·)
/-- The VAs of the words that hold the tile of an operand. -/
def TileJob.tileWords (j : TileJob) (w : List Word) : List Nat :=
  j.rows.flatMap fun i => wordsFrom (j.rowVa w i) ((j.rowBytes w + 7) / 8)

/-- A block of the tile: its elements, in order along K, and the index of its scale (10 R250, 01 R19). -/
def TileJob.blocks (j : TileJob) : List (List (Nat × Nat) × Nat) :=
  let b := 2 ^ (narrowOf j.q.fmt).blk
  let cols := (List.range (j.c1 - j.c0)).map (j.c0 + ·)
  if j.q.brole then
    cols.flatMap fun c => (List.range ((j.r1 - j.r0 + b - 1) / b)).map fun k =>
      let i := j.r0 + k * b
      ((List.range (min b (j.r1 - i))).map fun x => (i + x, c), scaleIndex j.dst true i c)
  else
    j.rows.flatMap fun i => (List.range ((j.c1 - j.c0 + b - 1) / b)).map fun k =>
      let c := j.c0 + k * b
      ((List.range (min b (j.c1 - c))).map fun x => (i, c + x), scaleIndex j.dst false i c)

/-- The VA of the tile's directory word, when the destination has a directory (01 R20). -/
def TileJob.dirVa (j : TileJob) : Option Nat :=
  if recEscapes j.dst && recSprue j.dst ≠ 0 then some (recSprue j.dst + 8 * j.q.tile.toNat) else none

/-- The role of QTILE's destination. -/
def tileRole : Role := ⟨false, false, true, true⟩

/-- The VA of the tile's sprue list, or 0 for none. -/
def State.tileList (s : State) (j : TileJob) : Nat :=
  match j.dirVa with
  | none => 0
  | some va => s.engineWord j.cid va

/-- Whether a word that QTILE writes may be, and holds what was written. -/
def State.tileSound (s : State) (j : TileJob) (va : Nat) : Bool :=
  s.engineAdmits j.cid j.dom va .write && !s.enginePoison j.cid va

/-- CAP of the tile's list, 0 for none (10 R250). -/
def State.tileCap (s : State) (j : TileJob) : Nat :=
  let d := s.tileList j
  if d = 0 || tileRole.arrayBad d 8 || !s.tileSound j d then 0 else field (s.engineWord j.cid d) 8 8

/-- A list whose VA breaks 10 R232, named by a directory word that QTILE may use (10 R249 step 3). -/
def State.tileListBad (s : State) (j : TileJob) : Option (Nat × Nat) :=
  let d := s.tileList j
  match j.dirVa with
  | none => none
  | some va =>
    if s.tileSound j va && d ≠ 0 && (tileRole.arrayBad d 8 || tileRole.arrayBad d (8 + 8 * s.tileCap j)) then some (Cause.badOperand, d)
    else none

/-- The words that QTILE has to read: the records, the tile of the source, the directory word, the list's header. -/
def State.tileReads (s : State) (j : TileJob) : List Nat :=
  let d := s.tileList j
  wordsFrom j.q.src.toNat 8 ++ wordsFrom j.q.dst.toNat 8 ++ j.tileWords j.src ++ j.dirVa.toList ++ (if d = 0 then [] else [d])

/-- The first failure of steps 4 to 6 (10 R249): protection, the list header, poison. A header that is poisoned is no header to judge. -/
def State.tileChecks (s : State) (j : TileJob) : Option (Nat × Nat) :=
  let d := s.tileList j
  let cap := s.tileCap j
  let denied := fun (vas : List Nat) k =>
    (vas.find? fun va => !s.engineAdmits j.cid j.dom va k).map fun va => (Cause.protection, va)
  let scales := j.blocks.map fun b => (recScales j.dst + b.2) / 8 * 8
  let sound := match j.dirVa with
    | none => false
    | some va => s.tileSound j va
  let list := if d = 0 || !sound then [] else wordsFrom d (1 + cap)
  let notList := d ≠ 0 && sound && s.tileSound j d && (field (s.engineWord j.cid d) 16 48 ≠ 0 || cap = 0)
  s.tileListBad j <|> denied (j.tileWords j.src) .read <|>
    denied (j.tileWords j.dst ++ scales ++ j.dirVa.toList ++ list) .write <|>
    (if notList then some (Cause.sprueMismatch, d) else none) <|>
    ((s.tileReads j).find? fun va => s.enginePoison j.cid va).map fun va => (Cause.poison, va)

/-- |x|. -/
def FV.abs : FV → FV
  | .inf _ => .inf false
  | .zero _ => .zero false
  | .fin _ m e => .fin false m e
  | v => v

/-- The source elements of the tile in row-major order: row, column, value (10 R250). -/
def State.tileElements (s : State) (j : TileJob) : List (Nat × Nat × FV) :=
  let fmt := if recKind j.src = 2 then bf16 else f32
  let bits := recBits j.src
  j.rows.flatMap fun i =>
    let row := s.mem.read (enginePlace j.cid (j.rowVa j.src i)) (j.rowBytes j.src)
    (List.range (j.c1 - j.c0)).map fun c => (i, j.c0 + c, fmt.unpack (rowCode bits row c))

/-- Insertion into a list with the largest magnitudes first, equals in their order. -/
def insertMag (a : Nat × FV) : List (Nat × FV) → List (Nat × FV)
  | [] => [a]
  | b :: r => if FV.lt b.2 a.2 then a :: b :: r else b :: insertMag a r

/-- ceil(log2(a / b)) of two nonzero finite values. -/
def ceilLog2 (a b : FV) : Int :=
  match a, b with
  | .fin _ m e, .fin _ n g =>
    let k : Int := m.log2 + e - (n.log2 + g) - 1
    if !FV.lt (.fin false n (g + k)) a then k
    else if !FV.lt (.fin false n (g + k + 1)) a then k + 1
    else k + 2
  | _, _ => 0

/-- The exponent of a block's scale (10 R250), from the greatest finite magnitude that is not elected. Over a MAXFIN of zero the
quotient is none and the exponent is free. -/
def blockExponent (f : Narrow) (free : Nat) (mx : FV) : Int :=
  match mx with
  | .fin _ _ _ =>
    (match f.magnitude false f.maxMag with
     | .fin n m e => min (max (ceilLog2 mx (.fin n m e)) (-127)) 127
     | _ => (free % 255 : Nat) - 127)
  | _ => 0

/-- The greatest of some magnitudes. -/
def greatestMag : List FV → FV
  | [] => .zero false
  | a :: r => let b := greatestMag r; if FV.lt b a then a else b

/-- What the quantiser computes of a tile (10 R250): the codes by row and column, the scale bytes by index, the list's entries, the flags
and the result. -/
structure TileResult where
  codes : List ((Nat × Nat) × Nat)
  scales : List (Nat × Nat)
  entries : List Nat
  flags : Nat
  result : Nat

/-- The elements of a block, scaled and encoded (10 R250). -/
def blockCodes (f : Narrow) (xs : List (Nat × Nat × FV)) (keep : List Nat) (elect : List Nat) (c0 r0 free : Nat)
    (b : List (Nat × Nat)) : Int × List ((Nat × Nat) × Nat) × Nat :=
  let index := fun (p : Nat × Nat) => (p.1 - r0) * 128 + (p.2 - c0)
  let value := fun (p : Nat × Nat) => ((xs.find? fun x => x.1 == p.1 && x.2.1 == p.2).map (·.2.2)).getD (.zero false)
  let finite := (b.filter fun p => !elect.contains (index p)).filterMap fun p => match value p with
    | .fin _ m e => some (FV.fin false m e)
    | _ => none
  let e := blockExponent f free (greatestMag finite)
  let coded := b.map fun p =>
    if keep.contains (index p) then (p, f.sign true, 0)
    else
      let y := match value p with
        | .fin n m g => FV.fin n m (g - e)
        | v => v
      let r := f.encode y
      (p, r.1, r.2)
  (e, coded.map fun x => (x.1, x.2.1), coded.foldl (fun v x => v ||| x.2.2) 0)

/-- The quantiser on a tile (10 R250); none is SPRUE_OVERFLOW. `free` gives a free value for each block. -/
def quantise (j : TileJob) (xs : List (Nat × Nat × FV)) (cap : Nat) (hasList : Bool) (free : Nat → Nat) : Option TileResult :=
  let f := narrowOf j.q.fmt
  let theta := f32.unpack (field j.q.theta.toNat 0 32)
  let index := fun (x : Nat × Nat × FV) => (x.1 - j.r0) * 128 + (x.2.1 - j.c0)
  let el := if f.zc = 1 then xs.filter fun x => !x.2.2.isNan && !theta.isNan && !FV.lt x.2.2.abs theta else []
  if cap < el.length && !j.q.clamp then none
  else
    let tooMany := decide (cap < el.length)
    let largest := ((el.map fun x => (index x, x.2.2.abs)).foldl (fun l a => insertMag a l) []).take cap
    let kept := if tooMany then el.filter fun x => largest.any fun a => a.1 == index x else el
    let keep := kept.map index
    let elect := el.map index
    let bs := (j.blocks.zip (List.range j.blocks.length)).map fun b =>
      (b.1.2, blockCodes f xs keep elect j.c0 j.r0 (free b.2) b.1.1)
    some {
      codes := bs.flatMap fun b => b.2.2.1
      scales := bs.map fun b => (b.1, (b.2.1 + 127).toNat)
      entries := if hasList then kept.map fun x => index x * 2 ^ 48 + (f32.pack 0 x.2.2).1 else []
      flags := (bs.foldl (fun v b => v ||| b.2.2.2) 0) ||| fIf tooMany fSPR
      result := tooMany.toNat * 2 ^ 24 + kept.length * 2 ^ 16 + el.length % 2 ^ 15 }

/-- The bytes that QTILE writes, in the order codes, scales, list: VA, length, value, each within one word (10 R250). -/
def TileJob.writes (j : TileJob) (list cap : Nat) (r : TileResult) : List (Nat × Nat × Nat) :=
  let w := recBits j.dst
  let n := j.rowBytes j.dst
  let rows := j.rows.flatMap fun i =>
    let v := (r.codes.filter fun c => c.1.1 == i).foldl (fun v c => v + c.2 * 2 ^ (w * (c.1.2 - j.c0))) 0
    let va := j.rowVa j.dst i
    (wordParts va n).map fun p => (p.1, p.2, v / 256 ^ (p.1 - va) % 256 ^ p.2)
  let scales := r.scales.map fun x => (recScales j.dst + x.1, 1, x.2)
  let entries := if list = 0 then [] else
    (list, 8, cap * 2 ^ 8 + r.entries.length) ::
      (r.entries.zip (List.range r.entries.length)).map fun e => (list + 8 + 8 * e.2, 8, e.1)
  rows ++ scales ++ entries

/-- Makes the writes in order; the first refused merge gives its VA (10 R250, 07 R183). -/
def State.tileStore (s : State) (cid dom : Nat) : List (Nat × Nat × Nat) → Option Nat × State
  | [] => (none, s)
  | (va, n, v) :: r => match s.storeBytes (enginePlace cid va) n v dom false false with
    | some s => s.tileStore cid dom r
    | none => (some va, s)

/-- Steps 7 and 8 of 10 R249 and the writes of R250, for the parked thread. -/
def State.quantiseTile (s : State) (cid slot : Nat) (j : TileJob) : State :=
  let cap := s.tileCap j
  let list := s.tileList j
  let tick := s.tick
  match quantise j (s.tileElements j) cap (list != 0) (fun k => (Config.freeWord 250 (tick + k)).toNat) with
  | none => (s.onThread cid slot Thread.unpark).trapAt cid slot Cause.sprueOverflow j.q.src
  | some r =>
    let s := { s with tick := tick + j.blocks.length }
    let s := s.onThread cid slot fun t => t.unpark.raise r.flags
    match (if (s.thread cid slot).fte then floatCause r.flags else none) with
    | some c => s.trapAt cid slot c 0
    | none => match s.tileStore cid j.dom (j.writes list cap r) with
      | (some va, s) => s.trapAt cid slot Cause.poison (BitVec.ofNat 64 va)
      | (none, s) =>
        (s.setGOf cid slot j.q.d (BitVec.ofNat 64 r.result)).onThread cid slot fun t =>
          { t.setTswBit 0 false with pc := t.pc + 8, issue0 := none, gathered := [] }

/-- Whether a shutter holds back what a tile reads or writes: its operands, the scales, the directory or the list (14 R347). -/
def State.tileHeld (s : State) (j : TileJob) : Bool :=
  s.engineHeld j.cid (recBase j.src) || s.engineHeld j.cid (recBase j.dst) || s.engineHeld j.cid (recScales j.dst) ||
  (match j.dirVa with
   | none => false
   | some va => s.engineHeld j.cid va || (s.tileList j != 0 && s.engineHeld j.cid (s.tileList j)))

/-- QTILE_QUANTISER_DONE (10 R249 steps 3 to 8, R250). -/
def execQtileQuantiserDone (cid slot : Nat) (s : State) : Out :=
  .next (match (s.thread cid slot).wait with
    | .engine (.quantise q) =>
      let stop := fun (c va : Nat) => (s.onThread cid slot Thread.unpark).trapAt cid slot c (BitVec.ofNat 64 va)
      if (s.module (cidModule cid)).still then s
      else match s.tileRecords cid (s.thread cid slot).dom q with
        | .error (0, _) => s
        | .error (c, va) => stop c va
        | .ok j =>
          if s.tileHeld j then s
          else match s.tileChecks j with
            | some (c, va) => stop c va
            | none => s.quantiseTile cid slot j
    | _ => s)

end Sys2Proof.Machine
end

