-- ==== Sys2Proof/Machine/System.lean ====
section
/-!
DEFINITION. The SYS instructions (14 R329 to R346): TRET, EVICT, RSTR, HALT, IDLE, INVPG, PMARK, SHUT, JDROP, CFGH, DOMSW, FQPOP, and
TRAP (R330).
-/
namespace Sys2Proof.Machine

/-- TRET (14 R329): neither a consumer nor a stray of a prefix. -/
def execTret (st : State) : Out :=
  .next (issue true .neutral [] (fun st =>
    if st.thr.trap.tdepth = 0 then st.trap Cause.trapState 0 else st.trapReturn st.cur.1 st.cur.2) st)

/-- TRAP (14 R330). -/
def execTrap (n : Fin 16) (st : State) : Out := .next (plain [] (fun st => st.trap (Cause.software n) 0) st)

/-! Names and context ids (14 R339, R340). -/

/-- What a word names for the issuing thread. -/
inductive Named where
  | bad
  | thread (cid slot : Nat)
  | context (k : Context)
  deriving DecidableEq, Repr

/-- The thread or context of the executing domain on the executing module that a word names. -/
def State.named (s : State) (w : Nat) : Named :=
  if bit w 63 then
    if field w 42 21 ≠ 0 then .bad
    else match s.ctxs.find? fun k => k.cid == s.resolveCid s.cur.1 (field w 16 26) && k.serial == field w 0 16 with
      | some k => if k.th.dom = s.thr.dom && cidModule k.cid = cidModule s.cur.1 then .context k else .bad
      | none => .bad
  else
    let cid := s.resolveCid s.cur.1 (field w 8 26)
    let slot := field w 0 8
    let t := s.thread cid slot
    if field w 34 30 ≠ 0 || t.st == .free || t.dom ≠ s.thr.dom || cidModule cid ≠ cidModule s.cur.1 || (cid, slot) = s.cur
    then .bad else .thread cid slot

/-- BAD_THREAD (14 R339). -/
def State.badThread (s : State) (w : Word) : State := s.trap Cause.badThread w

/-- The result of an instruction that acted on core `cid`: written at once on the issuing core; from another core it comes as an answer, and the
issuing thread parks until then (14 R339; log entry 44). -/
def State.resultFrom (s : State) (cid : Nat) (d : Reg) (v : Word) : State :=
  if cid = s.cur.1 then (s.setG d v).retire
  else
    let (tag, s) := s.newTag s.cur.1
    let r := s.mkReq s.cur.1 s.cur.2 tag (.query 0) 0 false
    (s.sendAns (cidKey cid) r (.data v.toNat)).parkMem (.word d.val) [⟨0, r, .out, 64⟩]

/-- EVICT (14 R339): waits until the thread can leave its slot and its context can be stored. -/
def execEvict (d s : Reg) (st : State) : Out :=
  .next (sys [d, s] (fun st =>
    match st.named (st.gn s) with
    | .thread cid slot =>
      if st.mayLeave cid slot && !st.storeFull cid (st.thread cid slot).dom then
        let r := st.evict cid slot false
        r.2.resultFrom cid d (BitVec.ofNat 64 (contextId (st.shownCid cid) r.1))
      else st.parkCore (.evicting cid slot)
    | _ => st.badThread (st.g s)) st)

/-- The handler that RSTR's handle action names for a thread on a core: TTBLc.PC of the class of TCAUSE.CAUSE (14 R340). -/
def State.handlerOf (s : State) (cid : Nat) (t : Thread) : Word :=
  ttblPc ((s.core cid).ttbl t.dom (causeClass (field t.trap.tcause.toNat 0 9)))

/-- RSTR's handle action on the FAULTED thread in a slot (14 R340). -/
def State.handleAt (s : State) (cid slot : Nat) : State :=
  let pc := s.handlerOf cid (s.thread cid slot)
  s.onThread cid slot fun t => { t.dropFetch with pc := pc, st := .trap }

/-- Restores a context and then acts on a saved FAULTED state; parks until a slot and a window are free (14 R340). -/
def State.restoreThen (s : State) (d : Nat) (k : Context) (act : State → Nat → Nat → State) : State :=
  match s.restoreRoom k with
  | none => s.parkCore (.placing k.cid k.th.win)
  | some (slot, base) =>
    let faulted := k.th.st == .faulted
    let s := s.restore k slot base
    let s := if faulted then act s k.cid slot else s
    (s.setG d (BitVec.ofNat 64 (threadName (s.shownCid k.cid) slot))).retire

/-- RSTR resume (14 R340). -/
def execRstrResume (d s : Reg) (st : State) : Out :=
  .next (sys [d, s] (fun st =>
    match st.named (st.gn s) with
    | .thread cid slot =>
      if (st.thread cid slot).st != .faulted || (st.thread cid slot).dbl then st.badThread (st.g s)
      else ((st.trapReturn cid slot).setG d (BitVec.ofNat 64 (threadName (st.shownCid cid) slot))).retire
    | .context k => if k.th.dbl then st.badThread (st.g s) else st.restoreThen d k State.trapReturn
    | .bad => st.badThread (st.g s)) st)

/-- RSTR handle (14 R340). -/
def execRstrHandle (d s : Reg) (st : State) : Out :=
  .next (sys [d, s] (fun st =>
    match st.named (st.gn s) with
    | .thread cid slot =>
      let t := st.thread cid slot
      if t.st != .faulted || t.dbl || st.handlerOf cid t = 0 then st.badThread (st.g s)
      else ((st.handleAt cid slot).setG d (BitVec.ofNat 64 (threadName (st.shownCid cid) slot))).retire
    | .context k =>
      if k.th.st != .faulted || k.th.dbl || st.handlerOf k.cid k.th = 0 then st.badThread (st.g s)
      else st.restoreThen d k State.handleAt
    | .bad => st.badThread (st.g s)) st)

/-- The refusals of a thread's unsettled entries will be discarded (14 R340). -/
def State.discardEntries (s : State) (cid slot : Nat) : State :=
  s.onCore cid fun c => { c with journal := c.journal.map fun e => if e.slot == slot then { e with discard := true } else e }

/-- Ends the task of a context and frees it (14 R340). -/
def State.killContext (s : State) (k : Context) : State :=
  let s := (s.dropContext k).dropJobsOf k.th.uid
  if k.th.svc then s.endService k.th.uid else s

/-- RSTR kill (14 R340). -/
def execRstrKill (d s : Reg) (st : State) : Out :=
  .next (sys [d, s] (fun st =>
    match st.named (st.gn s) with
    | .thread cid slot =>
      if (st.thread cid slot).st != .faulted then st.badThread (st.g s)
      else if !((st.core cid).pending slot).isEmpty then (st.discardEntries cid slot).parkCore (.killing cid slot)
      else ((st.endTask cid slot).setG d 0).retire
    | .context k => ((st.killContext k).setG d 0).retire
    | .bad => st.badThread (st.g s)) st)

/-- JDROP (14 R341). -/
def execJdrop (d s : Reg) (st : State) : Out :=
  .next (sys [d, s] (fun st =>
    match st.named (st.gn s) with
    | .thread cid slot =>
      if (st.thread cid slot).st != .faulted then st.badThread (st.g s)
      else
        let n := (st.thread cid slot).held.length
        ((st.onThread cid slot fun t => { t with held := [] }).setG d (BitVec.ofNat 64 n)).retire
    | .context k =>
      let st := { st with ctxs := st.ctxs.map fun (x : Context) =>
        if x.cid == k.cid && x.serial == k.serial then { x with th := { x.th with held := [] } } else x }
      (st.setG d (BitVec.ofNat 64 k.th.held.length)).retire
    | .bad => st.badThread (st.g s)) st)

/-- HALT (14 R341). -/
def execHalt (st : State) : Out :=
  .next (sys [] (fun st =>
    if !((st.core st.cur.1).pending st.cur.2).isEmpty then st.parkCore .drain else st.endTask st.cur.1 st.cur.2) st)

/-! The fault queue (14 R335). -/

/-- The records of a domain's fault queue on a module. -/
def State.faultQueue (s : State) (m dom : Nat) : List (List Word) :=
  match s.domain? m dom with
  | some (_, d) => d.fq
  | none => []

/-- IDLE (14 R335). -/
def execIdle (st : State) : Out :=
  .next (sys [] (fun st =>
    if (st.faultQueue (cidModule st.cur.1) st.thr.dom).isEmpty then st.parkCore .idle else st.retire) st)

/-- FQPOP (14 R335). -/
def execFqpop (d : Reg) (st : State) : Out :=
  .next (sys ((List.range 8).map (d.val + ·)) (fun st =>
    let m := cidModule st.cur.1
    match st.faultQueue m st.thr.dom with
    | [] => (st.setG d 0).retire
    | r :: q =>
      let dom := st.thr.dom
      let st := (st.onDomain m dom fun x => { x with fq := q }).pumpFaultQueue m dom
      (st.setRegs st.cur.1 st.cur.2 r d).retire) st)

/-! INVPG and PMARK (14 R343, R344; 04 R95; 07 R180). -/

/-- Drops a domain's translations of one input address at a unit (14 R343). -/
def State.dropTlb (s : State) (unit dom tb input : Nat) : State :=
  { s with tlb := s.tlb.filter fun e =>
      !(e.unit == unit && e.dom == dom && e.table == tb && e.base ≤ input && input < e.base + e.size) }

/-- The wait tags of the requests that the endpoint of a module has translated for a domain and not yet completed, of the targets that are
chosen (04 R95). -/
def State.hostPending (s : State) (m dom : Nat) (on : Target → Bool) : List (Nat × Nat) :=
  ((s.module m).outstanding.filter fun h =>
    h.req.dom == dom && h.req.op != .orderRead && on (targetOf h.req.cid h.req.va)).map fun h => (h.req.cid, h.req.tag)

/-- The host requests that were translated with a page which covers an address, the largest being 1 GiB (04 R92, R95): their module and
wait tags. -/
def State.pagePending (s : State) (cid dom : Nat) (t : Target) : Nat × List (Nat × Nat) :=
  let m := cidModule cid
  let page := fun (n : Nat) => n / 2 ^ 30
  match t with
  | .interleaved a =>
    (m, s.hostPending m dom fun
      | .interleaved b => page (hlaOf (s.masks m dom) b) == page (hlaOf (s.masks m dom) a)
      | _ => false)
  | .bank bm k ch off =>
    (s.ownModule cid bm, s.hostPending (s.ownModule cid bm) dom fun
      | .bank _ k' ch' off' => k' == k && ch' == ch && page off' == page off
      | _ => false)
  | .host a =>
    (m, s.hostPending m dom fun
      | .host b => page b == page a
      | _ => false)
  | _ => (m, [])

/-- INVPG once the translations are dropped (14 R343): it waits for the requests that were translated with them. -/
def State.invalidated (s : State) (t : Target) : State :=
  let p := s.pagePending s.cur.1 s.thr.dom t
  if p.2.isEmpty then s.retire else s.parkCore (.invpg p.1 p.2)

/-- INVPG (14 R343). -/
def execInvpg (s : Reg) (st : State) : Out :=
  .next (sys [s] (fun st =>
    let cid := st.cur.1
    let m := cidModule cid
    let dom := st.thr.dom
    let va := st.gn s
    if addressBad va then st.trap Cause.badAddress (st.g s)
    else match targetOf cid va with
      | .interleaved a =>
        let hla := hlaOf (st.masks m dom) a
        ((List.range 16).foldl (fun st k => st.dropTlb (unitOf m k .interleaved) dom Table.interleaved.code hla) st).invalidated (.interleaved a)
      | .bank bn k ch off =>
        let bm := st.ownModule cid bn
        if !st.reaches m (channelKey bm k ch) then st.trap Cause.linkUnreachable (st.g s)
        else (st.dropTlb (unitOf bm k .bank) dom Table.bank.code (ch * 2 ^ 31 + off)).invalidated (.bank bn k ch off)
      | .host a => (st.dropTlb (unitOf m 0 .host) dom Table.host.code a).invalidated (.host a)
      | _ => st.trap Cause.badAddress (st.g s)) st)

/-- The entry that maps an input address, with its address and level (04 R92, R393 step 4): the walk of PMARK. -/
def leafEntry (mem : Memory) (m stack input : Nat) : Nat → Nat → Except Nat (Nat × Nat × Nat)
  | 0, _ => .error Cause.badPte
  | level + 1, node =>
    let a := spaAddr m stack (node + 8 * levelIndex level input)
    let e := mem.read a 8
    if mem.poisoned (wordOf a) then .error Cause.poison
    else if !bit e 63 then .error Cause.notPresent
    else if bit e 56 then (if leafBad false level e || level = 0 || bit e 61 then .error Cause.badPte else .ok (a, e, level))
    else if nodeBad false level e then .error Cause.badPte
    else leafEntry mem m stack input level (field e 0 36)

/-- The leaf of PMARK for one lookup (14 R344): the channel set of a partitioned domain governs accesses, and not the table that is
marked. -/
def State.markedLeaf (s : State) (dom : Nat) (l : Lookup) : Except Nat (Nat × Nat × Nat) :=
  match s.tableRoot dom l with
  | .error c => .error c
  | .ok root => leafEntry s.mem l.m l.stack l.input 4 root

/-- Answers every waiter on the words from `lo` to `hi - 1` with DEAD_PAGE (07 R180). -/
def State.killWaiters (s : State) (lo hi : Nat) : State :=
  let mine := s.waitq.filter fun e => lo ≤ e.word * 8 && e.word * 8 < hi
  mine.foldl (fun s e => s.sendAns e.replyTo e.req (.fault Cause.deadPage))
    { s with waitq := s.waitq.filter fun e => !(lo ≤ e.word * 8 && e.word * 8 < hi) }

/-- Marks the page of a leaf not live or live in the channels that it maps (07 R180, 14 R344). -/
def State.markPage (s : State) (dom : Nat) (l : Lookup) (live : Bool) (a e level : Nat) : State :=
  if bit e 59 != live then s
  else
    let size := pageSize level
    let chans := if l.tb == .bank then [l.ch] else List.range 32
    let s := s.withMem (s.mem.write a 8 (putField e 59 1 (!live).toNat))
    let s := s.dropTlb (unitOf l.m l.stack l.tb) dom l.tb.code l.input
    chans.foldl (fun s ch =>
      let lo := dramAddr l.m l.stack ch (field e 0 31)
      if live then { s with mem := s.mem.wipe lo (lo + size), dead := s.dead.filter (· != (lo, lo + size)) }
      else ({ s with dead := s.dead ++ [(lo, lo + size)] }).killWaiters lo (lo + size)) s

/-- The lookups of the leaves that PMARK marks, or the cause that stops it (14 R344). -/
def State.markTargets (s : State) (va : Nat) : Except Nat (List Lookup) :=
  let m := cidModule s.cur.1
  if addressBad va then .error Cause.badAddress
  else match targetOf s.cur.1 va with
    | .interleaved a =>
      .ok ((List.range 16).map fun k => ⟨m, k, 0, .interleaved, hlaOf (s.masks m s.thr.dom) a⟩)
    | .bank bm k ch off =>
      let bm := s.ownModule s.cur.1 bm
      if s.reaches m (channelKey bm k ch) then .ok [⟨bm, k, ch, .bank, ch * 2 ^ 31 + off⟩]
      else .error Cause.linkUnreachable
    | _ => .error Cause.badAddress

/-- The leaves of some lookups, or the first failure. -/
def State.markLeaves (s : State) (dom : Nat) : List Lookup → Except Nat (List (Lookup × Nat × Nat × Nat))
  | [] => .ok []
  | l :: r => match s.markedLeaf dom l, s.markLeaves dom r with
    | .error c, _ => .error c
    | .ok _, .error c => .error c
    | .ok x, .ok y => .ok ((l, x) :: y)

/-- PMARK (14 R344): every leaf is checked before any is changed. -/
def pmarkOp (live : Bool) (s : Reg) (st : State) : Out :=
  .next (sys [s] (fun st =>
    let dom := st.thr.dom
    match st.markTargets (st.gn s) with
    | .error c => st.trap c (st.g s)
    | .ok ls => match st.markLeaves dom ls with
      | .error c => st.trap c (st.g s)
      | .ok xs => (xs.foldl (fun st x => st.markPage dom x.1 live x.2.1 x.2.2.1 x.2.2.2) st).retire) st)

/-- PMARK dead (14 R344). -/
def execPmarkDead (s : Reg) (st : State) : Out := pmarkOp false s st
/-- PMARK live (14 R344). -/
def execPmarkLive (s : Reg) (st : State) : Out := pmarkOp true s st

/-! Shutters (14 R347). -/

/-- The packet of a held arrival, as its sender's router gets it back. -/
def Arrival.packet : Arrival → Packet
  | .msg src g _ _ _ => ⟨src, cidKey g.dst, 4, none, true, .message g⟩
  | .mig src g => ⟨src, if g.anyCore then clusterKey g.dst else cidKey g.dst, 3, none, true, .migrate g⟩

/-- What setting a shutter of a core does: every entry of its wait pool is answered with retry, its held arrivals go back (12 R292,
14 R347). -/
def State.shutCore (s : State) (cid : Nat) : State :=
  let pool := (poolOf (localAddr cid 0)).1
  let mine := s.waitq.filter fun e => e.pool == pool
  let s := mine.foldl (fun s e => s.sendAns e.replyTo e.req .shutter)
    { s with waitq := s.waitq.filter fun e => e.pool != pool }
  let back := (s.core cid).held.map Arrival.packet
  { s.onCore cid (fun c => { c with held := [] }) with net := back ++ s.net }

/-- Whether another domain has a resident thread or launch on a core (14 R347). -/
def State.othersOn (s : State) (cid dom : Nat) : Bool :=
  (s.core cid).slots.any (fun p => p.2.st != .free && p.2.dom != dom) ||
    (s.module (cidModule cid)).launches.any fun l => l.dom != dom && l.cores.contains cid

/-- SHUT (14 R347). -/
def shutOp (on : Bool) (s : Reg) (st : State) : Out :=
  .next (sys [s] (fun st =>
    let w := st.gn s
    let cid := st.resolveCid st.cur.1 (field w 0 26)
    if field w 26 38 ≠ 0 || !st.cidOk st.cur.1 (field w 0 26) || cidModule cid ≠ cidModule st.cur.1 then
      st.trap Cause.badCid (st.g s)
    else if st.othersOn cid st.thr.dom then st.trap Cause.protection (st.g s)
    else
      let st := st.onCore cid fun c => { c with softShut := on }
      (if on then st.shutCore cid else st).retire) st)

/-- SHUT off (14 R347). -/
def execShutOff (s : Reg) (st : State) : Out := shutOp false s st
/-- SHUT on (14 R347). -/
def execShutOn (s : Reg) (st : State) : Out := shutOp true s st

/-! CFGH (14 R345). -/

/-- The address of a word within its home, for WAITPOOL (12 R291, 14 R345). -/
def State.poolWord (s : State) (cid dom va : Nat) : Except Nat Nat :=
  match s.checkAccess cid dom va 8 .read with
  | .error c => .error c
  | .ok t => if s.reaches (cidModule cid) (s.targetKey cid dom t) then
      (match t with
       | .loc c o | .unit c o => .ok (localAddr c o)
       | .remote c o =>
         let c := s.resolveCid cid c
         if admitted (s.core c).prgn dom .remote none o .read then .ok (localAddr c o) else .error Cause.protection
       | .store cl u o => .ok (storeAddr cl u o)
       | .status _ _ => .error Cause.unsupportedOp
       | t => match s.lookup cid dom t with
         | none => .error Cause.unsupportedOp
         | some l => if l.tb == .host then .error Cause.unsupportedOp
           else match (s.translate dom l .read).1 with
             | .error c => .error c
             | .ok (.dram a _ _ _) => .ok a
             | .ok (.host _ _ _ _) => .error Cause.unsupportedOp)
    else .error Cause.linkUnreachable

/-- WAITPOOL (14 R345): VALUE 0 reads; a value above the pool's size sets the size (12 R291). -/
def State.waitPool (s : State) (d : Nat) (va : Word) (v : Nat) : State :=
  let dom := s.thr.dom
  match s.poolWord s.cur.1 dom va.toNat with
  | .error c => s.trap c va
  | .ok a =>
    let p := poolOf a
    let old := s.poolLimit p.1 p.2 dom
    let s := if v = 0 then s
      else { s with limits := (p.1, dom, min v p.2) :: s.limits.filter fun x => !(x.1 == p.1 && x.2.1 == dom) }
    (s.setG d (BitVec.ofNat 64 old)).retire

/-- Reads `n` words of an instruction's own, the lowest address first, and goes on with them. -/
def State.readingWords (s : State) (va : Nat) (acc : List Word) (k : List Word → State → State) : Nat → State
  | 0 => k acc.reverse s
  | n + 1 => match s.readNow va 8 with
    | (.ok v, s) => s.readingWords (va + 8) (BitVec.ofNat 64 v :: acc) k n
    | (.fail c, s) => s.trap c (BitVec.ofNat 64 va)
    | (.blocked w, s) => s.parkCore w
    | (.ask, s) => s.gather va 8

/-- HOSTSVC (14 R334, R345): the eight words as they stand become a record of the host-service queue; the thread parks while it is
full. -/
def State.hostService (s : State) (d : Nat) (va : Word) : State :=
  let m := cidModule s.cur.1
  s.readingWords va.toNat [] (fun ws s =>
    let x := s.module m
    if 256 ≤ x.hsq.length || !x.hsWait.isEmpty then s.parkCore .hostQueue
    else
      let s := s.onModule m fun x => { x with hsq := x.hsq ++ [ws], hsSerial := x.hsSerial + 1 }
      let s := if x.hsq.isEmpty then s.raiseMsix m 2 else s
      (s.setG d 0).retire) 8

/-- CFGH (14 R345). -/
def execCfgh (d s t : Reg) (st : State) : Out :=
  .next (sys [d, s, t] (fun st =>
    let w := st.gn t
    if field w 32 24 ≠ 0 then st.trap Cause.illegal (st.g t)
    else if field w 56 8 = 1 then st.waitPool d (st.g s) (field w 0 32)
    else if field w 56 8 = 2 then st.hostService d (st.g s)
    else st.trap Cause.illegal (st.g t)) st)

/-- DOMSW (14 R346): a gang's domain asks the gang's coordinator, the management core of its lowest-numbered module. -/
def execDomsw (st : State) : Out :=
  .next (sys [] (fun st =>
    let m := cidModule st.cur.1
    match (st.domain? m st.thr.dom).bind fun d => d.2.set.gang.map fun g => (g, d.2.set) with
    | none => st.retire
    | some (g, set) => (st.sendMgmt m ((leastOf set.gangModules).getD m) (.start g)).retire) st)

end Sys2Proof.Machine
end

