-- ==== Sys2Proof/Machine/Cycle.lean ====
section
/-!
DEFINITION. The core cycle (06 R130, R131): which waiting threads go on, which slot issues, its fetch buffers (05 R103); asynchronous
traps (14 R336, R394), the limit on a wait (12 R290).
-/
namespace Sys2Proof.Machine

/-! Which cores do something. -/

/-- Whether a CID names a core of the fabric: a logical core, or in boot mode an unfused site (04 R72, 17 R376, R377). -/
def State.coreExists (s : State) (cid : Nat) : Bool :=
  s.present.contains (cidModule cid) &&
  (if (s.module (cidModule cid)).bootMode then cid / 32 % 32 < 24 && cid % 32 < 25 && !s.fused cid else cidValid cid)

/-- Whether threads of a core may issue: it is not above 115 °C, where issue stops (15 R368), nor in D3hot (03 R47), nor has boot halted (15 R364). -/
def State.coreRuns (s : State) (cid : Nat) : Bool :=
  s.coreExists cid && !(s.module (cidModule cid)).over115 && !(s.module (cidModule cid)).d3hot &&
    !(s.module (cidModule cid)).bootHalted

/-- Whether a thread that waits to leave its slot is named by a waiting EVICT (14 R339). -/
def State.leaving (s : State) (cid slot : Nat) : Bool :=
  s.cores.any fun p => p.2.slots.any fun q => q.2.wait == .core (.evicting cid slot)

/-- Whether a gang switch has stopped the threads of a domain on a core (14 R349). -/
def State.switching (s : State) (cid dom : Nat) : Bool :=
  (s.module (cidModule cid)).gangs.any fun p => match p.2.running with
    | some (_, o, _, cores) => o == dom && cores.contains cid
    | none => false

/-- Whether a thread in a slot is free to pass an instruction boundary; none of a domain that is being unbound is (15 R360). -/
def State.mayStep (s : State) (cid slot : Nat) : Bool :=
  !s.unplaced cid slot && !s.unbinding (cidModule cid) (s.thread cid slot).dom && !s.switching cid (s.thread cid slot).dom && !s.leaving cid slot

/-! Waits at the core (14 R394, first row). -/

/-- Whether what a thread waits for at its core has come (06 R127; 07 R159 to R173; 09 R214; 10 R246; 12 R301; 14 R334 to R340). -/
def State.wakeable (s : State) (cid slot : Nat) : CoreWait → Bool
  | .drain => ((s.core cid).pending slot).isEmpty
  | .journal n => (s.core cid).journalRoom slot n
  | .overlap va n => (s.overlapping cid slot va n).isEmpty
  | .order => !s.scHeld cid slot
  | .checkpoint => (s.core cid).checkpointFor slot
  | .commit => (s.regionPending cid slot).isEmpty
  | .fence c => (s.pendingIn cid slot c).isEmpty
  | .fetch => (match (s.thread cid slot).fetch with
    | .need a => !(s.thread cid slot).fetches.any fun u => u.req.va == a
    | _ => true)
  | .spawnRoom => decide ((s.cluster (cidCluster cid)).spawn.length < 512)
  | .channel => true
  | .ladleEntry _ => false
  | .submitted _ => false
  | .ring base => !s.ringBusy (cidCluster cid) (s.thread cid slot).dom base
  | .idle => !(s.faultQueue (cidModule cid) (s.thread cid slot).dom).isEmpty
  | .hostQueue =>
    let x := s.module (cidModule cid)
    decide (x.hsq.length < 256) && x.hsWait.isEmpty
  | .evicting c k => (s.thread c k).st == .free || (s.mayLeave c k && !s.storeFull c (s.thread c k).dom)
  | .killing c k => ((s.core c).pending k).isEmpty
  | .placing c win => (firstRun (s.core c).runs (win / 8)).isSome && !(s.core c).freeSlots.isEmpty
  | .migrate _ => false
  | .unit _ => true
  | .invpg m tags => !(s.module m).outstanding.any fun h => tags.contains (h.req.cid, h.req.tag)

/-- Wakes the thread in a slot if what it waits for at its core has come: it issues again, but INVPG completes, and LCOPY goes on with its
snapshot; a fetch does not count
against WLIM (12 R290). -/
def State.wakeSlot (s : State) (cid slot : Nat) : State :=
  match (s.thread cid slot).wait with
  | .core (.invpg m tags) =>
    if s.wakeable cid slot (.invpg m tags) then (s.onThread cid slot Thread.unpark).retireAt cid slot else s
  | .core (.ladleEntry a) => (s.offerCopy cid slot a).2
  | .core w =>
    if s.wakeable cid slot w then
      s.onThread cid slot fun t => { t.unpark with issue0 := if w == .fetch then none else t.issue0 }
    else s
  | _ => s

/-- Whether a thread still asks for what it queued for: its instruction has neither completed nor been abandoned (07 R159). -/
def State.asking (s : State) (cid slot : Nat) : Bool := (s.thread cid slot).issue0.isSome

/-- The queues of a core and of its cluster's ladle without the threads that ask no more, and a restored thread with a region
checkpoint when one is free (07 R159, R170, R174). -/
def State.tidy (s : State) (cid : Nat) : State :=
  let c := s.core cid
  let mine := fun (n : Nat) => n / 256 == cid && !s.asking cid (n % 256)
  let s := s.onCore cid fun c =>
    { c with
      jwait := c.jwait.filter fun k => s.asking cid k
      ckwait := match c.ckwait.filter (fun k => s.asking cid k || (c.slot k).ckpt.isSome) with
        | [] => []
        | k :: r => if (c.slot k).ckpt.isSome && decide (c.checkpoints < 16) then r else k :: r }
  let s := s.onCore cid fun x => { x with slots := x.slots.map fun (p : Nat × Thread) =>
    (p.1, if p.2.st.runs then p.2 else { p.2 with pipe := c.cyc }) }
  if (s.cluster (cidCluster cid)).eng.lwait.any mine then
    s.onEng (cidCluster cid) fun e => { e with lwait := e.lwait.filter fun n => !mine n }
  else s

/-- Wakes the threads of a core whose wait at the core is over. -/
def State.wakeCore (s : State) (cid : Nat) : State :=
  ((s.core cid).slots.map Prod.fst).foldl (fun s k => s.wakeSlot cid k) s

/-! Asynchronous traps (06 R129, 14 R327, R336). -/

/-- Takes the oldest pending asynchronous trap of a thread (06 R129, 07 R160, 14 R327). -/
def State.takeHeld (s : State) (cid slot : Nat) : State :=
  match (s.thread cid slot).held with
  | [] => s
  | a :: r =>
    let s := s.onThread cid slot fun t =>
      { t with
        held := r
        jkind := match a.refused with
          | some x => x.1
          | none => t.jkind
        jentry := match a.refused with
          | some x => x.2
          | none => t.jentry }
    s.take cid slot a.cause true (s.thread cid slot).pc (BitVec.ofNat 64 a.detail)

/-- Whether a thread has an asynchronous trap to take at its next boundary (14 R328). -/
def Thread.due (t : Thread) : Bool := !t.held.isEmpty && decide (t.trap.tdepth < 2)

/-! Fetching (05 R102, R103). -/

/-- The buffers with the current sector in front (05 R103). -/
def Thread.shift (t : Thread) : Thread :=
  let a := t.pc.toNat / 64 * 64
  match t.nxt with
  | some x => if x.addr = a then { t with cur := some x, nxt := none } else t
  | none => t

/-- Asks the home for a sector, unless it is on its way (05 R102, R103). -/
def State.askSector (s : State) (cid slot a : Nat) : State :=
  if (s.thread cid slot).fetches.any fun u => u.req.va == a then s
  else
    let (tag, s) := s.newTag cid
    let r := s.mkReq cid slot tag .sector a false
    (s.dispatchReq r).onThread cid slot fun t => { t with fetches := t.fetches ++ [⟨0, r, .out, 64⟩] }

/-- Asks for the sector after the current one, which nothing holds yet (05 R103). -/
def State.askNext (s : State) (cid slot : Nat) : State :=
  let t := s.thread cid slot
  let a := t.pc.toNat / 64 * 64 + 64
  if fetchable a && (t.sectorOf a).isNone then s.askSector cid slot a else s

/-! Issue (06 R131). -/

/-- The slots that may issue: READY or TRAP with no instruction in the pipeline (06 R130, R131). -/
def State.eligible (s : State) (cid : Nat) : List Nat :=
  let c := s.core cid
  (c.slots.filter fun p => p.2.st.runs && decide (p.2.pipe ≤ c.cyc) && s.mayStep cid p.1).map Prod.fst

/-- The first slot of a list after `last`, wrapping after 255 (06 R131). -/
def firstAfter (last : Nat) (l : List Nat) : Option Nat := leastBy (fun k => (k + 255 - last) % 256) l

/-- The slot that issues, and whether the yield mark of another is cleared (06 R131). -/
def State.choose (s : State) (cid : Nat) : Option (Nat × Option Nat) :=
  let e := s.eligible cid
  match firstAfter (s.core cid).last e with
  | none => none
  | some x =>
    if (s.thread cid x).yield && e.length > 1 then
      (firstAfter x (e.filter (· != x))).map fun y => (y, some x)
    else some (x, none)

/-- Takes the asynchronous traps that are due at a boundary, one after the other: the first instruction of a handler is the boundary at which
the next is taken (06 R129). -/
def State.takeDue (s : State) (cid slot : Nat) : Nat → State
  | 0 => s
  | n + 1 => if (s.thread cid slot).due && (s.thread cid slot).st.runs then (s.takeHeld cid slot).takeDue cid slot n else s

/-- The chosen slot has its turn (06 R131): pending asynchronous traps are taken before the next instruction, two at most (14 R328); an
instruction that is not in the buffers is asked for; else it issues. -/
def State.turn (s : State) (cid slot : Nat) : State :=
  let s := s.takeDue cid slot 2
  if !(s.thread cid slot).st.runs then s
  else
    let s := { s.onThread cid slot Thread.shift with cur := (cid, slot) }
    match (s.thread cid slot).fetch with
    | .need a => (s.askSector cid slot a).parkCore .fetch
    | _ => { s.askNext cid slot with issuing := true }

/-- CORE_CYCLE (06 R130, R131): an arrival that is placed in a cycle may issue from the next one. -/
def execCoreCycle (cid : Nat) (s : State) : Out :=
  .next (if !s.coreRuns cid then s
    else
      let s := ((s.onCore cid fun c => { c with cyc := c.cyc + 1 }).tidy cid).wakeCore cid
      let chosen := s.choose cid
      let s := s.serveHeld cid
      match chosen with
      | none => s
      | some (x, cleared) =>
        let s := match cleared with
          | some y => s.onThread cid y fun t => { t with yield := false }
          | none => s
        let s := s.onCore cid fun c => { c with last := x }
        (s.onThread cid x fun t => { t with yield := false, pipe := (s.core cid).cyc + 8 }).turn cid x)

/-! Ending a wait (12 R290, 14 R394). -/

/-- Cancels the wait of the thread in a slot (12 R290, 14 R394); `abandon` says that the instruction will issue again. -/
def State.cancelWait (s : State) (cid slot : Nat) (f : Finish) (units : List Access) (abandon : Bool) : State :=
  let p := s.cancelUnits units
  (p.2.onThread cid slot fun t => { t with wait := .mem f p.1 abandon }).settleWait cid slot

/-- Sends WITHDRAW for a join of the thread in a slot (11 R254, 14 R394). -/
def State.withdraw (s : State) (cid slot d mark : Nat) : State :=
  let cl := cidCluster cid
  (s.sendTo cl (.withdraw (s.flask cl).k) [0]).onThread cid slot fun t => { t with wait := .engine (.join d mark) }

/-- ASYNC_TRAP_ENTRY (14 R336, R394): a pending trap is taken at a boundary, or the wait of a parked thread is ended for it. -/
def execAsyncTrapEntry (cid slot : Nat) (s : State) : Out :=
  .next (
    let t := s.thread cid slot
    if !t.due || !s.coreRuns cid || !s.mayStep cid slot then s
    else if t.st.runs then s.takeHeld cid slot
    else if t.st != .parkedMem then s
    else match t.wait with
      | .core (.migrate _) => s
      | .core (.invpg _ _) => s
      | .core (.ladleEntry _) =>
        if ((s.cluster (cidCluster cid)).eng.heldLadle cid slot).isSome then s
        else ((s.leaveQueues cid slot).onThread cid slot Thread.unpark).takeHeld cid slot
      | .core _ => ((s.leaveQueues cid slot).onThread cid slot Thread.unpark).takeHeld cid slot
      | .mem f units ab =>
        if allCancellable units && (ab || units.all fun u => u.st != .cancelling) then s.cancelWait cid slot f units true
        else s
      | .engine (.join d 0) => s.withdraw cid slot d 2
      | _ => s)

/-- Whether the limit of a wait has passed (06 R140, 12 R290); it does not run while a request is to be sent again (07 R154). -/
def Thread.limitPassed (t : Thread) (now : Nat) : Bool :=
  t.wlim != 0 && t.retry0.isNone && (match t.issue0 with
    | some c => decide (c + t.wlim ≤ now)
    | none => false)

/-- What the limit does to a thread in a slot (12 R290; 10 R245; 11 R254, R277, R278; 14 R335). -/
def State.expireSlot (s : State) (cid slot : Nat) : State :=
  let t := s.thread cid slot
  match t.wait with
  | .core .idle => (s.onThread cid slot Thread.unpark).retireAt cid slot
  | .mem (.query d q) [u] _ =>
    let r := flaskReport (s.flaskFor (cidCluster cid) t.dom) q 5 0
    (s.onThread cid slot fun t =>
      { t with wait := .mem (.query d q) [{ u with st := .done (.two r.1.toNat r.2.toNat) }] false }).settleWait cid slot
  | .mem f units false => if allCancellable units then s.cancelWait cid slot f units false else s
  | .engine (.job d id) => s.mwaitDone cid slot d id
  | .engine (.outcome d q) => s.xwaitDone cid slot d (flaskReport (s.flask (cidCluster cid)) q 1 0)
  | .engine (.join d 0) => s.withdraw cid slot d 1
  | _ => s

/-- The contexts of a core that a slot left, in the context store and in the save area (14 R337, R349). -/
def State.contextsOf (s : State) (cid slot : Nat) : List Context :=
  (s.ctxs ++ (s.module (cidModule cid)).saved.flatMap fun x => x.ctxs).filter fun k => k.cid == cid && k.slot == slot

/-- A context with its wait replaced, when it is the one meant. -/
def Context.setWait (uid : Nat) (w : Wait) (x : Context) : Context :=
  if x.th.uid = uid then { x with th := { x.th with wait := w } } else x

/-- The state with every context changed, in the context stores and in the save areas. -/
def State.mapContexts (s : State) (f : Context → Context) : State :=
  { s with
    ctxs := s.ctxs.map f
    modules := s.modules.map fun (p : Nat × Module) =>
      (p.1, { p.2 with saved := p.2.saved.map fun (x : SavedCore) => { x with ctxs := x.ctxs.map f } }) }

/-- What the limit does to the wait of an evicted thread (12 R290): its core sends the cancel, and the outcome is kept. -/
def State.expireContext (s : State) (k : Context) : State :=
  match k.th.wait with
  | .mem f units false =>
    if allCancellable units then
      let p := s.cancelUnits units
      p.2.mapContexts (Context.setWait k.th.uid (.mem f p.1 false))
    else s
  | .engine (.join d 0) =>
    let cl := cidCluster k.cid
    (s.sendTo cl (.withdraw (s.flask cl).k) [0]).mapContexts (Context.setWait k.th.uid (.engine (.join d 1)))
  | _ => s

/-- WLIM_EXPIRY (12 R290): of the thread in a slot, or of the evicted threads that left that slot. -/
def execWlimExpiry (cid slot : Nat) (s : State) : Out :=
  .next (
    let now := (s.core cid).cyc
    if !s.coreRuns cid then s
    else
      let s := if (s.thread cid slot).limitPassed now then s.expireSlot cid slot else s
      ((s.contextsOf cid slot).filter fun k => k.th.limitPassed now).foldl State.expireContext s)

end Sys2Proof.Machine
end

