-- ==== Sys2Proof/Machine/Links.lean ====
section
/-!
DEFINITION. Link ports (04 R78, R79): a packet that crosses, a port that degrades or closes, and what becomes of the packets that a path
no longer carries.
-/
namespace Sys2Proof.Machine

/-- The packets that come back for one that no path carries (04 R78): the answer LINK_UNREACHABLE to a request, or in place of an
answer (log entry 23); for a flask packet to ordinal `k` what the sender gets back (11 R271); the answer that ends an all-asleep round
(14 R353) or a gang switch's first phase (03 R65). An acknowledgement of a migration that has landed still arrives, and other management messages are lost (log entry 28). -/
def Packet.returned (p : Packet) (k : Nat) : List Packet :=
  let answer := fun (cid tag : Nat) (posted : Bool) =>
    [(⟨p.dst, cidKey cid, 1, none, false, .ans cid tag posted (.fault Cause.linkUnreachable)⟩ : Packet)]
  match p.body with
  | .req r => answer r.cid r.tag r.posted
  | .cancel cid tag _ _ => answer cid tag false
  | .ans cid tag posted _ => [{ p with port := none, body := .ans cid tag posted (.fault Cause.linkUnreachable) }]
  | .migAck _ _ => [{ p with port := none }]
  | .mgmt (.query dom r _) => [⟨p.dst, p.src, 4, none, false, .mgmt (.unreachable dom r)⟩]
  | .mgmt (.status dom r _ _ _ _) => [⟨p.src, p.dst, 4, none, false, .mgmt (.unreachable dom r)⟩]
  | .mgmt (.prepare g n _ _ _) => [⟨p.dst, p.src, 4, none, false, .mgmt (.refused g n (keyModule p.dst) .notBound)⟩]
  | .mgmt (.prepared g n m) => [⟨p.src, p.dst, 4, none, false, .mgmt (.refused g n m .notBound)⟩]
  | .flask g => (match g.lostTo k with
    | some (.ans c t x a) => [⟨p.dst, cidKey c, 1, none, false, .ans c t x a⟩]
    | some b => [⟨p.dst, clusterKey g.src, 5, none, false, b⟩]
    | none => [])
  | _ => []

/-- A migration that no path carries (07 R177): the thread stays at the source; a MIGR completes, another instruction issues again and is
made split-phase. -/
def Thread.stay (t : Thread) (g : Migrant) : Thread :=
  match t.wait with
  | .core (.migrate _) =>
    if g.th.pc = t.pc then { t.unpark with gathered := (2 ^ 65, .ok) :: t.gathered }
    else { t.unpark with pc := g.th.pc, issue0 := none, gathered := [] }
  | _ => t

/-- What becomes of one packet that no path carries: a message leaves a KIND 4 record in its sender's domain (12 R303). -/
def State.lose (s : State) (p : Packet) : State :=
  let k := match p.body with
    | .flask g => (s.flask g.src).ordinalOf (keyCluster p.dst)
    | _ => 0
  let s := { s with net := s.net ++ p.returned k }
  match p.body with
  | .message g => s.messageFailed (sourceModule p.src) Cause.linkUnreachable g
  | .migrate g => s.onThread g.srcCid g.srcSlot fun t => t.stay g
  | _ => s

/-- Sends a class-15 message between management cores (03 R65, 14 R353); one that no path carries comes back as `Packet.returned` says. -/
def State.tell (s : State) (m dst : Nat) (k : Mgmt) : State :=
  if s.reaches m (mgmtKey dst) then s.sendMgmt m dst k
  else s.lose ⟨mgmtKey m, mgmtKey dst, 4, none, false, .mgmt k⟩

/-- Sends a class-15 message to several modules. -/
def State.tellAll (s : State) (m : Nat) (k : Mgmt) (dsts : List Nat) : State := dsts.foldl (fun s d => s.tell m d k) s

/-- A class-15 message that a management core may take now: the module, the sender's, the message, the state without it. In D3hot none is
taken (03 R47). -/
def State.receiveMgmt (s : State) (n : Nat) : Option (Nat × Nat × Mgmt × State) :=
  match s.receive n with
  | some (⟨src, dst, _, _, _, .mgmt k⟩, t) =>
    if (s.module (keyModule dst)).d3hot then none else some (keyModule dst, keyModule src, k, t)
  | _ => none

/-- Takes some packets from the fabric and answers them. -/
def State.losePackets (s : State) (gone : Packet → Bool) : State :=
  (s.net.filter gone).foldl State.lose { s with net := s.net.filter fun p => !gone p }

/-- Answers the watches that no path carries any more (11 R270). -/
def State.dropAllWatches (s : State) : State := (s.clusters.map Prod.fst).foldl State.dropWatches s

/-- Whether a packet has left its module and not yet crossed. -/
def Packet.onLink (p : Packet) : Bool := p.port.isSome && !p.crossed

/-- Answers the packets on their way from or to a module that has no live port left (04 R78; 03 R47; 15 R368). -/
def State.cutModule (s : State) (m : Nat) : State :=
  (s.losePackets fun p => p.onLink && (sourceModule p.src == m || keyModule p.dst == m)).dropAllWatches

/-- A port of a module after reset: open, on four lanes (04 R79). -/
def Port.fresh : Port := ⟨false, 4, 0, 0⟩

/-- Changes a port of a module. -/
def State.onPort (s : State) (m port : Nat) (f : Port → Port) : State :=
  s.onModule m fun x => { x with ports := Tab.set x.ports port (f (Tab.get Port.fresh x.ports port)) }

/-- Closes a port for data (04 R78, R79): it leaves the live up-port lists and a KIND 4 entry is logged; what it had not yet carried is
answered. A closed port reopens only at module reset. -/
def State.closePort (s : State) (m port : Nat) : State :=
  let s := (s.onPort m port fun p => { p with closed := true }).logError m 4 0 1 port
  if (s.module m).livePorts.isEmpty then s.cutModule m
  else s.losePackets (fun p => p.onLink && sourceModule p.src == m && p.port == some port) |>.dropAllWatches

/-- LINK_PORT_CLOSE (04 R78, R79). -/
def execLinkPortClose (m port : Nat) (s : State) : Out :=
  .next (if !s.present.contains m || 36 ≤ port || (Tab.get Port.fresh (s.module m).ports port).closed then s
    else s.closePort m port)

/-- LINK_PORT_DEGRADE (04 R79): the port stays open for data with fewer lanes and with the retired buffer rows while it can hold the reserve
of every virtual channel, and closes when it no longer can (log entry 103). -/
def execLinkPortDegrade (m port lanes rows : Nat) (s : State) : Out :=
  .next (if !s.present.contains m || 36 ≤ port || !(lanes == 1 || lanes == 2 || lanes == 4) then s
    else
      let p := Tab.get Port.fresh (s.module m).ports port
      if p.closed || p.lanes < lanes then s
      else
        let t := s.onPort m port fun p => { p with lanes := lanes, rows := p.rows + rows }
        if Config.reserveHeld lanes (p.rows + rows) then t else t.closePort m port)

/-- LINK_PACKET_RECEIVE (04 R78, R79): packet `n` crosses its link, after every earlier packet of its source, destination and virtual
channel; one of virtual channel 6 or 7 is discarded and counted as a link error. -/
def execLinkPacketReceive (n : Nat) (s : State) : Out :=
  .next (match s.net[n]? with
    | none => s
    | some p =>
      let before := (s.net.take n).any fun q => q.src == p.src && q.dst == p.dst && q.vc == p.vc && q.onLink
      if !p.onLink || before then s
      else if 6 ≤ p.vc then
        (s.onPort (keyModule p.dst) (p.port.getD 0) fun x => { x with errors := x.errors + 1 }).takePacket n
      else { s with net := listSet s.net n { p with crossed := true } })

end Sys2Proof.Machine
end

