-- ==== Sys2Proof/Machine/Gang.lean ====
section
/-!
DEFINITION. Gang switches (03 R65 to R68; 14 R348 to R350; 11 R273): the agreement between management cores, and on each named core
the eviction sequence: shutter, wait, save, wipe, load.
-/
namespace Sys2Proof.Machine

/-! Wipes (14 R350). -/

/-- The end of a core's local memory (04 R82). -/
def localSize : Nat := 0x60000

/-- Wipes a core for a domain that leaves it (14 R350): local memory, registers and slots; the domain's tables and counters. -/
def State.wipeCore (s : State) (cid dom : Nat) : State :=
  (s.wipeRange (localAddr cid 0) (localAddr cid localSize)).onCore cid fun c =>
    { c with
      rf := []
      slots := []
      journal := []
      jwait := []
      ckwait := []
      prgn := []
      classes := Tab.del c.classes dom
      traps := Tab.del c.traps dom
      retries := Tab.del c.retries dom
      doms := []
      locals := [] }

/-- Wipes the engine stores of a cluster and clears its regions (14 R350). -/
def State.wipeStores (s : State) (cl : Nat) : State :=
  (s.wipeRange (storeAddr cl 24 0) (storeAddr cl 29 0)).onCluster cl fun c => { c with cprgn := [], claim := 0, lastClaim := 0 }

/-! Saving and loading (14 R349). -/

/-- The listed bytes of an address range. -/
def bytesIn (mem : Memory) (lo hi : Nat) : List Host.Cell := mem.cells.filter fun c => lo ≤ c.1 && c.1 < hi
/-- The words of an address range among some words. -/
def wordsIn (ws : List Nat) (lo hi : Nat) : List Nat := ws.filter fun w => lo ≤ 8 * w && 8 * w < hi

/-- Memory with saved bytes, empty words and poisoned words put back. -/
def Memory.load (m : Memory) (bytes : List Host.Cell) (empties poison : List Nat) : Memory :=
  let m := bytes.foldl (fun m c => m.putByte c.1 c.2) m
  let m := empties.foldl (fun m w => m.setFull w false) m
  poison.foldl (fun m w => m.setPoison w true) m

/-- The contexts of a domain's threads in the slots of a core, as a switch saves them with their slot numbers (14 R349). -/
def State.slotContexts (s : State) (cid dom : Nat) : List Context :=
  ((List.range 256).filter fun k => (s.thread cid k).st != .free && (s.thread cid k).dom == dom).map fun k =>
    ⟨cid, 0, k, false, false, (s.thread cid k).saved, s.regsOf cid k⟩

/-- What a switch saves of a core for the outgoing domain (14 R349). -/
def State.saveCore (s : State) (cid dom : Nat) : SavedCore :=
  let lo := localAddr cid 0
  let hi := localAddr cid localSize
  let c := s.core cid
  ⟨cid, dom, s.slotContexts cid dom, bytesIn s.mem lo hi, wordsIn s.mem.empties lo hi, wordsIn s.mem.poison lo hi, c.prgn,
    Tab.find c.classes dom, Tab.find c.traps dom⟩

/-- What a switch saves of a cluster that it names whole (14 R349, 11 R273). -/
def State.saveCluster (s : State) (cl dom : Nat) : SavedCluster :=
  let lo := storeAddr cl 24 0
  let hi := storeAddr cl 29 0
  ⟨cl, dom, bytesIn s.mem lo hi, wordsIn s.mem.empties lo hi, wordsIn s.mem.poison lo hi, (s.cluster cl).cprgn, (s.cluster cl).claim⟩

/-- Saves a core and wipes it; the outgoing domain's cached contexts are flushed to its save area (14 R350). -/
def State.switchOut (s : State) (cid dom : Nat) : State :=
  let x := s.saveCore cid dom
  let s := if dom = 0 then s else s.onModule (cidModule cid) fun m => { m with saved := m.saved ++ [x] }
  let s := { s with ctxs := s.ctxs.map fun (k : Context) =>
    if k.cid = cid ∧ k.th.dom = dom then { k with spilled := true } else k }
  s.wipeCore cid dom

/-- Loads the incoming domain's saved state of a core, if any, each context into its slot (14 R349). -/
def State.switchIn (s : State) (cid dom : Nat) : State :=
  let m := cidModule cid
  match (s.module m).saved.find? fun x => x.cid == cid && x.dom == dom with
  | none => s
  | some x =>
    let s := s.onModule m fun y => { y with saved := y.saved.filter fun z => !(z.cid == cid && z.dom == dom) }
    let s := s.withMem (s.mem.load x.bytes x.empties x.poison)
    let s := (s.holdCore cid dom).onCore cid fun c =>
      { c with
        prgn := x.prgn
        locals := [(dom, 0, localSize)]
        classes := match x.classes with
          | some t => Tab.set c.classes dom t
          | none => c.classes
        traps := match x.traps with
          | some t => Tab.set c.traps dom t
          | none => c.traps }
    x.ctxs.foldl (fun s k => s.restore k k.slot k.th.base) s

/-- Saves and wipes the stores of a cluster for the outgoing domain and loads those of the incoming one; its flask state stays with the
outgoing domain, switched out (11 R273). -/
def State.switchStores (s : State) (cl out inn : Nat) : State :=
  let m := clusterModule cl
  let x := s.saveCluster cl out
  let s := if out = 0 then s else s.onModule m fun y => { y with savedCl := y.savedCl ++ [x] }
  let s := s.wipeStores cl
  let s := s.onFlask cl fun f => { f with out := f.st != 0 && f.dom != inn }
  match (s.module m).savedCl.find? fun y => y.cl == cl && y.dom == inn with
  | none => s
  | some y =>
    let s := s.onModule m fun z => { z with savedCl := z.savedCl.filter fun w => !(w.cl == cl && w.dom == inn) }
    (s.withMem (s.mem.load y.bytes y.empties y.poison)).onCluster cl fun c =>
      { c with cprgn := y.cprgn, claim := y.claim, lastClaim := inn }

/-! The waits of the eviction sequence (03 R67, 14 R349). -/

/-- Whether the engines of a cluster still work on something that a core submitted (03 R67): UNKNOWN counts as the outcome of a pour
(11 R273). -/
def Engines.worksFor (e : Engines) (cid : Nat) : Bool :=
  (e.ladle.any fun p => p.2.cid == cid && (p.2.st == 1 || p.2.cancel.isSome)) ||
  (e.jobs.any fun p => p.2.cid == cid && (p.2.st == 1 || p.2.st == 2)) ||
  (match e.flask.pour with
   | some p => p.cid == cid && e.flask.st != 5
   | none => false)

/-- Whether the eviction of a core can go on: every thread of the outgoing domain can leave its slot, and nothing that the core submitted
still runs. -/
def State.coreQuiet (s : State) (cid out : Nat) : Bool :=
  ((List.range 256).all fun k => (s.thread cid k).st == .free || (s.thread cid k).dom != out || s.mayLeave cid k) &&
    !s.clusters.any fun p => clusterModule p.1 == cidModule cid && p.2.eng.worksFor cid

/-! The set of cores of a switch (log entry 29). -/

/-- The settings of a gang on a module: those of the domains that belong to it there. -/
def State.gangSet (s : State) (m g : Nat) : Option DomainSettings :=
  ((s.module m).domains.find? fun p => p.2.set.gang == some g).map fun p => p.2.set

/-- Whether a core is free of every domain but two. -/
def State.onlyFor (s : State) (cid a b : Nat) : Bool :=
  ((s.core cid).slots.all fun p => p.2.st == .free || p.2.dom == a || p.2.dom == b) &&
  ((s.module (cidModule cid)).launches.all fun l => l.dom == a || l.dom == b || !l.cores.contains cid)

/-- The logical cores of a module. -/
def moduleCores (m : Nat) : List Nat := ((List.range (2 ^ 14)).map fun k => m * 2 ^ 14 + k).filter cidValid

/-- The cores of a module that the incoming domain needs (03 R65): those that were saved for it and, for each latched launch of its, the cores
that 04 R97 would choose among those that it may use and no third domain holds. -/
def State.neededCores (s : State) (m out inn : Nat) : List Nat :=
  let x := s.module m
  let usable := fun k => s.clusterAvailable (cidCluster k) inn && s.onlyFor k out inn
  let wanted := x.queues.flatMap fun p => match p.2.latch with
    | some l => if l.dom = inn then (l.choose usable m).getD [] else []
    | none => []
  (moduleCores m).filter fun k => (x.saved.any fun y => y.cid == k && y.dom == inn) || wanted.contains k

/-- A gang's state on a module. -/
def State.gang (s : State) (m g : Nat) : Gang := Tab.get Gang.fresh (s.module m).gangs g
/-- A gang's state on a module changed. -/
def State.onGang (s : State) (m g : Nat) (f : Gang → Gang) : State :=
  s.onModule m fun x => { x with gangs := Tab.set x.gangs g (f (Tab.get Gang.fresh x.gangs g)) }

/-- The domain that comes after one in a gang's list of peers. -/
def nextPeer (peers : List Nat) (current : Nat) : Nat :=
  match peers.dropWhile (· != current) with
  | _ :: b :: _ => b
  | _ => peers.headD 0

/-! The agreement (03 R65). -/

/-- The first DOMSW request for a gang that a coordinator may take (14 R346). -/
def State.startRequest (s : State) (m g : Nat) : Option Nat :=
  (List.range s.net.length).find? fun n => match s.receiveMgmt n with
    | some (d, _, .start h, _) => d == m && h == g
    | _ => false

/-- GANG_TIMER_EXPIRY (03 R65; 14 R346): the coordinator's timer expires, or the request of a DOMSW arrives: PREPARE goes to every member.
A switch in progress ends first. -/
def execGangTimerExpiry (m g : Nat) (s : State) : Out :=
  .next (match s.gangSet m g with
    | none => s
    | some d =>
      let q := s.gang m g
      let inn := nextPeer d.gangPeers q.current
      if !s.present.contains m || (s.module m).d3hot || leastOf d.gangModules ≠ some m || q.sending.isSome || q.phase1.isSome ||
          q.running.isSome then s
      else
        let s := match s.startRequest m g with
          | some n => s.takePacket n
          | none => s
        if inn = q.current then s
        else
          let s := s.onGang m g fun q => { q with sending := some (q.expect, q.current, inn), prepared := [], done := [] }
          d.gangModules.foldl (fun s k => s.tell m k (.prepare g q.expect q.current inn (s.neededCores k q.current inn))) s)

/-- GANG_PREPARE (03 R65, R68): a member stops placing the outgoing domain's work on the named cores and replies. It refuses when the incoming
domain has no settings there that name a save area: it is not bound, or is in another gang (log entry 95). -/
def execGangPrepare (n : Nat) (s : State) : Out :=
  .next (match s.receiveMgmt n with
    | some (m, src, .prepare g k out inn cores, t) =>
      let q := t.gang m g
      if k ≠ q.expect || q.phase1.isSome || q.running.isSome then t
      else match t.domain? m inn with
        | some (_, d) =>
          if d.set.gang = some g then
            (t.onGang m g fun q => { q with phase1 := some (k, out, inn, cores) }).tell m src (.prepared g k m)
          else t.tell m src (.refused g k m .notInGang)
        | none => t.tell m src (.refused g k m .notBound)
    | _ => s)

/-- GANG_PREPARED_REPLY (03 R65): the coordinator sends COMMIT once every member has sent PREPARED, ABORT at the first REFUSED. -/
def execGangPreparedReply (n : Nat) (s : State) : Out :=
  .next (match s.receiveMgmt n with
    | some (m, _, .prepared g k j, t) =>
      let q := t.gang m g
      let members := ((t.gangSet m g).map fun d => d.gangModules).getD []
      (match q.sending with
       | none => t
       | some (e, _, _) =>
         if e ≠ k || q.prepared.contains j then t
         else
           let t := t.onGang m g fun q => { q with prepared := j :: q.prepared }
           if members.all fun d => (j :: q.prepared).contains d then t.tellAll m (.commit g k) members else t)
    | some (m, _, .refused g k j _, t) =>
      let q := t.gang m g
      let members := ((t.gangSet m g).map fun d => d.gangModules).getD []
      (match q.sending with
       | none => t
       | some (e, _, _) =>
         if e ≠ k || q.prepared.contains j then t
         else (t.onGang m g fun q => { q with sending := none, prepared := [] }).tellAll m (.abort g k) members)
    | _ => s)

/-- A member that learns that a switch will not happen goes back to normal dispatch and expects the next (03 R65, R68). -/
def Gang.forget (q : Gang) : Gang := { q with phase1 := none, expect := q.expect + 1 }

/-- GANG_SWITCH_ABORT (03 R65). -/
def execGangSwitchAbort (n : Nat) (s : State) : Out :=
  .next (match s.receiveMgmt n with
    | some (m, _, .abort g k, t) => if k = (t.gang m g).expect then t.onGang m g Gang.forget else t
    | _ => s)

/-- The COMMIT that a member in phase 1 may take now. -/
def State.commitPacket (s : State) (m g : Nat) : Option (Nat × Nat × State) :=
  (List.range s.net.length).findSome? fun n => match s.receiveMgmt n with
    | some (d, src, .commit h k, t) => if d == m && h == g then some (k, src, t) else none
    | _ => none

/-- Members in AGREEING whose issuing thread is on one of some cores fault with FLASK_PREEMPTED (11 R273). -/
def State.preemptPours (s : State) (cores : List Nat) : State :=
  (s.clusters.map Prod.fst).foldl (fun s cl => match (s.flask cl).pour with
    | some x => if cores.contains x.cid then s.preemptPour cl else s
    | none => s) s

/-- The switch instant of a module (03 R66; 14 R347, R349; 11 R273): the named cores are shuttered and the outgoing domain's threads there
stop; members in AGREEING whose thread is on a named core fault. -/
def State.startSwitch (s : State) (m g : Nat) (p : Nat × Nat × Nat × List Nat) : State :=
  let cores := p.2.2.2
  let s := s.onGang m g fun q =>
    { q with phase1 := none, running := some p, expect := q.expect + 1, current := p.2.2.1, cores := cores }
  (cores.foldl (fun s k => (s.onCore k fun c => { c with gangShut := true }).shutCore k) s).preemptPours cores

/-- The named cores that are switched together: a whole cluster, or one core of a cluster that is not named whole (03 R67). -/
def switchUnit (cores : List Nat) (cid : Nat) : List Nat :=
  let cl := cidCluster cid
  if (clusterCores cl).all fun k => cores.contains k then clusterCores cl else [cid]

/-- Switches one unit of cores: save, wipe, load, and the shutters are cleared (14 R349). -/
def State.switchCores (s : State) (out inn : Nat) (ks : List Nat) : State :=
  let s := ks.foldl (fun s k => s.switchOut k out) s
  let s := match ks with
    | a :: _ :: _ => s.switchStores (cidCluster a) out inn
    | _ => s
  let s := ks.foldl (fun s k => s.switchIn k inn) s
  ks.foldl (fun s k => s.onCore k fun c => { c with gangShut := false }) s

/-- GANG_COMMIT (03 R65 to R68; 14 R349): COMMIT is received, or the sequence goes on with cores whose waits are over; after the last core
the member reports DONE. A COMMIT of another number than the one in phase 1 is ignored. -/
def execGangCommit (m g : Nat) (s : State) : Out :=
  .next (if (s.module m).d3hot then s
    else match (s.gang m g).running with
      | some (k, out, inn, cores) =>
        let left := cores.filter fun c => (s.core c).gangShut
        let s := s.preemptPours left
        let s := match left.find? fun c => (switchUnit cores c).all fun x => s.coreQuiet x out with
          | some c => s.switchCores out inn (switchUnit cores c)
          | none => s
        if cores.any fun c => (s.core c).gangShut then s
        else
          let coord := (((s.gangSet m g).bind fun d => leastOf d.gangModules)).getD m
          (s.onGang m g fun q => { q with running := none }).tell m coord (.done g k m)
      | none => match s.commitPacket m g with
        | none => s
        | some (k, _, t) => match (t.gang m g).phase1 with
          | some p => if p.1 = k then t.startSwitch m g p else t
          | none => t)

/-- GANG_DONE (03 R65): the switch is over at the coordinator when every member has reported. -/
def execGangDone (n : Nat) (s : State) : Out :=
  .next (match s.receiveMgmt n with
    | some (m, _, .done g k j, t) =>
      let q := t.gang m g
      let members := ((t.gangSet m g).map fun d => d.gangModules).getD []
      (match q.sending with
       | some (e, _, _) =>
         if e ≠ k then t
         else t.onGang m g fun q =>
           let all := j :: q.done
           { q with done := all, sending := if members.all fun d => all.contains d then none else q.sending }
       | none => t)
    | _ => s)

end Sys2Proof.Machine
end

