-- ==== Sys2Proof/Machine/Replies.lean ====
section
/-!
DEFINITION. Answers that reach a core (07 R154, R159; 12 R288, R289): of parked instructions and fetches, of journal entries; requests that
the core sends again (07 R154, R168, R179; 12 R291); a cancel at a home (12 R290).
-/
namespace Sys2Proof.Machine

/-! Requests by their wait tag (12 R289). -/

/-- Whether a request has a wait tag. -/
def Req.hasTag (r : Req) (cid tag : Nat) : Bool := r.cid == cid && r.tag == tag

/-- Whether a unit waits for the answer with a wait tag. -/
def Access.awaits (cid tag : Nat) (u : Access) : Bool :=
  u.req.hasTag cid tag && (u.st == .out || u.st == .cancelling)

/-- A unit with its answer: after a cancel a no-list answer says that no list holds it (12 R290, R291). -/
def Access.heard (u : Access) (now : Nat) (a : Ans) : Access :=
  if u.st = .cancelling && a = .noList then { u with st := .done .cancelled } else u.answered now a

/-- A thread with the units of its wait changed. -/
def Thread.onUnits (t : Thread) (f : List Access → List Access) : Thread :=
  match t.wait with
  | .mem g us ab => { t with wait := .mem g (f us) ab }
  | _ => t

/-- A thread with the answer to a wait tag. -/
def Thread.heard (t : Thread) (cid tag now : Nat) (a : Ans) : Thread :=
  (t.onUnits fun us => us.map fun u => if u.awaits cid tag then u.heard now a else u).reclock now

/-- The slot of a core whose thread waits for a tag. -/
def State.slotAwaiting (s : State) (cid tag : Nat) : Option (Nat × Access) :=
  (s.core cid).slots.findSome? fun p => (p.2.wait.units.find? (Access.awaits cid tag)).map fun u => (p.1, u)

/-- The evicted thread that waits for a tag (12 R288). -/
def State.contextAwaiting (s : State) (cid tag : Nat) : Option (Context × Access) :=
  (s.ctxs ++ (s.module (cidModule cid)).saved.flatMap fun x => x.ctxs).findSome? fun k =>
    (k.th.wait.units.find? (Access.awaits cid tag)).map fun u => (k, u)

/-! Answers to parked instructions and fetches (07 R154, 12 R288). -/

/-- What an answer says to the thread: an XSTAT's, which its member learns too, becomes the two words that it writes; a decider that no
path reaches gives OUTCOME 5 (11 R277). -/
def State.hear (s : State) (cid dom : Nat) (op : Op) (a : Ans) : Ans × State :=
  let cl := cidCluster cid
  let told := fun (s : State) (q o x : Nat) =>
    let r := flaskReport (s.flaskFor cl dom) q o x
    Ans.two r.1.toNat r.2.toNat
  match op, a with
  | .query q, .data v =>
    let s := s.learnOutcome cl q v
    (told s q (v % 2 ^ 8) (v / 2 ^ 8), s)
  | .query q, .fault _ => (told s q 5 0, s)
  | _, a => (a, s)

/-- The buffers with a sector that has arrived: the current one or the next, else it is dropped (05 R103). -/
def Thread.landSector (t : Thread) (x : Sector) : Thread :=
  let t := t.shift
  let a := t.pc.toNat / 64 * 64
  if x.addr = a then { t with cur := some x, nxt := t.nxt.filter fun y => y.addr == a + 64 }
  else if x.addr = a + 64 then { t with nxt := some x }
  else t

/-- The answer to a fetch (05 R102, R103). The failure of a sector that the thread does not need yet is forgotten: the thread asks again
when it needs the sector. -/
def Thread.landFetch (t : Thread) (u : Access) (now : Nat) (a : Ans) : Thread :=
  let rest := t.fetches.filter fun x => x.req.tag != u.req.tag
  match (u.answered now a).st with
  | .done (.sector ws ps) => { t with fetches := rest }.landSector ⟨u.req.va, ws, ps, none⟩
  | .done (.fault c) =>
    if t.fetch = .need u.req.va then { t with fetches := rest }.landSector ⟨u.req.va, [], [], some c⟩
    else { t with fetches := rest }
  | .done _ => { t with fetches := rest }
  | _ => { t with fetches := t.fetches.map fun x => if x.req.tag = u.req.tag then u.answered now a else x }

/-- The slot of a core whose thread fetches with a tag. -/
def State.slotFetching (s : State) (cid tag : Nat) : Option (Nat × Access) :=
  (s.core cid).slots.findSome? fun p => (p.2.fetches.find? (Access.awaits cid tag)).map fun u => (p.1, u)

/-- The answer with a wait tag reaches its core (07 R154, 12 R288, R289): a fetch goes on, a parked instruction completes once all its
requests are answered, an evicted thread keeps it; an answer that belongs to no thread is discarded. -/
def State.takeAnswer (s : State) (cid tag : Nat) (a : Ans) : State :=
  let now := (s.core cid).cyc
  match s.slotFetching cid tag, s.slotAwaiting cid tag, s.contextAwaiting cid tag with
  | some (k, u), _, _ => (s.onThread cid k fun t => t.landFetch u now a).wakeSlot cid k
  | none, some (k, u), _ =>
    let p := s.hear cid u.req.dom u.req.op a
    (p.2.onThread cid k fun t => t.heard cid tag now p.1).settleWait cid k
  | none, none, some (k, u) =>
    let p := s.hear cid u.req.dom u.req.op a
    p.2.mapContexts fun x => if x.th.uid = k.th.uid then { x with th := x.th.heard cid tag now p.1 } else x
  | none, none, none => s

/-- MEMORY_REPLY (07 R154; 12 R288, R289): in D3hot nothing completes (03 R47). -/
def execMemoryReply (n : Nat) (s : State) : Out :=
  .next (match s.receive n with
    | some (⟨_, _, _, _, _, .ans cid tag false a⟩, t) =>
      if (s.module (cidModule cid)).d3hot then s else t.takeAnswer cid tag a
    | _ => s)

/-! Journal entries (07 R159, R160, R172). -/

/-- The unsettled entry of a core with a wait tag. -/
def Core.entryOf (c : Core) (tag : Nat) : Option JEntry := c.journal.find? fun e => e.req.tag == tag

/-- A core with the entry of a tag changed. -/
def Core.onEntry (c : Core) (tag : Nat) (f : JEntry → JEntry) : Core :=
  { c with journal := c.journal.map fun e => if e.req.tag == tag then f e else e }

/-- What a refusal does to the thread that owns the entry (07 R160, R172): nothing when it is to be discarded, a covered failure for an
entry taken inside the open region, else STORE_REFUSED pending. -/
def State.refuse (s : State) (cid : Nat) (e : JEntry) (cause : Nat) : State :=
  if e.discard then s
  else if e.region then s.coveredFailure cid e.slot (BitVec.ofNat 64 cause)
  else s.onThread cid e.slot fun t =>
    { t with held := t.held ++ [⟨Cause.storeRefused, e.req.va, some (e.kind, e.num)⟩] }

/-- A thread that waits for entries of its own to settle goes on once they have (07 R169). -/
def State.wakeEntries (s : State) (cid slot : Nat) : State :=
  match (s.thread cid slot).wait with
  | .entries nums =>
    if ((s.core cid).pending slot).any fun e => nums.contains e.num then s else s.onThread cid slot Thread.unpark
  | _ => s

/-- The answer of a home settles an entry (07 R159): it is freed, entries behind it may be sent, a refusal is delivered. -/
def State.settleEntry (s : State) (cid : Nat) (e : JEntry) (a : Ans) : State :=
  let s := (s.onCore cid fun c => { c with journal := c.journal.filter fun x => x.req.tag != e.req.tag }).pumpJournal cid
  let s := match a with
    | .fault c => s.refuse cid e c
    | _ => s
  s.wakeEntries cid e.slot

/-- JOURNAL_ENTRY_SETTLE (07 R159, R160, R172): an answer that asks for the entry again keeps it. -/
def execJournalEntrySettle (n : Nat) (s : State) : Out :=
  .next (match s.receive n with
    | some (⟨_, _, _, _, _, .ans cid tag true a⟩, t) =>
      if (s.module (cidModule cid)).d3hot then s
      else match (t.core cid).entryOf tag with
        | none => t
        | some e =>
          let x := a.after (t.core cid).cyc e.backoff
          (match x.1 with
           | .done a => t.settleEntry cid e a
           | st => t.onCore cid fun c => c.onEntry tag fun e => { e with st := st, backoff := x.2 })
    | _ => s)

/-! Requests that the core sends again (07 R154, R168, R179; 12 R291). -/

/-- Whether a request may be sent again now: after its wait, or for SC_RETRY once nothing earlier of its thread is incomplete
(07 R168, R179; 12 R291). -/
def Retry.ready (k : Retry) (due now : Nat) (ordered : Bool) : Bool :=
  match k with
  | .refresh | .noList => decide (due ≤ now)
  | .sc => ordered
  | .shutter => true

/-- A request as it is sent again: marked as a resend after a refresh (07 R179), with the ORDERED mark of the moment (07 R168). -/
def Req.again (r : Req) (k : Retry) (ordered : Bool) : Req :=
  { r with resend := r.resend || k == .refresh, ordered := r.ordered || ordered }

/-- Counts a resend for a domain on a core; each count stops at 0xFFFF (14 R326). -/
def State.countRetry (s : State) (cid dom : Nat) (k : Retry) : State :=
  let up := fun (n : Nat) => min 0xFFFF (n + 1)
  s.onCore cid fun c =>
    let r := Tab.get ⟨0, 0, 0, 0⟩ c.retries dom
    { c with retries := Tab.set c.retries dom (match k with
        | .refresh => { r with refresh := up r.refresh }
        | .sc => { r with sc := up r.sc }
        | .noList => { r with noList := up r.noList }
        | .shutter => { r with shutter := up r.shutter }) }

/-- Whether a unit waits to be sent again for a reason. -/
def Access.waitsFor (cid tag : Nat) (k : Retry) (u : Access) : Bool :=
  u.req.hasTag cid tag && (match u.st with
    | .again j _ => j == k
    | _ => false)

/-- The cycle in which what stands so may be sent again. -/
def Sent.due : Sent → Nat
  | .again _ d => d
  | _ => 0

/-- Units with the one of a tag sent again, and its request, when it is ready; `clear` says that nothing older is incomplete. -/
def resendUnit (cid tag : Nat) (k : Retry) (now : Nat) (clear : Bool) (us : List Access) : Option (List Access × Req) :=
  match us.find? (Access.waitsFor cid tag k) with
  | none => none
  | some u =>
    let ordered := clear && (us.takeWhile fun x => x.req.tag != tag).all fun x => x.answer.isSome
    let r := u.req.again k ordered
    if k.ready u.st.due now ordered then
      some (us.map fun x => if x.req.hasTag cid tag then { x with req := r, st := .out } else x, r)
    else none

/-- Sends the journal entry of a tag again when it is ready; after SC_RETRY it holds the thread's later accesses (07 R168). -/
def State.resendEntry (s : State) (cid tag : Nat) (k : Retry) : Option (State × Req) :=
  let c := s.core cid
  match c.entryOf tag with
  | none => none
  | some e =>
    let ordered := ((c.pending e.slot).takeWhile fun x => x.req.tag != tag).isEmpty
    let r := e.req.again k ordered
    match e.st with
    | .again j due =>
      if j = k && k.ready due c.cyc ordered then
        some (s.onCore cid fun c => c.onEntry tag fun e => { e with req := r, st := .out, scHold := e.scHold || k == .sc }, r)
      else none
    | _ => none

/-- Sends the request of a parked instruction, of a fetch or of an evicted thread again when it is ready; a thread that a gang switch saved
sends its own after its restore (14 R349). -/
def State.resendParked (s : State) (cid tag : Nat) (k : Retry) : Option (State × Req) :=
  let c := s.core cid
  let slot := c.slots.findSome? fun p =>
    let clear := (c.pending p.1).isEmpty
    match resendUnit cid tag k c.cyc clear p.2.wait.units, resendUnit cid tag k c.cyc clear p.2.fetches with
    | some (us, r), _ => some (s.onThread cid p.1 fun t => (t.onUnits fun _ => us).reclock c.cyc, r)
    | none, some (us, r) => some (s.onThread cid p.1 fun t => { t with fetches := us }, r)
    | none, none => none
  match slot with
  | some x => some x
  | none => s.ctxs.findSome? fun k' =>
    (resendUnit cid tag k c.cyc true k'.th.wait.units).map fun x =>
      (s.mapContexts fun y => if y.th.uid = k'.th.uid then { y with th := (y.th.onUnits fun _ => x.1).reclock c.cyc } else y, x.2)

/-- Sends the request of a tag again, for a reason that the core counts (07 R154). -/
def State.resend (s : State) (cid tag : Nat) (k : Retry) : State :=
  if (s.module (cidModule cid)).d3hot then s
  else match s.resendEntry cid tag k, s.resendParked cid tag k with
    | some (t, r), _ => (t.countRetry cid r.dom k).dispatchReq r
    | none, some (t, r) => (t.countRetry cid r.dom k).dispatchReq r
    | none, none => s

/-- REFRESH_RETRY_RESEND (07 R179). -/
def execRefreshRetryResend (cid tag : Nat) (s : State) : Out := .next (s.resend cid tag .refresh)
/-- NO_LIST_RESEND (12 R291). -/
def execNoListResend (cid tag : Nat) (s : State) : Out := .next (s.resend cid tag .noList)
/-- SC_RETRY_RESEND (07 R168). -/
def execScRetryResend (cid tag : Nat) (s : State) : Out := .next (s.resend cid tag .sc)
/-- SHUTTER_RETRY_RESEND (07 R154). -/
def execShutterRetryResend (cid tag : Nat) (s : State) : Out := .next (s.resend cid tag .shutter)

/-! A cancel at a home (12 R288, R290). -/

/-- The state with the wait-list entry of a tag removed and answered cancelled; a request that still waits for its translation is taken
back too. -/
def State.cancelAt (s : State) (cid tag : Nat) : State :=
  match s.waitq.find? (fun e => e.req.hasTag cid tag && !e.req.posted), s.walks.find? (fun w => w.req.hasTag cid tag && !w.req.posted) with
  | some e, _ => { s with waitq := dropEntry e s.waitq }.sendAns e.replyTo e.req .cancelled
  | none, some w =>
    { s with walks := s.walks.filter fun x => !(x.req.hasTag cid tag && !x.req.posted) }.sendAns w.src w.req .cancelled
  | none, none => s

/-- WAIT_CANCEL (12 R290): one that finds no entry is discarded. -/
def execWaitCancel (n : Nat) (s : State) : Out :=
  .next (match s.receive n with
    | some (⟨_, dst, _, _, _, .cancel cid tag _ _⟩, t) =>
      if (s.module (keyModule dst)).d3hot then s else t.cancelAt cid tag
    | _ => s)

end Sys2Proof.Machine
end

