-- ==== Sys2Proof/Machine/Asleep.lean ====
section
/-!
DEFINITION. All-asleep detection (14 R351 to R353): the condition of a domain on a module, the record of a domain on one module, the
agreement of a domain on several.
-/
namespace Sys2Proof.Machine

/-! What is asleep (14 R351). -/

/-- Whether a wait on one request counts as asleep: a presence wait, a local- or cluster-path STP or STF, a wait of 07 R155, or the time
between the resends of 12 R291. -/
def Access.asleep (u : Access) : Bool :=
  let t := targetOf u.req.cid u.req.va
  u.answer.isSome ||
  (match u.st with
   | .again .noList _ => true
   | .again _ _ => false
   | _ => match u.req.op with
     | .ldf | .ldt | .waitf | .waite | .waitv _ => true
     | .stp _ | .stf _ => t.path != .global
     | .load _ | .store _ _ | .block _ _ => t.isStore
     | _ => false)

/-- Whether a RUNNING job waits on a region word or a ring slot (10 R239). -/
def State.jobWaits (s : State) (cl : Nat) (j : Job) : Bool :=
  let eng := (s.cluster cl).eng
  let words := fun (ring : Ring) =>
    let size := 2 ^ (field ring.desc 32 4)
    wordsFrom (0xE * 2 ^ 60 + field ring.desc 0 24 + ring.pos % field ring.desc 24 8 * size) (size / 8)
  j.st == 2 && j.cause == 0 &&
  (if !j.ownedAll then
     let p := s.takeRegion (accPlace cl) j.needs j.untaken j.taken
     p.1.isEmpty && p.2.1.isNone
   else !j.allFed && eng.rings.all fun p =>
     !(j.wants false p.2 || j.wants true p.2) || (words p.2).any fun a => !s.mem.full (wordOf (enginePlace j.cid a)))

/-- Whether a job of a cluster is inactive: it waits so, or it is QUEUED behind one that does (14 R351). -/
def State.jobIdle (s : State) (cl : Nat) (j : Job) : Bool :=
  s.jobWaits cl j || (j.st == 1 && (s.cluster cl).eng.jobs.any fun p => s.jobWaits cl p.2)

/-- Whether a wait counts as asleep for a thread of a core. -/
def State.waitAsleep (s : State) (cid dom : Nat) : Wait → Bool
  | .mem _ units _ => units.all Access.asleep && units.any fun u => u.answer.isNone
  | .core .idle => true
  | .engine (.join _ _) => true
  | .engine (.pour _) => (s.flask (cidCluster cid)).st == 3
  | .engine (.job _ _) => (s.cluster (cidCluster cid)).eng.jobs.all fun p =>
      p.2.dom != dom || !(p.2.st == 1 || p.2.st == 2) || s.jobIdle (cidCluster cid) p.2
  | _ => false

/-- Whether a thread in a slot is asleep. -/
def State.threadAsleep (s : State) (cid : Nat) (t : Thread) : Bool :=
  match t.st with
  | .faulted => true
  | .parkedMem => s.waitAsleep cid t.dom t.wait
  | .parkedEngine => s.waitAsleep cid t.dom t.wait
  | _ => false

/-- Whether an evicted context is asleep: its saved wait counts, and no answer is held for it. -/
def State.contextAsleep (s : State) (k : Context) : Bool :=
  k.th.st == .faulted || (s.waitAsleep k.cid k.th.dom k.th.wait && k.th.wait.units.all fun u => u.answer.isNone)

/-- Whether the head of a cluster's spawn queue can be neither placed nor helped by an eviction (04 R98, R99). -/
def State.queueStuck (s : State) (cl : Nat) : Bool :=
  match (s.cluster cl).spawn with
  | [] => true
  | q :: _ => (s.coreFor cl q).isNone && (s.evictionFor (s.taskCores cl q) 4 (descWin q.desc.toNat)).isNone

/-- Whether the oldest arrival held at a core can be neither placed nor helped by an eviction (04 R99, R100). -/
def State.arrivalStuck (s : State) (cid : Nat) : Bool :=
  match s.heldWindow cid with
  | none => false
  | some w => ((s.core cid).room 0 w).isNone && (s.evictionFor [cid] 0 w).isNone

/-- The domain of an arrival. -/
def Arrival.dom : Arrival → Nat
  | .msg _ g _ _ _ => g.dom
  | .mig _ g => g.th.dom

/-- The domain of the thread or context that an answer is for. -/
def State.answerDom (s : State) (cid tag : Nat) : Nat :=
  match s.slotAwaiting cid tag, s.contextAwaiting cid tag, (s.core cid).entryOf tag with
  | some p, _, _ => (s.thread cid p.1).dom
  | none, some p, _ => p.1.th.dom
  | none, none, some e => e.req.dom
  | none, none, none => match s.slotFetching cid tag with
    | some p => (s.thread cid p.1).dom
    | none => 0

/-- The domain that a packet belongs to, 0 for none. -/
def State.packetDom (s : State) (p : Packet) : Nat :=
  match p.body with
  | .req r => r.dom
  | .ans cid tag _ _ => s.answerDom cid tag
  | .cancel _ _ dom _ => dom
  | .message g => g.dom
  | .migrate g => g.th.dom
  | .migAck cid slot => (s.thread cid slot).dom
  | .mgmt _ => 0
  | .flask g => g.dom

/-- The items of a domain on a module, each with whether it is asleep (14 R351). -/
def State.items (s : State) (m dom : Nat) : List Bool :=
  let x := s.module m
  let cores := s.cores.filter fun p => cidModule p.1 == m
  let cls := s.clusters.filter fun p => clusterModule p.1 == m
  (cores.flatMap fun p =>
    ((p.2.slots.filter fun q => q.2.st != .free && q.2.dom == dom && !q.2.svc).map fun q => s.threadAsleep p.1 q.2) ++
    ((p.2.held.filter fun a => a.dom == dom).map fun _ => s.arrivalStuck p.1) ++
    ((p.2.journal.filter fun e => e.req.dom == dom).map fun e =>
      (match e.req.op with
       | .stp _ => true
       | _ => false) && s.waitq.any fun w => w.req.hasTag e.req.cid e.req.tag)) ++
  (((s.ctxs ++ x.saved.flatMap fun y => y.ctxs).filter fun k =>
    cidModule k.cid == m && k.th.dom == dom && !k.th.svc).map s.contextAsleep) ++
  (cls.flatMap fun p =>
    ((p.2.spawn.filter fun q => q.dom == dom).map fun _ => s.queueStuck p.1) ++
    ((p.2.eng.ladle.filter fun q => q.2.dom == dom && q.2.st != 0).map fun q => (q.2.st == 2 || q.2.st == 3) && q.2.cancel.isNone) ++
    ((p.2.eng.jobs.filter fun q => q.2.dom == dom && (q.2.st == 1 || q.2.st == 2)).map fun q => s.jobIdle p.1 q.2) ++
    (if p.2.eng.flask.dom == dom && p.2.eng.flask.pour.isSome && (p.2.eng.flask.st == 3 || p.2.eng.flask.st == 4)
     then [p.2.eng.flask.st == 3] else [])) ++
  (x.queues.filterMap fun p => match p.2.latch with
    | some l => if l.dom == dom then some (s.place m l).isNone else none
    | none => none) ++
  ((s.net.filter fun p => sourceModule p.src == m && s.packetDom p == dom).map fun _ => false) ++
  ((s.walks.filter fun w => w.unit / 17 == m && w.dom == dom).map fun _ => false)

/-- The output of a domain's AND tree on a module (14 R351). -/
def State.asleepNow (s : State) (m dom : Nat) : Bool :=
  let l := s.items m dom
  l.all id && !l.isEmpty

/-! The change count (14 R351). -/

/-- A domain's detector after a step: a rise of the output is kept until it is reported, with the change count of its moment, and each fall is
counted (14 R351, R352). -/
def Domain.watch (d : Domain) (out : Bool) : Domain :=
  if out && !d.asleep then { d with asleep := true, rises := d.rises ++ [d.falls] }
  else if !out && d.asleep then { d with asleep := false, falls := d.falls + 1 }
  else d

/-- What every step ends with: the AND trees are evaluated without interruption (14 R351). -/
def State.watchAsleep (s : State) : State :=
  { s with modules := s.modules.map fun (p : Nat × Module) =>
      (p.1, { p.2 with domains := p.2.domains.map fun (q : Nat × Domain) => (q.1, q.2.watch (s.asleepNow p.1 q.2.tag)) }) }

/-- How a step ends: what it answers, with the launches that it completed (15 R355) and the changes of the outputs (14 R351). -/
def settle : Out → Out
  | .next s => .next s.watchLaunches.watchAsleep
  | r => r

/-! Records and rounds (14 R352, R353). -/

/-- The modules on which a domain is bound. -/
def State.domModules (s : State) (dom : Nat) : List Nat := s.present.filter fun m => (s.domain? m dom).isSome

/-- The KIND 5 record (14 R332, R352, R353). -/
def State.postAsleep (s : State) (m dom w4 : Nat) : State :=
  s.postRecord m dom (recordWords 5 Cause.allAsleep 0 0 0 0 (BitVec.ofNat 64 w4) 0)

/-- ALL_ASLEEP_RISE (14 R352, R353): a rise of the output of a domain bound in a slot is reported. -/
def execAllAsleepRise (m slot : Nat) (s : State) : Out :=
  .next (match Tab.find (s.module m).domains slot with
    | none => s
    | some d =>
      match d.rises with
      | [] => s
      | n :: rest =>
        if (s.module m).d3hot then s
        else
          let s := s.onDomain m d.tag fun d => { d with rises := rest }
          match s.domModules d.tag with
          | a :: b :: r => s.tell m ((leastOf (a :: b :: r)).getD m) (.asleep d.tag m)
          | _ => s.postAsleep m d.tag n)

/-- Changes the round of a domain at its coordinator. -/
def Module.setRound (x : Module) (dom : Nat) (r : Option Round) : Module :=
  { x with rounds := x.rounds.filter (fun y => y.dom != dom) ++ r.toList }

/-- ASLEEP_RECEIPT (14 R353): the coordinator starts a round; while one runs for the domain the message waits. -/
def execAsleepReceipt (n : Nat) (s : State) : Out :=
  .next (match s.receiveMgmt n with
    | some (m, _, .asleep dom _, t) =>
      if (s.module m).rounds.any fun y => y.dom == dom then s
      else
        let r := Tab.get 0 (t.module m).roundNo dom + 1
        let t := t.onModule m fun x => { x.setRound dom (some ⟨dom, r, 1, [], []⟩) with roundNo := Tab.set x.roundNo dom r }
        t.tellAll m (.query dom r false) (t.domModules dom)
    | _ => s)

/-- ALL_ASLEEP_QUERY (14 R353): a module replies to QUERY or CONFIRM with its output and change count. -/
def execAllAsleepQuery (n : Nat) (s : State) : Out :=
  .next (match s.receiveMgmt n with
    | some (m, src, .query dom r c, t) =>
      let falls := match t.domain? m dom with
        | some (_, d) => d.falls
        | none => 0
      t.tell m src (.status dom r c m (t.asleepNow m dom) falls)
    | _ => s)

/-- A reply in a round (14 R353): the round goes on, ends with RAISE, or ends with no record. -/
def State.replied (s : State) (m : Nat) (y : Round) (j : Nat) (out : Bool) (count : Nat) : State :=
  let all := (j, out, count) :: y.replies
  let mods := s.domModules y.dom
  if !out || (y.phase == 2 && !y.first.contains (j, count)) then s.onModule m fun x => x.setRound y.dom none
  else if !mods.all fun d => all.any fun a => a.1 == d then
    s.onModule m fun x => x.setRound y.dom (some { y with replies := all })
  else if y.phase = 1 then
    (s.onModule m fun x => x.setRound y.dom (some ⟨y.dom, y.r, 2, [], all.map fun a => (a.1, a.2.2)⟩)).tellAll m
      (.query y.dom y.r true) mods
  else (s.onModule m fun x => x.setRound y.dom none).tellAll m (.raise y.dom y.r) mods

/-- ALL_ASLEEP_REPLY (14 R353): a reply of the phase that runs, or a LINK_UNREACHABLE answer, which ends the round. -/
def execAllAsleepReply (n : Nat) (s : State) : Out :=
  .next (match s.receiveMgmt n with
    | some (m, _, .status dom r c j out count, t) =>
      (match (t.module m).rounds.find? fun y => y.dom == dom && y.r == r && (y.phase == 2) == c with
       | none => t
       | some y => if y.replies.any fun a => a.1 == j then t else t.replied m y j out count)
    | some (m, _, .unreachable dom r, t) =>
      (match (t.module m).rounds.find? fun y => y.dom == dom && y.r == r with
       | none => t
       | some _ => t.onModule m fun x => x.setRound dom none)
    | _ => s)

/-- ALL_ASLEEP_RAISE (14 R353): the module posts the KIND 5 record with the round's number. -/
def execAllAsleepRaise (n : Nat) (s : State) : Out :=
  .next (match s.receiveMgmt n with
    | some (m, _, .raise dom r, t) => t.postAsleep m dom r
    | _ => s)

end Sys2Proof.Machine
end

