-- ==== Sys2Proof/Machine/FloatScalar.lean ====
section
/-!
DEFINITION. The scalar float instructions: FS32, FS64, FCMP and FCVT (08 R209 to R211).
-/
namespace Sys2Proof.Machine

/-- The format of a width (08 R209). -/
def fmtOf : Width → FFormat
  | .w32 => f32
  | .w64 => f64

/-- A float operand: the low bits of a register (08 R209). -/
def State.fop (s : State) (f : FFormat) (r : Nat) : Nat := s.gn r % 2 ^ f.width

/-- gD from the bits of gS and gT, with flags (08 R209). -/
def floatOp (w : Width) (d s t : Reg) (f : FFormat → Nat → Nat → Nat → Nat × Nat) (st : State) : Out :=
  .next (plain [d, s, t] (fun st =>
    let x := fmtOf w
    let r := f x st.thr.rm (st.fop x s) (st.fop x t)
    st.flagged r.2 fun st => (st.setG d (BitVec.ofNat 64 r.1)).retire) st)

/-- gD from gS's value, with flags (08 R209, R211). -/
def floatUnary (d s : Reg) (f : Nat → Nat → Nat × Nat) (st : State) : Out :=
  .next (plain [d, s] (fun st =>
    let r := f st.thr.rm (st.gn s)
    st.flagged r.2 fun st => (st.setG d (BitVec.ofNat 64 r.1)).retire) st)

/-- The four float conditions (08 R196): the condition and NV. -/
def fpEq (a b : FV) : Bool × Nat := (FV.eq a b, fIf (a.isSnan || b.isSnan) fNV)
def fpLt (a b : FV) : Bool × Nat := (!a.isNan && !b.isNan && FV.lt a b, fIf (a.isNan || b.isNan) fNV)
def fpLe (a b : FV) : Bool × Nat := (!a.isNan && !b.isNan && !FV.lt b a, fIf (a.isNan || b.isNan) fNV)
def fpUn (a b : FV) : Bool × Nat := (a.isNan || b.isNan, fIf (a.isSnan || b.isSnan) fNV)

/-- pD from a float condition (08 R210). -/
def floatCmp (f : FFormat) (p : Pred) (s t : Reg) (c : FV → FV → Bool × Nat) (st : State) : Out :=
  .next (plain [s, t] (fun st =>
    let r := c (f.unpack (st.fop f s)) (f.unpack (st.fop f t))
    st.flagged r.2 fun st => (st.setP p (if r.1 then ones else 0)).retire) st)

/-- A value of one format in another; a signalling NaN sets NV (08 R211). -/
def convertFormat (a b : FFormat) (rm v : Nat) : Nat × Nat :=
  let x := a.unpack (v % 2 ^ a.width)
  b.result rm (x, fIf x.isSnan fNV)

/-- An integer in a float format (08 R200). -/
def floatOfInt (f : FFormat) (rm : Nat) (i : Int) : Nat × Nat := f.pack rm (FV.ofInt i 0 false)

/-- FADD (08 R209). -/
def execFadd (w : Width) (d s t : Reg) (st : State) : Out :=
  floatOp w d s t (fun x rm a b => x.result rm (FV.add rm (x.unpack a) (x.unpack b))) st
/-- FSUB (08 R209). -/
def execFsub (w : Width) (d s t : Reg) (st : State) : Out :=
  floatOp w d s t (fun x rm a b => x.result rm (FV.add rm (x.unpack a) (x.unpack b).flip)) st
/-- FMUL (08 R209). -/
def execFmul (w : Width) (d s t : Reg) (st : State) : Out :=
  floatOp w d s t (fun x rm a b => x.result rm (FV.mul (x.unpack a) (x.unpack b))) st
/-- FDIV (08 R209). -/
def execFdiv (w : Width) (d s t : Reg) (st : State) : Out :=
  floatOp w d s t (fun x rm a b => x.result rm (FV.div (x.unpack a) (x.unpack b))) st
/-- FSQRT (08 R209). -/
def execFsqrt (w : Width) (d s : Reg) (st : State) : Out :=
  floatUnary d s (fun rm v => (fmtOf w).result rm (FV.sqrt ((fmtOf w).unpack (v % 2 ^ (fmtOf w).width)))) st
/-- FMIN (08 R209). -/
def execFmin (w : Width) (d s t : Reg) (st : State) : Out := floatOp w d s t (fun x _ a b => x.min a b) st
/-- FMAX (08 R209). -/
def execFmax (w : Width) (d s t : Reg) (st : State) : Out := floatOp w d s t (fun x _ a b => x.max a b) st
/-- FABS (08 R209). -/
def execFabs (w : Width) (d s : Reg) (st : State) : Out :=
  floatUnary d s (fun _ v => (v % 2 ^ ((fmtOf w).width - 1), 0)) st
/-- FNEG (08 R209). -/
def execFneg (w : Width) (d s : Reg) (st : State) : Out :=
  floatUnary d s (fun _ v => (v % 2 ^ (fmtOf w).width ^^^ 2 ^ ((fmtOf w).width - 1), 0)) st
/-- FMA (08 R209): s × t + d, rounded once; NV for 0 × infinity with a quiet NaN addend is the part's own (log entry 8). -/
def execFma (w : Width) (d s t : Reg) (st : State) : Out :=
  .next (plain [d, s, t] (fun st =>
    let x := fmtOf w
    let a := st.fop x s
    let b := st.fop x t
    let c := st.fop x d
    let v := FV.fma st.thr.rm (x.unpack a) (x.unpack b) (x.unpack c)
      (Config.fmaInvalid (BitVec.ofNat 64 a) (BitVec.ofNat 64 b) (BitVec.ofNat 64 c))
    let r := x.result st.thr.rm v
    st.flagged r.2 fun st => (st.setG d (BitVec.ofNat 64 r.1)).retire) st)
/-- FCVTI (08 R200, R209): a float converted to i64. -/
def execFcvti (w : Width) (d s : Reg) (st : State) : Out :=
  floatUnary d s (fun rm v =>
    let r := toInteger rm (-2 ^ 63) (2 ^ 63 - 1) ((fmtOf w).unpack (v % 2 ^ (fmtOf w).width))
    ((BitVec.ofInt 64 r.1).toNat, r.2)) st
/-- FCVTF (08 R209): an i64 rounded to the float type. -/
def execFcvtf (w : Width) (d s : Reg) (st : State) : Out :=
  floatUnary d s (fun rm v => floatOfInt (fmtOf w) rm (sextNat 64 v)) st

/-- FCEQ32 (08 R210). -/
def execFceq32 (p : Pred) (s t : Reg) (st : State) : Out := floatCmp f32 p s t fpEq st
/-- FCEQ64 (08 R210). -/
def execFceq64 (p : Pred) (s t : Reg) (st : State) : Out := floatCmp f64 p s t fpEq st
/-- FCLT32 (08 R210). -/
def execFclt32 (p : Pred) (s t : Reg) (st : State) : Out := floatCmp f32 p s t fpLt st
/-- FCLT64 (08 R210). -/
def execFclt64 (p : Pred) (s t : Reg) (st : State) : Out := floatCmp f64 p s t fpLt st
/-- FCLE32 (08 R210). -/
def execFcle32 (p : Pred) (s t : Reg) (st : State) : Out := floatCmp f32 p s t fpLe st
/-- FCLE64 (08 R210). -/
def execFcle64 (p : Pred) (s t : Reg) (st : State) : Out := floatCmp f64 p s t fpLe st
/-- FCUN32 (08 R210). -/
def execFcun32 (p : Pred) (s t : Reg) (st : State) : Out := floatCmp f32 p s t fpUn st
/-- FCUN64 (08 R210). -/
def execFcun64 (p : Pred) (s t : Reg) (st : State) : Out := floatCmp f64 p s t fpUn st

/-- F32TO64 (08 R211). -/
def execF32to64 (d s : Reg) (st : State) : Out := floatUnary d s (convertFormat f32 f64) st
/-- F64TO32 (08 R211). -/
def execF64to32 (d s : Reg) (st : State) : Out := floatUnary d s (convertFormat f64 f32) st
/-- F32TOH16 (08 R211). -/
def execF32toh16 (d s : Reg) (st : State) : Out := floatUnary d s (convertFormat f32 h16) st
/-- H16TOF32 (08 R211). -/
def execH16tof32 (d s : Reg) (st : State) : Out := floatUnary d s (convertFormat h16 f32) st
/-- F32TOBF (08 R211). -/
def execF32tobf (d s : Reg) (st : State) : Out := floatUnary d s (convertFormat f32 bf16) st
/-- BFTOF32 (08 R211). -/
def execBftof32 (d s : Reg) (st : State) : Out := floatUnary d s (convertFormat bf16 f32) st
/-- FCLASS32 (08 R211). -/
def execFclass32 (d s : Reg) (st : State) : Out := floatUnary d s (fun _ v => (f32.classMask (v % 2 ^ 32), 0)) st
/-- FCLASS64 (08 R211). -/
def execFclass64 (d s : Reg) (st : State) : Out := floatUnary d s (fun _ v => (f64.classMask (v % 2 ^ 64), 0)) st

end Sys2Proof.Machine
end

