-- ==== Sys2Proof/Machine/HomeSteps.lean ====
section
/-!
DEFINITION. The steps of a home (04 R80, R91 to R95, R393) and of its memory: a request that reaches it, a translation walk that ends,
refresh (07 R178, R179), the scrubber (07 R181).
-/
namespace Sys2Proof.Machine

/-! Translation walks (04 R94). -/

/-- The 64 KiB page of an input address, by which walks are joined (04 R94). -/
def pageOf (input : Nat) : Nat := input / 2 ^ 16

/-- Whether a waiting request waits for the walk of a page. -/
def Walk.isFor (w : Walk) (unit dom tb page : Nat) : Bool :=
  w.unit == unit && w.dom == dom && w.table == tb && w.page == page

/-- The walk that a lookup of a domain would start or join. -/
def walkOf (dom : Nat) (l : Lookup) (src : Nat) (r : Req) : Walk :=
  ⟨unitOf l.m l.stack l.tb, dom, l.tb.code, pageOf l.input, src, r⟩

/-- A request after translation by a leaf: its check and its access (04 R393 steps 5 to 7). -/
def State.afterLeaf (s : State) (src hint : Nat) (l : Lookup) (lf : Leaf) (r : Req) : Option Ans × State :=
  match leafCheck lf r.op.kind with
  | some c => (some (.fault c), s)
  | none => s.atLocation l.m src hint (lf.locate l.m l.stack l.ch l.input) r

/-- A request that a table maps, at its home (04 R393): a hit in the cache skips the root and the walk; a miss waits for a walk, and so
does a request to a page that is being walked (04 R94). -/
def State.atTable (s : State) (src hint : Nat) (l : Lookup) (r : Req) : Option Ans × State :=
  let w := walkOf r.dom l src r
  let busy := s.walks.any fun x => x.isFor w.unit w.dom w.table w.page
  match s.homeRoot r.dom l, s.cached w.unit r.dom l.tb.code l.input with
  | .error c, hit =>
    if c ≠ Cause.notPresent then (some (.fault c), s)
    else (match hit with
      | some lf => s.afterLeaf src hint l lf r
      | none => (some (.fault c), s))
  | .ok _, some lf => if busy then (none, { s with walks := s.walks ++ [w] }) else s.afterLeaf src hint l lf r
  | .ok _, none => (none, { s with walks := s.walks ++ [w] })

/-- A request at the home that a destination key names (04 R80, R393; 07 R155, R163; 12 R282): its answer, or none while it waits. -/
def State.atHome (s : State) (dst hint : Nat) (r : Req) : Option Ans × State :=
  if !r.op.supported (s.module (keyModule dst)).code then (some (.fault Cause.unsupportedOp), s)
  else match r.op with
    | .orderRead =>
      let m := keyModule dst
      (none, s.onModule m fun x => { x with outstanding := x.outstanding ++ [⟨.core, r, 0, false, false⟩] })
    | _ =>
      let t := targetOf r.cid r.va
      match s.lookup r.cid r.dom t with
      | some l => s.atTable dst hint l r
      | none => s.atCluster t (fun cl i => s.statusWord cl r.dom i) r

/-- The source number, at the home of a key, of the words of a block that it still writes: each block has its own, so that R78 orders
nothing else. -/
def Req.partSource (r : Req) (dst : Nat) : Nat := 2 ^ 62 + (r.cid * 2 ^ 32 + r.tag) * 2 ^ 24 + dst

/-- What is still to be written of a block goes on at its home (08 R206, 13 R307). -/
def State.sendParts (s : State) (dst : Nat) (r : Req) (a mask data : Nat) (tol subn : Bool) : State :=
  s.sendRaw (keyModule dst) (r.partSource dst) dst r.vc (.req { r with op := .parts a mask data tol subn })

/-- The words of a block that a mask touches. -/
def partsLeft (mask : Nat) : List Nat := (List.range 8).filter fun j => blockMask mask j != 0

/-- One more word of a block is written, any of those left (08 R206, 13 R307): after the last the store is answered. -/
def State.writePart (s : State) (dst pick : Nat) (r : Req) (a mask data : Nat) (tol subn : Bool) : State :=
  let left := partsLeft mask
  match left[pick % left.length]? with
  | none => s.sendAns dst r .ok
  | some j =>
    let s := s.blockWord a mask data r.dom tol subn j
    if left.length = 1 then s.sendAns dst r .ok else s.sendParts dst r a (putField mask (8 * j) 8 0) data tol subn

/-- The state with the answer of a home sent, if it has one; a block that is begun goes on word by word. -/
def answerFrom (src : Nat) (r : Req) (p : Option Ans × State) : State :=
  match p.1, r.op with
  | some (.begun a tol subn), .block mask data => p.2.sendParts src r a mask data tol subn
  | some a, _ => p.2.sendAns src r a
  | none, _ => p.2

/-- HOME_ACCESS_REQUEST (04 R393): `hint` is the wait that a bank under refresh asks for (07 R179), or which word of a block is
written next (08 R206). In D3hot nothing is performed (03 R47). -/
def execHomeAccessRequest (n hint : Nat) (s : State) : Out :=
  .next (match s.receive n with
    | some (⟨_, dst, _, _, _, .req r⟩, t) =>
      (match r.op with
       | .lctl _ _ => s
       | .parts a mask data tol subn =>
         if (s.module (keyModule dst)).d3hot then s else t.writePart dst hint r a mask data tol subn
       | _ => if (s.module (keyModule dst)).d3hot then s else answerFrom dst r (t.atHome dst hint r))
    | _ => s)

/-- The pages that a unit walks or has waiting for the domains that share its walks with `dom`, in order of arrival (03 R60). -/
def State.walkedPages (s : State) (unit dom : Nat) : List (Nat × Nat × Nat) :=
  let share := s.unitShare unit dom 128 DomainSettings.walkShare
  ((s.walks.filter fun w => w.unit == unit && share.2 w.dom).map fun w => (w.dom, w.table, w.page)).foldl
    (fun acc p => if acc.contains p then acc else acc ++ [p]) []

/-- A waiting request goes on with what its walk found (04 R94): a fault is its own, and no fault is cached. -/
def State.walked (s : State) (hint : Nat) (w : Walk) : State :=
  match s.lookup w.req.cid w.req.dom (targetOf w.req.cid w.req.va) with
  | none => s
  | some l => match s.homeRoot w.req.dom l with
    | .error c => s.sendAns w.src w.req (.fault c)
    | .ok root => match s.walkFrom l root with
      | .error c => s.sendAns w.src w.req (.fault c)
      | .ok lf =>
        let s := if (s.cached w.unit w.req.dom l.tb.code l.input).isSome || (leafCheck lf w.req.op.kind).isSome then s
          else s.cache w.unit w.req.dom l.tb.code l.input lf
        answerFrom w.src w.req (s.afterLeaf w.src hint l lf w.req)

/-- TRANSLATION_WALK_DONE (04 R94): the walk that request `n` waits for, one of the 128 that its unit runs and within its domain's share, ends; the requests that joined
it go on in order of arrival. -/
def execTranslationWalkDone (n : Nat) (s : State) : Out :=
  .next (match s.walks[n]? with
    | none => s
    | some w =>
      if (s.module (keyModule w.src)).d3hot || !((s.walkedPages w.unit w.dom).take (s.unitShare w.unit w.dom 128 DomainSettings.walkShare).1).contains (w.dom, w.table, w.page) then s
      else
        let (h, s) := s.free 179
        let mine := s.walks.filter fun x => x.isFor w.unit w.dom w.table w.page
        let s := { s with walks := s.walks.filter fun x => !x.isFor w.unit w.dom w.table w.page }
        mine.foldl (fun s x => s.walked h x) s)

/-! Refresh and the scrubber (07 R178, R179, R181). -/

/-- The number of a channel of a stack of a module. -/
def channelNumber (m stack ch : Nat) : Nat := (m * 16 + stack) * 32 + ch

/-- DRAM_REFRESH (07 R178, R179): a channel refreshes one bank, or none. -/
def execDramRefresh (m stack ch : Nat) (bank : Option Nat) (s : State) : Out :=
  .next (if 16 ≤ stack || 32 ≤ ch || !s.present.contains m then s
    else match bank with
      | some b => { s with refreshing := Tab.set s.refreshing (channelNumber m stack ch) b }
      | none => { s with refreshing := Tab.del s.refreshing (channelNumber m stack ch) })

/-- REFRESH_RATE_CHANGE (07 R178, 14 R354): a stack crosses 85 °C; KIND 5 upwards, KIND 6 downwards. -/
def execRefreshRateChange (m stack : Nat) (hot : Bool) (s : State) : Out :=
  .next (
    let k := m * 16 + stack
    if 16 ≤ stack || !s.present.contains m || s.hotStacks.contains k == hot then s
    else
      let s := { s with hotStacks := if hot then setInsert s.hotStacks k else setErase s.hotStacks k }
      s.logError m (if hot then 5 else 6) 0 1 stack)

/-- Whether an address lies in a page that is not live (07 R180). -/
def State.isDead (s : State) (a : Nat) : Bool := s.dead.any fun r => r.1 ≤ a && a < r.2

/-- A corrected error of a channel: KIND 1 when its count reaches 1,024 (07 R181, 14 R354). -/
def State.countCorrected (s : State) (m c a : Nat) : State :=
  let n := Tab.get 0 s.corrected c + 1
  if n < 1024 then { s with corrected := Tab.set s.corrected c n }
  else { s with corrected := Tab.set s.corrected c 0 }.logError m 1 0 1024 (a % 2 ^ 40)

/-- SCRUB_WORD (07 R181): the scrubber reads a live word. A correctable error is counted, an uncorrectable one poisons the word, KIND 2; a
word that holds the poison pattern has no error. -/
def execScrubWord (m stack ch off : Nat) (e : EccFinding) (s : State) : Out :=
  .next (
    let a := dramAddr m stack ch (off / 8 * 8)
    if 16 ≤ stack || 32 ≤ ch || 2 ^ 31 ≤ off || !s.present.contains m || s.isDead a || s.mem.poisoned (wordOf a) then s
    else match e with
      | .clean => s
      | .correctable => s.countCorrected m (channelNumber m stack ch) a
      | .uncorrectable => (s.withMem (s.mem.setPoison (wordOf a) true)).logError m 2 0 1 (a % 2 ^ 40))

end Sys2Proof.Machine
end

