-- ==== Sys2Proof/Machine/Host.lean ====
section
/-!
DEFINITION. The endpoint and the host (03 R46 to R55; 07 R157, R182; 12 R299; 15 R358; 16 R373): the put window, the device-memory BAR,
the control registers, completions of the device's own requests, Device Control 2.
-/
namespace Sys2Proof.Machine

/-- How the endpoint answers when it performs nothing: Unsupported Request in D3hot (03 R47), Completer Abort above 115 °C (15 R368). -/
def Module.turnedAway (x : Module) : Option HostStatus :=
  if x.d3hot then some .unsupported else if x.over115 then some .abort else none

/-- The state with the endpoint's last answer. -/
def State.answerHost (s : State) (m : Nat) (st : HostStatus) (data : List Byte) : State :=
  s.onModule m fun x => { x with reply := ⟨st, data⟩ }

/-- A request to the endpoint: turned away, or performed. -/
def State.hostRequest (s : State) (m : Nat) (k : State → State) : State :=
  if !s.present.contains m then s
  else match (s.module m).turnedAway with
    | some st => s.answerHost m st []
    | none => k s

/-- A configuration request: answered in every power state (03 R47), but with Completer Abort above 115 °C (15 R368). -/
def State.configRequest (s : State) (m : Nat) (k : State → State) : State :=
  if !s.present.contains m then s
  else if (s.module m).over115 then s.answerHost m .abort []
  else k s

/-- Where a DRAM word of a domain lies for the endpoint and the firmware of a module. -/
def State.placeInDram (s : State) (m dom va : Nat) : Option Nat :=
  match s.lookup (m * 2 ^ 14) dom (targetOf (m * 2 ^ 14) va) with
  | none => none
  | some l => match (s.translate dom l .read).1 with
    | .ok (.dram a _ _ _) => some a
    | _ => none

/-! The configuration space (03 R46, R47). -/

/-- The features of 03 R46 that a PCI Express function may advertise. -/
inductive PcieFeature where
  | atomicRequester | atomicCompleter | errorReporting | poisoning | functionLevelReset | msix | completionTimeoutAtoD
  | completionTimeoutDisable | noSoftReset | aspmL0s | aspmL1 | pme | srIov | ats | pri | pasid | ide | tdisp | doe | spdm | resizableBar
  deriving DecidableEq, Repr

/-- Whether the configuration space advertises a feature (03 R46, R47): the absent ones it does not, and No_Soft_Reset is 0. -/
def PcieFeature.advertised : PcieFeature → Bool
  | .atomicRequester | .atomicCompleter | .errorReporting | .poisoning | .functionLevelReset | .msix | .completionTimeoutAtoD => true
  | .completionTimeoutDisable | .noSoftReset | .aspmL0s | .aspmL1 | .pme | .srIov | .ats | .pri | .pasid | .ide | .tdisp | .doe |
    .spdm | .resizableBar => false

/-- The number of MSI-X vectors (03 R46). -/
def msixVectors : Nat := 16
/-- The tag bits of the endpoint's requests (03 R46). -/
def tagBits (flitMode : Bool) : Nat := if flitMode then 14 else 10
/-- Max Payload Size in bytes: codes up to 2, 128 to 512 bytes, are supported (03 R46). -/
def maxPayload (code : BitVec 3) : Option Nat := if code.toNat ≤ 2 then some (128 * 2 ^ code.toNat) else none
/-- Max Read Request Size in bytes: up to 4,096 (03 R46). -/
def maxRead (code : BitVec 3) : Option Nat := if code.toNat ≤ 5 then some (128 * 2 ^ code.toNat) else none

/-! The put window (03 R54). -/

/-- The bytes of a list as a number, the first least significant. -/
def ofBytes : List Byte → Nat
  | [] => 0
  | b :: r => b.toNat + 256 * ofBytes r

/-- The bytes of a number, the least significant first. -/
def toBytes : Nat → Nat → List Byte
  | 0, _ => []
  | n + 1, v => BitVec.ofNat 8 v :: toBytes n (v / 256)

/-- One word of a put-window write (03 R54): a full word stands and COLL counts the write. A word that cannot be reached is not written
(log entry 26). -/
def State.putWindowWord (s : State) (m q dom va v : Nat) : State :=
  match s.unitAct m dom va (.touch true) none with
  | (.ok _, s) => (match s.unitAct m dom va .probe none with
    | (.ok p, s) =>
      if bit p 0 then s.onQueue m q fun x => { x with coll := min 0xFFFF (x.coll + 1) }
      else (s.unitAct m dom va (.stf v) none).2
    | (_, s) => s)
  | (_, s) => s

/-- The words of a put-window write in ascending order. -/
def State.putWindowWords (s : State) (m q dom va : Nat) : Nat → List Byte → State
  | 0, _ => s
  | n + 1, data => (s.putWindowWord m q dom va (ofBytes (data.take 8))).putWindowWords m q dom (va + 8) n (data.drop 8)

/-- Whether a put-window write is malformed (03 R54). -/
def Queue.putBad (y : Queue) (off len : Nat) : Bool :=
  off % 8 != 0 || len % 8 != 0 || decide (128 * 2 ^ y.sizelog < off + len) || decide (128 * 2 ^ y.sizelog ≤ off) || !y.en

/-- PUT_WINDOW_WRITE (03 R49, R54): a malformed write is discarded whole and BADW is set; a poisoned one is reported through AER too. -/
def execPutWindowWrite (m q off : Nat) (data : List Byte) (poisoned : Bool) (s : State) : Out :=
  .next (s.hostRequest m fun s =>
    let y := (s.module m).queue q
    if 64 ≤ q then s
    else if y.putBad off data.length || poisoned then
      let s := s.onQueue m q fun x => { x with badw := true }
      if poisoned then s.raiseAer m 1 else s
    else s.putWindowWords m q y.dom ((y.base.toNat + off) % 2 ^ 64) (data.length / 8) data)

/-- One word of a put-window read (03 R54): its data whatever P holds, and whether it is poisoned; zero at or beyond the ring. A word that
cannot be reached reads as a free value (log entry 26). -/
def State.putWindowReadWord (s : State) (m q off : Nat) : Nat × Bool :=
  let y := (s.module m).queue q
  if 128 * 2 ^ y.sizelog ≤ off then (0, false)
  else match s.placeInDram m y.dom ((y.base.toNat + off) % 2 ^ 64) with
    | some a => (s.mem.read a 8, s.mem.poisoned (wordOf a))
    | none => ((s.free 54).1, false)

/-- What the host reads from `n` words of put-window aperture `q` (03 R49, R54): a read changes nothing, so it is no step (log entry 78). -/
def State.putWindowRead (s : State) (m q off n : Nat) : HostReply :=
  match (s.module m).turnedAway with
  | some st => ⟨st, []⟩
  | none =>
    let ws := (List.range n).map fun i => s.putWindowReadWord m q (off + 8 * i)
    ⟨if ws.any (·.2) then .poisoned else .ok, ws.flatMap fun w => toBytes 8 w.1⟩

/-! The device-memory BAR (03 R49, R50). -/

/-- The physical address of an offset of the device-memory BAR (03 R50). -/
def barAddr (m off : Nat) : Nat := m * 2 ^ 40 + off

/-- Whether a range of `n` bytes meets a page that is not live (03 R50). -/
def State.meetsDead (s : State) (a n : Nat) : Bool := s.dead.any fun r => rangesMeet a n r.1 (r.2 - r.1)

/-- DEVICE_MEMORY_READ (03 R50): the data whatever P holds; zeros until the boot is complete (15 R362). -/
def execDeviceMemoryRead (m off len : Nat) (s : State) : Out :=
  .next (s.hostRequest m fun s =>
    let a := barAddr m off
    if 2 ^ 40 < off + len || 4096 < len then s
    else if !(s.module m).booted then s.answerHost m .ok (List.replicate len 0)
    else if s.meetsDead a len then s.answerHost m .abort []
    else
      let bad := s.mem.poison.any fun w => rangesMeet (8 * w) 8 a len
      s.answerHost m (if bad then .poisoned else .ok) ((List.range len).map fun i => s.mem.byte (a + i)))

/-- The part of a write that lies in one word (03 R50): a write with poison poisons the word and logs it; a whole word replaces poison; a
merge into poison is refused. -/
def State.barWord (s : State) (m a n v : Nat) (poisoned : Bool) : State :=
  let w := wordOf a
  if poisoned then (s.withMem (s.mem.setPoison w true)).logError m 2 0 1 (8 * w % 2 ^ 40)
  else if n = 8 then s.withMem ((s.mem.write a 8 v).setPoison w false)
  else if s.mem.poisoned w then s
  else s.withMem (s.mem.write a n v)

/-- A write from `a` up, word by word: the count is that of the words it may touch. -/
def State.barWords (s : State) (m a : Nat) (poisoned : Bool) : Nat → List Byte → State
  | 0, _ => s
  | _ + 1, [] => s
  | k + 1, data =>
    let n := min data.length (8 - a % 8)
    (s.barWord m a n (ofBytes (data.take n)) poisoned).barWords m (a + n) poisoned k (data.drop n)

/-- DEVICE_MEMORY_WRITE (03 R50): stores the data and leaves P; discarded until the boot is complete (15 R362). -/
def execDeviceMemoryWrite (m off : Nat) (data : List Byte) (poisoned : Bool) (s : State) : Out :=
  .next (s.hostRequest m fun s =>
    let a := barAddr m off
    if 2 ^ 40 < off + data.length || !(s.module m).booted then s
    else if s.meetsDead a data.length then s.answerHost m .abort []
    else
      let s := s.barWords m a poisoned (data.length + 1) data
      if poisoned then s.raiseAer m 1 else s)

/-- The device atomic of a host AtomicOp, with its size (03 R49). -/
def hostOp : HostAtomic → Nat × Op
  | .fetchAdd n v => (n, .atom .add n v)
  | .swap n v => (n, .atom .xchg n v)
  | .cas n c v => (n, .cas n c v)

/-- Whether PCI Express carries an AtomicOp of that size (03 R46). -/
def hostOpSize : HostAtomic → Bool
  | .fetchAdd n _ => n == 4 || n == 8
  | .swap n _ => n == 4 || n == 8
  | .cas n _ _ => n == 4 || n == 8 || n == 16

/-- COMPLETER_ATOMICOP (03 R49): performed as the device atomic at the word's home, P unchanged; on a poisoned word it is not performed and
its completion is poisoned (log entry 27). Before the boot is complete it answers zeros and performs nothing (log entry 104). -/
def execCompleterAtomicop (m off : Nat) (op : HostAtomic) (s : State) : Out :=
  .next (s.hostRequest m fun s =>
    let (n, o) := hostOp op
    let a := barAddr m off
    if !hostOpSize op || off % n ≠ 0 || 2 ^ 40 < off + n then s
    else if !(s.module m).booted then s.answerHost m .ok (List.replicate n 0)
    else if s.meetsDead a n then s.answerHost m .abort []
    else match s.performOp a false false (insideReq (m * 2 ^ 14) 0 off o) with
      | (.data v, s) => s.answerHost m .ok (toBytes n v)
      | (_, s) => s.answerHost m .poisoned [])

/-! Control registers (03 R51; 15 R358). -/

/-- QSTAT_WRITE (03 R51, R56): COLL and REFD are written, ones clear BADW and FLT; clearing FLT restarts the queue. -/
def execQstatWrite (m q : Nat) (v : Word) (s : State) : Out :=
  .next (s.hostRequest m fun s =>
    if 64 ≤ q then s
    else s.onQueue m q fun x =>
      { x with
        coll := field v.toNat 48 16
        refd := field v.toNat 32 16
        badw := x.badw && !bit v.toNat 17
        flt := x.flt && !bit v.toNat 16 })

/-- The management mailbox with its command ended with a RESULT (15 R358). -/
def Mailbox.ended (b : Mailbox) (result : Nat) : Mailbox := { b with result := result, finished := true }

/-- Whether the mailbox reads BUSY (15 R358, R362). -/
def Module.busy (x : Module) : Bool := x.mbox.busy || !(x.booted || x.bootHalted)

/-- A write of MBCMD (15 R358, R359): while BUSY it sets OVR; else the command starts. Reserved bits end it with RESULT 2, an unknown code
with 1, and after a halted boot every command ends with 4 (R364). -/
def Module.command (x : Module) (v : Nat) : Module :=
  if x.busy then { x with mbox := { x.mbox with ovr := true } }
  else
    let b := { x.mbox with code := field v 0 8, tag := field v 16 16, busy := true, finished := false, result := 0 }
    { x with mbox :=
        if x.bootHalted then b.ended 4
        else if field v 32 32 != 0 || field v 8 8 != 0 then b.ended 2
        else if field v 0 8 = 0 || 0x0F ≤ field v 0 8 then b.ended 1
        else b }

/-- What a host reads from an 8-byte register of a launch queue (03 R51). -/
def Queue.registerRead (y : Queue) (k : Nat) : Nat :=
  if k = 0 then y.base.toNat / 2 ^ 7 * 2 ^ 7
  else if k = 1 then y.dom % 2 ^ 16 * 2 ^ 16 + y.en.toNat * 2 ^ 4 + y.sizelog % 2 ^ 4
  else if k = 2 then y.cons % 2 ^ 32
  else y.coll % 2 ^ 16 * 2 ^ 48 + y.refd % 2 ^ 16 * 2 ^ 32 + y.badw.toNat * 2 ^ 17 + y.flt.toNat * 2 ^ 16 + y.lastref % 2 ^ 8 * 2 ^ 8 +
    y.latch.isSome.toNat

/-- What a host reads from an 8-byte register of the mailbox (15 R358): MBCMD is write-only and reads zero (00 R6). -/
def Module.mailboxRead (x : Module) (off : Nat) : Nat :=
  if off = 8 then
    x.mbox.tag % 2 ^ 16 * 2 ^ 32 + x.mbox.result % 2 ^ 8 * 2 ^ 16 + x.mbox.ovr.toNat * 2 + x.busy.toNat
  else if off < 0x10 then 0
  else if off < 0x50 then (x.mbox.args.getD ((off - 0x10) / 8) 0).toNat
  else if off < 0x100 then 0
  else ofBytes ((List.range 8).map fun i => Tab.get 0 x.mbox.buffer (off - 0x100 + i))

/-- What a host reads from the aligned 8-byte register at an offset of the control BAR (00 R6; 03 R48, R51; 15 R358): reserved offsets and
fields read zero. A read changes nothing, so it is no step (log entry 78). -/
def Module.registerRead (x : Module) (off : Nat) : Nat :=
  if 0x1000 ≤ off && off < 0x1800 then (x.queue ((off - 0x1000) / 32)).registerRead (off / 8 % 4)
  else if 0x2000 ≤ off && off < 0x3000 then x.mailboxRead (off - 0x2000)
  else 0

/-- The endpoint's answer to a host read of a control register (03 R47, R48; 15 R368). -/
def Module.controlRead (x : Module) (off : Nat) : HostReply :=
  match x.turnedAway with
  | some st => ⟨st, []⟩
  | none => ⟨.ok, toBytes 8 (x.registerRead off)⟩

/-- A write of one 8-byte register of the mailbox (15 R358). -/
def Module.mailboxWrite (x : Module) (off : Nat) (v : Word) : Module :=
  if off = 0 then x.command v.toNat
  else if off = 8 then { x with mbox := { x.mbox with ovr := x.mbox.ovr && !bit v.toNat 1 } }
  else if off < 0x50 then { x with mbox := { x.mbox with args := listSet x.mbox.args ((off - 0x10) / 8) v } }
  else if off < 0x100 then x
  else
    let buf := (List.range 8).foldl (fun t i => Tab.set t (off - 0x100 + i) (BitVec.ofNat 8 (v.toNat / 256 ^ i))) x.mbox.buffer
    { x with mbox := { x.mbox with buffer := buf } }

/-- REGISTER_WRITE (00 R6; 03 R48, R51; 15 R358): an 8-byte write of the control BAR. Read-only and reserved places ignore it; QSTAT has a
step of its own. An argument written while BUSY takes effect at once, which is one of the points that R358 allows. -/
def execRegisterWrite (m off : Nat) (v : Word) (s : State) : Out :=
  .next (s.hostRequest m fun s =>
    if off % 8 ≠ 0 || off < 0x2000 || 0x3000 ≤ off then s
    else s.onModule m fun x => x.mailboxWrite (off - 0x2000) v)

/-- CONFIGURATION_WRITE (03 R46; 07 R157, 16 R373): the Completion Timeout Value and AtomicOp Requester Enable of Device Control 2, then Max
Payload Size and Max Read Request Size of Device Control, a value that is not supported leaving the field (log entry 102). -/
def execConfigurationWrite (m : Nat) (control2 : BitVec 4 × Bool) (control : BitVec 3 × BitVec 3) (s : State) : Out :=
  .next (s.configRequest m fun s => s.onModule m fun x =>
    { x with
      timeout := control2.1
      atomics := control2.2
      mps := if (maxPayload control.1).isSome then control.1 else x.mps
      mrrs := if (maxRead control.2).isSome then control.2 else x.mrrs })

/-! Completions of the device's own requests (07 R156, R157, R182; 12 R299). -/

/-- What a completion says to the requester of a host read or AtomicOp. -/
def State.completed (s : State) (m : Nat) (h : HostReq) (c : HostStatus) : Ans × State :=
  let atomic := match h.req.op with
    | .atom _ _ _ => true
    | .cas _ _ _ => true
    | _ => false
  match h.req.op, c with
  | .orderRead, _ => (.ok, s)
  | .sector, .ok => s.performOp (hostAddr m h.addr) false false h.req
  | .sector, .poisoned =>
    (match s.performOp (hostAddr m h.addr) false false h.req with
     | (.sector ws _, s) => (.sector ws (List.replicate 8 true), s)
     | r => r)
  | _, .ok => s.performOp (hostAddr m h.addr) false false h.req
  | op, .poisoned =>
    if h.tol then
      let (p, s) := s.free 182
      let n := match s.substs.find? fun x => x.1 == 2 ^ 50 + m && x.2.1 == h.req.dom with
        | some x => x.2.2
        | none => 0
      let rest := s.substs.filter fun x => !(x.1 == 2 ^ 50 + m && x.2.1 == h.req.dom)
      let s := { s with substs := (2 ^ 50 + m, h.req.dom, n + 1) :: rest }
      let s := if n % 1024 = 0 then s.logError m 3 h.req.dom (if n = 0 then 1 else 1024) p else s
      let s := if atomic then (s.performOp (hostAddr m h.addr) false false h.req).2 else s
      (.data (substitute h.subn op.span), s)
    else (.fault Cause.poison, s)
  | _, .unsupported => (.fault (if atomic then Cause.hostAtomicUr else Cause.hostReadUr), s)
  | _, .abort => (.fault (if atomic then Cause.hostAtomicCa else Cause.hostReadCa), s)

/-- How the ladle records an answer of the endpoint for a word of a chunk: 0 for data, 512 or 513 for substituted poison, else a cause. -/
def ladleCode (h : HostReq) (c : HostStatus) (a : Ans) : Nat :=
  match a, c with
  | .fault k, _ => k
  | _, .poisoned => 512 + h.subn.toNat
  | _, _ => 0

/-- The answer of the endpoint reaches its owner: a core, a chunk of a ladle operation, a launch queue. -/
def State.answerOwner (s : State) (m : Nat) (h : HostReq) (a : Ans) (code : Nat) : State :=
  match h.owner with
  | .core => s.sendAns (endpointKey m) h.req a
  | .queue q => s.onQueue (cidModule h.req.cid) q fun x => { x with gathered := x.gathered ++ [(h.req.va, a)] }
  | .ladle cl e k =>
    match Tab.find (s.cluster cl).eng.ladle e with
    | none => s
    | some o => if o.hostWait.contains k then
        s.setLadle cl e { o with hostWait := o.hostWait.filter (· != k), hostDone := o.hostDone ++ [(k, h.req.va, code)] }
      else s

/-- Host memory with the bytes that the host wrote. -/
def State.hostWrites (s : State) (m : Nat) (ws : List (Nat × Byte)) : State :=
  s.withMem (ws.foldl (fun mem w => mem.putByte (hostAddr m (w.1 % 2 ^ 52)) w.2) s.mem)

/-- HOST_COMPLETION (07 R156, R182; 12 R299): the completion of the request `n` that the endpoint has outstanding, after the writes that the
host made to its memory; one that belongs to no request is an Unexpected Completion (07 R157). -/
def execHostCompletion (m n : Nat) (c : HostStatus) (writes : List (Nat × Byte)) (s : State) : Out :=
  .next (if !s.present.contains m || (s.module m).d3hot then s
    else
      let s := s.hostWrites m writes
      match (s.module m).outstanding[n]? with
      | none => s.raiseAer m 2
      | some h =>
        let s := s.onModule m fun x => { x with outstanding := listDel x.outstanding n }
        let p := s.completed m h c
        p.2.answerOwner m h p.1 (ladleCode h c p.1))

/-- HOST_COMPLETION_TIMEOUT (07 R157): `performed` says whether the completer had performed a timed-out AtomicOp, of which the device
states nothing. -/
def execHostCompletionTimeout (m n : Nat) (performed : Bool) (s : State) : Out :=
  .next (match (s.module m).outstanding[n]? with
    | none => s
    | some h =>
      if (s.module m).d3hot then s
      else
        let s := (s.onModule m fun x => { x with outstanding := listDel x.outstanding n }).raiseAer m 3
        let s := match h.req.op with
          | .atom _ _ _ | .cas _ _ _ => if performed then (s.performOp (hostAddr m h.addr) false false h.req).2 else s
          | _ => s
        s.answerOwner m h (.fault Cause.hostTimeout) Cause.hostTimeout)

end Sys2Proof.Machine
end

