-- ==== Sys2Proof/Machine/Signature.lean ====
section
/-!
DEFINITION. SHA-256, the single-tree LMS signatures of RFC 8554 that the identity key makes and the HSS signatures that the firmware root
makes (15 R364, R365). What on-die entropy supplies is an opaque constant of `Config` (log entry 13).
-/
namespace Sys2Proof.Machine

/-! SHA-256. -/

/-- The greatest number of `n` more bits, above `r`, whose `k`-th power does not pass `v`. -/
def rootBits (k v : Nat) : Nat → Nat → Nat
  | 0, r => r
  | n + 1, r => rootBits k v n (if (r + 2 ^ n) ^ k ≤ v then r + 2 ^ n else r)

/-- The first 32 bits of the fraction of the `k`-th root of `p`: SHA-256 takes its constants from such roots of the first primes. -/
def rootFraction (k p : Nat) : Nat := rootBits k (p * 2 ^ (32 * k)) 40 0 % 2 ^ 32

/-- The 64 primes below 312. -/
def firstPrimes : List Nat :=
  (List.range 312).filter fun p => decide (2 ≤ p) && (List.range 18).all fun d => decide (d < 2) || decide (p ≤ d) || p % d != 0

/-- The constants of the 64 rounds: from cube roots. -/
def roundConstants : List Nat := firstPrimes.map (rootFraction 3)
/-- The hash value before the first block: from square roots. -/
def firstHash : List Nat := (firstPrimes.take 8).map (rootFraction 2)

/-- A 32-bit word turned right by `k`. -/
def turned (k x : Nat) : Nat := (x + x * 2 ^ 32) / 2 ^ k % 2 ^ 32

/-- The eight working words and the next sixteen words of the schedule, after a round with constant `k`. -/
def hashRound (z : List Nat × List Nat) (k : Nat) : List Nat × List Nat :=
  let r := fun i => z.1.getD i 0
  let w := fun i => z.2.getD i 0
  let chosen := r 6 ^^^ (r 4 &&& (r 5 ^^^ r 6))
  let common := (r 0 &&& (r 1 ||| r 2)) ||| (r 1 &&& r 2)
  let x := r 7 + k + w 0 + chosen + (turned 6 (r 4) ^^^ turned 11 (r 4) ^^^ turned 25 (r 4))
  let y := common + (turned 2 (r 0) ^^^ turned 13 (r 0) ^^^ turned 22 (r 0))
  let low := turned 7 (w 1) ^^^ turned 18 (w 1) ^^^ w 1 / 2 ^ 3
  let high := turned 17 (w 14) ^^^ turned 19 (w 14) ^^^ w 14 / 2 ^ 10
  ((x + y) % 2 ^ 32 :: z.1.take 3 ++ (r 3 + x) % 2 ^ 32 :: (z.1.drop 4).take 3,
    z.2.drop 1 ++ [(w 0 + low + w 9 + high) % 2 ^ 32])

/-- The hash value `h` after a block of sixteen words, with the round constants `ks`. -/
def hashBlock (ks h block : List Nat) : List Nat :=
  List.zipWith (fun x y => (x + y) % 2 ^ 32) h (ks.foldl hashRound (h, block)).1

/-- Big-endian bytes of a number. -/
def beBytes (n v : Nat) : List Byte := ((List.range n).map fun i => BitVec.ofNat 8 (v / 256 ^ i)).reverse
/-- The number of some big-endian bytes. -/
def ofBe (l : List Byte) : Nat := l.foldl (fun n b => n * 256 + b.toNat) 0

/-- The hash value after `n` blocks of 64 bytes. -/
def hashBlocks (ks : List Nat) : Nat → List Byte → List Nat → List Nat
  | 0, _, h => h
  | n + 1, l, h => hashBlocks ks n (l.drop 64) (hashBlock ks h ((List.range 16).map fun i => ofBe ((l.drop (4 * i)).take 4)))

/-- SHA-256, as a number of 256 bits: the data, a one bit, zeros, and the length in bits as eight bytes make whole blocks. -/
def sha256 (l : List Byte) : Nat :=
  let whole := l ++ [0x80] ++ List.replicate ((119 - l.length % 64) % 64) 0 ++ beBytes 8 (8 * l.length)
  (hashBlocks roundConstants (whole.length / 64) whole firstHash).foldl (fun n x => n * 2 ^ 32 + x) 0

/-! LM-OTS and LMS (RFC 8554). `i` is the identifier of a key, 16 bytes. -/

/-- A hash over the identifier, a 32-bit and a 16-bit number, and data. -/
def lmsHash (i : List Byte) (r d : Nat) (l : List Byte) : Nat := sha256 (i ++ beBytes 4 r ++ beBytes 2 d ++ l)

/-- The value `x` of chain `k` of leaf `q` moved by `n` steps from step `j`. -/
def otsChain (i : List Byte) (q k : Nat) : Nat → Nat → Nat → Nat
  | 0, _, x => x
  | n + 1, j, x => otsChain i q k n (j + 1) (lmsHash i q k (beBytes 1 j ++ beBytes 32 x))

/-- The digits that a one-time signature of a message signs: the 32 bytes of the hash and the two of the checksum. -/
def otsDigits (i : List Byte) (q c : Nat) (msg : List Byte) : List Nat :=
  let h := (beBytes 32 (lmsHash i q 0x8181 (beBytes 32 c ++ msg))).map BitVec.toNat
  let sum := h.foldl (fun n b => n + (255 - b)) 0
  h ++ [sum / 256, sum % 256]

/-- The hash of the ends of the 34 chains of leaf `q`. -/
def otsEnds (i : List Byte) (q : Nat) (ends : List Nat) : Nat := lmsHash i q 0x8080 (ends.flatMap (beBytes 32))
/-- The hash of a leaf. -/
def lmsLeaf (i : List Byte) (node ends : Nat) : Nat := lmsHash i node 0x8282 (beBytes 32 ends)
/-- The hash of an inner node. -/
def lmsInner (i : List Byte) (node left right : Nat) : Nat := lmsHash i node 0x8383 (beBytes 32 left ++ beBytes 32 right)

/-! The module identity key (15 R364, R365). -/

/-- The identifier of a module's identity key. -/
def lmsI (m epoch : Nat) : List Byte := beBytes 16 (Config.identityId m epoch).toNat
/-- The start of a chain. -/
def otsStart (m epoch q k : Nat) : Nat := (Config.identitySecret m epoch q k).toNat
/-- The value of each chain of leaf `q` after the steps that `digits` gives. -/
def otsValues (m epoch q : Nat) (digits : List Nat) : List Nat :=
  (digits.zip (List.range 34)).map fun p => otsChain (lmsI m epoch) q p.2 p.1 0 (otsStart m epoch q p.2)

/-- The one-time signature of a message by leaf `q`, 1,124 bytes. -/
def otsSign (m epoch q : Nat) (msg : List Byte) : List Byte :=
  let c := (Config.identityRandom m epoch q).toNat
  beBytes 4 4 ++ beBytes 32 c ++ (otsValues m epoch q (otsDigits (lmsI m epoch) q c msg)).flatMap (beBytes 32)

/-- A node of the tree, `k` levels above the leaves. -/
def lmsNode (m epoch : Nat) : Nat → Nat → Nat
  | 0, r => lmsLeaf (lmsI m epoch) r (otsEnds (lmsI m epoch) (r - 2 ^ 15) (otsValues m epoch (r - 2 ^ 15) (List.replicate 34 255)))
  | k + 1, r => lmsInner (lmsI m epoch) r (lmsNode m epoch k (2 * r)) (lmsNode m epoch k (2 * r + 1))

/-- The identity public key, 56 bytes (15 R364). -/
def lmsPublic (m epoch : Nat) : List Byte := beBytes 4 7 ++ beBytes 4 4 ++ lmsI m epoch ++ beBytes 32 (lmsNode m epoch 15 1)

/-- The signature of a message by leaf `q`, 1,612 bytes (15 R364, R365). -/
def lmsSign (m epoch q : Nat) (msg : List Byte) : List Byte :=
  beBytes 4 q ++ otsSign m epoch q msg ++ beBytes 4 7 ++
    (List.range 15).flatMap fun k => beBytes 32 (lmsNode m epoch k (((2 ^ 15 + q) / 2 ^ k) ^^^ 1))

/-! The HSS scheme of the Casmet firmware root (15 R364): two levels of LMS_SHA256_M32_H10 with LMOTS_SHA256_N32_W8. -/

/-- `n` bytes at offset `k`. -/
def bytesAt (l : List Byte) (k n : Nat) : List Byte := (l.drop k).take n
/-- The big-endian number of `n` bytes at offset `k`. -/
def numberAt (l : List Byte) (k n : Nat) : Nat := ofBe (bytesAt l k n)

/-- The hash of node `node`, `n` levels below the root, carried up to the root with the path that a signature gives. -/
def lmsClimb (i path : List Byte) : Nat → Nat → Nat → Nat
  | 0, _, x => x
  | n + 1, node, x =>
    let y := numberAt path 0 32
    lmsClimb i (path.drop 32) n (node / 2)
      (if node % 2 = 1 then lmsInner i (node / 2) y x else lmsInner i (node / 2) x y)

/-- The bytes of an LMS signature of height 10. -/
def rootSigLength : Nat := 4 + 1124 + 4 + 10 * 32

/-- Whether `sig` is the LMS signature of `msg` under the LMS public key `key`, both of the root's types. -/
def lmsVerifies (key msg sig : List Byte) : Bool :=
  let i := bytesAt key 8 16
  let q := numberAt sig 0 4
  let values := (List.range 34).map fun k => numberAt sig (40 + 32 * k) 32
  let digits := otsDigits i q (numberAt sig 8 32) msg
  let ends := ((digits.zip values).zip (List.range 34)).map fun p => otsChain i q p.2 (255 - p.1.1) p.1.1 p.1.2
  key.length == 56 && sig.length == rootSigLength && numberAt key 0 4 == 6 && numberAt key 4 4 == 4 && numberAt sig 4 4 == 4 &&
    numberAt sig 1128 4 == 6 && decide (q < 2 ^ 10) &&
    lmsClimb i (sig.drop 1132) 10 (2 ^ 10 + q) (lmsLeaf i (2 ^ 10 + q) (otsEnds i q ends)) == numberAt key 24 32

/-- Whether `sig` is the HSS signature of `msg` under the root public key: its first level signs the public key of the second. -/
def hssVerifies (key msg sig : List Byte) : Bool :=
  let below := bytesAt sig (4 + rootSigLength) 56
  key.length == 60 && numberAt key 0 4 == 2 && numberAt sig 0 4 == 1 &&
    lmsVerifies (key.drop 4) below (bytesAt sig 4 rootSigLength) && lmsVerifies below msg (sig.drop (60 + rootSigLength))

end Sys2Proof.Machine
end

