-- ==== Sys2Proof/Machine/Mailbox.lean ====
section
/-!
DEFINITION. The mailbox commands that firmware serves (15 R358 to R361, R365 to R367; 03 R51, R58, R68; 14 R334, R354).
-/
namespace Sys2Proof.Machine

/-! Serving a command (15 R358, R359). -/

/-- Serves the command that the mailbox holds when it has this code and has not ended. In D3hot firmware serves none (03 R47). -/
def State.serving (s : State) (m code : Nat) (k : State → State) : State :=
  let b := (s.module m).mbox
  if s.present.contains m && !(s.module m).d3hot && b.busy && !b.finished && b.code == code then k s else s

/-- Ends the command with a RESULT (15 R358). -/
def State.ended (s : State) (m result : Nat) : State := s.onModule m fun x => { x with mbox := x.mbox.ended result }
/-- An argument of the command. -/
def State.arg (s : State) (m k : Nat) : Nat := ((s.module m).mbox.args.getD k 0).toNat
/-- Writes a result word. -/
def State.setArg (s : State) (m k : Nat) (v : Word) : State :=
  s.onModule m fun x => { x with mbox := { x.mbox with args := listSet x.mbox.args k v } }
/-- Writes bytes into the buffer from offset 0 up. -/
def State.setBuffer (s : State) (m : Nat) (l : List Byte) : State :=
  let put := fun (b : Mailbox) =>
    { b with buffer := (l.zip (List.range l.length)).foldl (fun t p => Tab.set t p.2 p.1) b.buffer }
  s.onModule m fun x => { x with mbox := put x.mbox }
/-- The first bytes of the buffer. -/
def State.buffer (s : State) (m n : Nat) : List Byte := (List.range n).map fun i => Tab.get 0 (s.module m).mbox.buffer i

/-- MAILBOX_COMMAND_DONE (15 R358): BUSY is cleared after the results, and the endpoint raises MSI-X vector 0. -/
def execMailboxCommandDone (m : Nat) (s : State) : Out :=
  .next (
    let x := s.module m
    if !s.present.contains m || x.d3hot || !x.mbox.busy || !x.mbox.finished then s
    else (s.onModule m fun x => { x with mbox := { x.mbox with busy := false, finished := false } }).raiseMsix m 0)

/-! Queues and domains. -/

/-- Whether the arguments of QUEUE_SET break 03 R51: the queue, SIZELOG, the window of QBASE, a reserved bit; the domain of a queue that is to
be enabled (log entry 31). -/
def State.queueBad (s : State) (m q base cfg : Nat) : Bool :=
  64 ≤ q || field cfg 32 32 ≠ 0 || field cfg 5 11 ≠ 0 || field base 0 7 ≠ 0 ||
    field cfg 0 4 = 0 || 13 < field cfg 0 4 || !(field base 60 4 == 0 || field base 60 4 == 8) ||
    (bit cfg 4 && (s.domain? m (field cfg 16 16)).isNone)

/-- QUEUE_SET (03 R51; 15 R359): enabling a queue sets CONS to 0; an enabled queue is refused but for EN = 0. -/
def execQueueSet (m : Nat) (s : State) : Out :=
  .next (s.serving m 0x01 fun s =>
    let q := s.arg m 0
    let base := s.arg m 1
    let cfg := s.arg m 2
    let en := bit cfg 4
    if s.queueBad m q base cfg then s.ended m 2
    else if en && ((s.module m).queue q).en then s.ended m 3
    else (s.onQueue m q fun y =>
      { y with
        base := BitVec.ofNat 64 base
        dom := field cfg 16 16
        en := en
        sizelog := field cfg 0 4
        cons := if en then 0 else y.cons
        gathered := [] }).ended m 0)

/-- The MASK of an interleave mask register (04 R83). -/
def maskOf (w : Word) : Nat := field w.toNat 0 40
/-- The PIV of an interleave mask register (04 R83). -/
def pivOf (w : Word) : Nat := field w.toNat 40 6
/-- Whether a mask contains the pivot of a mask (04 R83). -/
def containsPivot (mask piv : Word) : Bool := 8 ≤ pivOf piv && bit (maskOf mask) (pivOf piv - 8)

/-- Whether a set of masks breaks 04 R83. -/
def masksBad (ms : List Word) : Bool :=
  ms.length != 9 || ms.any fun a =>
    pivOf a < 8 || 47 < pivOf a || !containsPivot a a || (ms.any fun b => b != a && containsPivot b a) ||
      1 < (ms.filter fun b => b == a).length

/-- The life-cycle states in which no domain is bound and nothing is attested (15 R363). -/
def Module.unprovisioned (x : Module) : Bool := x.fuses.lifecycle == 0 || x.fuses.lifecycle == 3

/-- The settings that the 64-bit words of the mailbox buffer give (15 R359; log entry 5): word 0 the mode, the gang and the shares of the
translation units; 1 to 9 the interleave masks; 10 to 17 the trap table; 18 and 19 the service entry and the save area; 20 to 35 and 36 to 51
the roots of the interleaved and bank-linear tables of the stacks, and 52 that of the host table; 53 to 68 the clusters of each die; 69 to
132 the modules of the gang; 133 the number of tags in the gang, and from 134 up the tags. -/
def settingsOf (w : Nat → Nat) : DomainSettings :=
  let root := fun k => if bit (w k) 63 then some (field (w k) 0 36) else none
  { partitioned := bit (w 0) 0
    gang := if bit (w 0) 1 then some (field (w 0) 16 16) else none
    cacheShare := field (w 0) 32 15
    walkShare := field (w 0) 48 8
    imasks := (List.range 9).map fun k => BitVec.ofNat 64 (w (1 + k))
    ttbl := (List.range 8).map fun k => BitVec.ofNat 64 (w (10 + k))
    service := BitVec.ofNat 64 (w 18)
    saveArea := BitVec.ofNat 64 (w 19)
    interleavedRoots := (List.range 16).map fun k => root (20 + k)
    bankRoots := (List.range 16).map fun k => root (36 + k)
    hostRoot := root 52
    clusters := (List.range 16).flatMap fun d =>
      let set := w (53 + d)
      ((List.range 23).filter fun c => bit set c).map fun c => (d, c)
    gangModules := (List.range 64).flatMap fun k =>
      let set := w (69 + k)
      ((List.range 64).filter fun i => bit set i).map fun i => 64 * k + i
    gangPeers := (List.range (min 64 (w 133))).map fun k => field (w (134 + k / 4)) (16 * (k % 4)) 16 }

/-- A 64-bit word of the mailbox buffer. -/
def State.bufferWord (s : State) (m k : Nat) : Nat := ofBytes ((List.range 8).map fun i => Tab.get 0 (s.module m).mbox.buffer (8 * k + i))

/-- Whether the cluster set of a partitioned domain meets that of another one on the module (03 R60; log entry 88). -/
def Module.clustersTaken (x : Module) (d : DomainSettings) : Bool :=
  d.partitioned && x.domains.any fun p => p.2.set.partitioned && p.2.set.clusters.any fun c => d.clusters.contains c

/-- DOMAIN_BIND (03 R58, R60; 04 R83; 14 R333; 15 R359, R363; 17 R376): the tag of the boot domain is refused first, at all times.
The second argument carries nothing: the settings are read from the buffer. -/
def execDomainBind (m : Nat) (_ : Unit) (s : State) : Out :=
  .next (s.serving m 0x02 fun s =>
    let x := s.module m
    let slot := s.arg m 0
    let tag := s.arg m 1
    let d := settingsOf (s.bufferWord m)
    if tag = 0xFFFF then s.ended m 2
    else if x.unprovisioned then s.ended m 3
    else if 64 ≤ slot || tag = 0 || 0xFFFF < tag || (s.domain? m tag).isSome || (Tab.find x.domains slot).isSome || masksBad d.imasks ||
        (d.partitioned && d.gang.isSome) || x.clustersTaken d then s.ended m 2
    else (s.onModule m fun x =>
      { x with domains := Tab.set x.domains slot ⟨tag, d, [], [], 0, none, true, false, 0, [], false⟩ }).ended m 0)

/-- GANG_ABORT (03 R68; 15 R359): ends phase 1 of a switch at this member; a coordinator gives the switch up. -/
def execGangAbort (m : Nat) (s : State) : Out :=
  .next (s.serving m 0x04 fun s =>
    let g := s.arg m 0
    let n := s.arg m 1
    match (s.gang m g).phase1 with
    | none => s.ended m 3
    | some p =>
      if p.1 ≠ n then s.ended m 3
      else
        let q := s.gang m g
        let members := ((s.gangSet m g).map fun d => d.gangModules).getD []
        let mine := q.sending.any (fun x => x.1 == n) && !members.all fun d => q.prepared.contains d
        let s := s.onGang m g Gang.forget
        let s := if mine then
            (s.onGang m g fun q => { q with sending := none, prepared := [] }).tellAll m (.abort g n) (members.filter (· != m))
          else s
        s.ended m 0)

/-! Service threads (14 R334; 15 R359). -/

/-- SVC_CONTROL (15 R359; 14 R340): as RSTR on a FAULTED service thread; a kill waits until the thread's entries have settled. -/
def execSvcControl (m : Nat) (s : State) : Out :=
  .next (s.serving m 0x05 fun s =>
    let w := s.arg m 0
    let act := s.arg m 1
    let cid := field w 8 26
    let slot := field w 0 8
    let t := s.thread cid slot
    if field w 34 30 ≠ 0 || cidModule cid ≠ m || 2 < act || !t.svc || t.st != .faulted then s.ended m 2
    else if act = 2 then
      if ((s.core cid).pending slot).isEmpty then (s.endTask cid slot).ended m 0 else s.discardEntries cid slot
    else if t.dbl || (act == 1 && s.handlerOf cid t == 0) then s.ended m 2
    else (if act = 0 then s.trapReturn cid slot else s.handleAt cid slot).ended m 0)

/-- SVC_ANSWER (14 R334; 15 R359): STF of ARG1 at ARG0 in the domain ARG2. -/
def execSvcAnswer (m : Nat) (s : State) : Out :=
  .next (s.serving m 0x06 fun s =>
    let dom := s.arg m 2
    if 0xFFFF < dom || (s.domain? m dom).isNone then s.ended m 2
    else match s.unitAct m dom (s.arg m 0) (.stf (s.arg m 1)) none with
      | (.ok _, s) => s.ended m 0
      | (.blocked _, _) => s
      | (_, s) => s.ended m 2)

/-- SVC_POP (15 R359): ARG0 to ARG7 get the oldest host-service record; ARG0 gets 0 when the queue is empty. -/
def execSvcPop (m : Nat) (s : State) : Out :=
  .next (s.serving m 0x07 fun s =>
    match (s.module m).hsq with
    | [] => (s.setArg m 0 0).ended m 0
    | r :: q =>
      let s := s.onModule m fun x => { x with hsq := q, mbox := { x.mbox with args := r } }
      (s.pumpHostQueue m).ended m 0)

/-! Logs, power, firmware, attestation. -/

/-- The bytes of a list of words, little-endian. -/
def wordBytes (ws : List Word) : List Byte := ws.flatMap fun w => toBytes 8 w.toNat

/-- LOG_READ (14 R354; 15 R359): up to 112 entries from the first whose SERIAL is at or after ARG0. -/
def execLogRead (m : Nat) (s : State) : Out :=
  .next (s.serving m 0x08 fun s =>
    let x := s.module m
    let es := (x.log.filter fun e => ((e.getD 3 0).toNat + 2 ^ 32 - s.arg m 0 % 2 ^ 32) % 2 ^ 32 < 2 ^ 31).take 112
    let s := s.setBuffer m (es.flatMap wordBytes)
    ((s.setArg m 0 (BitVec.ofNat 64 es.length)).setArg m 1 (BitVec.ofNat 64 x.overrun)).ended m 0)

/-- POWER_CAP (15 R359, R367). -/
def execPowerCap (m : Nat) (s : State) : Out :=
  .next (s.serving m 0x09 fun s =>
    let w := s.arg m 0
    if w = 2400 || w = 2800 || w = 3200 then (s.onModule m fun x => { x with cap := w }).ended m 0 else s.ended m 2)

/-- The report that ATTEST signs, bytes 0 to 127 (15 R365). -/
def Module.report (x : Module) (m epoch : Nat) (nonce : List Byte) : List Byte :=
  nonce ++ beBytes 32 x.mr ++ beBytes 32 (sha256 (lmsPublic m epoch)) ++ toBytes 4 x.fuses.version ++
    toBytes 1 x.fuses.lifecycle ++ toBytes 2 x.cap ++ List.replicate 25 0

/-- ATTEST (15 R359, R363 to R365): the leaf counter is advanced before the signature. -/
def execAttest (m : Nat) (s : State) : Out :=
  .next (s.serving m 0x0A fun s =>
    let x := s.module m
    match x.fuses.keyEpoch with
    | none => s.ended m 3
    | some e =>
      if x.unprovisioned then s.ended m 3
      else if 32768 ≤ x.fuses.leaf then s.ended m 6
      else
        let report := x.report m e (s.buffer m 32)
        let s := s.onModule m fun x => { x with fuses := { x.fuses with leaf := x.fuses.leaf + 1 } }
        (s.setBuffer m (report ++ lmsSign m e x.fuses.leaf report)).ended m 0)

/-- IDENTITY (15 R359, R364). -/
def execIdentity (m : Nat) (s : State) : Out :=
  .next (s.serving m 0x0B fun s =>
    let x := s.module m
    match x.fuses.keyEpoch with
    | none => s.ended m 3
    | some e =>
      if x.unprovisioned then s.ended m 3
      else ((s.setBuffer m (lmsPublic m e)).setArg m 0 (BitVec.ofNat 64 x.fuses.lifecycle)).ended m 0)

/-- The staging area of a module in DRAM stack 0 (15 R359; log entry 32): 64 MiB. -/
def stagingAddr (m : Nat) : Nat := spaAddr m 0 (Config.stagingBase % 2 ^ 10 * 2 ^ 26)

/-- FW_STAGE (15 R359): the buffer's 3,840 bytes are one part of the image (log entry 32). -/
def execFwStage (m : Nat) (s : State) : Out :=
  .next (s.serving m 0x0C fun s =>
    let off := s.arg m 0
    if 2 ^ 26 < off + 3840 then s.ended m 2
    else
      let s := s.barWords m (stagingAddr m + off) false 482 (s.buffer m 3840)
      (s.onModule m fun x => { x with staged := max x.staged (off + 3840) }).ended m 0)

/-- The staged image: the bytes up to the last one staged. -/
def State.stagedImage (s : State) (m : Nat) : List Byte :=
  (List.range (s.module m).staged).map fun i => s.mem.byte (stagingAddr m + i)

/-- Whether a byte of the staged image is poisoned. -/
def State.stagedPoison (s : State) (m : Nat) : Bool :=
  s.mem.poison.any fun w => rangesMeet (8 * w) 8 (stagingAddr m) (s.module m).staged

/-- The signed parts of some bytes, each with the outcome of its verification under the root public key, whose SHA-256 the fuses hold (15
R364). -/
def SignedLayout.verified (l : SignedLayout) (rootHash : Nat) (bytes : List Byte) : List (List Byte × Bool) :=
  let key := bytesAt bytes l.key.1 l.key.2
  l.parts.map fun p =>
    let part := bytesAt bytes p.1.1 p.1.2
    (part, sha256 key == rootHash && hssVerifies key part (bytesAt bytes p.2.1 p.2.2))

/-- Whether every signed part of some bytes is verified. -/
def SignedLayout.sound (l : SignedLayout) (rootHash : Nat) (bytes : List Byte) : Bool := (l.verified rootHash bytes).all fun p => p.2

/-- The security version of an image (15 R366). -/
def SignedLayout.versionIn (l : SignedLayout) (bytes : List Byte) : Nat := ofBytes (bytesAt bytes l.version.1 l.version.2)

/-- FW_COMMIT (15 R359, R364, R366): the staged image is verified, and refused when its security version is below the fused one.
The second and third arguments carry nothing: the image is read from the staging area, and the fused version from the fuses. -/
def execFwCommit (m : Nat) (_ _ : Unit) (s : State) : Out :=
  .next (s.serving m 0x0D fun s =>
    let f := (s.module m).fuses
    let image := s.stagedImage m
    if s.stagedPoison m || !f.image.sound f.rootHash image || f.image.versionIn image < f.version then s.ended m 4
    else (s.onModule m fun x =>
      { x with fuses := { x.fuses with flash := image, version := max x.fuses.version (f.image.versionIn image) } }).ended m 0)

end Sys2Proof.Machine
end

