-- ==== Sys2Proof/Machine/Teardown.lean ====
section
/-!
DEFINITION. Domain teardown (15 R360, R361): DOMAIN_UNBIND.
-/
namespace Sys2Proof.Machine

/-! Ending the domain's work (15 R360). -/

/-- Whether a domain may not be unbound without FORCE: a queue of it is enabled, a launch latched or placed, or it is switched in somewhere
in its gang. -/
def State.unbindRefused (s : State) (dom : Nat) (mods : List Nat) : Bool :=
  mods.any fun m =>
    let x := s.module m
    (x.queues.any fun p => p.2.dom == dom && p.2.en) ||
    (x.queues.any fun p => match p.2.latch with
      | some l => l.dom == dom
      | none => false) ||
    (x.launches.any fun l => l.dom == dom) ||
    (x.gangs.any fun p => p.2.current == dom)

/-- A queue whose latch and pending put are discarded (15 R360 step 4). -/
def Queue.quit (y : Queue) (dom : Nat) : Queue :=
  if y.dom = dom then { y with latch := none, refusal := none, faulted := [], gathered := [] } else y

/-- A module on which a domain's unbinding has begun (15 R360): its queues are disabled, and none of its threads issues. -/
def Module.beginUnbind (x : Module) (dom : Nat) : Module :=
  { x with
    queues := x.queues.map fun (p : Nat × Queue) => (p.1, if p.2.dom = dom then { p.2 with en := false } else p.2)
    domains := x.domains.map fun (p : Nat × Domain) => (p.1, if p.2.tag = dom then { p.2 with unbinding := true } else p.2) }

/-- Discards the latched records of a domain on a module. -/
def Module.quitQueues (x : Module) (dom : Nat) : Module :=
  { x with queues := x.queues.map fun (p : Nat × Queue) => (p.1, p.2.quit dom) }

/-- Whether a thread issues a pour that its member has accepted. -/
def State.pouring (s : State) (cid slot : Nat) : Bool :=
  match (s.flask (cidCluster cid)).pour with
  | some p => p.cid == cid && p.slot == slot
  | none => false

/-- Kills the thread in a slot as RSTR's kill action does (14 R340): its entries settle first, any refusal discarded, and the issuing thread of a pour
ends after its outcome. -/
def State.killThread (s : State) (cid slot : Nat) : State :=
  if !((s.core cid).pending slot).isEmpty then s.discardEntries cid slot
  else if s.pouring cid slot then s
  else
    let s := s.onFlask (cidCluster cid) fun f => { f with queue := f.queue.filter (· != (cid, slot)) }
    (s.leaveQueues cid slot).endTask cid slot

/-- Kills every thread of a domain on a module's cores. -/
def State.killThreads (s : State) (m dom : Nat) : State :=
  ((s.cores.filter fun p => cidModule p.1 == m).flatMap fun p =>
    (p.2.slots.filter fun q => q.2.st != .free && q.2.dom == dom).map fun q => (p.1, q.1)).foldl
      (fun s p => s.killThread p.1 p.2) s

/-- Discards a domain's tasks that no slot of a module holds: evicted, saved, queued, held, migrating. -/
def State.killOthers (s : State) (m dom : Nat) : State :=
  let here := fun (k : Context) => cidModule k.cid == m && k.th.dom == dom
  let s := (s.ctxs.filter here).foldl State.killContext s
  let s := s.onModule m fun x =>
    { x with saved := x.saved.filter fun y => y.dom != dom, savedCl := x.savedCl.filter fun y => y.dom != dom }
  { s with
    clusters := s.clusters.map fun (p : Nat × Cluster) =>
      (p.1, if clusterModule p.1 = m then { p.2 with spawn := p.2.spawn.filter fun q => q.dom != dom } else p.2)
    cores := s.cores.map fun (p : Nat × Core) =>
      (p.1, if cidModule p.1 = m then { p.2 with held := p.2.held.filter fun a => a.dom != dom } else p.2)
    net := s.net.filter fun p => !(match p.body with
      | .migrate g => g.th.dom == dom
      | _ => false) }

/-- A ladle operation that is cancelled without a put (09 R225, 15 R360): it goes once no chunk is in flight. -/
def cancelLadle (dom : Nat) (t : Tab LadleOp) : Tab LadleOp :=
  (t.filter fun p => p.2.dom != dom || !p.2.flight.isEmpty).map fun (p : Nat × LadleOp) =>
    if p.2.dom = dom then (p.1, { p.2 with st := 2, cancel := none }) else p

/-- Cancels the ladle operations of a domain in the clusters of a module (15 R360 step 2). -/
def State.cancelLadles (s : State) (m dom : Nat) : State :=
  { s with clusters := s.clusters.map fun (p : Nat × Cluster) =>
      (p.1, if clusterModule p.1 = m then { p.2 with eng := { p.2.eng with ladle := cancelLadle dom p.2.eng.ladle } } else p.2) }

/-- Ends what a domain holds in a cluster's matrix engine and flask state (15 R360 step 3): faulted jobs go, members fault with FLASK_LEFT or
discard their outcome. -/
def State.quitEngines (s : State) (cl dom : Nat) : State :=
  let s := s.onEng cl fun e => { e with jobs := e.jobs.filter fun p => !(p.2.dom == dom && p.2.st == 3) }
  let f := s.flask cl
  if f.dom ≠ dom then s
  else if f.st = 5 then (s.discardRegion cl).leaveFlask cl
  else match f.pour with
    | some p =>
      if f.st = 4 && p.given && f.k ≠ f.decider p.ask.ring then ((s.becomeUnknown cl p).discardRegion cl).leaveFlask cl
      else if f.st = 3 || f.st = 4 then s.faultSelf cl p Cause.flaskLeft
      else s
    | none => s

/-- The clusters of a module that the state lists. -/
def State.clustersOn (s : State) (m : Nat) : List Nat := (s.clusters.map Prod.fst).filter fun cl => clusterModule cl == m

/-- Whether a thread of a domain is still in a slot of a module, one that issues a pour left out: it ends after its outcome. -/
def State.threadsLeft (s : State) (m dom : Nat) : Bool :=
  s.cores.any fun p => cidModule p.1 == m &&
    p.2.slots.any fun q => q.2.st != .free && q.2.dom == dom && !s.pouring p.1 q.1

/-- Whether a ladle operation of a domain is left on a module. -/
def State.ladlesLeft (s : State) (m dom : Nat) : Bool :=
  s.clusters.any fun p => clusterModule p.1 == m && p.2.eng.ladle.any fun q => q.2.dom == dom

/-- Whether anything of a domain still runs on a module. -/
def State.stillRuns (s : State) (m dom : Nat) : Bool :=
  (s.cores.any fun p => cidModule p.1 == m && p.2.slots.any fun q => q.2.st != .free && q.2.dom == dom) ||
  s.ladlesLeft m dom ||
  (s.clusters.any fun p => clusterModule p.1 == m &&
    ((p.2.eng.jobs.any fun q => q.2.dom == dom) || (p.2.eng.flask.dom == dom && p.2.eng.flask.pour.isSome)))

/-- The steps of 15 R360 on some modules, as far as they can go now, each step once the one before it has ended. -/
def State.endWork (s : State) (mods : List Nat) (dom : Nat) : State :=
  let s := mods.foldl (fun s m => s.onModule m fun x => x.beginUnbind dom) s
  let s := mods.foldl (fun s m => (s.killThreads m dom).killOthers m dom) s
  if mods.any fun m => s.threadsLeft m dom then s
  else
    let s := mods.foldl (fun s m => s.cancelLadles m dom) s
    if mods.any fun m => s.ladlesLeft m dom then s
    else
      let s := (mods.flatMap s.clustersOn).foldl (fun s cl => s.quitEngines cl dom) s
      if mods.any fun m => s.stillRuns m dom then s
      else mods.foldl (fun s m => s.onModule m fun x => x.quitQueues dom) s

/-! The wipe (15 R361). -/

/-- The frames and nodes of a table below a node: physical ranges. `base` is the input address of the node's first entry; a leaf of a
bank-linear table lies in the channel that its input names, one of an interleaved table in every channel. -/
def framesOf (mem : Memory) (m stack : Nat) (bank : Bool) : Nat → Nat → Nat → List (Nat × Nat)
  | 0, _, _ => []
  | level + 1, node, base =>
    let start := spaAddr m stack node
    (start, start + nodeSize level) :: (List.range (nodeSize level / 8)).flatMap fun i =>
      let a := spaAddr m stack (node + 8 * i)
      let e := mem.read a 8
      let input := base + i * (if level = 3 then 2 ^ 39 else pageSize level)
      if mem.poisoned (wordOf a) || !bit e 63 then []
      else if bit e 56 then
        if leafBad false level e || bit e 61 then []
        else (if bank then [input / 2 ^ 31 % 32] else List.range 32).map fun ch =>
          let lo := dramAddr m stack ch (field e 0 31)
          (lo, lo + pageSize level)
      else if nodeBad false level e then []
      else framesOf mem m stack bank level (field e 0 36) input

/-- The DRAM ranges that a domain's tables on a module map or stand in. -/
def State.domainFrames (s : State) (m dom : Nat) : List (Nat × Nat) :=
  match s.domain? m dom with
  | none => []
  | some (_, d) => (List.range 16).flatMap fun k =>
    (match d.set.interleavedRoots.getD k none with
     | some r => framesOf s.mem m k false 4 r 0
     | none => []) ++
    (match d.set.bankRoots.getD k none with
     | some r => framesOf s.mem m k true 4 r 0
     | none => [])

/-- The module whose home controllers hold an address that is not host memory. -/
def addrModule (a : Nat) : Nat :=
  if isDramAddr a then a / 2 ^ 40 else if isStoreAddr a then (a - 2 ^ 61) / 2 ^ 28 else (a - 2 ^ 60) / 2 ^ 33

/-- The module of a wait pool, or of the endpoint, by its number. -/
def poolModule (p : Nat) : Nat :=
  if 2 ^ 50 ≤ p then p - 2 ^ 50 else if 2 ^ 41 ≤ p then (p - 2 ^ 41) / 2 ^ 9 else if 2 ^ 40 ≤ p then (p - 2 ^ 40) / 2 ^ 14 else p / 2 ^ 9

/-- Whether an entry of a core's register file stands in the window of a thread (06 R133). -/
def Core.windowed (c : Core) (r : Nat) : Bool :=
  c.slots.any fun q => q.2.st != .free && decide (q.2.base ≤ r) && decide (r < q.2.base + q.2.win)

/-- Wipes a core that held a domain (15 R361): whole, or, while another domain holds it too, the bytes of local memory that were the domain's
and every register that no thread's window covers (log entry 30). -/
def State.unholdCore (s : State) (cid dom : Nat) : State :=
  if !(s.core cid).doms.contains dom then s
  else if s.onlyFor cid dom dom then s.wipeCore cid dom
  else
    let s := ((s.core cid).locals.filter fun x => x.1 == dom).foldl
      (fun s x => s.wipeRange (localAddr cid x.2.1) (localAddr cid x.2.2)) s
    s.onCore cid fun c =>
      { c with
        rf := c.rf.filter fun p => c.windowed p.1
        classes := Tab.del c.classes dom
        traps := Tab.del c.traps dom
        retries := Tab.del c.retries dom
        doms := setErase c.doms dom
        locals := c.locals.filter fun x => x.1 != dom }

/-- Wipes a cluster whose engine stores a domain held last, and ends its flask state and rings. -/
def State.unholdCluster (s : State) (cl dom : Nat) : State :=
  let c := s.cluster cl
  let s := if c.lastClaim = dom || c.claim = dom || (c.eng.flask.st ≠ 0 && c.eng.flask.dom = dom) then s.wipeStores cl else s
  s.onEng cl fun e =>
    { e with
      ladle := e.ladle.filter fun p => p.2.dom != dom
      jobs := e.jobs.filter fun p => p.2.dom != dom
      rings := e.rings.filter fun p => p.2.dom != dom
      flask := if e.flask.dom = dom then { Flask.fresh with out := false } else e.flask }

/-- A module without a domain: its launches, rounds and slot are gone. -/
def Module.withoutDomain (x : Module) (dom : Nat) : Module :=
  { x with
    launches := x.launches.filter fun l => l.dom != dom
    rounds := x.rounds.filter fun y => y.dom != dom
    roundNo := Tab.del x.roundNo dom
    gangs := x.gangs.map fun (p : Nat × Gang) => (p.1, if p.2.current = dom then { p.2 with current := 0, cores := [] } else p.2)
    domains := x.domains.filter fun p => p.2.tag != dom }

/-- The wipe of 15 R361 on a module, with what may still be held for the domain outside its slots; the slot is free afterwards. -/
def State.wipeDomain (s : State) (m dom : Nat) : State :=
  let frames := s.domainFrames m dom
  let s := s.killOthers m dom
  let s := { s with
    waitq := s.waitq.filter fun e => e.req.dom != dom || poolModule e.pool != m
    walks := s.walks.filter fun w => w.dom != dom || w.unit / 17 != m
    tlb := s.tlb.filter fun e => e.dom != dom || e.unit / 17 != m
    limits := s.limits.filter fun x => x.2.1 != dom || poolModule x.1 != m
    substs := s.substs.filter fun x => x.2.1 != dom || poolModule x.1 != m }
  let s := ((s.cores.map Prod.fst).filter fun k => cidModule k == m).foldl (fun s k => s.unholdCore k dom) s
  let s := ((s.clusters.map Prod.fst).filter fun k => clusterModule k == m).foldl (fun s k => s.unholdCluster k dom) s
  let s := { s with dead := s.dead.filter fun r => !frames.any fun f => f.1 ≤ r.1 && r.2 ≤ f.2 }
  (frames.foldl (fun s f => s.wipeRange f.1 f.2) s).onModule m fun x => x.withoutDomain dom

/-- DOMAIN_UNBIND (15 R359 to R361), on every module on which the domain is bound (log entry 30). The command keeps BUSY until the work has
ended and every wipe is complete. -/
def execDomainUnbind (m : Nat) (s : State) : Out :=
  .next (s.serving m 0x03 fun s =>
    match Tab.find (s.module m).domains (s.arg m 0) with
    | none => s.ended m 3
    | some d =>
      let mods := s.domModules d.tag
      if !bit (s.arg m 1) 0 && s.unbindRefused d.tag mods then s.ended m 3
      else
        let s := s.endWork mods d.tag
        if mods.any fun k => s.stillRuns k d.tag then s
        else (mods.foldl (fun s k => s.wipeDomain k d.tag) s).ended m 0)

end Sys2Proof.Machine
end

