-- ==== Sys2Proof/Machine/Reset.lean ====
section
/-!
DEFINITION. The module as a whole (15 R362 to R368; 03 R47; 17 R376 to R380): the reset wipe, life-cycle states, power states, boot and boot
mode, temperature and the clock.
-/
namespace Sys2Proof.Machine

/-! The module reset wipe (15 R362). -/

/-- Answers the requests of other modules that wait at a module with LINK_UNREACHABLE, as no path leads to it while it resets (04 R78;
log entry 28). -/
def State.abandonHomes (s : State) (m : Nat) : State :=
  let lost := fun (dst : Nat) (r : Req) =>
    (⟨dst, cidKey r.cid, 1, none, false, .ans r.cid r.tag r.posted (.fault Cause.linkUnreachable)⟩ : Packet)
  let here := fun (e : WaitEntry) => addrModule (8 * e.word) == m
  let walking := fun (w : Walk) => w.unit / 17 == m
  { s with
    net := s.net ++ ((s.waitq.filter fun e => here e && cidModule e.req.cid != m).map fun e => lost e.replyTo e.req) ++
      ((s.walks.filter fun w => walking w && cidModule w.req.cid != m).map fun w => lost (mgmtKey m) w.req)
    waitq := s.waitq.filter fun e => !here e
    walks := s.walks.filter fun w => !walking w }

/-- The packets of a module that resets: those on links and those that had reached it are answered, and nothing is on its way to it
(log entry 28). -/
def State.abandonPackets (s : State) (m : Nat) : State :=
  let s := (s.onModule m fun x => { x with d3hot := true }).cutModule m
  let s := s.losePackets fun p => keyModule p.dst == m && sourceModule p.src != m
  { s with net := s.net.filter fun p => keyModule p.dst != m }

/-- The parts of the machine that hold what a module's tables and counters hold, without that module's. -/
def State.forgetModule (s : State) (m : Nat) : State :=
  { s with
    cores := s.cores.filter fun p => cidModule p.1 != m
    clusters := s.clusters.filter fun p => clusterModule p.1 != m
    ctxs := s.ctxs.filter fun k => cidModule k.cid != m
    limits := s.limits.filter fun x => poolModule x.1 != m
    substs := s.substs.filter fun x => poolModule x.1 != m
    tlb := s.tlb.filter fun e => e.unit / 17 != m
    corrected := s.corrected.filter fun p => p.1 / 2 ^ 9 != m
    refreshing := s.refreshing.filter fun p => p.1 / 2 ^ 9 != m
    hotStacks := s.hotStacks.filter fun k => k / 16 != m
    dead := s.dead.filter fun r => addrModule r.1 != m
    issuing := s.issuing && cidModule s.cur.1 != m }

/-- Every DRAM word, local-memory word and engine-store word of a module zero with P = 1 and no poison. -/
def Memory.wipeModule (mem : Memory) (m : Nat) : Memory :=
  ((mem.wipe (dramAddr m 0 0 0) (dramAddr (m + 1) 0 0 0)).wipe (localAddr (m * 2 ^ 14) 0) (localAddr ((m + 1) * 2 ^ 14) 0)).wipe
    (storeAddr (m * 2 ^ 9) 0 0) (storeAddr ((m + 1) * 2 ^ 9) 0 0)

/-- A module after the wipe: what the fuses hold survives, and the die is as hot as it was (15 R362, R368). -/
def Module.wiped (x : Module) : Module :=
  { Module.fresh with
    fuses := x.fuses
    code := x.code
    over105 := x.over105
    over115 := x.over115
    clock := if x.over105 then 800 else 1600 }

/-- The module reset wipe (15 R362); the boot comes after it. -/
def State.resetModule (s : State) (m : Nat) : State :=
  let s := ((s.abandonPackets m).abandonHomes m).forgetModule m
  (s.withMem (s.mem.wipeModule m)).onModule m Module.wiped

/-- A module as after a fundamental reset: the die has cooled (15 R362, R368). -/
def State.resetCold (s : State) (m : Nat) : State :=
  (s.resetModule m).onModule m fun x => { x with over105 := false, over115 := false, clock := 1600 }

/-- FUNCTION_LEVEL_RESET (15 R362): a configuration request (R368). -/
def execFunctionLevelReset (m : Nat) (s : State) : Out := .next (s.configRequest m fun s => s.resetModule m)
/-- HOT_RESET (15 R362). -/
def execHotReset (m : Nat) (s : State) : Out := .next (if s.present.contains m then s.resetModule m else s)
/-- FUNDAMENTAL_RESET (15 R362, R368). -/
def execFundamentalReset (m : Nat) (s : State) : Out :=
  .next (if s.present.contains m then s.resetCold m else s)

/-! Power states (03 R47). -/

/-- D3HOT_ENTRY (03 R47): a configuration request (15 R368). -/
def execD3hotEntry (m : Nat) (s : State) : Out :=
  .next (s.configRequest m fun s =>
    if (s.module m).d3hot then s else (s.onModule m fun x => { x with d3hot := true }).cutModule m)

/-- D3HOT_EXIT (03 R47): the move back to D0 performs the module reset wipe, and the module is as after a fundamental reset. -/
def execD3hotExit (m : Nat) (s : State) : Out :=
  .next (s.configRequest m fun s => if (s.module m).d3hot then s.resetCold m else s)

/-! The life cycle (15 R363). -/

/-- What the fuses hold after a transition (15 R363): a key is made on entry to PROVISIONED from MANUFACTURE and destroyed on entry to RETURNED. -/
def Fuses.enter (f : Fuses) (target : Nat) : Fuses :=
  if target = 1 && f.lifecycle == 0 then
    { f with lifecycle := 1, keyEpoch := some f.keysMade, keysMade := f.keysMade + 1, leaf := 0 }
  else if target = 3 then { f with lifecycle := 3, keyEpoch := none, leaf := 0 }
  else { f with lifecycle := target }

/-- Whether the table of 15 R363 lists a transition. -/
def lifecycleListed (from_ to_ : Nat) : Bool :=
  match to_ with
  | 0 => from_ == 3
  | 1 => from_ == 0 || from_ == 2
  | 2 => from_ == 1
  | 3 => true
  | _ => false

/-- LIFECYCLE (15 R359, R362, R363): a transition performs the module reset wipe; from RETURNED to MANUFACTURE the buffer holds a command that
the root key has signed (log entry 13). The second argument carries nothing: the command is read from the buffer. -/
def execLifecycle (m : Nat) (_ : Unit) (s : State) : Out :=
  .next (s.serving m 0x0E fun s =>
    let target := s.arg m 0
    let f := (s.module m).fuses
    if 4 ≤ target then s.ended m 2
    else if !lifecycleListed f.lifecycle target then s.ended m 3
    else if target = 0 && !f.command.sound f.rootHash (s.buffer m 3840) then s.ended m 4
    else (s.onModule m fun x => { x with fuses := x.fuses.enter target }).resetModule m)

/-! Boot (15 R364). -/

/-- The measurement register extended with the SHA-256 of an image. -/
def extendMr (mr : Nat) (image : List Byte) : Nat := sha256 (beBytes 32 mr ++ beBytes 32 (sha256 image))

/-- The measurement register after the stages, up to the first whose verification fails; whether all were verified. -/
def measure : List (List Byte × Bool) → Nat → Nat × Bool
  | [], mr => (mr, true)
  | (image, ok) :: r, mr => if ok then measure r (extendMr mr image) else (mr, false)

/-! Boot mode (17 R376 to R378). -/

/-- The boot domain's tag. -/
def bootTag : Nat := 0xFFFF

/-- The clusters of a module, by physical or logical place. -/
def moduleClusters (m : Nat) : List Nat :=
  (List.range 16).flatMap fun d => (List.range 24).map fun c => (m * 16 + d) * 32 + c

/-- The unfused core sites of a module. -/
def State.bootCores (s : State) (m : Nat) : List Nat :=
  ((moduleClusters m).flatMap fun cl => (List.range 25).map fun k => cl * 32 + k).filter fun cid => !s.fused cid

/-- PRGN0 of every core in boot mode. -/
def bootRegion : Word := 0xFFFF1F0017FF0000

/-- The state with P of a firmware-named word of the boot domain changed. -/
def State.setWordFull (s : State) (m va : Nat) (full : Bool) : State :=
  match s.placeInDram m bootTag va with
  | some a => s.withMem (s.mem.setFull (wordOf a) full)
  | none => s

/-- Binds the boot domain, with every entry of its trap table MODE 00 (17 R376). -/
def Module.enterBoot (x : Module) (b : BootImage) : Module :=
  let table := (List.range 8).map fun k => BitVec.ofNat 64 ((b.settings.ttbl.getD k 0).toNat / 4 * 4)
  { x with
    bootMode := true
    sealed := false
    boot := some b
    domains := Tab.set x.domains 0 ⟨bootTag, { b.settings with ttbl := table }, [], [], 0, none, false, false, 0, [], false⟩ }

/-- What firmware does on every die before the root thread starts (17 R376). -/
def State.prepareBoot (s : State) (m : Nat) (b : BootImage) : State :=
  let s := s.withMem (b.sections.foldl (fun mem w => mem.putByte w.1 w.2) s.mem)
  let s := (s.bootCores m).foldl (fun s cid => (s.holdCore cid bootTag).onCore cid fun c =>
    { c with prgn := Tab.set c.prgn 0 bootRegion, classes := Tab.set c.classes bootTag ⟨b.classes, (m, 2 ^ 32)⟩ }) s
  let s := (moduleClusters m).foldl (fun s cl => s.withMem (s.mem.write (localAddr (s.bootCore cl) 0) 8 (s.fuseWord (cl * 32)))) s
  (s.setWordFull m b.sealVa false).setWordFull m b.sealedVa false

/-- Starts the boot root thread in slot 0 of the boot core of physical cluster 0 of die 0 (17 R378). -/
def State.startBoot (s : State) (m : Nat) (b : BootImage) : State :=
  let cid := s.bootCore (m * 2 ^ 9)
  let e := match s.placeInDram m bootTag b.root.toNat with
    | some a => s.mem.read a 8
    | none => 0
  let s := s.startTask cid 0 0 (newTask bootTag none false b.root.toNat e 32) [0x1000000, 0, 1]
  s.onModule m fun x => { x with bootRoot := some s.uids }

/-- MODULE_BOOT (15 R362, R364; 17 R376 to R378): the stages of the image in flash are verified and measured, then the configuration is
measured; the boot program of stage 3 runs in boot mode. A failure halts boot (log entries 6 and 13). -/
def execModuleBoot (m : Nat) (b : BootImage) (s : State) : Out :=
  .next (
    let x := s.module m
    if !s.present.contains m || x.booted || x.bootHalted || x.bootMode || x.d3hot then s
    else
      let f := x.fuses
      let (mr, ok) := measure (f.image.verified f.rootHash f.flash) x.mr
      if !ok then s.onModule m fun x => { x with mr := mr, bootHalted := true }
      else
        let s := s.onModule m fun x => { x with mr := extendMr mr (Config.configuration f.fuseMap x.cap f.lifecycle) }
        if b.program then ((s.onModule m fun x => x.enterBoot b).prepareBoot m b).startBoot m b
        else s.onModule m fun x => { x with booted := true })

/-! The seal (17 R379; 04 R73). -/

/-- Whether a physical cluster is disabled: two or more of its sites are fused (04 R73). -/
def disabled (fuse : Nat) : Bool := 2 ≤ popCount 25 fuse

/-- The map word of logical cluster `l` of a die that the fuse words call for (04 R73, 17 R379). -/
def mapWord (fuses : List Word) (l : Nat) : Nat :=
  let p := if disabled (fuses.getD l 0).toNat then 23 else l
  let f := (fuses.getD p 0).toNat
  p * 2 ^ 8 + ((List.range 24).find? fun k => bit f k).getD 24

/-- The map words that the fuse words of a module call for, in the order 23d + l. -/
def mapWords (fuseMap : List (List Word)) : List Nat :=
  (List.range 368).map fun i => mapWord (fuseMap.getD (i / 23) []) (i % 23)

/-- The map words that the boot program wrote. -/
def State.writtenMap (s : State) (m : Nat) (b : BootImage) : List Nat :=
  (List.range 368).map fun i => match s.placeInDram m bootTag (b.mapVa + 8 * i) with
    | some a => s.mem.read a 8
    | none => 0

/-- Firmware puts a value into a word of the boot domain (STF). -/
def State.bootPut (s : State) (m va v : Nat) : State := (s.unitAct m bootTag va (.stf v) none).2

/-- The logical cluster that a physical cluster is under the map; the one of a die that no logical name reaches is put at index 23, which
no logical cluster has. -/
def logicalCluster (maps : List Nat) (cl : Nat) : Nat :=
  cl / 32 * 32 + ((List.range 23).find? fun l => maps.getD (23 * (cl / 32 % 16) + l) 0 / 2 ^ 8 == cl % 32).getD 23

/-- The logical core that a physical site is under the map: site 24 changes places with the site that it replaces; what no logical name
reaches is put at cluster index 23 or core index 24. -/
def logicalCore (maps : List Nat) (cid : Nat) : Nat :=
  let cl := logicalCluster maps (cidCluster cid)
  let sub := if cl % 32 = 23 then 24 else maps.getD (23 * (cl / 32 % 16) + cl % 32) 0 % 32
  cl * 32 + (if cid % 32 = sub then 24 else if cid % 32 = 24 then sub else cid % 32)

/-- An address of local memory or of an engine store of a module renamed by the map. -/
def renameAddr (maps : List Nat) (m a : Nat) : Nat :=
  if isDramAddr a || isHostAddr a || addrModule a ≠ m then a
  else if isStoreAddr a then
    let u := (a - 2 ^ 61) / 2 ^ 19
    storeAddr (logicalCluster maps (u / 32)) (u % 32) (a % 2 ^ 19)
  else localAddr (logicalCore maps ((a - 2 ^ 60) / 2 ^ 19)) (a % 2 ^ 19)

/-- Memory with its addresses renamed, in canonical form. -/
def Memory.rename (mem : Memory) (f : Nat → Nat) : Memory :=
  let word := fun w => f (8 * w) / 8
  ⟨(mem.cells.map fun c => (f c.1, c.2)).foldl (fun l c => cellPut l c.1 c.2) [],
    (mem.empties.map word).foldl setInsert [], (mem.poison.map word).foldl setInsert []⟩

/-- A table with its indices on a module renamed. -/
def renameTab {α : Type} (t : Tab α) (mine : Nat → Bool) (f : Nat → Nat) : Tab α :=
  t.map fun p => (if mine p.1 then f p.1 else p.1, p.2)

/-- A core whose outstanding requests carry a new CID. -/
def Core.renamed (c : Core) (cid : Nat) : Core :=
  let unit := fun (u : Access) => { u with req := { u.req with cid := cid } }
  { c with
    journal := c.journal.map fun (e : JEntry) => { e with req := { e.req with cid := cid } }
    slots := c.slots.map fun (p : Nat × Thread) =>
      (p.1, { p.2.onUnits (fun us => us.map unit) with fetches := p.2.fetches.map unit }) }

/-- A cluster whose engine operations name their submitters by new CIDs. -/
def Cluster.renamed (c : Cluster) (f : Nat → Nat) : Cluster :=
  { c with eng := { c.eng with
      ladle := c.eng.ladle.map fun (p : Nat × LadleOp) => (p.1, { p.2 with cid := f p.2.cid })
      jobs := c.eng.jobs.map fun (p : Nat × Job) => (p.1, { p.2 with cid := f p.2.cid }) } }

/-- The state under the logical names (17 R379): cores, clusters and their memories keep what they hold. -/
def State.applyMap (s : State) (m : Nat) (maps : List Nat) : State :=
  let core := fun cid => if cidModule cid = m then logicalCore maps cid else cid
  { s with
    cores := (renameTab s.cores (fun k => cidModule k == m) (logicalCore maps)).map fun (p : Nat × Core) =>
      (p.1, if cidModule p.1 = m then p.2.renamed p.1 else p.2)
    clusters := (renameTab s.clusters (fun k => clusterModule k == m) (logicalCluster maps)).map fun (p : Nat × Cluster) =>
      (p.1, if clusterModule p.1 = m then p.2.renamed core else p.2)
    ctxs := s.ctxs.map fun (k : Context) => { k with cid := core k.cid }
    mem := s.mem.rename (renameAddr maps m)
    waitq := s.waitq.map fun (e : WaitEntry) =>
      let a := renameAddr maps m (8 * e.word)
      { e with word := wordOf a, pool := if a = 8 * e.word then e.pool else (poolOf a).1, req := { e.req with cid := core e.req.cid } }
    cur := (core s.cur.1, s.cur.2) }

/-- The thread that a held arrival is, by its count of the threads placed. -/
def Arrival.uid : Arrival → Option Nat
  | .msg _ _ _ _ _ => none
  | .mig _ g => some g.th.uid

/-- The boot tasks of a module, whatever their state, but for the thread `root` (17 R377): in slots, held, evicted, queued to be spawned. -/
def State.bootTasks (s : State) (m : Nat) (root : Option Nat) : Nat :=
  let counts := fun (dom : Nat) (uid : Option Nat) => dom == bootTag && !(uid.isSome && uid == root)
  (s.cores.filter fun p => cidModule p.1 == m).foldl (fun n p =>
    n + (p.2.slots.filter fun q => q.2.st != .free && counts q.2.dom (some q.2.uid)).length +
      (p.2.held.filter fun a => counts a.dom a.uid).length) 0 +
  (s.ctxs.filter fun k => cidModule k.cid == m && counts k.th.dom (some k.th.uid)).length +
  (s.clusters.filter fun p => clusterModule p.1 == m).foldl (fun n p => n + (p.2.spawn.filter fun q => counts q.dom none).length) 0

/-- Whether nothing of the boot domain but the root is on its way (17 R379). -/
def State.bootQuiet (s : State) (m : Nat) : Bool :=
  s.bootTasks m (s.module m).bootRoot == 0 && (s.net.all fun p => s.packetDom p != bootTag || sourceModule p.src != m) &&
    (s.clusters.all fun p => clusterModule p.1 != m || p.2.eng.ladle.all fun q => q.2.dom != bootTag || q.2.st != 1)

/-- BOOT_SEAL (17 R379): once `seal` is full the map is checked; a mismatch halts boot, otherwise, when nothing is on its way, the map is loaded and
boot mode ends. -/
def execBootSeal (m : Nat) (s : State) : Out :=
  .next (
    let x := s.module m
    match x.boot with
    | none => s
    | some b => match s.placeInDram m bootTag b.sealVa with
      | none => s
      | some a =>
        if !x.bootMode || x.bootHalted || x.d3hot || !s.mem.full (wordOf a) then s
        else
          let want := mapWords x.fuses.fuseMap
          let got := s.writtenMap m b
          match (List.range 368).find? fun i => want.getD i 0 != got.getD i 0 with
          | some i => (s.bootPut m b.sealedVa (0xFF * 2 ^ 56 + i)).onModule m fun x => { x with bootHalted := true }
          | none =>
            if !s.bootQuiet m then s
            else
              let s := (s.onModule m fun x => { x with
                bootMode := false
                sealed := true
                logicalMap := (List.range 16).map fun d => (List.range 23).map fun l => BitVec.ofNat 64 (want.getD (23 * d + l) 0) }).applyMap m want
              s.bootPut m b.sealedVa 1)

/-- BOOT_RESULT (17 R376, R380): a record in the boot domain's fault queue halts boot; when no boot task remains, `result` zero wipes what the boot domain
used and the mailbox is served, any other halts boot. -/
def execBootResult (m : Nat) (s : State) : Out :=
  .next (
    let x := s.module m
    match x.boot with
    | none => s
    | some b =>
      let halt := s.onModule m fun x => { x with bootHalted := true }
      if x.booted || x.bootHalted || x.d3hot then s
      else if !(s.faultQueue m bootTag).isEmpty then halt
      else if s.bootTasks m none ≠ 0 then s
      else
        let result := match s.placeInDram m bootTag b.resultVa with
          | some a => s.mem.read a 8
          | none => 1
        if result ≠ 0 then halt
        else (s.wipeDomain m bootTag).onModule m fun x => { x with booted := true, boot := none, bootRoot := none })

/-! Temperature and power (15 R367, R368). -/

/-- JUNCTION_OVER_105 (15 R368): the junction passes 105 °C, from below it upwards, and the clock is held at 0.8 GHz, or from above it
downwards, and the clock may rise again; what 115 °C brought about lasts until a fundamental reset. -/
def execJunctionOver105 (m : Nat) (s : State) : Out :=
  .next (if s.present.contains m then
      s.onModule m fun x => if x.over105 then { x with over105 := x.over115 } else { x with over105 := true, clock := 800 }
    else s)

/-- JUNCTION_OVER_115 (15 R368): issue stops on every core, every link is closed for data, and the endpoint answers with Completer Abort. -/
def execJunctionOver115 (m : Nat) (s : State) : Out :=
  .next (if s.present.contains m then
      (s.onModule m fun x => { x with over105 := true, over115 := true, clock := 800 }).cutModule m
    else s)

/-- POWER_CAP_CLOCK_STEP (15 R367, R368): one step of 25 MHz between 0.8 and 1.6 GHz; held at 0.8 GHz above 105 °C. -/
def execPowerCapClockStep (m : Nat) (up : Bool) (s : State) : Out :=
  .next (if s.present.contains m then
      s.onModule m fun x =>
        if up then (if x.over105 then x else { x with clock := min 1600 (x.clock + 25) })
        else { x with clock := max 800 (x.clock - 25) }
    else s)

end Sys2Proof.Machine
end

