-- ==== Sys2Proof/Machine/Scalar.lean ====
section
/-!
DEFINITION. The scalar integer, compare, predicate, select, branch and control instructions (06 R142 to R152), FMTP, FDSET and
FDGET (08 R186, R187), SRD and SWR (06 R137 to R141, 14 R326).
-/
namespace Sys2Proof.Machine

/-! Shapes. -/

/-- gD from gS and gT (06 R143). -/
def intOp (d s t : Reg) (f : Word → Word → Word) (st : State) : Out :=
  .next (plain [d, s, t] (fun st => (st.setG d (f (st.g s) (st.g t))).retire) st)

/-- gD from gS (06 R143, R145, R146). -/
def intUnary (d s : Reg) (f : Word → Word) (st : State) : Out :=
  .next (plain [d, s] (fun st => (st.setG d (f (st.g s))).retire) st)

/-- A division: INT_DIVZERO when gT is zero (06 R144). -/
def intDiv (d s t : Reg) (f : Word → Word → Word) (st : State) : Out :=
  .next (plain [d, s, t] (fun st =>
    if st.g t = 0 then st.trap Cause.intDivZero 0 else (st.setG d (f (st.g s) (st.g t))).retire) st)

/-- All ones or all zeros (06 R135). -/
def condWord (c : Bool) : Word := if c then ones else 0

/-- pD from a condition on gS and gT (06 R147). -/
def cmpOp (p : Pred) (s t : Reg) (f : Word → Word → Bool) (st : State) : Out :=
  .next (plain [s, t] (fun st => (st.setP p (condWord (f (st.g s) (st.g t)))).retire) st)

/-- pD from a condition on gS and an immediate (06 R147). -/
def cmpImm (p : Pred) (s : Reg) (u : Word) (f : Word → Word → Bool) (st : State) : Out :=
  .next (plain [s] (fun st => (st.setP p (condWord (f (st.g s) u))).retire) st)

/-- pD from pS and pT (06 R148). -/
def predOp (d s t : Pred) (f : Word → Word → Word) (st : State) : Out :=
  .next (plain [] (fun st => (st.setP d (f (st.p s) (st.p t))).retire) st)

/-- A branch (06 R150): the registers it names, its displacement, whether it is taken, what it links. -/
def branchOp {n : Nat} (regs : List Nat) (x : BitVec n) (taken : State → Bool) (link : State → State) (st : State) : Out :=
  .next (plain regs (fun st => if taken st then st.jumpTo (st.target x) link else st.retire) st)

/-- Writes LK with the address after the instruction (06 R150, R151). -/
def State.linkNext (s : State) : State := s.onThr fun t => { t with lk := t.pc + 4 }

/-! Arithmetic (06 R143). -/

/-- Bits [127:64] of a product of integers. -/
def highOf (n : Int) : Word := BitVec.ofInt 64 (n / 2 ^ 64)
/-- The shift amount of a register (06 R143). -/
def amountOf (t : Word) : Nat := t.toNat % 64
/-- A rotation left. -/
def rotlWord (s : Word) (n : Nat) : Word := s.rotateLeft (n % 64)
/-- Leading zeros of the `w` bits of `v`. -/
def clzNat (w v : Nat) : Nat := if v = 0 then w else w - 1 - Nat.log2 v
/-- Trailing zeros of the 64 bits of a word. -/
def ctzWord (s : Word) : Nat := if s = 0 then 64 else Nat.log2 (s &&& (0 - s)).toNat
/-- One bits among the low `w` of `v`. -/
def popcNat (w v : Nat) : Nat := ((List.range w).filter (bit v ·)).length
/-- The bits of a word in reverse. -/
def brevNat (v : Nat) : Nat := (List.range 64).foldl (fun acc i => 2 * acc + (bit v i).toNat) 0
/-- The bytes of a word in reverse. -/
def bswapNat (v : Nat) : Nat := (List.range 8).foldl (fun acc i => 256 * acc + field v (8 * i) 8) 0
/-- The low 32 bits, sign-extended. -/
def wordOf32 (v : Word) : Word := BitVec.ofInt 64 (sextNat 32 v.toNat)

/-- ADD (06 R143). -/
def execAdd (d s t : Reg) (st : State) : Out := intOp d s t (fun a b => a + b) st
/-- SUB (06 R143). -/
def execSub (d s t : Reg) (st : State) : Out := intOp d s t (fun a b => a - b) st
/-- MUL (06 R143). -/
def execMul (d s t : Reg) (st : State) : Out := intOp d s t (fun a b => a * b) st
/-- MULH (06 R143). -/
def execMulh (d s t : Reg) (st : State) : Out := intOp d s t (fun a b => highOf (a.toInt * b.toInt)) st
/-- MULHN (06 R143). -/
def execMulhn (d s t : Reg) (st : State) : Out := intOp d s t (fun a b => highOf (a.toNat * b.toNat)) st
/-- DIV (06 R144). -/
def execDiv (d s t : Reg) (st : State) : Out := intDiv d s t (fun a b => BitVec.ofInt 64 (Int.tdiv a.toInt b.toInt)) st
/-- DIVN (06 R144). -/
def execDivn (d s t : Reg) (st : State) : Out := intDiv d s t (fun a b => BitVec.ofNat 64 (a.toNat / b.toNat)) st
/-- REM (06 R144). -/
def execRem (d s t : Reg) (st : State) : Out := intDiv d s t (fun a b => BitVec.ofInt 64 (Int.tmod a.toInt b.toInt)) st
/-- REMN (06 R144). -/
def execRemn (d s t : Reg) (st : State) : Out := intDiv d s t (fun a b => BitVec.ofNat 64 (a.toNat % b.toNat)) st
/-- AND (06 R143). -/
def execAnd (d s t : Reg) (st : State) : Out := intOp d s t (fun a b => a &&& b) st
/-- OR (06 R143). -/
def execOr (d s t : Reg) (st : State) : Out := intOp d s t (fun a b => a ||| b) st
/-- XOR (06 R143). -/
def execXor (d s t : Reg) (st : State) : Out := intOp d s t (fun a b => a ^^^ b) st
/-- ANDN (06 R143). -/
def execAndn (d s t : Reg) (st : State) : Out := intOp d s t (fun a b => a &&& ~~~b) st
/-- SHL (06 R143). -/
def execShl (d s t : Reg) (st : State) : Out := intOp d s t (fun a b => a <<< amountOf b) st
/-- SHR (06 R143). -/
def execShr (d s t : Reg) (st : State) : Out := intOp d s t (fun a b => a >>> amountOf b) st
/-- SHRA (06 R143). -/
def execShra (d s t : Reg) (st : State) : Out := intOp d s t (fun a b => a.sshiftRight (amountOf b)) st
/-- ROTL (06 R143). -/
def execRotl (d s t : Reg) (st : State) : Out := intOp d s t (fun a b => rotlWord a (amountOf b)) st
/-- MIN (06 R143). -/
def execMin (d s t : Reg) (st : State) : Out := intOp d s t (fun a b => if a.toInt ≤ b.toInt then a else b) st
/-- MAX (06 R143). -/
def execMax (d s t : Reg) (st : State) : Out := intOp d s t (fun a b => if a.toInt ≤ b.toInt then b else a) st
/-- MINN (06 R143). -/
def execMinn (d s t : Reg) (st : State) : Out := intOp d s t (fun a b => if a.toNat ≤ b.toNat then a else b) st
/-- MAXN (06 R143). -/
def execMaxn (d s t : Reg) (st : State) : Out := intOp d s t (fun a b => if a.toNat ≤ b.toNat then b else a) st
/-- LEA2 (06 R143). -/
def execLea2 (d s t : Reg) (st : State) : Out := intOp d s t (fun a b => a + 2 * b) st
/-- LEA4 (06 R143). -/
def execLea4 (d s t : Reg) (st : State) : Out := intOp d s t (fun a b => a + 4 * b) st
/-- LEA8 (06 R143). -/
def execLea8 (d s t : Reg) (st : State) : Out := intOp d s t (fun a b => a + 8 * b) st
/-- ADDW (06 R143). -/
def execAddw (d s t : Reg) (st : State) : Out := intOp d s t (fun a b => wordOf32 (a + b)) st
/-- MULW (06 R143). -/
def execMulw (d s t : Reg) (st : State) : Out := intOp d s t (fun a b => wordOf32 (a * b)) st
/-- CLZ (06 R143). -/
def execClz (d s : Reg) (st : State) : Out := intUnary d s (fun a => BitVec.ofNat 64 (clzNat 64 a.toNat)) st
/-- CTZ (06 R143). -/
def execCtz (d s : Reg) (st : State) : Out := intUnary d s (fun a => BitVec.ofNat 64 (ctzWord a)) st
/-- POPC (06 R143). -/
def execPopc (d s : Reg) (st : State) : Out := intUnary d s (fun a => BitVec.ofNat 64 (popcNat 64 a.toNat)) st
/-- BREV (06 R143). -/
def execBrev (d s : Reg) (st : State) : Out := intUnary d s (fun a => BitVec.ofNat 64 (brevNat a.toNat)) st
/-- BSWAP (06 R143). -/
def execBswap (d s : Reg) (st : State) : Out := intUnary d s (fun a => BitVec.ofNat 64 (bswapNat a.toNat)) st
/-- ABSD (06 R143). -/
def execAbsd (d s t : Reg) (st : State) : Out :=
  intOp d s t (fun a b => BitVec.ofNat 64 (a.toInt - b.toInt).natAbs) st

/-! Immediates, constants and bit fields (06 R145, R146). -/

/-- ADDI (06 R145). -/
def execAddi (d s : Reg) (i : BitVec 12) (st : State) : Out := intUnary d s (fun a => a + i.signExtend 64) st
/-- ANDI (06 R145). -/
def execAndi (d s : Reg) (i : BitVec 12) (st : State) : Out := intUnary d s (fun a => a &&& i.zeroExtend 64) st
/-- ORI (06 R145). -/
def execOri (d s : Reg) (i : BitVec 12) (st : State) : Out := intUnary d s (fun a => a ||| i.zeroExtend 64) st
/-- XORI (06 R145). -/
def execXori (d s : Reg) (i : BitVec 12) (st : State) : Out := intUnary d s (fun a => a ^^^ i.zeroExtend 64) st
/-- SHLI (06 R145). -/
def execShli (d s : Reg) (n : Fin 64) (st : State) : Out := intUnary d s (fun a => a <<< n.val) st
/-- SHRI (06 R145). -/
def execShri (d s : Reg) (n : Fin 64) (st : State) : Out := intUnary d s (fun a => a >>> n.val) st
/-- SHRAI (06 R145). -/
def execShrai (d s : Reg) (n : Fin 64) (st : State) : Out := intUnary d s (fun a => a.sshiftRight n.val) st
/-- ROTLI (06 R145). -/
def execRotli (d s : Reg) (n : Fin 64) (st : State) : Out := intUnary d s (fun a => rotlWord a n.val) st
/-- MOVI (06 R146). -/
def execMovi (d : Reg) (i : BitVec 19) (st : State) : Out :=
  .next (plain [d] (fun st => (st.setG d (i.signExtend 64)).retire) st)
/-- MOVS (06 R146). -/
def execMovs (d : Reg) (i : BitVec 19) (st : State) : Out :=
  .next (plain [d] (fun st => (st.setG d (st.g d * 2 ^ 19 + i.zeroExtend 64)).retire) st)
/-- The field width of a bit-field instruction (06 R146): `l` is 0 for 64. -/
def fieldWidth (p l : Fin 64) : Nat := min (if l.val = 0 then 64 else l.val) (64 - p.val)
/-- BFX (06 R146). -/
def execBfx (d s : Reg) (p l : Fin 64) (st : State) : Out :=
  intUnary d s (fun a => BitVec.ofNat 64 (field a.toNat p (fieldWidth p l))) st
/-- BFXS (06 R146). -/
def execBfxs (d s : Reg) (p l : Fin 64) (st : State) : Out :=
  intUnary d s (fun a => BitVec.ofInt 64 (sextNat (fieldWidth p l) (a.toNat / 2 ^ p.val))) st
/-- BFI (06 R146). -/
def execBfi (d s : Reg) (p l : Fin 64) (st : State) : Out :=
  .next (plain [d, s] (fun st =>
    (st.setG d (BitVec.ofNat 64 (putField (st.gn d) p (fieldWidth p l) (st.gn s)))).retire) st)

/-! Compares (06 R147). -/

/-- CMPEQ (06 R147). -/
def execCmpeq (p : Pred) (s t : Reg) (st : State) : Out := cmpOp p s t (fun a b => a == b) st
/-- CMPNE (06 R147). -/
def execCmpne (p : Pred) (s t : Reg) (st : State) : Out := cmpOp p s t (fun a b => a != b) st
/-- CMPLT (06 R147). -/
def execCmplt (p : Pred) (s t : Reg) (st : State) : Out := cmpOp p s t (fun a b => decide (a.toInt < b.toInt)) st
/-- CMPLE (06 R147). -/
def execCmple (p : Pred) (s t : Reg) (st : State) : Out := cmpOp p s t (fun a b => decide (a.toInt ≤ b.toInt)) st
/-- CMPLTN (06 R147). -/
def execCmpltn (p : Pred) (s t : Reg) (st : State) : Out := cmpOp p s t (fun a b => decide (a.toNat < b.toNat)) st
/-- CMPLEN (06 R147). -/
def execCmplen (p : Pred) (s t : Reg) (st : State) : Out := cmpOp p s t (fun a b => decide (a.toNat ≤ b.toNat)) st
/-- TSTNZ (06 R147). -/
def execTstnz (p : Pred) (s t : Reg) (st : State) : Out := cmpOp p s t (fun a b => (a &&& b) != 0) st
/-- TSTZ (06 R147). -/
def execTstz (p : Pred) (s t : Reg) (st : State) : Out := cmpOp p s t (fun a b => (a &&& b) == 0) st
/-- CMPEQI (06 R147). -/
def execCmpeqi (p : Pred) (s : Reg) (i : BitVec 12) (st : State) : Out :=
  cmpImm p s (i.signExtend 64) (fun a u => a == u) st
/-- CMPNEI (06 R147). -/
def execCmpnei (p : Pred) (s : Reg) (i : BitVec 12) (st : State) : Out :=
  cmpImm p s (i.signExtend 64) (fun a u => a != u) st
/-- CMPLTI (06 R147). -/
def execCmplti (p : Pred) (s : Reg) (i : BitVec 12) (st : State) : Out :=
  cmpImm p s (i.signExtend 64) (fun a u => decide (a.toInt < u.toInt)) st
/-- CMPLEI (06 R147). -/
def execCmplei (p : Pred) (s : Reg) (i : BitVec 12) (st : State) : Out :=
  cmpImm p s (i.signExtend 64) (fun a u => decide (a.toInt ≤ u.toInt)) st
/-- CMPGTI (06 R147). -/
def execCmpgti (p : Pred) (s : Reg) (i : BitVec 12) (st : State) : Out :=
  cmpImm p s (i.signExtend 64) (fun a u => decide (u.toInt < a.toInt)) st
/-- CMPGEI (06 R147). -/
def execCmpgei (p : Pred) (s : Reg) (i : BitVec 12) (st : State) : Out :=
  cmpImm p s (i.signExtend 64) (fun a u => decide (u.toInt ≤ a.toInt)) st
/-- CMPLTNI (06 R147). -/
def execCmpltni (p : Pred) (s : Reg) (i : BitVec 12) (st : State) : Out :=
  cmpImm p s (i.zeroExtend 64) (fun a u => decide (a.toNat < u.toNat)) st
/-- CMPLENI (06 R147). -/
def execCmpleni (p : Pred) (s : Reg) (i : BitVec 12) (st : State) : Out :=
  cmpImm p s (i.zeroExtend 64) (fun a u => decide (a.toNat ≤ u.toNat)) st
/-- CMPGTNI (06 R147). -/
def execCmpgtni (p : Pred) (s : Reg) (i : BitVec 12) (st : State) : Out :=
  cmpImm p s (i.zeroExtend 64) (fun a u => decide (u.toNat < a.toNat)) st
/-- CMPGENI (06 R147). -/
def execCmpgeni (p : Pred) (s : Reg) (i : BitVec 12) (st : State) : Out :=
  cmpImm p s (i.zeroExtend 64) (fun a u => decide (u.toNat ≤ a.toNat)) st

/-! Predicates and SEL (06 R148, R149). -/

/-- PAND (06 R148). -/
def execPand (d s t : Pred) (st : State) : Out := predOp d s t (fun a b => a &&& b) st
/-- POR (06 R148). -/
def execPor (d s t : Pred) (st : State) : Out := predOp d s t (fun a b => a ||| b) st
/-- PXOR (06 R148). -/
def execPxor (d s t : Pred) (st : State) : Out := predOp d s t (fun a b => a ^^^ b) st
/-- PANDN (06 R148). -/
def execPandn (d s t : Pred) (st : State) : Out := predOp d s t (fun a b => a &&& ~~~b) st
/-- PNOT (06 R148). -/
def execPnot (d s : Pred) (st : State) : Out := predOp d s s (fun a _ => ~~~a) st
/-- PMOV (06 R148). -/
def execPmov (d s : Pred) (st : State) : Out := predOp d s s (fun a _ => a) st
/-- PALL (06 R148). -/
def execPall (d : Pred) (st : State) : Out := predOp d d d (fun _ _ => ones) st
/-- PNONE (06 R148). -/
def execPnone (d : Pred) (st : State) : Out := predOp d d d (fun _ _ => 0) st
/-- SEL (06 R149). -/
def execSel (d s t : Reg) (f : Pred) (st : State) : Out :=
  .next (plain [d, s, t] (fun st => (st.setG d (if (st.p f).getLsbD 0 then st.g s else st.g t)).retire) st)

/-! Branches and jumps (06 R150, R151). -/

/-- BR (06 R150). -/
def execBr (x : BitVec 26) (st : State) : Out := branchOp [] x (fun _ => true) id st
/-- CALL (06 R150). -/
def execCall (x : BitVec 26) (st : State) : Out := branchOp [] x (fun _ => true) State.linkNext st
/-- BP (06 R150). -/
def execBp (p : Pred) (x : BitVec 22) (st : State) : Out := branchOp [] x (fun st => (st.p p).getLsbD 0) id st
/-- BNP (06 R150). -/
def execBnp (p : Pred) (x : BitVec 22) (st : State) : Out := branchOp [] x (fun st => !(st.p p).getLsbD 0) id st
/-- BZ (06 R150). -/
def execBz (s : Reg) (x : BitVec 18) (st : State) : Out := branchOp [s] x (fun st => st.g s == 0) id st
/-- BNZ (06 R150). -/
def execBnz (s : Reg) (x : BitVec 18) (st : State) : Out := branchOp [s] x (fun st => st.g s != 0) id st
/-- JR (06 R151). -/
def execJr (s : Reg) (st : State) : Out := .next (plain [s] (fun st => st.jumpTo (st.g s) id) st)
/-- JRL (06 R151). -/
def execJrl (s : Reg) (st : State) : Out := .next (plain [s] (fun st => st.jumpTo (st.g s) State.linkNext) st)
/-- RET (06 R151). -/
def execRet (st : State) : Out := .next (plain [] (fun st => st.jumpTo st.thr.lk id) st)

/-! Control (06 R152). -/

/-- NOP (06 R152). -/
def execNop (st : State) : Out := .next (plain [] State.retire st)
/-- YIELD (06 R152). -/
def execYield (st : State) : Out :=
  .next (plain [] (fun st => (st.onThr fun t => { t with yield := true }).retire) st)
/-- BRK (06 R152). -/
def execBrk (st : State) : Out := .next (plain [] (fun st => st.trap Cause.breakpoint 0) st)

/-! Format registers (08 R186, R187). -/

/-- FMTP (05 R113, 08 R187): sets PP and records its three fields in TSW[12:1]. -/
def execFmtp (a b c : Fmt) (st : State) : Out :=
  .next (plain [] (fun st =>
    let v := 1 + 2 * a.val + 32 * b.val + 512 * c.val
    (st.onThr fun t => { t with tsw := BitVec.ofNat 64 (putField t.tsw.toNat 0 13 v) }).retire) st)
/-- FDSET (08 R186): a write to fd15 is ignored. -/
def execFdset (f : Fmt) (s : Reg) (st : State) : Out :=
  .next (plain [s] (fun st =>
    let v := (st.g s).setWidth 32
    (st.onThr fun t => t.setFd f v).retire) st)
/-- FDGET (08 R186). -/
def execFdget (d : Reg) (f : Fmt) (st : State) : Out :=
  .next (plain [d] (fun st => (st.setG d ((st.thr.fd f).setWidth 64)).retire) st)

/-! Special registers (06 R137 to R141, 04 R84, R87, 14 R324, R326). -/

/-- The low `n` bits of a word. -/
def low (n : Nat) (v : Word) : Word := BitVec.ofNat 64 (v.toNat % 2 ^ n)

/-- The bits that a PRGN or CPRGN holds (04 R87). -/
def prgnMask : Word := 0xFFFF1F1F1FFF1FFF
/-- The bits of TSW that SWR writes: FTE, the flags, RM, MR, PFA to PFC and PP (06 R139). -/
def tswMask : Word := 0x3FF5FFF
/-- A register with the bits of a mask replaced. -/
def mergeMask (mask old new : Word) : Word := (old &&& ~~~mask) ||| (new &&& mask)

/-- CTXSTAT of a domain on a core (14 R326). -/
def State.ctxstat (s : State) (cid dom : Nat) : Word :=
  let here := s.ctxs.filter fun c => c.th.dom == dom && cidModule c.cid == cidModule cid
  BitVec.ofNat 64 ((here.filter (·.spilled)).length % 2 ^ 16 * 2 ^ 32 +
    (here.filter fun c => !c.spilled && c.cid == cid).length % 16)

/-- RETRIES of a domain on a core (14 R326): each count stops at 0xFFFF. -/
def Core.retriesWord (c : Core) (dom : Nat) : Word :=
  let r := Tab.get ⟨0, 0, 0, 0⟩ c.retries dom
  let f := fun (n : Nat) => min n 65535
  BitVec.ofNat 64 (f r.refresh * 2 ^ 48 + f r.sc * 2 ^ 32 + f r.noList * 2 ^ 16 + f r.shutter)

/-- The value of special register `n` for the issuing thread; a number of the supervisor range that is not assigned reads as
zero (06 R137). -/
def State.special (s : State) (n : Nat) : Word :=
  let cid := s.cur.1
  let c := s.core cid
  let t := s.thr
  match n with
  | 0x000 => low 26 t.tsw
  | 0x001 => t.lk
  | 0x002 => low 10 t.trap.tcause
  | 0x003 => t.trap.tfaddr
  | 0x004 => t.trap.tepc
  | 0x005 => BitVec.ofNat 64 (threadName (s.shownCid cid) s.cur.2)
  | 0x006 => BitVec.ofNat 64 (t.dom % 2 ^ 16)
  | 0x007 => BitVec.ofNat 64 (t.base * 256 + t.win)
  | 0x008 => s.jstat cid s.cur.2
  | 0x009 => BitVec.ofNat 64 c.cyc
  | 0x00A => t.live0
  | 0x00B => t.live1
  | 0x00C => BitVec.ofNat 64 t.wlim
  | 0x00D => BitVec.ofNat 64 t.rcnt
  | 0x100 => t.trap.tsave
  | 0x101 => BitVec.ofNat 64 t.trap.tdepth
  | 0x102 => t.trap.xepc
  | 0x103 => t.trap.xcause
  | 0x104 => t.trap.xfaddr
  | 0x105 => t.trap.xsave
  | 0x106 => t.trap.tscr
  | 0x118 => c.retriesWord t.dom
  | 0x119 => s.ctxstat cid t.dom
  | _ =>
    if 0x010 ≤ n && n ≤ 0x018 then low 46 ((s.masks (cidModule cid) t.dom).getD (n - 0x010) 0)
    else if 0x110 ≤ n && n ≤ 0x117 then c.ttbl t.dom (n - 0x110)
    else if 0x140 ≤ n && n ≤ 0x147 then Tab.get 0 c.prgn (n - 0x140)
    else if 0x148 ≤ n && n ≤ 0x14F then Tab.get 0 (s.cluster (cidCluster cid)).cprgn (n - 0x148)
    else 0

/-- The issuing thread with its trap registers changed. -/
def State.onTrap (s : State) (f : TrapRegs → TrapRegs) : State := s.onThr fun t => { t with trap := f t.trap }

/-- The counts that an SWR of RETRIES writes (14 R326). -/
def retriesOf (v : Word) : Retries :=
  ⟨field v.toNat 48 16, field v.toNat 32 16, field v.toNat 16 16, field v.toNat 0 16⟩

/-- Special register `n` written by the issuing thread: read-only and reserved fields keep their values (06 R141). -/
def State.setSpecial (s : State) (n : Nat) (v : Word) : State :=
  let cid := s.cur.1
  let dom := s.thr.dom
  match n with
  | 0x000 => s.onThr fun t => { t with tsw := mergeMask tswMask t.tsw v }
  | 0x001 => s.onThr fun t => { t with lk := v }
  | 0x002 => s.onTrap fun r => { r with tcause := low 10 v }
  | 0x003 => s.onTrap fun r => { r with tfaddr := v }
  | 0x004 => s.onTrap fun r => { r with tepc := BitVec.ofNat 64 (v.toNat / 4 * 4) }
  | 0x008 => s.onThr fun t => { t with jkind := field v.toNat 8 4, jentry := field v.toNat 0 6 }
  | 0x00A => s.onThr fun t => { t with live0 := v }
  | 0x00B => s.onThr fun t => { t with live1 := v }
  | 0x00C => s.onThr fun t => { t with wlim := v.toNat % 2 ^ 32 }
  | 0x00D => s.onThr fun t => { t with rcnt := v.toNat % 2 ^ 32 }
  | 0x100 => s.onTrap fun r => { r with tsave := v }
  | 0x102 => s.onTrap fun r => { r with xepc := v }
  | 0x103 => s.onTrap fun r => { r with xcause := v }
  | 0x104 => s.onTrap fun r => { r with xfaddr := v }
  | 0x105 => s.onTrap fun r => { r with xsave := v }
  | 0x106 => s.onTrap fun r => { r with tscr := v }
  | 0x118 => s.onCore cid fun c => { c with retries := Tab.set c.retries dom (retriesOf v) }
  | _ =>
    if 0x110 ≤ n && n ≤ 0x117 then
      s.onCore cid fun c =>
        let old := Tab.get [] c.traps dom
        let full := if old.length = 8 then old else List.replicate 8 0
        { c with traps := Tab.set c.traps dom (listSet full (n - 0x110) v) }
    else if 0x140 ≤ n && n ≤ 0x147 then
      s.onCore cid fun c => { c with prgn := Tab.set c.prgn (n - 0x140) (v &&& prgnMask) }
    else if 0x148 ≤ n && n ≤ 0x14F then
      s.onCluster (cidCluster cid) fun c => { c with cprgn := Tab.set c.cprgn (n - 0x148) (v &&& prgnMask) }
    else s

/-- SRD (06 R141): numbers from 0x100 up need K = 1 (05 R112). -/
def execSrd (d : Reg) (r : BitVec 12) (st : State) : Out :=
  .next (issue (decide (0x100 ≤ r.toNat)) .neutral [d] (fun st => (st.setG d (st.special r.toNat)).retire) st)
/-- SWR (06 R141). -/
def execSwr (s : Reg) (r : BitVec 12) (st : State) : Out :=
  .next (issue (decide (0x100 ≤ r.toNat)) .neutral [s] (fun st => (st.setSpecial r.toNat (st.g s)).retire) st)

end Sys2Proof.Machine
end

