-- ==== Sys2Proof/Machine/Task.lean ====
section
/-!
DEFINITION. The TASK instructions (12 R301 to R305): SPAWN, SPAWNF, TEND, SEND, TSELF.
-/
namespace Sys2Proof.Machine

/-- Step 7 of 12 R301: the task enters a spawn queue, or the thread keeps the descriptor that it read and parks until its own cluster's
queue has room (04 R98): from then on it spills no more. -/
def State.enqueueTask (s : State) (spill : Bool) (q : QTask) : State :=
  let waited := (Tab.find s.thr.gathered (2 ^ 64)).isSome
  match s.queueFor (cidCluster s.cur.1) q.launch (spill && !waited) with
  | some cl => (s.onCluster cl fun c => { c with spawn := c.spawn ++ [q] }).retire
  | none => (s.onThr fun t => { t with gathered := [(2 ^ 64, .data q.desc.toNat)] }).parkCore .spawnRoom

/-- The check of a future VA (12 R301 step 3, R283): its cause. -/
def State.futureBad (s : State) (va : Nat) : Option Nat :=
  match s.checkAccess s.cur.1 s.thr.dom va 8 .rmw with
  | .error c => some c
  | .ok t => if t.isHost then some Cause.unsupportedOp else if t.isStore then some Cause.protection else none

/-- Steps 5 to 7 of 12 R301 for the descriptor at `e`. -/
def State.spawnFrom (s : State) (e : Nat) (arg : Word) (spill : Bool) (future : Option Nat) : State :=
  let task := fun (v : Nat) (s : State) => s.enqueueTask spill
    ⟨BitVec.ofNat 64 e, BitVec.ofNat 64 v, arg, BitVec.ofNat 64 (future.getD 0), future.isSome, s.thr.launch, s.thr.dom⟩
  match Tab.find s.thr.gathered (2 ^ 64) with
  | some (.data v) => task v s
  | _ => s.reading e 8 fun v s =>
    if descBad v then s.trap Cause.badDescriptor (BitVec.ofNat 64 e)
    else match future with
      | none => task v s
      | some d => match s.act s.cur.1 s.thr.dom d 8 .sete none with
        | (.ok _, s) => task v s
        | (.fail c, s) => s.trap c (BitVec.ofNat 64 d)
        | (.blocked w, s) => s.parkCore w
        | (.ask, s) => s.parkCore (.unit d)

/-- SPAWN and SPAWNF (12 R301). -/
def spawnOp (regs : List Nat) (s t : Reg) (future : State → Option Nat) (st : State) : Out :=
  .next (plain regs (fun st =>
    let a := st.gn s
    let e := a / 8 * 8
    if st.thr.rg then st.trap Cause.regionState 0
    else if a / 2 % 4 ≠ 0 then st.trap Cause.misaligned (st.g s)
    else match st.checkAccess st.cur.1 st.thr.dom e 8 .read with
      | .error c => st.trap c (BitVec.ofNat 64 e)
      | .ok _ => match (future st).bind st.futureBad with
        | some c => st.trap c (BitVec.ofNat 64 ((future st).getD 0))
        | none =>
          if !((st.core st.cur.1).pending st.cur.2).isEmpty then st.parkCore .drain
          else st.spawnFrom e (st.g t) (bit a 0) (future st)) st)

/-- SPAWN (12 R301). -/
def execSpawn (s t : Reg) (st : State) : Out := spawnOp [s, t] s t (fun _ => none) st
/-- SPAWNF (12 R301). -/
def execSpawnf (d s t : Reg) (st : State) : Out := spawnOp [d, s, t] s t (fun st => some (st.gn d)) st

/-- Step 3 of 12 R302: the put of a task's future, after which the task ends. -/
def State.putFuture (s : State) (v : Word) (va : Nat) : State :=
  match s.checkAccess s.cur.1 s.thr.dom va 8 .rmw with
  | .error c => s.trap c (BitVec.ofNat 64 va)
  | .ok t =>
    let unit := [(0, Op.stf v.toNat, va)]
    if t.path == .loc then s.await .endTask (s.localUnits s.thr.dom unit) else s.await .endTask (s.sendUnits unit)

/-- TEND (12 R302). -/
def execTend (s : Reg) (st : State) : Out :=
  .next (plain [s] (fun st =>
    if st.thr.rg then st.trap Cause.regionState 0
    else if !((st.core st.cur.1).pending st.cur.2).isEmpty then st.parkCore .drain
    else if st.thr.origin = 2 then st.putFuture (st.g s) st.thr.future.toNat
    else st.endTask st.cur.1 st.cur.2) st)

/-- The cause of the first check that a destination word breaks (12 R303 step 3). -/
def State.destinationBad (s : State) (w : Nat) : Option Nat :=
  if field w 36 28 ≠ 0 then some Cause.badCid
  else if field w 32 4 = 0 || field w 32 4 = 15 then some Cause.badClass
  else if field w 26 6 ≠ 0 then some Cause.badCid
  else if !s.cidOk s.cur.1 (field w 0 26) then some Cause.badCid
  else none

/-- SEND (12 R303). A message that no path carries leaves a record in the sender's domain. -/
def execSend (n : Fin 9) (s t : Reg) (st : State) : Out :=
  .next (plain (s.val :: (List.range n).map (t.val + ·)) (fun st =>
    let cid := st.cur.1
    let w := st.gn s
    if st.thr.rg then st.trap Cause.regionState (st.g s)
    else match st.destinationBad w with
      | some c => st.trap c (st.g s)
      | none =>
        let dst := st.resolveCid cid (field w 0 26)
        if !((st.core cid).pending st.cur.2).isEmpty then st.parkCore .drain
        else if st.holdsMessage dst then st.parkCore .channel
        else
          let g : Message := ⟨dst, st.g s, st.thr.dom, field w 32 4, (List.range n).map fun k => st.g (t.val + k),
            threadName (st.shownCid cid) st.cur.2, st.launchTag st.thr.launch⟩
          let st := if st.reaches (cidModule cid) (cidKey dst) then
              st.sendRaw (cidModule cid) (coreSource cid) (cidKey dst) 4 (.message g)
            else st.messageFailed (cidModule cid) Cause.linkUnreachable g
          st.retire) st)

/-- TSELF (12 R305). -/
def execTself (d : Reg) (st : State) : Out :=
  .next (plain [d.val, d.val + 1] (fun st =>
    ((st.setG d st.thr.future).setG (d.val + 1) (BitVec.ofNat 64 (st.thr.cls % 16 * 16 + st.thr.origin % 4))).retire) st)

end Sys2Proof.Machine
end

