-- ==== Sys2Proof/Machine/Vector.lean ====
section
/-!
DEFINITION. The vector instructions that reach no memory: VINT, VFLT, VCMP, VPERM, VMOV and VCVT (08 R184 to R203).
-/
namespace Sys2Proof.Machine

/-! Shapes. -/

/-- A V-format instruction: a prefix consumer when its type is x8 (05 R113). -/
def vissue (y : Ty) (regs : List Nat) (k : State → State) (s : State) : State :=
  issue false (if y = .x8 then .consumer else .plain) regs k s

/-- Completes a V-format instruction (05 R113). -/
def State.vdone (y : Ty) (s : State) : State := (if y = .x8 then s.clearPrefix else s).retire

/-- Whether lane `i` is active under pM (08 R185): with PM = 0 every lane is, since p0 reads all ones. -/
def State.active (s : State) (m : Pred) (i : Nat) : Bool := (s.p m).getLsbD i

/-- The lanes `i` below `n` of an old value, the active ones replaced. -/
def mergeLanes (w n old : Nat) (act : Nat → Bool) (f : Nat → Nat) : Nat :=
  ofLanes w ((List.range n).map fun i => if act i then f i else lane old w i)

/-- The union of the flags of the active lanes (08 R185). -/
def laneFlags (n : Nat) (act : Nat → Bool) (f : Nat → Nat) : Nat :=
  (List.range n).foldl (fun acc i => if act i then acc ||| f i else acc) 0

/-- A lane-by-lane instruction: each active lane of vD from the lane number, with flags (08 R185). -/
def State.lanewise (s : State) (d : Grp) (m : Pred) (y : Ty) (w n : Nat) (f : Nat → Nat × Nat) : State :=
  s.flagged (laneFlags n (s.active m) fun i => (f i).2) fun s =>
    (s.setGrp d (mergeLanes w n (s.grp d) (s.active m) fun i => (f i).1)).vdone y

/-! VINT (08 R189). -/

/-- A lane read as its type says: natural for n32, else two's complement. -/
def ival (y : Ty) (a : Nat) : Int := if y = .n32 then a else sextNat (tyWidth y) a
/-- An integer's low `w` bits. -/
def wrapTo (w : Nat) (i : Int) : Nat := (i % 2 ^ w).toNat
/-- The least and the greatest value of an integer type. -/
def tyRange (y : Ty) : Int × Int :=
  let w := tyWidth y
  if y = .n32 then (0, 2 ^ w - 1) else (-2 ^ (w - 1), 2 ^ (w - 1) - 1)
/-- An integer clamped to a type's range; SAT when clamped (08 R189, R200). -/
def clampTy (y : Ty) (i : Int) : Nat × Nat :=
  let r := tyRange y
  if i < r.1 then (wrapTo (tyWidth y) r.1, fSAT)
  else if r.2 < i then (wrapTo (tyWidth y) r.2, fSAT) else (wrapTo (tyWidth y) i, 0)

/-- A binary VINT instruction: `f` takes the type and the lanes of vS, vT and vD. -/
def vint (d s t : Grp) (m : Pred) (y : Ty) (f : Ty → Nat → Nat → Nat → Nat × Nat) (st : State) : Out :=
  .next (vissue y (grpRegs d ++ grpRegs s ++ grpRegs t) (fun st =>
    let w := tyWidth y
    st.lanewise d m y w (tyLanes y) fun i =>
      f y (lane (st.grp s) w i) (lane (st.grp t) w i) (lane (st.grp d) w i)) st)

/-- A unary VINT instruction. -/
def vintUnary (d s : Grp) (m : Pred) (y : Ty) (f : Ty → Nat → Nat × Nat) (st : State) : Out :=
  .next (vissue y (grpRegs d ++ grpRegs s) (fun st =>
    let w := tyWidth y
    st.lanewise d m y w (tyLanes y) fun i => f y (lane (st.grp s) w i)) st)

/-- A wrapping integer result. -/
def wrapped (y : Ty) (i : Int) : Nat × Nat := (wrapTo (tyWidth y) i, 0)

/-- VADD (08 R189). -/
def execVadd (d s t : Grp) (m : Pred) (y : Ty) (st : State) : Out :=
  vint d s t m y (fun y a b _ => wrapped y (ival y a + ival y b)) st
/-- VSUB (08 R189). -/
def execVsub (d s t : Grp) (m : Pred) (y : Ty) (st : State) : Out :=
  vint d s t m y (fun y a b _ => wrapped y (ival y a - ival y b)) st
/-- VMUL (08 R189). -/
def execVmul (d s t : Grp) (m : Pred) (y : Ty) (st : State) : Out :=
  vint d s t m y (fun y a b _ => wrapped y (ival y a * ival y b)) st
/-- VMULH (08 R189). -/
def execVmulh (d s t : Grp) (m : Pred) (y : Ty) (st : State) : Out :=
  vint d s t m y (fun y a b _ => wrapped y (ival y a * ival y b / 2 ^ tyWidth y)) st
/-- VMIN (08 R189). -/
def execVmin (d s t : Grp) (m : Pred) (y : Ty) (st : State) : Out :=
  vint d s t m y (fun y a b _ => (if ival y a ≤ ival y b then a else b, 0)) st
/-- VMAX (08 R189). -/
def execVmax (d s t : Grp) (m : Pred) (y : Ty) (st : State) : Out :=
  vint d s t m y (fun y a b _ => (if ival y a ≤ ival y b then b else a, 0)) st
/-- VAND (08 R189). -/
def execVand (d s t : Grp) (m : Pred) (y : Ty) (st : State) : Out :=
  vint d s t m y (fun _ a b _ => (a &&& b, 0)) st
/-- VOR (08 R189). -/
def execVor (d s t : Grp) (m : Pred) (y : Ty) (st : State) : Out :=
  vint d s t m y (fun _ a b _ => (a ||| b, 0)) st
/-- VXOR (08 R189). -/
def execVxor (d s t : Grp) (m : Pred) (y : Ty) (st : State) : Out :=
  vint d s t m y (fun _ a b _ => (a ^^^ b, 0)) st
/-- VSHL (08 R189). -/
def execVshl (d s t : Grp) (m : Pred) (y : Ty) (st : State) : Out :=
  vint d s t m y (fun y a b _ => (a * 2 ^ (b % tyWidth y) % 2 ^ tyWidth y, 0)) st
/-- VSHR (08 R189). -/
def execVshr (d s t : Grp) (m : Pred) (y : Ty) (st : State) : Out :=
  vint d s t m y (fun y a b _ => (a / 2 ^ (b % tyWidth y), 0)) st
/-- VSHRA (08 R189). -/
def execVshra (d s t : Grp) (m : Pred) (y : Ty) (st : State) : Out :=
  vint d s t m y (fun y a b _ => wrapped y (sextNat (tyWidth y) a / 2 ^ (b % tyWidth y))) st
/-- VSADD (08 R189). -/
def execVsadd (d s t : Grp) (m : Pred) (y : Ty) (st : State) : Out :=
  vint d s t m y (fun y a b _ => clampTy y (ival y a + ival y b)) st
/-- VSSUB (08 R189). -/
def execVssub (d s t : Grp) (m : Pred) (y : Ty) (st : State) : Out :=
  vint d s t m y (fun y a b _ => clampTy y (ival y a - ival y b)) st
/-- VABS (08 R189). -/
def execVabs (d s : Grp) (m : Pred) (y : Ty) (st : State) : Out := vintUnary d s m y (fun y a => wrapped y (ival y a).natAbs) st
/-- VNEG (08 R189). -/
def execVneg (d s : Grp) (m : Pred) (y : Ty) (st : State) : Out := vintUnary d s m y (fun y a => wrapped y (-(ival y a))) st
/-- VPOPC (08 R189). -/
def execVpopc (d s : Grp) (m : Pred) (y : Ty) (st : State) : Out := vintUnary d s m y (fun y a => (popcNat (tyWidth y) a, 0)) st
/-- VCLZ (08 R189). -/
def execVclz (d s : Grp) (m : Pred) (y : Ty) (st : State) : Out := vintUnary d s m y (fun y a => (clzNat (tyWidth y) a, 0)) st
/-- VMADD (08 R189). -/
def execVmadd (d s t : Grp) (m : Pred) (y : Ty) (st : State) : Out :=
  vint d s t m y (fun y a b c => wrapped y (ival y c + ival y a * ival y b)) st
/-- VSEL (08 R189): PM selects, every lane is written. -/
def execVsel (d s t : Grp) (m : Pred) (y : Ty) (st : State) : Out :=
  .next (vissue y (grpRegs d ++ grpRegs s ++ grpRegs t) (fun st =>
    let w := tyWidth y
    (st.setGrp d (ofLanes w ((List.range (tyLanes y)).map fun i =>
      if st.active m i then lane (st.grp s) w i else lane (st.grp t) w i))).vdone y) st)

/-! VFLT (08 R188, R190). -/

/-- The format of a float type. -/
def ffOf : Ty → FFormat
  | .f64 => f64
  | .h16 => h16
  | .bf16 => bf16
  | _ => f32

/-- What a float instruction computes on values: rounding mode, vS, vT, old vD, and the part's own choice of R190's fused invalid
case. -/
abbrev FloatFn := Nat → FV → FV → FV → Bool → FV × Nat

/-- One lane: an x8 lane is decoded under B, C and A and encoded under A, to nearest (08 R188). -/
def floatLane (t : Thread) (y : Ty) (g : FloatFn) (a b c : Nat) : Nat × Nat :=
  let o := Config.fmaInvalid (BitVec.ofNat 64 a) (BitVec.ofNat 64 b) (BitVec.ofNat 64 c)
  if y = .x8 then
    let fa := narrowOf t.fmtA
    let v := g 0 ((narrowOf t.fmtB).decode a) ((narrowOf t.fmtC).decode b) (fa.decode c) o
    let r := fa.encode v.1
    (r.1, r.2 ||| v.2)
  else
    let x := ffOf y
    x.result t.rm (g t.rm (x.unpack a) (x.unpack b) (x.unpack c) o)

/-- The descriptors that a VFLT instruction checks: A and B, and C with a third operand (08 R187). -/
def floatFormats (t : Thread) (y : Ty) (third : Bool) : List Nat :=
  if y = .x8 then [t.fmtA, t.fmtB] ++ (if third then [t.fmtC] else []) else []

/-- A VFLT instruction with operands vS and vT (08 R190). -/
def vflt (d s t : Grp) (m : Pred) (y : Ty) (g : FloatFn) (st : State) : Out :=
  .next (vissue y (grpRegs d ++ grpRegs s ++ grpRegs t) (fun st =>
    checkFormats (floatFormats st.thr y true) (fun st =>
      let w := tyWidth y
      st.lanewise d m y w (tyLanes y) fun i =>
        floatLane st.thr y g (lane (st.grp s) w i) (lane (st.grp t) w i) (lane (st.grp d) w i)) st) st)

/-- A VFLT instruction that takes vS's lane as bits, in an IEEE type (08 R190 to R195). -/
def vfltBits (d s : Grp) (m : Pred) (y : Ty) (f : Nat → Nat → Nat × Nat) (st : State) : Out :=
  .next (vissue y (grpRegs d ++ grpRegs s) (fun st =>
    let w := tyWidth y
    st.lanewise d m y w (tyLanes y) fun i => f st.thr.rm (lane (st.grp s) w i)) st)

/-- The lesser of two values (08 R190). -/
def leastValue (a b : FV) : FV × Nat :=
  match a.least b with
  | (none, x) => (.nan false, x)
  | (some true, x) => (a, x)
  | (some false, x) => (b, x)
/-- The greater of two values (08 R190). -/
def greatestValue (a b : FV) : FV × Nat :=
  match a.least b with
  | (none, x) => (.nan false, x)
  | (some true, x) => (if b.isNan then a else b, x)
  | (some false, x) => (if a.isNan then b else a, x)

/-- The sign bit of a lane changed: an x8 code's own sign bit when its format B has one (08 R190). -/
def signOp (d s : Grp) (m : Pred) (y : Ty) (f : Nat → Nat → Nat) (st : State) : Out :=
  .next (vissue y (grpRegs d ++ grpRegs s) (fun st =>
    checkFormats (if y = .x8 then [st.thr.fmtB] else []) (fun st =>
      let w := tyWidth y
      let n := narrowOf st.thr.fmtB
      st.lanewise d m y w (tyLanes y) fun i =>
        let a := lane (st.grp s) w i
        if y = .x8 then (if n.s = 1 then (f a (n.w - 1), 0) else (a, 0)) else (f a (w - 1), 0)) st) st)

/-- VFADD (08 R190). -/
def execVfadd (d s t : Grp) (m : Pred) (y : Ty) (st : State) : Out :=
  vflt d s t m y (fun rm a b _ _ => FV.add rm a b) st
/-- VFSUB (08 R190). -/
def execVfsub (d s t : Grp) (m : Pred) (y : Ty) (st : State) : Out :=
  vflt d s t m y (fun rm a b _ _ => FV.add rm a b.flip) st
/-- VFMUL (08 R190). -/
def execVfmul (d s t : Grp) (m : Pred) (y : Ty) (st : State) : Out :=
  vflt d s t m y (fun _ a b _ _ => FV.mul a b) st
/-- VFDIV (08 R190). -/
def execVfdiv (d s t : Grp) (m : Pred) (y : Ty) (st : State) : Out :=
  vflt d s t m y (fun _ a b _ _ => FV.div a b) st
/-- VFMIN (08 R190). -/
def execVfmin (d s t : Grp) (m : Pred) (y : Ty) (st : State) : Out :=
  vflt d s t m y (fun _ a b _ _ => leastValue a b) st
/-- VFMAX (08 R190). -/
def execVfmax (d s t : Grp) (m : Pred) (y : Ty) (st : State) : Out :=
  vflt d s t m y (fun _ a b _ _ => greatestValue a b) st
/-- VFMA (08 R190). -/
def execVfma (d s t : Grp) (m : Pred) (y : Ty) (st : State) : Out :=
  vflt d s t m y (fun rm a b c o => FV.fma rm a b c o) st
/-- VFSQRT (08 R190). -/
def execVfsqrt (d s : Grp) (m : Pred) (y : Ty) (st : State) : Out :=
  .next (vissue y (grpRegs d ++ grpRegs s) (fun st =>
    checkFormats (floatFormats st.thr y false) (fun st =>
      let w := tyWidth y
      st.lanewise d m y w (tyLanes y) fun i =>
        floatLane st.thr y (fun _ a _ _ _ => FV.sqrt a) (lane (st.grp s) w i) 0 0) st) st)
/-- VFABS (08 R190). -/
def execVfabs (d s : Grp) (m : Pred) (y : Ty) (st : State) : Out := signOp d s m y (fun a k => putField a k 1 0) st
/-- VFNEG (08 R190). -/
def execVfneg (d s : Grp) (m : Pred) (y : Ty) (st : State) : Out := signOp d s m y (fun a k => a ^^^ 2 ^ k) st
/-- VRCP (08 R192). -/
def execVrcp (d s : Grp) (m : Pred) (y : Ty) (st : State) : Out := vfltBits d s m y vrcp st
/-- VRSQ (08 R193). -/
def execVrsq (d s : Grp) (m : Pred) (y : Ty) (st : State) : Out := vfltBits d s m y vrsq st
/-- VEXP2 (08 R194). -/
def execVexp2 (d s : Grp) (m : Pred) (y : Ty) (st : State) : Out := vfltBits d s m y vexp2 st
/-- VLOG2 (08 R195). -/
def execVlog2 (d s : Grp) (m : Pred) (y : Ty) (st : State) : Out := vfltBits d s m y vlog2 st
/-- VFRND (08 R190). -/
def execVfrnd (d s : Grp) (m : Pred) (y : Ty) (st : State) : Out := vfltBits d s m y (ffOf y).toIntegral st

/-! VCMP (08 R196). -/

/-- A compare of lanes into pD: bits of inactive lanes stay, bits at and above the lane count are 0. -/
def vcmp (p : Pred) (s t : Grp) (m : Pred) (y : Ty) (c : Nat → Nat → Bool × Nat) (st : State) : State :=
  let w := tyWidth y
  let n := tyLanes y
  let r := fun i => c (lane (st.grp s) w i) (lane (st.grp t) w i)
  st.flagged (laneFlags n (st.active m) fun i => (r i).2) fun st =>
    (st.setP p (BitVec.ofNat 64 (mergeLanes 1 n (st.p p).toNat (st.active m) fun i => (r i).1.toNat))).vdone y

/-- An integer compare (08 R196). -/
def vcmpInt (p : Pred) (s t : Grp) (m : Pred) (y : Ty) (c : Int → Int → Bool) (signed : Bool) (st : State) : Out :=
  .next (vissue y (grpRegs s ++ grpRegs t) (vcmp p s t m y fun a b =>
    (if signed then c (sextNat (tyWidth y) a) (sextNat (tyWidth y) b) else c a b, 0)) st)

/-- A float compare: x8 lanes are decoded under B and C (08 R196). -/
def vcmpFloat (p : Pred) (s t : Grp) (m : Pred) (y : Ty) (c : FV → FV → Bool × Nat) (st : State) : Out :=
  .next (vissue y (grpRegs s ++ grpRegs t) (fun st =>
    checkFormats (if y = .x8 then [st.thr.fmtB, st.thr.fmtC] else []) (fun st =>
      vcmp p s t m y (fun a b =>
        if y = .x8 then c ((narrowOf st.thr.fmtB).decode a) ((narrowOf st.thr.fmtC).decode b)
        else c ((ffOf y).unpack a) ((ffOf y).unpack b)) st) st) st)

/-- VCEQ (08 R196). -/
def execVceq (p : Pred) (s t : Grp) (m : Pred) (y : Ty) (st : State) : Out :=
  vcmpInt p s t m y (fun a b => a == b) true st
/-- VCNE (08 R196). -/
def execVcne (p : Pred) (s t : Grp) (m : Pred) (y : Ty) (st : State) : Out :=
  vcmpInt p s t m y (fun a b => a != b) true st
/-- VCLT (08 R196). -/
def execVclt (p : Pred) (s t : Grp) (m : Pred) (y : Ty) (st : State) : Out :=
  vcmpInt p s t m y (fun a b => decide (a < b)) true st
/-- VCLE (08 R196). -/
def execVcle (p : Pred) (s t : Grp) (m : Pred) (y : Ty) (st : State) : Out :=
  vcmpInt p s t m y (fun a b => decide (a ≤ b)) true st
/-- VCLTN (08 R196). -/
def execVcltn (p : Pred) (s t : Grp) (m : Pred) (y : Ty) (st : State) : Out :=
  vcmpInt p s t m y (fun a b => decide (a < b)) false st
/-- VCLEN (08 R196). -/
def execVclen (p : Pred) (s t : Grp) (m : Pred) (y : Ty) (st : State) : Out :=
  vcmpInt p s t m y (fun a b => decide (a ≤ b)) false st
/-- VFCEQ (08 R196). -/
def execVfceq (p : Pred) (s t : Grp) (m : Pred) (y : Ty) (st : State) : Out := vcmpFloat p s t m y fpEq st
/-- VFCLT (08 R196). -/
def execVfclt (p : Pred) (s t : Grp) (m : Pred) (y : Ty) (st : State) : Out := vcmpFloat p s t m y fpLt st
/-- VFCLE (08 R196). -/
def execVfcle (p : Pred) (s t : Grp) (m : Pred) (y : Ty) (st : State) : Out := vcmpFloat p s t m y fpLe st
/-- VFCUN (08 R196). -/
def execVfcun (p : Pred) (s t : Grp) (m : Pred) (y : Ty) (st : State) : Out := vcmpFloat p s t m y fpUn st

/-! VPERM (08 R197, R198). -/

/-- The active lanes of a group, in ascending order (08 R197). -/
def State.activeLanes (s : State) (k : Grp) (m : Pred) (y : Ty) : List Nat :=
  ((List.range (tyLanes y)).filter (s.active m)).map (lane (s.grp k) (tyWidth y))

/-- One addition of fsum (08 R198). -/
def fsumStep (x : FFormat) (rm : Nat) (acc : Nat × Nat) (a : Nat) : Nat × Nat :=
  let r := x.result rm (FV.add rm (x.unpack acc.1) (x.unpack a))
  (r.1, acc.2 ||| r.2)
/-- The float sum of a list of lanes, in order (08 R198). -/
def fsum (x : FFormat) (rm : Nat) : List Nat → Nat × Nat
  | [] => (0, 0)
  | a :: r =>
    let v := x.unpack a
    r.foldl (fsumStep x rm) (if v.isNan then x.nan else a, fIf v.isSnan fNV)

/-- The sum of lanes: wrapping for integers, fsum for floats (08 R197). -/
def laneSum (t : Thread) (y : Ty) (l : List Nat) : Nat × Nat :=
  if y.isInt then (l.foldl (· + ·) 0 % 2 ^ tyWidth y, 0) else fsum (ffOf y) t.rm l

/-- A reduction into lane 0 of vD (08 R197). -/
def vreduce (d s : Grp) (m : Pred) (y : Ty) (f : Thread → List Nat → Nat × Nat) (st : State) : Out :=
  .next (vissue y (grpRegs d ++ grpRegs s) (fun st =>
    let r := f st.thr (st.activeLanes s m y)
    st.flagged r.2 fun st => (st.setGrp d (putField (st.grp d) 0 (tyWidth y) r.1)).vdone y) st)

/-- VPERM (08 R197). -/
def execVperm (d s t : Grp) (m : Pred) (y : Ty) (st : State) : Out :=
  .next (vissue y (grpRegs d ++ grpRegs s ++ grpRegs t) (fun st =>
    let w := tyWidth y
    st.lanewise d m y w (tyLanes y) fun i => (lane (st.grp s) w (lane (st.grp t) w i % tyLanes y), 0)) st)
/-- VREDADD (08 R197). -/
def execVredadd (d s : Grp) (m : Pred) (y : Ty) (st : State) : Out := vreduce d s m y (fun t l => laneSum t y l) st
/-- VREDMIN (08 R197). -/
def execVredmin (d s : Grp) (m : Pred) (y : Ty) (st : State) : Out :=
  vreduce d s m y (fun _ l => (wrapTo (tyWidth y) (l.foldl (fun acc a => min acc (ival y a)) (tyRange y).2), 0)) st
/-- VREDMAX (08 R197). -/
def execVredmax (d s : Grp) (m : Pred) (y : Ty) (st : State) : Out :=
  vreduce d s m y (fun _ l => (wrapTo (tyWidth y) (l.foldl (fun acc a => max acc (ival y a)) (tyRange y).1), 0)) st
/-- VFREDADD (08 R197, R198). -/
def execVfredadd (d s : Grp) (m : Pred) (y : Ty) (st : State) : Out := vreduce d s m y (fun t l => fsum (ffOf y) t.rm l) st
/-- VSCAN (08 R197). -/
def execVscan (d s : Grp) (m : Pred) (y : Ty) (st : State) : Out :=
  .next (vissue y (grpRegs d ++ grpRegs s) (fun st =>
    let w := tyWidth y
    st.lanewise d m y w (tyLanes y) fun i =>
      laneSum st.thr y (((List.range (i + 1)).filter (st.active m)).map (lane (st.grp s) w))) st)
/-- VCOMPR (08 R197). -/
def execVcompr (d s : Grp) (m : Pred) (y : Ty) (st : State) : Out :=
  .next (vissue y (grpRegs d ++ grpRegs s) (fun st =>
    (st.setGrp d (ofLanes (tyWidth y) (st.activeLanes s m y))).vdone y) st)
/-- VEXPD (08 R197). -/
def execVexpd (d s : Grp) (m : Pred) (y : Ty) (st : State) : Out :=
  .next (vissue y (grpRegs d ++ grpRegs s) (fun st =>
    let w := tyWidth y
    st.lanewise d m y w (tyLanes y) fun i =>
      (lane (st.grp s) w ((List.range i).filter (st.active m)).length, 0)) st)
/-- VSLIDE (08 R197). -/
def execVslide (d s t : Grp) (m : Pred) (y : Ty) (st : State) : Out :=
  .next (vissue y (grpRegs d ++ grpRegs s ++ grpRegs t) (fun st =>
    let w := tyWidth y
    st.lanewise d m y w (tyLanes y) fun i =>
      (if i + 1 < tyLanes y then lane (st.grp s) w (i + 1) else lane (st.grp t) w 0, 0)) st)

/-! VMOV (08 R199). -/

/-- The lane width of a VBCAST. -/
def bwidthBits : BWidth → Nat
  | .w32 => 32 | .w64 => 64 | .w16 => 16 | .w8 => 8
/-- VBCAST (08 R199). -/
def execVbcast (d : Grp) (s : Reg) (w : BWidth) (m : Pred) (st : State) : Out :=
  .next (plain (grpRegs d ++ [s.val]) (fun st =>
    let b := bwidthBits w
    (st.setGrp d (mergeLanes b (512 / b) (st.grp d) (st.active m) fun _ => st.gn s % 2 ^ b)).retire) st)
/-- VINS (08 R199). -/
def execVins (d : Grp) (s t : Reg) (st : State) : Out :=
  .next (plain (grpRegs d ++ [s.val, t.val]) (fun st => (st.setG (8 * d + st.gn t % 8) (st.g s)).retire) st)
/-- VEXT (08 R199): the register that S names is written. -/
def execVext (d : Grp) (s t : Reg) (st : State) : Out :=
  .next (plain (grpRegs d ++ [s.val, t.val]) (fun st => (st.setG s (st.g (8 * d + st.gn t % 8))).retire) st)
/-- VMOVP (08 R199): T = 0 reads the predicate, T = 1 writes it. -/
def execVmovp (s : Reg) (r : Bool) (p : Pred) (st : State) : Out :=
  .next (plain [s] (fun st => (if r then st.setP p (st.g s) else st.setG s (st.p p)).retire) st)

/-! VCVT (08 R200 to R203). -/

/-- A prefix consumer of the VCVT major (05 R113): formats checked, prefix cleared on completion. -/
def vcvtOp (d : Grp) (regs : List Nat) (m : Pred) (fmts : Thread → List Nat) (w n : Nat) (f : State → Nat → Nat × Nat)
    (rest : Nat → Nat) (st : State) : Out :=
  .next (consume regs (fun st =>
    checkFormats (fmts st.thr) (fun st =>
      st.flagged (laneFlags n (st.active m) fun i => (f st i).2) fun st' =>
        let new := mergeLanes w n (st'.grp d) (st'.active m) fun i => (f st i).1
        (st'.setGrp d (new + 2 ^ (w * n) * rest (st'.grp d / 2 ^ (w * n)))).clearPrefix.retire) st) st)

/-- A value read from a lane of a float or narrow type. -/
def laneValue (t : Thread) (x : Ty) (a : Nat) : FV :=
  if x = .x8 then (narrowOf t.fmtB).decode a else (ffOf x).unpack a

/-- A lane converted (08 R200): between two types that are the same the lane is copied, but an x8 lane is decoded under B and
encoded under A (log entry 18). -/
def convertLane (t : Thread) (x y : Ty) (a : Nat) : Nat × Nat :=
  if x = y && x != .x8 then (a, 0)
  else if x.isInt then
    (if y.isInt then clampTy y (ival x a)
     else if y = .x8 then (narrowOf t.fmtA).encode (FV.ofInt (ival x a) 0 false)
     else floatOfInt (ffOf y) t.rm (ival x a))
  else
    let v := laneValue t x a
    let nv := fIf v.isSnan fNV
    if y.isInt then
      let r := toInteger t.rm (tyRange y).1 (tyRange y).2 v
      (wrapTo (tyWidth y) r.1, r.2)
    else if y = .x8 then
      let r := (narrowOf t.fmtA).encode v
      (r.1, r.2 ||| nv)
    else (ffOf y).result t.rm (v, nv)

/-- The descriptors that a conversion from `x` to `y` uses (08 R187). -/
def convertFormats (x y : Ty) (t : Thread) : List Nat :=
  (if y = .x8 then [t.fmtA] else []) ++ (if x = .x8 then [t.fmtB] else [])

/-- VCVT (08 R201). -/
def execVcvt (d s : Grp) (x : Ty) (m : Pred) (y : Ty) (st : State) : Out :=
  vcvtOp d (grpRegs d ++ grpRegs s) m (convertFormats x y) (tyWidth y) (min (tyLanes x) (tyLanes y))
    (fun st i => convertLane st.thr x y (lane (st.grp s) (tyWidth x) i)) (fun _ => 0) st
/-- VEXPN (08 R202). -/
def execVexpn (d s t : Grp) (m : Pred) (_y : Ty) (st : State) : Out :=
  vcvtOp d (grpRegs d ++ grpRegs s ++ grpRegs t) m (fun t => [t.fmtB]) 32 16
    (fun st i => f32.result st.thr.rm
      (FV.mul ((narrowOf st.thr.fmtB).decode (lane (st.grp s) 8 i)) (f32.unpack (lane (st.grp t) 32 i)))) id st
/-- VQNT (08 R202): byte lanes 16 to 63 of vD stay. -/
def execVqnt (d s t : Grp) (m : Pred) (_y : Ty) (st : State) : Out :=
  vcvtOp d (grpRegs d ++ grpRegs s ++ grpRegs t) m (fun t => [t.fmtA]) 8 16
    (fun st i =>
      let q := FV.div (f32.unpack (lane (st.grp s) 32 i)) (f32.unpack (lane (st.grp t) 32 i))
      let r := (narrowOf st.thr.fmtA).encode q.1
      (r.1, r.2 ||| q.2)) id st
/-- The type of twice a type's width (08 R203). -/
def widerTy : Ty → Ty
  | .i16 => .i32
  | .x8 => .h16
  | _ => .f32
/-- VPACK (08 R203). -/
def execVpack (d s t : Grp) (m : Pred) (y : Ty) (st : State) : Out :=
  let n := tyLanes y
  let x := widerTy y
  vcvtOp d (grpRegs d ++ grpRegs s ++ grpRegs t) m (convertFormats x y) (tyWidth y) n
    (fun st i => convertLane st.thr x y
      (if i < n / 2 then lane (st.grp s) (tyWidth x) i else lane (st.grp t) (tyWidth x) (i - n / 2))) id st
/-- VUNPK (08 R203). -/
def execVunpk (d s : Grp) (h : Fin 2) (m : Pred) (y : Ty) (st : State) : Out :=
  let n := tyLanes y
  let x := widerTy y
  vcvtOp d (grpRegs d ++ grpRegs s) m (convertFormats y x) (tyWidth x) (n / 2)
    (fun st i => convertLane st.thr y x (lane (st.grp s) (tyWidth y) (h * (n / 2) + i))) id st

end Sys2Proof.Machine
end

