-- ==== Sys2Proof/Machine/VectorMemory.lean ====
section
/-!
DEFINITION. Vector memory and the stream set operations (08 R204 to R208).
-/
namespace Sys2Proof.Machine

/-! VMEM (08 R204 to R207). -/

/-- A unit of a vector access: its lane, what it asks, its address and size. -/
structure VUnit where
  lane : Nat
  op : Op
  va : Nat
  size : Nat

/-- The check of a block address, made whatever PM holds (08 R204). -/
def State.blockCheck (s : State) (va align : Nat) (k : State → State) : State :=
  if addressBad va then s.trap Cause.badAddress (BitVec.ofNat 64 va)
  else if va % align ≠ 0 then s.trap Cause.misaligned (BitVec.ofNat 64 va)
  else k s

/-- The first unit that fails its checks, in ascending order (08 R204; 12 R283 for the presence forms and the engine stores). -/
def State.unitFailure (s : State) (units : List VUnit) : Option (Nat × Nat) :=
  units.findSome? fun u =>
    match s.checkAccess s.cur.1 s.thr.dom u.va u.size u.op.kind with
    | .error c => some (c, u.va)
    | .ok t =>
      if t.isHost && !u.op.hostCarries then some (Cause.unsupportedOp, u.va)
      else if t.isStore && !u.op.onStores then some (Cause.protection, u.va)
      else none

/-- The path of a unit of the issuing thread. -/
def State.unitPath (s : State) (u : VUnit) : Path := (targetOf s.cur.1 u.va).path

/-- Performs the local units and sends the others, in lane order (07 R154). -/
def State.startUnits (s : State) : List VUnit → List Access × State
  | [] => ([], s)
  | u :: rest =>
    let one := [(u.lane, u.op, u.va)]
    let p := if s.unitPath u == .loc then s.localUnits s.thr.dom one else s.sendUnits one
    let q := p.2.startUnits rest
    (p.1 ++ q.1, q.2)

/-- A vector load (08 R205): it waits for overlapping journal entries, then asks for every active unit. -/
def State.vectorLoad (s : State) (d size : Nat) (units : List VUnit) : State :=
  match s.unitFailure units with
  | some (c, va) => s.trap c (BitVec.ofNat 64 va)
  | none =>
    let glob := units.filter fun u => s.unitPath u == .global
    match glob.find? fun u => !(s.overlapping s.cur.1 s.cur.2 u.va u.size).isEmpty with
    | some u => s.parkCore (.overlap u.va u.size)
    | none =>
      if units.isEmpty then s.retire
      else if !glob.isEmpty && s.scHeld s.cur.1 s.cur.2 then s.parkCore .order
      else s.await (.lanes d size) (s.startUnits units)

/-- A lane of a local or cluster vector store that its word would refuse: a merge into a poisoned word (07 R183). -/
def State.storeRefused (s : State) (u : VUnit) : Bool :=
  let pois := fun a => s.mem.poisoned (wordOf a)
  match targetOf s.cur.1 u.va, u.op with
  | .loc c o, .store n _ => n != 8 && pois (localAddr c o)
  | .unit c o, .store n _ => n != 8 && pois (localAddr c o)
  | .store cl k o, .store n _ => n != 8 && pois (storeAddr cl k o)
  | _, _ => false

/-- What a lane of a cluster vector store must wait for before it can be written: the shutter of its core (14 R347), or P of a word
of an engine store (07 R155). -/
def State.notReady (s : State) (u : VUnit) : Option (Nat × Op × Nat) :=
  match targetOf s.cur.1 u.va with
  | .unit c _ => if s.shuttered c then some (u.lane, .touch true, u.va) else none
  | .store cl k o => if s.mem.full (wordOf (storeAddr cl k o)) then none else some (u.lane, .waitf, u.va / 8 * 8)
  | _ => none

/-- A lane of a local or cluster vector store is written within the instruction (08 R206). -/
def State.writeUnit (s : State) (u : VUnit) : State :=
  (s.atCluster (targetOf s.cur.1 u.va) (fun _ _ => 0) (s.mkReq s.cur.1 s.cur.2 0 u.op u.va false)).2

/-- The journal items of the global units of a vector store. -/
def State.globalItems (s : State) (kind : Nat) (units : List VUnit) : List (Nat × Op × Nat) :=
  (units.filter fun u => s.unitPath u == .global).map fun u => (kind, u.op, u.va)

/-- A store of lanes (08 R206): global lanes take journal entries of a kind, all at once; the others are written within the instruction,
together, once each of them can be (log entry 92), and when one is refused nothing is written. -/
def State.vectorStore (s : State) (kind : Nat) (units : List VUnit) : State :=
  match s.unitFailure units with
  | some (c, va) => s.trap c (BitVec.ofNat 64 va)
  | none =>
    let near := units.filter fun u => s.unitPath u != .global
    let glob := s.globalItems kind units
    let early := near.filterMap s.notReady
    if !early.isEmpty then s.await .reissue (s.sendUnits early)
    else match near.find? s.storeRefused with
      | some u => s.failAt s.cur.1 s.cur.2 Cause.poison u.va
      | none =>
        if glob.isEmpty then (near.foldl State.writeUnit s).retire
        else if s.postReady glob.length then (near.foldl State.writeUnit s).post glob
        else s.post glob

/-- The STPs of a VSTP (08 R207): global words take journal entries, all at once; the others wait at their words, in any order. -/
def State.presenceStore (s : State) (units : List VUnit) : State :=
  let near := units.filter fun u => s.unitPath u != .global
  let glob := s.globalItems 7 units
  if near.isEmpty then (if glob.isEmpty then s.retire else s.post glob)
  else if glob.isEmpty then s.await .none (s.startUnits near)
  else if s.postReady glob.length then
    let q := (s.leaveQueues s.cur.1 s.cur.2).addEntries glob
    let s := q.2.pumpJournal s.cur.1
    s.await (.stored (if s.thr.scdef then q.1 else [])) (s.startUnits near)
  else s.post glob

/-- The active numbers below `n`. -/
def State.activeBelow (s : State) (m : Pred) (n : Nat) : List Nat := (List.range n).filter (s.active m)

/-- The units of a VLD: each word with an active lane is read once, so that both its lanes are of one moment (08 R205, 13 R307). -/
def State.wordUnits (s : State) (m : Pred) (a : Nat) : List VUnit :=
  (List.range 8).filterMap fun j =>
    match s.active m (2 * j), s.active m (2 * j + 1) with
    | true, true => some ⟨2 * j, .load 8, a + 8 * j, 8⟩
    | true, false => some ⟨2 * j, .load 4, a + 8 * j, 4⟩
    | false, true => some ⟨2 * j + 1, .load 4, a + 8 * j + 4, 4⟩
    | false, false => none

/-- VLD (08 R204). -/
def execVld (d : Grp) (s : Reg) (m : Pred) (st : State) : Out :=
  .next (plain (grpRegs d ++ [s.val]) (fun st => st.blockCheck (st.gn s) 64 fun st =>
    st.vectorLoad d 4 (st.wordUnits m (st.gn s))) st)

/-- VST (08 R204, R206): one entry or one block where the block has one home, single lanes in the engine stores. -/
def execVst (d : Grp) (s : Reg) (m : Pred) (st : State) : Out :=
  .next (plain (grpRegs d ++ [s.val]) (fun st => st.blockCheck (st.gn s) 64 fun st =>
    let a := st.gn s
    let act := st.activeBelow m 16
    let lanes : List VUnit := act.map fun i => ⟨i, .store 4 (lane (st.grp d) 32 i), a + 4 * i, 4⟩
    match st.unitFailure lanes with
    | some (c, va) => st.trap c (BitVec.ofNat 64 va)
    | none =>
      if act.isEmpty then st.retire
      else if (targetOf st.cur.1 a).isStore then st.vectorStore 4 lanes
      else
        let mask := act.foldl (fun v i => v + 15 * 2 ^ (4 * i)) 0
        let u : VUnit := ⟨0, .block mask (st.grp d), a, 64⟩
        if st.unitPath u == .global then st.post [(4, u.op, a)]
        else st.await .none (st.startUnits [u])) st)

/-- The strided address of lane `i` (08 R204). -/
def State.strided (st : State) (s t : Reg) (i : Nat) : Nat := (st.g s + BitVec.ofNat 64 i * st.g t).toNat
/-- VLDS (08 R204). -/
def execVlds (d : Grp) (s t : Reg) (m : Pred) (st : State) : Out :=
  .next (plain (grpRegs d ++ [s.val, t.val]) (fun st =>
    st.vectorLoad d 4 ((st.activeBelow m 16).map fun i => ⟨i, .load 4, st.strided s t i, 4⟩)) st)
/-- VSTS (08 R204, R206). -/
def execVsts (d : Grp) (s t : Reg) (m : Pred) (st : State) : Out :=
  .next (plain (grpRegs d ++ [s.val, t.val]) (fun st =>
    st.vectorStore 5 ((st.activeBelow m 16).map fun i =>
      ⟨i, .store 4 (lane (st.grp d) 32 i), st.strided s t i, 4⟩)) st)

/-- The bytes of a gathered unit (08 R204). -/
def gatherSize (z : Bool) : Nat := if z then 8 else 4
/-- The indexed address of lane `i` (08 R204). -/
def State.indexed (st : State) (s : Reg) (v : Grp) (z : Bool) (i : Nat) : Nat :=
  (st.g s + BitVec.ofNat 64 (lane (st.grp v) 32 i * gatherSize z)).toNat
/-- VGATH (08 R204). -/
def execVgath (d : Grp) (s : Reg) (v : Grp) (z : Bool) (m : Pred) (st : State) : Out :=
  .next (plain (grpRegs d ++ [s.val] ++ grpRegs v) (fun st =>
    let n := gatherSize z
    st.vectorLoad d n ((st.activeBelow m (64 / n)).map fun i => ⟨i, .load n, st.indexed s v z i, n⟩)) st)
/-- VSCAT (08 R204, R206). -/
def execVscat (d : Grp) (s : Reg) (v : Grp) (z : Bool) (m : Pred) (st : State) : Out :=
  .next (plain (grpRegs d ++ [s.val] ++ grpRegs v) (fun st =>
    let n := gatherSize z
    st.vectorStore 6 ((st.activeBelow m (64 / n)).map fun i =>
      ⟨i, .store n (lane (st.grp d) (8 * n) i), st.indexed s v z i, n⟩)) st)
/-- VLDF (08 R207). -/
def execVldf (d : Grp) (s : Reg) (m : Pred) (st : State) : Out :=
  .next (plain (grpRegs d ++ [s.val]) (fun st => st.blockCheck (st.gn s) 64 fun st =>
    st.vectorLoad d 8 ((st.activeBelow m 8).map fun i => ⟨i, .ldf, st.gn s + 8 * i, 8⟩)) st)
/-- VSTP (08 R207): a release, which waits as JSYNC does whatever lanes are active. -/
def execVstp (d : Grp) (s : Reg) (m : Pred) (st : State) : Out :=
  .next (plain (grpRegs d ++ [s.val]) (fun st => st.blockCheck (st.gn s) 64 fun st =>
    let units : List VUnit := (st.activeBelow m 8).map fun i => ⟨i, .stp (st.gn (8 * d + i)), st.gn s + 8 * i, 8⟩
    match st.unitFailure units with
    | some (c, va) => st.trap c (BitVec.ofNat 64 va)
    | none =>
      if ((st.core st.cur.1).pending st.cur.2).isEmpty then st.presenceStore units
      else st.parkCore .drain) st)
/-- VLDB (08 R204). -/
def execVldb (d : Grp) (s : Reg) (m : Pred) (st : State) : Out :=
  .next (plain (grpRegs d ++ [s.val]) (fun st => st.blockCheck (st.gn s) 8 fun st =>
    st.vectorLoad d 8 ((st.activeBelow m 8).map fun i => ⟨i, .load 8, st.gn s, 8⟩)) st)

/-! VSTRM (08 R208). -/

/-- Which set operation. -/
inductive StreamOp where
  | isect | union | diff
  deriving DecidableEq, Repr

/-- The progress of one execution. -/
structure Merge where
  pa : Nat
  pb : Nat
  x : Option Nat
  y : Option Nat
  reads : Nat
  steps : Nat
  out : List Nat
  done : Bool
  deriving DecidableEq, Repr

/-- How an execution ends. -/
inductive MergeEnd where
  | finish (m : Merge)
  | fail (cause va : Nat)
  | blocked (w : CoreWait)
  | ask (va : Nat)
  deriving DecidableEq, Repr

/-- A fetch of an element: held already, or read; none when the reads would exceed 32. -/
def State.element (s : State) (held : Option Nat) (va reads : Nat) : Option Read × Nat × State :=
  match held with
  | some v => (some (.ok v), reads, s)
  | none =>
    if 32 ≤ reads then (none, reads, s)
    else
      let r := s.readNow va 4
      (some r.1, reads + 1, r.2)

/-- One merge step on the elements in hand (08 R208): `a` and `b` are none for an exhausted list. -/
def mergeStep (op : StreamOp) (m : Merge) (a b : Option Nat) : Merge :=
  let pa := (m.pa + 4) % 2 ^ 64
  let pb := (m.pb + 4) % 2 ^ 64
  let emitA := fun v => { m with out := m.out ++ [v], pa := pa, x := none, y := b }
  let emitB := fun v => { m with out := m.out ++ [v], pb := pb, x := a, y := none }
  let both := fun v => { m with out := m.out ++ [v], pa := pa, pb := pb, x := none, y := none }
  let skipA := { m with pa := pa, x := none, y := b }
  let skipB := { m with pb := pb, x := a, y := none }
  let r := match op, a, b with
    | .isect, some x, some y => if x = y then both x else if x < y then skipA else skipB
    | .union, none, some y => emitB y
    | .union, some x, none => emitA x
    | .union, some x, some y => if x = y then both x else if x < y then emitA x else emitB y
    | .diff, some x, none => emitA x
    | .diff, some x, some y =>
      if x = y then { m with pa := pa, pb := pb, x := none, y := none } else if x < y then emitA x else skipB
    | _, _, _ => m
  { r with steps := m.steps + 1 }

/-- Whether a stream operation is done (08 R208). -/
def streamDone (op : StreamOp) (aE bE : Bool) : Bool :=
  match op with
  | .isect => aE || bE
  | .union => aE && bE
  | .diff => aE

/-- The loop of 08 R208. A failing fetch ends the execution early after a step, unless the region covers it. -/
def State.merge (s : State) (op : StreamOp) (ea eb : Nat) : Nat → Merge → MergeEnd × State
  | 0, m => (.finish m, s)
  | fuel + 1, m =>
    let aE := decide (ea ≤ m.pa)
    let bE := decide (eb ≤ m.pb)
    let failed := fun (c va : Nat) (m : Merge) (s : State) =>
      if m.steps = 0 || s.thr.rg then (MergeEnd.fail c va, s) else (MergeEnd.finish m, s)
    if streamDone op aE bE then (.finish { m with done := true }, s)
    else if m.out.length = 16 then (.finish m, s)
    else
      let fa := if aE then (some (Read.ok 0), m.reads, s) else s.element m.x m.pa m.reads
      match fa with
      | (none, _, s) => (.finish m, s)
      | (some (.fail c), _, s) => failed c m.pa m s
      | (some (.blocked w), _, s) => (.blocked w, s)
      | (some .ask, _, s) => (.ask m.pa, s)
      | (some (.ok x), reads, s) =>
        let fb := if bE then (some (Read.ok 0), reads, s) else s.element m.y m.pb reads
        match fb with
        | (none, _, s) => (.finish m, s)
        | (some (.fail c), _, s) => failed c m.pb m s
        | (some (.blocked w), _, s) => (.blocked w, s)
        | (some .ask, _, s) => (.ask m.pb, s)
        | (some (.ok y), reads, s) =>
          s.merge op ea eb fuel (mergeStep op { m with reads := reads } (if aE then none else some x)
            (if bE then none else some y))

/-- A stream instruction (08 R208): inside a region every failing fetch is a covered failure. -/
def streamOp (op : StreamOp) (d : Grp) (s t : Reg) (st : State) : Out :=
  .next (plain (grpRegs d ++ [s.val, s.val + 1, s.val + 2, s.val + 3, s.val + 4, t.val]) (fun st =>
    let pa := st.gn s
    let pb := st.gn (s.val + 2)
    if pa % 4 ≠ 0 then st.trap Cause.misaligned (BitVec.ofNat 64 pa)
    else if pb % 4 ≠ 0 then st.trap Cause.misaligned (BitVec.ofNat 64 pb)
    else match st.merge op (st.gn (s.val + 1)) (st.gn (s.val + 3)) 64 ⟨pa, pb, none, none, 0, 0, [], false⟩ with
      | (.fail c va, st) => st.failAs st.cur.1 st.cur.2 c va true
      | (.blocked w, st) => st.parkCore w
      | (.ask va, st) => st.gather va 4
      | (.finish m, st) =>
        let k := m.out.length
        let st := (st.setG s (BitVec.ofNat 64 m.pa)).setG (s.val + 2) (BitVec.ofNat 64 m.pb)
        let st := st.setG (s.val + 4) (st.g (s.val + 4) + BitVec.ofNat 64 k)
        ((st.setG t (BitVec.ofNat 64 (k + 256 * m.done.toNat))).setGrp d (ofLanes 32 m.out)).retire) st)

/-- VISECT (08 R208). -/
def execVisect (d : Grp) (s t : Reg) (st : State) : Out := streamOp .isect d s t st
/-- VUNION (08 R208). -/
def execVunion (d : Grp) (s t : Reg) (st : State) : Out := streamOp .union d s t st
/-- VDIFF (08 R208). -/
def execVdiff (d : Grp) (s t : Reg) (st : State) : Out := streamOp .diff d s t st

end Sys2Proof.Machine
end

