-- ==== Sys2Proof/Machine/Dispatch.lean ====
section
/-!
DEFINITION. One arm for each constructor of Instr: its meaning, or a rejection by name.
-/
namespace Sys2Proof.Machine

/-- What an instruction or a step of the part does to the state. -/
def exec (i : Instr) (s : State) : Host.Outcome State Fault Refusal :=
  match i with
  | .add x0 x1 x2 => Sys2Proof.Machine.execAdd x0 x1 x2 s
  | .sub x0 x1 x2 => Sys2Proof.Machine.execSub x0 x1 x2 s
  | .mul x0 x1 x2 => Sys2Proof.Machine.execMul x0 x1 x2 s
  | .mulh x0 x1 x2 => Sys2Proof.Machine.execMulh x0 x1 x2 s
  | .mulhn x0 x1 x2 => Sys2Proof.Machine.execMulhn x0 x1 x2 s
  | .div x0 x1 x2 => Sys2Proof.Machine.execDiv x0 x1 x2 s
  | .divn x0 x1 x2 => Sys2Proof.Machine.execDivn x0 x1 x2 s
  | .rem x0 x1 x2 => Sys2Proof.Machine.execRem x0 x1 x2 s
  | .remn x0 x1 x2 => Sys2Proof.Machine.execRemn x0 x1 x2 s
  | .and x0 x1 x2 => Sys2Proof.Machine.execAnd x0 x1 x2 s
  | .or x0 x1 x2 => Sys2Proof.Machine.execOr x0 x1 x2 s
  | .xor x0 x1 x2 => Sys2Proof.Machine.execXor x0 x1 x2 s
  | .andn x0 x1 x2 => Sys2Proof.Machine.execAndn x0 x1 x2 s
  | .shl x0 x1 x2 => Sys2Proof.Machine.execShl x0 x1 x2 s
  | .shr x0 x1 x2 => Sys2Proof.Machine.execShr x0 x1 x2 s
  | .shra x0 x1 x2 => Sys2Proof.Machine.execShra x0 x1 x2 s
  | .rotl x0 x1 x2 => Sys2Proof.Machine.execRotl x0 x1 x2 s
  | .min x0 x1 x2 => Sys2Proof.Machine.execMin x0 x1 x2 s
  | .max x0 x1 x2 => Sys2Proof.Machine.execMax x0 x1 x2 s
  | .minn x0 x1 x2 => Sys2Proof.Machine.execMinn x0 x1 x2 s
  | .maxn x0 x1 x2 => Sys2Proof.Machine.execMaxn x0 x1 x2 s
  | .lea2 x0 x1 x2 => Sys2Proof.Machine.execLea2 x0 x1 x2 s
  | .lea4 x0 x1 x2 => Sys2Proof.Machine.execLea4 x0 x1 x2 s
  | .lea8 x0 x1 x2 => Sys2Proof.Machine.execLea8 x0 x1 x2 s
  | .addw x0 x1 x2 => Sys2Proof.Machine.execAddw x0 x1 x2 s
  | .mulw x0 x1 x2 => Sys2Proof.Machine.execMulw x0 x1 x2 s
  | .clz x0 x1 => Sys2Proof.Machine.execClz x0 x1 s
  | .ctz x0 x1 => Sys2Proof.Machine.execCtz x0 x1 s
  | .popc x0 x1 => Sys2Proof.Machine.execPopc x0 x1 s
  | .brev x0 x1 => Sys2Proof.Machine.execBrev x0 x1 s
  | .bswap x0 x1 => Sys2Proof.Machine.execBswap x0 x1 s
  | .absd x0 x1 x2 => Sys2Proof.Machine.execAbsd x0 x1 x2 s
  | .addi x0 x1 x2 => Sys2Proof.Machine.execAddi x0 x1 x2 s
  | .andi x0 x1 x2 => Sys2Proof.Machine.execAndi x0 x1 x2 s
  | .ori x0 x1 x2 => Sys2Proof.Machine.execOri x0 x1 x2 s
  | .xori x0 x1 x2 => Sys2Proof.Machine.execXori x0 x1 x2 s
  | .shli x0 x1 x2 => Sys2Proof.Machine.execShli x0 x1 x2 s
  | .shri x0 x1 x2 => Sys2Proof.Machine.execShri x0 x1 x2 s
  | .shrai x0 x1 x2 => Sys2Proof.Machine.execShrai x0 x1 x2 s
  | .rotli x0 x1 x2 => Sys2Proof.Machine.execRotli x0 x1 x2 s
  | .movi x0 x1 => Sys2Proof.Machine.execMovi x0 x1 s
  | .movs x0 x1 => Sys2Proof.Machine.execMovs x0 x1 s
  | .bfx x0 x1 x2 x3 => Sys2Proof.Machine.execBfx x0 x1 x2 x3 s
  | .bfxs x0 x1 x2 x3 => Sys2Proof.Machine.execBfxs x0 x1 x2 x3 s
  | .bfi x0 x1 x2 x3 => Sys2Proof.Machine.execBfi x0 x1 x2 x3 s
  | .cmpeq x0 x1 x2 => Sys2Proof.Machine.execCmpeq x0 x1 x2 s
  | .cmpne x0 x1 x2 => Sys2Proof.Machine.execCmpne x0 x1 x2 s
  | .cmplt x0 x1 x2 => Sys2Proof.Machine.execCmplt x0 x1 x2 s
  | .cmple x0 x1 x2 => Sys2Proof.Machine.execCmple x0 x1 x2 s
  | .cmpltn x0 x1 x2 => Sys2Proof.Machine.execCmpltn x0 x1 x2 s
  | .cmplen x0 x1 x2 => Sys2Proof.Machine.execCmplen x0 x1 x2 s
  | .tstnz x0 x1 x2 => Sys2Proof.Machine.execTstnz x0 x1 x2 s
  | .tstz x0 x1 x2 => Sys2Proof.Machine.execTstz x0 x1 x2 s
  | .cmpeqi x0 x1 x2 => Sys2Proof.Machine.execCmpeqi x0 x1 x2 s
  | .cmpnei x0 x1 x2 => Sys2Proof.Machine.execCmpnei x0 x1 x2 s
  | .cmplti x0 x1 x2 => Sys2Proof.Machine.execCmplti x0 x1 x2 s
  | .cmplei x0 x1 x2 => Sys2Proof.Machine.execCmplei x0 x1 x2 s
  | .cmpgti x0 x1 x2 => Sys2Proof.Machine.execCmpgti x0 x1 x2 s
  | .cmpgei x0 x1 x2 => Sys2Proof.Machine.execCmpgei x0 x1 x2 s
  | .cmpltni x0 x1 x2 => Sys2Proof.Machine.execCmpltni x0 x1 x2 s
  | .cmpleni x0 x1 x2 => Sys2Proof.Machine.execCmpleni x0 x1 x2 s
  | .cmpgtni x0 x1 x2 => Sys2Proof.Machine.execCmpgtni x0 x1 x2 s
  | .cmpgeni x0 x1 x2 => Sys2Proof.Machine.execCmpgeni x0 x1 x2 s
  | .pand x0 x1 x2 => Sys2Proof.Machine.execPand x0 x1 x2 s
  | .por x0 x1 x2 => Sys2Proof.Machine.execPor x0 x1 x2 s
  | .pxor x0 x1 x2 => Sys2Proof.Machine.execPxor x0 x1 x2 s
  | .pandn x0 x1 x2 => Sys2Proof.Machine.execPandn x0 x1 x2 s
  | .pnot x0 x1 => Sys2Proof.Machine.execPnot x0 x1 s
  | .pmov x0 x1 => Sys2Proof.Machine.execPmov x0 x1 s
  | .pall x0 => Sys2Proof.Machine.execPall x0 s
  | .pnone x0 => Sys2Proof.Machine.execPnone x0 s
  | .sel x0 x1 x2 x3 => Sys2Proof.Machine.execSel x0 x1 x2 x3 s
  | .br x0 => Sys2Proof.Machine.execBr x0 s
  | .call x0 => Sys2Proof.Machine.execCall x0 s
  | .bp x0 x1 => Sys2Proof.Machine.execBp x0 x1 s
  | .bnp x0 x1 => Sys2Proof.Machine.execBnp x0 x1 s
  | .bz x0 x1 => Sys2Proof.Machine.execBz x0 x1 s
  | .bnz x0 x1 => Sys2Proof.Machine.execBnz x0 x1 s
  | .jr x0 => Sys2Proof.Machine.execJr x0 s
  | .jrl x0 => Sys2Proof.Machine.execJrl x0 s
  | .ret => Sys2Proof.Machine.execRet s
  | .nop => Sys2Proof.Machine.execNop s
  | .yield => Sys2Proof.Machine.execYield s
  | .brk => Sys2Proof.Machine.execBrk s
  | .fmtp x0 x1 x2 => Sys2Proof.Machine.execFmtp x0 x1 x2 s
  | .fdset x0 x1 => Sys2Proof.Machine.execFdset x0 x1 s
  | .fdget x0 x1 => Sys2Proof.Machine.execFdget x0 x1 s
  | .ld x0 x1 x2 x3 => Sys2Proof.Machine.execLd x0 x1 x2 x3 s
  | .st x0 x1 x2 x3 => Sys2Proof.Machine.execSt x0 x1 x2 x3 s
  | .ldf x0 x1 x2 => Sys2Proof.Machine.execLdf x0 x1 x2 s
  | .ldt x0 x1 x2 => Sys2Proof.Machine.execLdt x0 x1 x2 s
  | .stp x0 x1 x2 => Sys2Proof.Machine.execStp x0 x1 x2 s
  | .stf x0 x1 x2 => Sys2Proof.Machine.execStf x0 x1 x2 s
  | .sete x0 => Sys2Proof.Machine.execSete x0 s
  | .setf x0 => Sys2Proof.Machine.execSetf x0 s
  | .probe x0 x1 => Sys2Proof.Machine.execProbe x0 x1 s
  | .waitf x0 => Sys2Proof.Machine.execWaitf x0 s
  | .waite x0 => Sys2Proof.Machine.execWaite x0 s
  | .fence x0 => Sys2Proof.Machine.execFence x0 s
  | .jsync => Sys2Proof.Machine.execJsync s
  | .rbegin x0 => Sys2Proof.Machine.execRbegin x0 s
  | .rcommit => Sys2Proof.Machine.execRcommit s
  | .pref x0 => Sys2Proof.Machine.execPref x0 s
  | .migr x0 => Sys2Proof.Machine.execMigr x0 s
  | .livem x0 x1 x2 => Sys2Proof.Machine.execLivem x0 x1 x2 s
  | .touch x0 x1 => Sys2Proof.Machine.execTouch x0 x1 s
  | .rabort x0 => Sys2Proof.Machine.execRabort x0 s
  | .aadd x0 x1 x2 x3 => Sys2Proof.Machine.execAadd x0 x1 x2 x3 s
  | .aand x0 x1 x2 x3 => Sys2Proof.Machine.execAand x0 x1 x2 x3 s
  | .aor x0 x1 x2 x3 => Sys2Proof.Machine.execAor x0 x1 x2 x3 s
  | .axor x0 x1 x2 x3 => Sys2Proof.Machine.execAxor x0 x1 x2 x3 s
  | .amin x0 x1 x2 x3 => Sys2Proof.Machine.execAmin x0 x1 x2 x3 s
  | .amax x0 x1 x2 x3 => Sys2Proof.Machine.execAmax x0 x1 x2 x3 s
  | .aminn x0 x1 x2 x3 => Sys2Proof.Machine.execAminn x0 x1 x2 x3 s
  | .amaxn x0 x1 x2 x3 => Sys2Proof.Machine.execAmaxn x0 x1 x2 x3 s
  | .axchg x0 x1 x2 x3 => Sys2Proof.Machine.execAxchg x0 x1 x2 x3 s
  | .adecp x0 x1 x2 => Sys2Proof.Machine.execAdecp x0 x1 x2 s
  | .aincw x0 x1 x2 x3 => Sys2Proof.Machine.execAincw x0 x1 x2 x3 s
  | .afadd x0 x1 x2 x3 => Sys2Proof.Machine.execAfadd x0 x1 x2 x3 s
  | .afmin x0 x1 x2 x3 => Sys2Proof.Machine.execAfmin x0 x1 x2 x3 s
  | .afmax x0 x1 x2 x3 => Sys2Proof.Machine.execAfmax x0 x1 x2 x3 s
  | .aaddP x0 x1 x2 => Sys2Proof.Machine.execAaddP x0 x1 x2 s
  | .aandP x0 x1 x2 => Sys2Proof.Machine.execAandP x0 x1 x2 s
  | .aorP x0 x1 x2 => Sys2Proof.Machine.execAorP x0 x1 x2 s
  | .axorP x0 x1 x2 => Sys2Proof.Machine.execAxorP x0 x1 x2 s
  | .aminP x0 x1 x2 => Sys2Proof.Machine.execAminP x0 x1 x2 s
  | .amaxP x0 x1 x2 => Sys2Proof.Machine.execAmaxP x0 x1 x2 s
  | .aminnP x0 x1 x2 => Sys2Proof.Machine.execAminnP x0 x1 x2 s
  | .amaxnP x0 x1 x2 => Sys2Proof.Machine.execAmaxnP x0 x1 x2 s
  | .axchgP x0 x1 x2 => Sys2Proof.Machine.execAxchgP x0 x1 x2 s
  | .adecpP x0 x1 => Sys2Proof.Machine.execAdecpP x0 x1 s
  | .aincwP x0 x1 x2 => Sys2Proof.Machine.execAincwP x0 x1 x2 s
  | .afaddP x0 x1 x2 => Sys2Proof.Machine.execAfaddP x0 x1 x2 s
  | .afminP x0 x1 x2 => Sys2Proof.Machine.execAfminP x0 x1 x2 s
  | .afmaxP x0 x1 x2 => Sys2Proof.Machine.execAfmaxP x0 x1 x2 s
  | .acas64 x0 x1 x2 => Sys2Proof.Machine.execAcas64 x0 x1 x2 s
  | .acas32 x0 x1 x2 => Sys2Proof.Machine.execAcas32 x0 x1 x2 s
  | .acas128 x0 x1 x2 => Sys2Proof.Machine.execAcas128 x0 x1 x2 s
  | .lstat x0 x1 => Sys2Proof.Machine.execLstat x0 x1 s
  | .lresume x0 => Sys2Proof.Machine.execLresume x0 s
  | .lcancel x0 => Sys2Proof.Machine.execLcancel x0 s
  | .waitv x0 x1 x2 => Sys2Proof.Machine.execWaitv x0 x1 x2 s
  | .wake1 x0 x1 => Sys2Proof.Machine.execWake1 x0 x1 s
  | .wakea x0 x1 => Sys2Proof.Machine.execWakea x0 x1 s
  | .waken x0 x1 x2 => Sys2Proof.Machine.execWaken x0 x1 x2 s
  | .spawn x0 x1 => Sys2Proof.Machine.execSpawn x0 x1 s
  | .spawnf x0 x1 x2 => Sys2Proof.Machine.execSpawnf x0 x1 x2 s
  | .tend x0 => Sys2Proof.Machine.execTend x0 s
  | .send x0 x1 x2 => Sys2Proof.Machine.execSend x0 x1 x2 s
  | .tself x0 => Sys2Proof.Machine.execTself x0 s
  | .srd x0 x1 => Sys2Proof.Machine.execSrd x0 x1 s
  | .swr x0 x1 => Sys2Proof.Machine.execSwr x0 x1 s
  | .vadd x0 x1 x2 x3 x4 => Sys2Proof.Machine.execVadd x0 x1 x2 x3 x4 s
  | .vsub x0 x1 x2 x3 x4 => Sys2Proof.Machine.execVsub x0 x1 x2 x3 x4 s
  | .vmul x0 x1 x2 x3 x4 => Sys2Proof.Machine.execVmul x0 x1 x2 x3 x4 s
  | .vmulh x0 x1 x2 x3 x4 => Sys2Proof.Machine.execVmulh x0 x1 x2 x3 x4 s
  | .vmin x0 x1 x2 x3 x4 => Sys2Proof.Machine.execVmin x0 x1 x2 x3 x4 s
  | .vmax x0 x1 x2 x3 x4 => Sys2Proof.Machine.execVmax x0 x1 x2 x3 x4 s
  | .vand x0 x1 x2 x3 x4 => Sys2Proof.Machine.execVand x0 x1 x2 x3 x4 s
  | .vor x0 x1 x2 x3 x4 => Sys2Proof.Machine.execVor x0 x1 x2 x3 x4 s
  | .vxor x0 x1 x2 x3 x4 => Sys2Proof.Machine.execVxor x0 x1 x2 x3 x4 s
  | .vshl x0 x1 x2 x3 x4 => Sys2Proof.Machine.execVshl x0 x1 x2 x3 x4 s
  | .vshr x0 x1 x2 x3 x4 => Sys2Proof.Machine.execVshr x0 x1 x2 x3 x4 s
  | .vshra x0 x1 x2 x3 x4 => Sys2Proof.Machine.execVshra x0 x1 x2 x3 x4 s
  | .vabs x0 x1 x2 x3 => Sys2Proof.Machine.execVabs x0 x1 x2 x3 s
  | .vneg x0 x1 x2 x3 => Sys2Proof.Machine.execVneg x0 x1 x2 x3 s
  | .vsadd x0 x1 x2 x3 x4 => Sys2Proof.Machine.execVsadd x0 x1 x2 x3 x4 s
  | .vssub x0 x1 x2 x3 x4 => Sys2Proof.Machine.execVssub x0 x1 x2 x3 x4 s
  | .vpopc x0 x1 x2 x3 => Sys2Proof.Machine.execVpopc x0 x1 x2 x3 s
  | .vclz x0 x1 x2 x3 => Sys2Proof.Machine.execVclz x0 x1 x2 x3 s
  | .vmadd x0 x1 x2 x3 x4 => Sys2Proof.Machine.execVmadd x0 x1 x2 x3 x4 s
  | .vsel x0 x1 x2 x3 x4 => Sys2Proof.Machine.execVsel x0 x1 x2 x3 x4 s
  | .vfadd x0 x1 x2 x3 x4 => Sys2Proof.Machine.execVfadd x0 x1 x2 x3 x4 s
  | .vfsub x0 x1 x2 x3 x4 => Sys2Proof.Machine.execVfsub x0 x1 x2 x3 x4 s
  | .vfmul x0 x1 x2 x3 x4 => Sys2Proof.Machine.execVfmul x0 x1 x2 x3 x4 s
  | .vfma x0 x1 x2 x3 x4 => Sys2Proof.Machine.execVfma x0 x1 x2 x3 x4 s
  | .vfdiv x0 x1 x2 x3 x4 => Sys2Proof.Machine.execVfdiv x0 x1 x2 x3 x4 s
  | .vfsqrt x0 x1 x2 x3 => Sys2Proof.Machine.execVfsqrt x0 x1 x2 x3 s
  | .vfmin x0 x1 x2 x3 x4 => Sys2Proof.Machine.execVfmin x0 x1 x2 x3 x4 s
  | .vfmax x0 x1 x2 x3 x4 => Sys2Proof.Machine.execVfmax x0 x1 x2 x3 x4 s
  | .vfabs x0 x1 x2 x3 => Sys2Proof.Machine.execVfabs x0 x1 x2 x3 s
  | .vfneg x0 x1 x2 x3 => Sys2Proof.Machine.execVfneg x0 x1 x2 x3 s
  | .vrcp x0 x1 x2 x3 => Sys2Proof.Machine.execVrcp x0 x1 x2 x3 s
  | .vrsq x0 x1 x2 x3 => Sys2Proof.Machine.execVrsq x0 x1 x2 x3 s
  | .vexp2 x0 x1 x2 x3 => Sys2Proof.Machine.execVexp2 x0 x1 x2 x3 s
  | .vlog2 x0 x1 x2 x3 => Sys2Proof.Machine.execVlog2 x0 x1 x2 x3 s
  | .vfrnd x0 x1 x2 x3 => Sys2Proof.Machine.execVfrnd x0 x1 x2 x3 s
  | .vceq x0 x1 x2 x3 x4 => Sys2Proof.Machine.execVceq x0 x1 x2 x3 x4 s
  | .vcne x0 x1 x2 x3 x4 => Sys2Proof.Machine.execVcne x0 x1 x2 x3 x4 s
  | .vclt x0 x1 x2 x3 x4 => Sys2Proof.Machine.execVclt x0 x1 x2 x3 x4 s
  | .vcle x0 x1 x2 x3 x4 => Sys2Proof.Machine.execVcle x0 x1 x2 x3 x4 s
  | .vcltn x0 x1 x2 x3 x4 => Sys2Proof.Machine.execVcltn x0 x1 x2 x3 x4 s
  | .vclen x0 x1 x2 x3 x4 => Sys2Proof.Machine.execVclen x0 x1 x2 x3 x4 s
  | .vfceq x0 x1 x2 x3 x4 => Sys2Proof.Machine.execVfceq x0 x1 x2 x3 x4 s
  | .vfclt x0 x1 x2 x3 x4 => Sys2Proof.Machine.execVfclt x0 x1 x2 x3 x4 s
  | .vfcle x0 x1 x2 x3 x4 => Sys2Proof.Machine.execVfcle x0 x1 x2 x3 x4 s
  | .vfcun x0 x1 x2 x3 x4 => Sys2Proof.Machine.execVfcun x0 x1 x2 x3 x4 s
  | .vld x0 x1 x2 => Sys2Proof.Machine.execVld x0 x1 x2 s
  | .vst x0 x1 x2 => Sys2Proof.Machine.execVst x0 x1 x2 s
  | .vlds x0 x1 x2 x3 => Sys2Proof.Machine.execVlds x0 x1 x2 x3 s
  | .vsts x0 x1 x2 x3 => Sys2Proof.Machine.execVsts x0 x1 x2 x3 s
  | .vgath x0 x1 x2 x3 x4 => Sys2Proof.Machine.execVgath x0 x1 x2 x3 x4 s
  | .vscat x0 x1 x2 x3 x4 => Sys2Proof.Machine.execVscat x0 x1 x2 x3 x4 s
  | .vldf x0 x1 x2 => Sys2Proof.Machine.execVldf x0 x1 x2 s
  | .vstp x0 x1 x2 => Sys2Proof.Machine.execVstp x0 x1 x2 s
  | .vldb x0 x1 x2 => Sys2Proof.Machine.execVldb x0 x1 x2 s
  | .vperm x0 x1 x2 x3 x4 => Sys2Proof.Machine.execVperm x0 x1 x2 x3 x4 s
  | .vredadd x0 x1 x2 x3 => Sys2Proof.Machine.execVredadd x0 x1 x2 x3 s
  | .vredmin x0 x1 x2 x3 => Sys2Proof.Machine.execVredmin x0 x1 x2 x3 s
  | .vredmax x0 x1 x2 x3 => Sys2Proof.Machine.execVredmax x0 x1 x2 x3 s
  | .vfredadd x0 x1 x2 x3 => Sys2Proof.Machine.execVfredadd x0 x1 x2 x3 s
  | .vscan x0 x1 x2 x3 => Sys2Proof.Machine.execVscan x0 x1 x2 x3 s
  | .vcompr x0 x1 x2 x3 => Sys2Proof.Machine.execVcompr x0 x1 x2 x3 s
  | .vexpd x0 x1 x2 x3 => Sys2Proof.Machine.execVexpd x0 x1 x2 x3 s
  | .vslide x0 x1 x2 x3 x4 => Sys2Proof.Machine.execVslide x0 x1 x2 x3 x4 s
  | .vbcast x0 x1 x2 x3 => Sys2Proof.Machine.execVbcast x0 x1 x2 x3 s
  | .vins x0 x1 x2 => Sys2Proof.Machine.execVins x0 x1 x2 s
  | .vext x0 x1 x2 => Sys2Proof.Machine.execVext x0 x1 x2 s
  | .vmovp x0 x1 x2 => Sys2Proof.Machine.execVmovp x0 x1 x2 s
  | .vcvt x0 x1 x2 x3 x4 => Sys2Proof.Machine.execVcvt x0 x1 x2 x3 x4 s
  | .vexpn x0 x1 x2 x3 x4 => Sys2Proof.Machine.execVexpn x0 x1 x2 x3 x4 s
  | .vqnt x0 x1 x2 x3 x4 => Sys2Proof.Machine.execVqnt x0 x1 x2 x3 x4 s
  | .vpack x0 x1 x2 x3 x4 => Sys2Proof.Machine.execVpack x0 x1 x2 x3 x4 s
  | .vunpk x0 x1 x2 x3 x4 => Sys2Proof.Machine.execVunpk x0 x1 x2 x3 x4 s
  | .visect x0 x1 x2 => Sys2Proof.Machine.execVisect x0 x1 x2 s
  | .vunion x0 x1 x2 => Sys2Proof.Machine.execVunion x0 x1 x2 s
  | .vdiff x0 x1 x2 => Sys2Proof.Machine.execVdiff x0 x1 x2 s
  | .fadd x0 x1 x2 x3 => Sys2Proof.Machine.execFadd x0 x1 x2 x3 s
  | .fsub x0 x1 x2 x3 => Sys2Proof.Machine.execFsub x0 x1 x2 x3 s
  | .fmul x0 x1 x2 x3 => Sys2Proof.Machine.execFmul x0 x1 x2 x3 s
  | .fdiv x0 x1 x2 x3 => Sys2Proof.Machine.execFdiv x0 x1 x2 x3 s
  | .fsqrt x0 x1 x2 => Sys2Proof.Machine.execFsqrt x0 x1 x2 s
  | .fmin x0 x1 x2 x3 => Sys2Proof.Machine.execFmin x0 x1 x2 x3 s
  | .fmax x0 x1 x2 x3 => Sys2Proof.Machine.execFmax x0 x1 x2 x3 s
  | .fabs x0 x1 x2 => Sys2Proof.Machine.execFabs x0 x1 x2 s
  | .fneg x0 x1 x2 => Sys2Proof.Machine.execFneg x0 x1 x2 s
  | .fma x0 x1 x2 x3 => Sys2Proof.Machine.execFma x0 x1 x2 x3 s
  | .fcvti x0 x1 x2 => Sys2Proof.Machine.execFcvti x0 x1 x2 s
  | .fcvtf x0 x1 x2 => Sys2Proof.Machine.execFcvtf x0 x1 x2 s
  | .fceq32 x0 x1 x2 => Sys2Proof.Machine.execFceq32 x0 x1 x2 s
  | .fclt32 x0 x1 x2 => Sys2Proof.Machine.execFclt32 x0 x1 x2 s
  | .fcle32 x0 x1 x2 => Sys2Proof.Machine.execFcle32 x0 x1 x2 s
  | .fcun32 x0 x1 x2 => Sys2Proof.Machine.execFcun32 x0 x1 x2 s
  | .fceq64 x0 x1 x2 => Sys2Proof.Machine.execFceq64 x0 x1 x2 s
  | .fclt64 x0 x1 x2 => Sys2Proof.Machine.execFclt64 x0 x1 x2 s
  | .fcle64 x0 x1 x2 => Sys2Proof.Machine.execFcle64 x0 x1 x2 s
  | .fcun64 x0 x1 x2 => Sys2Proof.Machine.execFcun64 x0 x1 x2 s
  | .f32to64 x0 x1 => Sys2Proof.Machine.execF32to64 x0 x1 s
  | .f64to32 x0 x1 => Sys2Proof.Machine.execF64to32 x0 x1 s
  | .f32toh16 x0 x1 => Sys2Proof.Machine.execF32toh16 x0 x1 s
  | .h16tof32 x0 x1 => Sys2Proof.Machine.execH16tof32 x0 x1 s
  | .f32tobf x0 x1 => Sys2Proof.Machine.execF32tobf x0 x1 s
  | .bftof32 x0 x1 => Sys2Proof.Machine.execBftof32 x0 x1 s
  | .fclass32 x0 x1 => Sys2Proof.Machine.execFclass32 x0 x1 s
  | .fclass64 x0 x1 => Sys2Proof.Machine.execFclass64 x0 x1 s
  | .tret => Sys2Proof.Machine.execTret s
  | .evict x0 x1 => Sys2Proof.Machine.execEvict x0 x1 s
  | .rstrResume x0 x1 => Sys2Proof.Machine.execRstrResume x0 x1 s
  | .rstrHandle x0 x1 => Sys2Proof.Machine.execRstrHandle x0 x1 s
  | .rstrKill x0 x1 => Sys2Proof.Machine.execRstrKill x0 x1 s
  | .halt => Sys2Proof.Machine.execHalt s
  | .idle => Sys2Proof.Machine.execIdle s
  | .invpg x0 => Sys2Proof.Machine.execInvpg x0 s
  | .pmarkDead x0 => Sys2Proof.Machine.execPmarkDead x0 s
  | .pmarkLive x0 => Sys2Proof.Machine.execPmarkLive x0 s
  | .shutOff x0 => Sys2Proof.Machine.execShutOff x0 s
  | .shutOn x0 => Sys2Proof.Machine.execShutOn x0 s
  | .jdrop x0 x1 => Sys2Proof.Machine.execJdrop x0 x1 s
  | .cfgh x0 x1 x2 => Sys2Proof.Machine.execCfgh x0 x1 x2 s
  | .domsw => Sys2Proof.Machine.execDomsw s
  | .fqpop x0 => Sys2Proof.Machine.execFqpop x0 s
  | .trap x0 => Sys2Proof.Machine.execTrap x0 s
  | .mzero x0 x1 => Sys2Proof.Machine.execMzero x0 x1 s
  | .mdrain x0 x1 x2 => Sys2Proof.Machine.execMdrain x0 x1 x2 s
  | .mwait x0 x1 => Sys2Proof.Machine.execMwait x0 x1 s
  | .mpoll x0 x1 => Sys2Proof.Machine.execMpoll x0 x1 s
  | .mring x0 x1 => Sys2Proof.Machine.execMring x0 x1 s
  | .mstat x0 => Sys2Proof.Machine.execMstat x0 s
  | .xjoin x0 x1 => Sys2Proof.Machine.execXjoin x0 x1 s
  | .xleave x0 => Sys2Proof.Machine.execXleave x0 s
  | .xstat x0 x1 => Sys2Proof.Machine.execXstat x0 x1 s
  | .xwait x0 x1 => Sys2Proof.Machine.execXwait x0 x1 s
  | .mma x0 x1 x2 x3 x4 => Sys2Proof.Machine.execMma x0 x1 x2 x3 x4 s
  | .mmag x0 x1 x2 x3 => Sys2Proof.Machine.execMmag x0 x1 x2 x3 s
  | .mmat x0 x1 x2 x3 x4 => Sys2Proof.Machine.execMmat x0 x1 x2 x3 x4 s
  | .xmmaChain x0 x1 x2 x3 x4 => Sys2Proof.Machine.execXmmaChain x0 x1 x2 x3 x4 s
  | .xmmaRing x0 x1 x2 x3 x4 => Sys2Proof.Machine.execXmmaRing x0 x1 x2 x3 x4 s
  | .lcopyCopy x0 x1 x2 x3 x4 => Sys2Proof.Machine.execLcopyCopy x0 x1 x2 x3 x4 s
  | .lcopyFill x0 x1 x2 x3 x4 => Sys2Proof.Machine.execLcopyFill x0 x1 x2 x3 x4 s
  | .lcopyReduce x0 x1 x2 x3 x4 => Sys2Proof.Machine.execLcopyReduce x0 x1 x2 x3 x4 s
  | .lcopyGather x0 x1 x2 x3 x4 => Sys2Proof.Machine.execLcopyGather x0 x1 x2 x3 x4 s
  | .qtile x0 x1 x2 x3 x4 x5 => Sys2Proof.Machine.execQtile x0 x1 x2 x3 x4 x5 s
  | .asyncTrapEntry x0 x1 => Sys2Proof.Machine.execAsyncTrapEntry x0 x1 s
  | .coreCycle x0 => Sys2Proof.Machine.execCoreCycle x0 s
  | .putWindowWrite x0 x1 x2 x3 x4 => Sys2Proof.Machine.execPutWindowWrite x0 x1 x2 x3 x4 s
  | .deviceMemoryRead x0 x1 x2 => Sys2Proof.Machine.execDeviceMemoryRead x0 x1 x2 s
  | .deviceMemoryWrite x0 x1 x2 x3 => Sys2Proof.Machine.execDeviceMemoryWrite x0 x1 x2 x3 s
  | .completerAtomicop x0 x1 x2 => Sys2Proof.Machine.execCompleterAtomicop x0 x1 x2 s
  | .qstatWrite x0 x1 x2 => Sys2Proof.Machine.execQstatWrite x0 x1 x2 s
  | .registerWrite x0 x1 x2 => Sys2Proof.Machine.execRegisterWrite x0 x1 x2 s
  | .queueSet x0 => Sys2Proof.Machine.execQueueSet x0 s
  | .domainBind x0 x1 => Sys2Proof.Machine.execDomainBind x0 x1 s
  | .domainUnbind x0 => Sys2Proof.Machine.execDomainUnbind x0 s
  | .gangAbort x0 => Sys2Proof.Machine.execGangAbort x0 s
  | .svcControl x0 => Sys2Proof.Machine.execSvcControl x0 s
  | .svcAnswer x0 => Sys2Proof.Machine.execSvcAnswer x0 s
  | .svcPop x0 => Sys2Proof.Machine.execSvcPop x0 s
  | .logRead x0 => Sys2Proof.Machine.execLogRead x0 s
  | .powerCap x0 => Sys2Proof.Machine.execPowerCap x0 s
  | .attest x0 => Sys2Proof.Machine.execAttest x0 s
  | .identity x0 => Sys2Proof.Machine.execIdentity x0 s
  | .fwStage x0 => Sys2Proof.Machine.execFwStage x0 s
  | .fwCommit x0 x1 x2 => Sys2Proof.Machine.execFwCommit x0 x1 x2 s
  | .lifecycle x0 x1 => Sys2Proof.Machine.execLifecycle x0 x1 s
  | .mailboxCommandDone x0 => Sys2Proof.Machine.execMailboxCommandDone x0 s
  | .d3hotEntry x0 => Sys2Proof.Machine.execD3hotEntry x0 s
  | .d3hotExit x0 => Sys2Proof.Machine.execD3hotExit x0 s
  | .functionLevelReset x0 => Sys2Proof.Machine.execFunctionLevelReset x0 s
  | .hotReset x0 => Sys2Proof.Machine.execHotReset x0 s
  | .fundamentalReset x0 => Sys2Proof.Machine.execFundamentalReset x0 s
  | .moduleBoot x0 x1 => Sys2Proof.Machine.execModuleBoot x0 x1 s
  | .bootSeal x0 => Sys2Proof.Machine.execBootSeal x0 s
  | .bootResult x0 => Sys2Proof.Machine.execBootResult x0 s
  | .hostCompletion x0 x1 x2 x3 => Sys2Proof.Machine.execHostCompletion x0 x1 x2 x3 s
  | .hostCompletionTimeout x0 x1 x2 => Sys2Proof.Machine.execHostCompletionTimeout x0 x1 x2 s
  | .launchSlotTake x0 x1 => Sys2Proof.Machine.execLaunchSlotTake x0 x1 s
  | .launchRefusalPut x0 x1 => Sys2Proof.Machine.execLaunchRefusalPut x0 x1 s
  | .launchQueueFault x0 x1 => Sys2Proof.Machine.execLaunchQueueFault x0 x1 s
  | .dispatch x0 => Sys2Proof.Machine.execDispatch x0 s
  | .launchComplete x0 x1 => Sys2Proof.Machine.execLaunchComplete x0 x1 s
  | .spawnQueuePlace x0 => Sys2Proof.Machine.execSpawnQueuePlace x0 s
  | .schedulerEvict x0 => Sys2Proof.Machine.execSchedulerEvict x0 s
  | .contextRestore x0 => Sys2Proof.Machine.execContextRestore x0 s
  | .messageArrival x0 => Sys2Proof.Machine.execMessageArrival x0 s
  | .migrationLanding x0 => Sys2Proof.Machine.execMigrationLanding x0 s
  | .migrationAck x0 => Sys2Proof.Machine.execMigrationAck x0 s
  | .serviceThreadStart x0 x1 => Sys2Proof.Machine.execServiceThreadStart x0 x1 s
  | .homeAccessRequest x0 x1 => Sys2Proof.Machine.execHomeAccessRequest x0 x1 s
  | .memoryReply x0 => Sys2Proof.Machine.execMemoryReply x0 s
  | .journalEntrySettle x0 => Sys2Proof.Machine.execJournalEntrySettle x0 s
  | .refreshRetryResend x0 x1 => Sys2Proof.Machine.execRefreshRetryResend x0 x1 s
  | .noListResend x0 x1 => Sys2Proof.Machine.execNoListResend x0 x1 s
  | .scRetryResend x0 x1 => Sys2Proof.Machine.execScRetryResend x0 x1 s
  | .shutterRetryResend x0 x1 => Sys2Proof.Machine.execShutterRetryResend x0 x1 s
  | .wlimExpiry x0 x1 => Sys2Proof.Machine.execWlimExpiry x0 x1 s
  | .waitCancel x0 => Sys2Proof.Machine.execWaitCancel x0 s
  | .translationWalkDone x0 => Sys2Proof.Machine.execTranslationWalkDone x0 s
  | .dramRefresh x0 x1 x2 x3 => Sys2Proof.Machine.execDramRefresh x0 x1 x2 x3 s
  | .refreshRateChange x0 x1 x2 => Sys2Proof.Machine.execRefreshRateChange x0 x1 x2 s
  | .scrubWord x0 x1 x2 x3 x4 => Sys2Proof.Machine.execScrubWord x0 x1 x2 x3 x4 s
  | .linkPacketReceive x0 => Sys2Proof.Machine.execLinkPacketReceive x0 s
  | .linkPortClose x0 x1 => Sys2Proof.Machine.execLinkPortClose x0 x1 s
  | .gangTimerExpiry x0 x1 => Sys2Proof.Machine.execGangTimerExpiry x0 x1 s
  | .gangPrepare x0 => Sys2Proof.Machine.execGangPrepare x0 s
  | .gangPreparedReply x0 => Sys2Proof.Machine.execGangPreparedReply x0 s
  | .gangCommit x0 x1 => Sys2Proof.Machine.execGangCommit x0 x1 s
  | .gangSwitchAbort x0 => Sys2Proof.Machine.execGangSwitchAbort x0 s
  | .gangDone x0 => Sys2Proof.Machine.execGangDone x0 s
  | .flaskJoinRequest x0 => Sys2Proof.Machine.execFlaskJoinRequest x0 s
  | .flaskJoinReply x0 => Sys2Proof.Machine.execFlaskJoinReply x0 s
  | .flaskWithdraw x0 => Sys2Proof.Machine.execFlaskWithdraw x0 s
  | .flaskPourAccept x0 => Sys2Proof.Machine.execFlaskPourAccept x0 s
  | .flaskReadyReceipt x0 => Sys2Proof.Machine.execFlaskReadyReceipt x0 s
  | .flaskFaultReceipt x0 => Sys2Proof.Machine.execFlaskFaultReceipt x0 s
  | .flaskGoReceipt x0 => Sys2Proof.Machine.execFlaskGoReceipt x0 s
  | .flaskMismatchReceipt x0 => Sys2Proof.Machine.execFlaskMismatchReceipt x0 s
  | .flaskAbortReceipt x0 => Sys2Proof.Machine.execFlaskAbortReceipt x0 s
  | .flaskPartialReceipt x0 => Sys2Proof.Machine.execFlaskPartialReceipt x0 s
  | .flaskPanelReceipt x0 => Sys2Proof.Machine.execFlaskPanelReceipt x0 s
  | .flaskFinishedReceipt x0 => Sys2Proof.Machine.execFlaskFinishedReceipt x0 s
  | .flaskDecide x0 => Sys2Proof.Machine.execFlaskDecide x0 s
  | .flaskCommitReceipt x0 => Sys2Proof.Machine.execFlaskCommitReceipt x0 s
  | .flaskLinkLoss x0 => Sys2Proof.Machine.execFlaskLinkLoss x0 s
  | .flaskLeaveReceipt x0 => Sys2Proof.Machine.execFlaskLeaveReceipt x0 s
  | .flaskOutcomeQuery x0 => Sys2Proof.Machine.execFlaskOutcomeQuery x0 s
  | .ladleChunkIssue x0 x1 => Sys2Proof.Machine.execLadleChunkIssue x0 x1 s
  | .ladleChunkComplete x0 x1 x2 => Sys2Proof.Machine.execLadleChunkComplete x0 x1 x2 s
  | .ladleDataFault x0 x1 => Sys2Proof.Machine.execLadleDataFault x0 x1 s
  | .ladleCompletionPut x0 x1 => Sys2Proof.Machine.execLadleCompletionPut x0 x1 s
  | .ladleCtlRequest x0 => Sys2Proof.Machine.execLadleCtlRequest x0 s
  | .matrixAccept x0 => Sys2Proof.Machine.execMatrixAccept x0 s
  | .matrixJobStart x0 x1 => Sys2Proof.Machine.execMatrixJobStart x0 x1 s
  | .ringSlotConsume x0 x1 => Sys2Proof.Machine.execRingSlotConsume x0 x1 s
  | .matrixJobCommit x0 x1 => Sys2Proof.Machine.execMatrixJobCommit x0 x1 s
  | .matrixJobFault x0 x1 => Sys2Proof.Machine.execMatrixJobFault x0 x1 s
  | .mdrainMessageSend x0 x1 => Sys2Proof.Machine.execMdrainMessageSend x0 x1 s
  | .allAsleepRise x0 x1 => Sys2Proof.Machine.execAllAsleepRise x0 x1 s
  | .asleepReceipt x0 => Sys2Proof.Machine.execAsleepReceipt x0 s
  | .allAsleepQuery x0 => Sys2Proof.Machine.execAllAsleepQuery x0 s
  | .allAsleepReply x0 => Sys2Proof.Machine.execAllAsleepReply x0 s
  | .allAsleepRaise x0 => Sys2Proof.Machine.execAllAsleepRaise x0 s
  | .junctionOver105 x0 => Sys2Proof.Machine.execJunctionOver105 x0 s
  | .junctionOver115 x0 => Sys2Proof.Machine.execJunctionOver115 x0 s
  | .powerCapClockStep x0 x1 => Sys2Proof.Machine.execPowerCapClockStep x0 x1 s
  | .linkPortDegrade x0 x1 x2 x3 => Sys2Proof.Machine.execLinkPortDegrade x0 x1 x2 x3 s
  | .qtileQuantiserDone x0 x1 => Sys2Proof.Machine.execQtileQuantiserDone x0 x1 s
  | .configurationWrite x0 x1 x2 => Sys2Proof.Machine.execConfigurationWrite x0 x1 x2 s

end Sys2Proof.Machine
end

