-- ==== Sys2Proof/Machine/Step.lean ====
section
/-!
DEFINITION. One step of the machine (log entry 1): the instruction that the chosen thread issues, the next step on the agenda,
or a step that the part takes by itself; each ends with the all-asleep trees' falls counted (14 R351). Noncomputable only because it builds instructions beyond the 245th constructor.
-/
namespace Sys2Proof.Machine

/-- One step. -/
noncomputable def step (s : State) : Host.Outcome State Fault Refusal :=
  if s.issuing then
    match s.issueNow with
    | .done t => settle (.next t)
    | .run i t => settle (exec i t)
  else
    match s.nextStep with
    | (none, t) => settle (.next t)
    | (some i, t) => settle (exec i t)

/-- The state with an instruction placed where the next step fetches it (log entry 6): in the fetch buffers of the current
slot, which issues next. -/
def State.withFetchWord (s : State) (_nbits w : Nat) : State :=
  { s.onThr (fun t => t.toIssue.withWords (field w 0 32) (field w 32 32)) with issuing := true }

end Sys2Proof.Machine
end

