-- ==== Sys2Proof/Safety.lean ====
section
/-!
DEFINITION. The vocabulary of the statements: which registers an instruction names, which mode and prefix it needs (05 R106, R112, R113),
what an instruction may write, what it leaves (the frames), and what a safe run is.
-/
namespace Sys2Proof

open Machine

/-- The eight registers of a vector group (05 R106). -/
def Grp.regs (g : Grp) : List Nat := (List.range 8).map fun i => 8 * g.val + i

/-- The registers that an instruction names (05 R106). -/
def Instr.named : Instr → List Nat
  | .add d s t | .sub d s t | .mul d s t | .mulh d s t | .mulhn d s t | .div d s t | .divn d s t | .rem d s t |
  .remn d s t | .and d s t | .or d s t | .xor d s t | .andn d s t | .shl d s t | .shr d s t | .shra d s t |
  .rotl d s t | .min d s t | .max d s t | .minn d s t | .maxn d s t | .lea2 d s t | .lea4 d s t | .lea8 d s t |
  .addw d s t | .mulw d s t | .absd d s t | .sel d s t _ | .aadd _ d s t | .aand _ d s t | .aor _ d s t |
  .axor _ d s t | .amin _ d s t | .amax _ d s t | .aminn _ d s t | .amaxn _ d s t | .axchg _ d s t |
  .aincw _ d s t | .afadd _ d s t | .afmin _ d s t | .afmax _ d s t | .acas64 d s t | .acas32 d s t | .waitv d s t |
  .waken d s t | .spawnf d s t | .fadd _ d s t | .fsub _ d s t | .fmul _ d s t | .fdiv _ d s t | .fmin _ d s t |
  .fmax _ d s t | .fma _ d s t | .cfgh d s t => [d.val, s.val, t.val]
  | .mdrain d s t => [d.val, s.val, t.val, t.val + 1]
  | .acas128 d s t => [d.val, d.val + 1, s.val, t.val, t.val + 1]
  | .clz d s | .ctz d s | .popc d s | .brev d s | .bswap d s | .addi d s _ | .andi d s _ | .ori d s _ | .xori d s _ |
  .shli d s _ | .shri d s _ | .shrai d s _ | .rotli d s _ | .bfx d s _ _ | .bfxs d s _ _ | .bfi d s _ _ | .ld d s _ _ |
  .st d s _ _ | .ldf d s _ | .ldt d s _ | .stp d s _ | .stf d s _ | .probe d s | .livem d s _ | .adecp _ d s |
  .wake1 d s | .wakea d s | .fsqrt _ d s | .fabs _ d s | .fneg _ d s | .fcvti _ d s | .fcvtf _ d s |
  .f32to64 d s | .f64to32 d s | .f32toh16 d s | .h16tof32 d s | .f32tobf d s | .bftof32 d s | .fclass32 d s |
  .fclass64 d s | .evict d s | .rstrResume d s | .rstrHandle d s | .rstrKill d s | .jdrop d s | .mring d s |
  .xjoin d s | .mzero d s => [d.val, s.val]
  | .lstat d s | .mwait d s | .mpoll d s | .xstat d s | .xwait d s => [d.val, d.val + 1, s.val]
  | .cmpeq _ s t | .cmpne _ s t | .cmplt _ s t | .cmple _ s t | .cmpltn _ s t | .cmplen _ s t | .tstnz _ s t |
  .tstz _ s t | .aaddP _ s t | .aandP _ s t | .aorP _ s t | .axorP _ s t | .aminP _ s t | .amaxP _ s t |
  .aminnP _ s t | .amaxnP _ s t | .axchgP _ s t | .aincwP _ s t | .afaddP _ s t | .afminP _ s t | .afmaxP _ s t |
  .spawn s t | .fceq32 _ s t | .fclt32 _ s t | .fcle32 _ s t | .fcun32 _ s t | .fceq64 _ s t | .fclt64 _ s t |
  .fcle64 _ s t | .fcun64 _ s t => [s.val, t.val]
  | .cmpeqi _ s _ | .cmpnei _ s _ | .cmplti _ s _ | .cmplei _ s _ | .cmpgti _ s _ | .cmpgei _ s _ | .cmpltni _ s _ |
  .cmpleni _ s _ | .cmpgtni _ s _ | .cmpgeni _ s _ | .bz s _ | .bnz s _ | .jr s | .jrl s | .fdset _ s | .sete s |
  .setf s | .waitf s | .waite s | .pref s | .migr s | .touch s _ | .rabort s | .adecpP _ s | .lresume s | .lcancel s |
  .tend s | .swr s _ | .invpg s | .pmarkDead s | .pmarkLive s | .shutOff s | .shutOn s | .vmovp s _ _ => [s.val]
  | .movi d _ | .movs d _ | .fdget d _ | .rbegin d | .srd d _ | .mstat d => [d.val]
  | .tself d => [d.val, d.val + 1]
  | .fqpop d => (List.range 8).map (d.val + ·)
  | .send n s t => s.val :: (List.range n.val).map (t.val + ·)
  | .pand _ _ _ | .por _ _ _ | .pxor _ _ _ | .pandn _ _ _ | .pnot _ _ | .pmov _ _ | .pall _ | .pnone _ | .br _ |
  .call _ | .bp _ _ | .bnp _ _ | .ret | .nop | .yield | .brk | .fmtp _ _ _ | .fence _ | .jsync | .rcommit | .tret |
  .halt | .idle | .domsw | .trap _ | .xleave _ => []
  | .vadd d s t _ _ | .vsub d s t _ _ | .vmul d s t _ _ | .vmulh d s t _ _ | .vmin d s t _ _ | .vmax d s t _ _ |
  .vand d s t _ _ | .vor d s t _ _ | .vxor d s t _ _ | .vshl d s t _ _ | .vshr d s t _ _ | .vshra d s t _ _ |
  .vsadd d s t _ _ | .vssub d s t _ _ | .vmadd d s t _ _ | .vsel d s t _ _ | .vfadd d s t _ _ | .vfsub d s t _ _ |
  .vfmul d s t _ _ | .vfma d s t _ _ | .vfdiv d s t _ _ | .vfmin d s t _ _ | .vfmax d s t _ _ | .vperm d s t _ _ |
  .vslide d s t _ _ | .vexpn d s t _ _ | .vqnt d s t _ _ | .vpack d s t _ _ => d.regs ++ s.regs ++ t.regs
  | .vabs d s _ _ | .vneg d s _ _ | .vpopc d s _ _ | .vclz d s _ _ | .vfsqrt d s _ _ | .vfabs d s _ _ |
  .vfneg d s _ _ | .vrcp d s _ _ | .vrsq d s _ _ | .vexp2 d s _ _ | .vlog2 d s _ _ | .vfrnd d s _ _ |
  .vredadd d s _ _ | .vredmin d s _ _ | .vredmax d s _ _ | .vfredadd d s _ _ | .vscan d s _ _ | .vcompr d s _ _ |
  .vexpd d s _ _ | .vcvt d s _ _ _ | .vunpk d s _ _ _ => d.regs ++ s.regs
  | .vceq _ s t _ _ | .vcne _ s t _ _ | .vclt _ s t _ _ | .vcle _ s t _ _ | .vcltn _ s t _ _ | .vclen _ s t _ _ |
  .vfceq _ s t _ _ | .vfclt _ s t _ _ | .vfcle _ s t _ _ | .vfcun _ s t _ _ => s.regs ++ t.regs
  | .vld d s _ | .vst d s _ | .vldf d s _ | .vstp d s _ | .vldb d s _ | .vbcast d s _ _ => d.regs ++ [s.val]
  | .vlds d s t _ | .vsts d s t _ | .vins d s t | .vext d s t => d.regs ++ [s.val, t.val]
  | .vgath d s v _ _ | .vscat d s v _ _ => d.regs ++ [s.val] ++ v.regs
  | .visect d s t | .vunion d s t | .vdiff d s t =>
    d.regs ++ [s.val, s.val + 1, s.val + 2, s.val + 3, s.val + 4, t.val]
  | .mma d s t q _ | .mmat d s t q _ | .xmmaChain d s t q _ | .xmmaRing d s t q _ | .lcopyCopy d s t q _ |
  .lcopyFill d s t q _ | .lcopyReduce d s t q _ | .lcopyGather d s t q _ | .qtile d s t q _ _ =>
    [d.val, s.val, t.val, q.val]
  | .mmag d s q _ => [d.val, s.val, q.val]
  | _ => []

/-- Whether an instruction needs K = 1 (05 R112 step 4): SYS, and SRD and SWR of the numbers from 0x100 up. -/
def Instr.privileged : Instr → Bool
  | .tret | .evict _ _ | .rstrResume _ _ | .rstrHandle _ _ | .rstrKill _ _ | .halt | .idle | .invpg _ | .pmarkDead _ |
  .pmarkLive _ | .shutOff _ | .shutOn _ | .jdrop _ _ | .cfgh _ _ _ | .domsw | .fqpop _ => true
  | .srd _ r | .swr _ r => decide (0x100 ≤ r.toNat)
  | _ => false

/-- Whether an instruction may stand after FMTP (05 R113): a prefix consumer, or SRD, SWR or TRET. -/
def Instr.afterPrefix : Instr → Bool
  | .vadd _ _ _ _ y | .vsub _ _ _ _ y | .vmul _ _ _ _ y | .vmulh _ _ _ _ y | .vmin _ _ _ _ y | .vmax _ _ _ _ y |
  .vand _ _ _ _ y | .vor _ _ _ _ y | .vxor _ _ _ _ y | .vshl _ _ _ _ y | .vshr _ _ _ _ y | .vshra _ _ _ _ y |
  .vsadd _ _ _ _ y | .vssub _ _ _ _ y | .vmadd _ _ _ _ y | .vsel _ _ _ _ y | .vfadd _ _ _ _ y | .vfsub _ _ _ _ y |
  .vfmul _ _ _ _ y | .vfma _ _ _ _ y | .vfdiv _ _ _ _ y | .vfmin _ _ _ _ y | .vfmax _ _ _ _ y | .vperm _ _ _ _ y |
  .vslide _ _ _ _ y | .vabs _ _ _ y | .vneg _ _ _ y | .vpopc _ _ _ y | .vclz _ _ _ y | .vfsqrt _ _ _ y |
  .vfabs _ _ _ y | .vfneg _ _ _ y | .vrcp _ _ _ y | .vrsq _ _ _ y | .vexp2 _ _ _ y | .vlog2 _ _ _ y |
  .vfrnd _ _ _ y | .vredadd _ _ _ y | .vredmin _ _ _ y | .vredmax _ _ _ y | .vfredadd _ _ _ y | .vscan _ _ _ y |
  .vcompr _ _ _ y | .vexpd _ _ _ y | .vceq _ _ _ _ y | .vcne _ _ _ _ y | .vclt _ _ _ _ y | .vcle _ _ _ _ y |
  .vcltn _ _ _ _ y | .vclen _ _ _ _ y | .vfceq _ _ _ _ y | .vfclt _ _ _ _ y | .vfcle _ _ _ _ y | .vfcun _ _ _ _ y =>
    y == .x8
  | .vcvt _ _ _ _ _ | .vexpn _ _ _ _ _ | .vqnt _ _ _ _ _ | .vpack _ _ _ _ _ | .vunpk _ _ _ _ _ | .qtile _ _ _ _ _ _ |
  .srd _ _ | .swr _ _ | .tret => true
  | _ => false

/-- The issuing thread passes steps 4 to 6 of 05 R112 for an instruction: its mode, no pending prefix that the instruction may not
follow, every register that it names in the window. -/
def Machine.State.admits (s : State) (i : Instr) : Prop :=
  (i.privileged = true → s.thr.k = true) ∧ (i.afterPrefix = false → s.thr.pp = false) ∧ ∀ r ∈ i.named, r < s.thr.win

/-! Frames. -/

/-- What an instruction that stays in its core leaves: every other part of the state, every other core, everything of its core but the
register file and the slots, and the other slots. -/
def Machine.State.keepsOthers (s t : State) : Prop :=
  t = { s with cores := t.cores } ∧ (∀ c, c ≠ s.cur.1 → t.core c = s.core c) ∧
  t.core s.cur.1 = { s.core s.cur.1 with rf := (t.core s.cur.1).rf, slots := (t.core s.cur.1).slots } ∧
  ∀ k, k ≠ s.cur.2 → t.thread s.cur.1 k = s.thread s.cur.1 k

/-- Every register-file entry of the issuing core but those of the registers `ds` of the thread's window (06 R133). -/
def Machine.State.keepsRegs (s t : State) (ds : List Nat) : Prop :=
  ∀ k, k ∉ ds.map (s.thr.base + ·) → Tab.get 0 (t.core s.cur.1).rf k = Tab.get 0 (s.core s.cur.1).rf k

/-- Every byte of memory. -/
def Machine.State.keepsMemory (s t : State) : Prop := ∀ a, t.mem.byte a = s.mem.byte a

/-- What an instruction may write of its thread: general registers, predicates, format registers, bits of TSW, and the rest by name. -/
structure Writes where
  regs : List Nat
  preds : List Nat
  fds : List Nat
  tsw : Word
  live : Bool
  yields : Bool

/-- The issuing thread but for what `w` names and for the pc; a completed instruction holds nothing of its issue any more. -/
def Machine.State.keepsThread (s t : State) (w : Writes) : Prop :=
  t.thr = { s.thr with
    pc := t.thr.pc, preds := t.thr.preds, fds := t.thr.fds, tsw := t.thr.tsw, live0 := t.thr.live0, live1 := t.thr.live1,
    yield := t.thr.yield, issue0 := none, gathered := [] } ∧
  (∀ n, n ∉ w.preds → t.p n = s.p n) ∧ (∀ n, n ∉ w.fds → t.thr.fd n = s.thr.fd n) ∧
  t.thr.tsw &&& ~~~w.tsw = s.thr.tsw &&& ~~~w.tsw ∧
  (w.live = false → t.thr.live0 = s.thr.live0 ∧ t.thr.live1 = s.thr.live1) ∧ (w.yields = false → t.thr.yield = s.thr.yield)

/-- The frame of an instruction that stays in its core. -/
def Machine.State.frame (s t : State) (w : Writes) : Prop :=
  s.keepsOthers t ∧ s.keepsRegs t w.regs ∧ s.keepsMemory t ∧ s.keepsThread t w

/-- The sticky flags of TSW (06 R139). -/
def flagBits : Word := 0x1FC0000

/-- The instructions that reach nothing but their thread's registers and go on at the next word, with what they write (06 R143 to
R149, R152; 05 R115; 08 R186, R187, R209 to R211). -/
def Instr.scalarWrites : Instr → Option Writes
  | .add d _ _ | .sub d _ _ | .mul d _ _ | .mulh d _ _ | .mulhn d _ _ | .div d _ _ | .divn d _ _ | .rem d _ _ |
  .remn d _ _ | .and d _ _ | .or d _ _ | .xor d _ _ | .andn d _ _ | .shl d _ _ | .shr d _ _ | .shra d _ _ |
  .rotl d _ _ | .min d _ _ | .max d _ _ | .minn d _ _ | .maxn d _ _ | .lea2 d _ _ | .lea4 d _ _ | .lea8 d _ _ |
  .addw d _ _ | .mulw d _ _ | .absd d _ _ | .sel d _ _ _ | .clz d _ | .ctz d _ | .popc d _ | .brev d _ | .bswap d _ |
  .addi d _ _ | .andi d _ _ | .ori d _ _ | .xori d _ _ | .shli d _ _ | .shri d _ _ | .shrai d _ _ | .rotli d _ _ |
  .bfx d _ _ _ | .bfxs d _ _ _ | .bfi d _ _ _ | .movi d _ | .movs d _ | .fdget d _ | .srd d _ =>
    some ⟨[d.val], [], [], 0, false, false⟩
  | .cmpeq p _ _ | .cmpne p _ _ | .cmplt p _ _ | .cmple p _ _ | .cmpltn p _ _ | .cmplen p _ _ | .tstnz p _ _ |
  .tstz p _ _ | .cmpeqi p _ _ | .cmpnei p _ _ | .cmplti p _ _ | .cmplei p _ _ | .cmpgti p _ _ | .cmpgei p _ _ |
  .cmpltni p _ _ | .cmpleni p _ _ | .cmpgtni p _ _ | .cmpgeni p _ _ | .pand p _ _ | .por p _ _ | .pxor p _ _ |
  .pandn p _ _ | .pnot p _ | .pmov p _ | .pall p | .pnone p => some ⟨[], [p.val], [], 0, false, false⟩
  | .nop => some ⟨[], [], [], 0, false, false⟩
  | .yield => some ⟨[], [], [], 0, false, true⟩
  | .livem _ _ _ => some ⟨[], [], [], 0, true, false⟩
  | .fmtp _ _ _ => some ⟨[], [], [], 0x1FFF, false, false⟩
  | .fdset f _ => some ⟨[], [], [f.val], 0, false, false⟩
  | .fadd _ d _ _ | .fsub _ d _ _ | .fmul _ d _ _ | .fdiv _ d _ _ | .fmin _ d _ _ | .fmax _ d _ _ | .fma _ d _ _ |
  .fsqrt _ d _ | .fcvti _ d _ | .fcvtf _ d _ | .f32to64 d _ | .f64to32 d _ | .f32toh16 d _ | .h16tof32 d _ |
  .f32tobf d _ | .bftof32 d _ => some ⟨[d.val], [], [], flagBits, false, false⟩
  | .fabs _ d _ | .fneg _ d _ | .fclass32 d _ | .fclass64 d _ => some ⟨[d.val], [], [], 0, false, false⟩
  | .fceq32 p _ _ | .fclt32 p _ _ | .fcle32 p _ _ | .fcun32 p _ _ | .fceq64 p _ _ | .fclt64 p _ _ | .fcle64 p _ _ |
  .fcun64 p _ _ => some ⟨[], [p.val], [], flagBits, false, false⟩
  | _ => none

/-- The vector instructions that reach no memory, with what they write (08 R185 to R203): a consumer of a prefix clears PP (05
R113). -/
def Instr.vectorWrites : Instr → Option Writes
  | .vadd d _ _ _ y | .vsub d _ _ _ y | .vmul d _ _ _ y | .vmulh d _ _ _ y | .vmin d _ _ _ y | .vmax d _ _ _ y |
  .vand d _ _ _ y | .vor d _ _ _ y | .vxor d _ _ _ y | .vshl d _ _ _ y | .vshr d _ _ _ y | .vshra d _ _ _ y |
  .vmadd d _ _ _ y | .vsel d _ _ _ y | .vabs d _ _ y | .vneg d _ _ y | .vpopc d _ _ y | .vclz d _ _ y |
  .vperm d _ _ _ y | .vredadd d _ _ y | .vredmin d _ _ y | .vredmax d _ _ y | .vcompr d _ _ y | .vexpd d _ _ y |
  .vslide d _ _ _ y | .vfabs d _ _ y | .vfneg d _ _ y => some ⟨d.regs, [], [], if y = .x8 then 1 else 0, false, false⟩
  | .vsadd d _ _ _ y | .vssub d _ _ _ y | .vfadd d _ _ _ y | .vfsub d _ _ _ y | .vfmul d _ _ _ y | .vfma d _ _ _ y |
  .vfdiv d _ _ _ y | .vfmin d _ _ _ y | .vfmax d _ _ _ y | .vfsqrt d _ _ y | .vrcp d _ _ y | .vrsq d _ _ y |
  .vexp2 d _ _ y | .vlog2 d _ _ y | .vfrnd d _ _ y | .vfredadd d _ _ y | .vscan d _ _ y =>
    some ⟨d.regs, [], [], flagBits ||| (if y = .x8 then 1 else 0), false, false⟩
  | .vceq p _ _ _ y | .vcne p _ _ _ y | .vclt p _ _ _ y | .vcle p _ _ _ y | .vcltn p _ _ _ y | .vclen p _ _ _ y =>
    some ⟨[], [p.val], [], if y = .x8 then 1 else 0, false, false⟩
  | .vfceq p _ _ _ y | .vfclt p _ _ _ y | .vfcle p _ _ _ y | .vfcun p _ _ _ y =>
    some ⟨[], [p.val], [], flagBits ||| (if y = .x8 then 1 else 0), false, false⟩
  | .vcvt d _ _ _ _ | .vexpn d _ _ _ _ | .vqnt d _ _ _ _ | .vpack d _ _ _ _ | .vunpk d _ _ _ _ =>
    some ⟨d.regs, [], [], flagBits ||| 1, false, false⟩
  | .vbcast d _ _ _ | .vins d _ _ => some ⟨d.regs, [], [], 0, false, false⟩
  | .vext _ s _ => some ⟨[s.val], [], [], 0, false, false⟩
  | .vmovp s r p => some (if r then ⟨[], [p.val], [], 0, false, false⟩ else ⟨[s.val], [], [], 0, false, false⟩)
  | _ => none

/-- The register that a division divides by (06 R144). -/
def Instr.divisor : Instr → Option Nat
  | .div _ _ t | .divn _ _ t | .rem _ _ t | .remn _ _ t => some t.val
  | _ => none

/-- The descriptors with which a vector instruction decodes or encodes narrow lanes, in the order A, B, C (08 R187). -/
def Instr.formats (t : Thread) : Instr → List Nat
  | .vfadd _ _ _ _ y | .vfsub _ _ _ _ y | .vfmul _ _ _ _ y | .vfma _ _ _ _ y | .vfdiv _ _ _ _ y | .vfmin _ _ _ _ y |
  .vfmax _ _ _ _ y => if y = .x8 then [t.fmtA, t.fmtB, t.fmtC] else []
  | .vfsqrt _ _ _ y => if y = .x8 then [t.fmtA, t.fmtB] else []
  | .vfabs _ _ _ y | .vfneg _ _ _ y => if y = .x8 then [t.fmtB] else []
  | .vfceq _ _ _ _ y | .vfclt _ _ _ _ y | .vfcle _ _ _ _ y | .vfcun _ _ _ _ y => if y = .x8 then [t.fmtB, t.fmtC] else []
  | .vcvt _ _ x _ y => (if y = .x8 then [t.fmtA] else []) ++ (if x = .x8 then [t.fmtB] else [])
  | .vexpn _ _ _ _ _ => [t.fmtB]
  | .vqnt _ _ _ _ _ => [t.fmtA]
  | .vpack _ _ _ _ y => if y = .x8 then [t.fmtA] else []
  | .vunpk _ _ _ _ y => if y = .x8 then [t.fmtB] else []
  | _ => []

/-- The state after an instruction has set flags (02 R31). -/
def Machine.State.raised (s : State) (f : Nat) : State := s.onThr fun t => t.raise f

/-! Results. -/

/-- `i`, admitted at `s`, ends in the state `t`. -/
def Machine.State.leads (s : State) (i : Instr) (t : State) : Prop := s.admits i → exec i s = .next t

/-- `i`, admitted at `s`, writes `v` to gd and goes on at the next word. -/
def Machine.State.puts (s : State) (i : Instr) (d : Reg) (v : Word) : Prop := s.leads i (s.setG d v).retire

/-- `i`, admitted at `s`, writes to gd a value with a property and goes on at the next word. -/
def Machine.State.putsSome (s : State) (i : Instr) (d : Reg) (p : Word → Prop) : Prop := ∃ v, p v ∧ s.puts i d v

/-- `i`, admitted at `s`, writes `v` to pd and goes on at the next word. -/
def Machine.State.sets (s : State) (i : Instr) (d : Pred) (v : Word) : Prop := s.leads i (s.setP d v).retire

/-- `i`, admitted at `s`, writes a condition to all bits of pd and goes on at the next word. -/
def Machine.State.decides (s : State) (i : Instr) (d : Pred) (c : Prop) : Prop :=
  (c → s.sets i d (BitVec.allOnes 64)) ∧ (¬c → s.sets i d 0)

/-- `i`, admitted at `s`, sets the flags `f` and ends as `k` says; under FTE the first of NV, DZ and OF among them traps instead (02
R31, R32). -/
def Machine.State.signals (s : State) (i : Instr) (f : Nat) (k : State → State) : Prop :=
  s.admits i →
    (s.thr.fte = false ∨ f % 8 = 0 → exec i s = .next (k (s.raised f))) ∧
    (s.thr.fte = true → f % 2 = 1 → exec i s = .next ((s.raised f).trap Cause.fpInvalid 0)) ∧
    (s.thr.fte = true → f % 4 = 2 → exec i s = .next ((s.raised f).trap Cause.fpDivZero 0)) ∧
    (s.thr.fte = true → f % 8 = 4 → exec i s = .next ((s.raised f).trap Cause.fpOverflow 0))

/-- `i` puts the value `r.1` in gd with the flags `r.2`. -/
def Machine.State.floats (s : State) (i : Instr) (d : Reg) (r : Nat × Nat) : Prop :=
  s.signals i r.2 fun u => (u.setG d (BitVec.ofNat 64 r.1)).retire

/-- `i` sets all bits of pd to `r.1` with the flags `r.2`. -/
def Machine.State.tests (s : State) (i : Instr) (d : Pred) (r : Bool × Nat) : Prop :=
  s.signals i r.2 fun u => (u.setP d (if r.1 then BitVec.allOnes 64 else 0)).retire

/-- `i` gives the `n` lanes of width `w` of vd the low `w` bits of the values `g`, with the flags `f`, and clears a prefix that its type uses (05 R113, 08 R185). -/
def Machine.State.lanes (s : State) (i : Instr) (y : Ty) (d : Grp) (w n : Nat) (g : Nat → Nat) (f : Nat) : Prop :=
  ∃ v, (∀ j < n, lane v w j = g j % 2 ^ w) ∧ s.signals i f fun u => (u.setGrp d v).vdone y

/-- As `lanes`, for an instruction under a predicate: the active lanes take `r`'s values and together its flags, the others stay (08 R185). -/
def Machine.State.maskedLanes (s : State) (i : Instr) (y : Ty) (d : Grp) (m : Pred) (r : Nat → Nat × Nat) : Prop :=
  s.lanes i y d (tyWidth y) (tyLanes y)
    (fun j => if (s.p m).getLsbD j then (r j).1 else lane (s.grp d) (tyWidth y) j)
    ((List.range (tyLanes y)).foldl (fun acc j => if (s.p m).getLsbD j then acc ||| (r j).2 else acc) 0)

/-- As `maskedLanes`, for a compare: bit `j` of pd for each active lane, the other bits below the lane count stay, those above are 0 (08
R196). -/
def Machine.State.maskedBits (s : State) (i : Instr) (y : Ty) (d : Pred) (m : Pred) (r : Nat → Bool × Nat) : Prop :=
  ∃ v : Word, (∀ j < 64, v.getLsbD j =
      if tyLanes y ≤ j then false else if (s.p m).getLsbD j then (r j).1 else (s.p d).getLsbD j) ∧
    s.signals i ((List.range (tyLanes y)).foldl (fun acc j => if (s.p m).getLsbD j then acc ||| (r j).2 else acc) 0)
      fun u => (u.setP d v).vdone y

/-- The number that a finite value stands for (02 R28). -/
def Machine.FV.rat : FV → ℚ
  | .fin n m e => (if n then -1 else 1) * m * 2 ^ e
  | _ => 0

/-- A zero or another finite value. -/
def Machine.FV.finite : FV → Bool
  | .fin _ _ _ => true
  | .zero _ => true
  | _ => false

/-- `n` units of size `u` are the rounding of the magnitude `v`, of a value whose sign `neg` tells, under a rounding mode (02 R30): to nearest
with ties to even, toward zero, down, up. -/
def roundsTo (rm : Nat) (neg : Bool) (v u : ℝ) (n : Nat) : Prop :=
  match rm with
  | 0 => abs (n * u - v) ≤ u / 2 ∧ (abs (n * u - v) = u / 2 → n % 2 = 0)
  | 1 => n * u ≤ v ∧ v < (n + 1) * u
  | 2 => if neg then v ≤ n * u ∧ (n - 1) * u < v else n * u ≤ v ∧ v < (n + 1) * u
  | _ => if neg then n * u ≤ v ∧ v < (n + 1) * u else v ≤ n * u ∧ (n - 1) * u < v

/-- The bits and flags `r` are the nonzero real `z` rounded once to a format (02 R28 to R31): in units of the last place, with NX when inexact and UF
when tiny and inexact; beyond the largest finite value OF and NX, and an infinity or that value by the mode. -/
def roundsIn (x : FFormat) (rm : Nat) (z : ℝ) (r : Nat × Nat) : Prop :=
  ∀ (neg : Bool) (ex : Int) (n k : Nat), (neg = true ↔ z < 0) → (2 : ℝ) ^ ex ≤ |z| → |z| < 2 ^ (ex + 1) →
    let q : Int := max ex (1 - x.bias) - x.mbits; let u : ℝ := 2 ^ (ex - x.mbits)
    roundsTo rm neg |z| (2 ^ q) n → roundsTo rm neg |z| u k →
    ((n : ℝ) * 2 ^ q < 2 ^ (x.bias + 1) → (x.unpack r.1).finite ∧ (x.unpack r.1).rat = (if neg then -1 else 1) * n * 2 ^ q ∧ r.1 < 2 ^ x.width ∧
      (n * 2 ^ q = |z| → r.2 = 0) ∧
      (n * 2 ^ q ≠ |z| → (k * u < 2 ^ (1 - x.bias) → r.2 = 24) ∧ (2 ^ (1 - x.bias) ≤ k * u → r.2 = 16))) ∧
    ((2 : ℝ) ^ (x.bias + 1) ≤ n * 2 ^ q → r.2 = 20 ∧
      r.1 = (if rm = 0 ∨ rm = 2 ∧ neg = true ∨ rm = 3 ∧ neg = false then x.inf neg else x.huge neg))

/-- The significand `k` in units of 2^h stands for the positive real `v` in every rounding down to 60 bits below its leading bit: its leading bit is
`v`'s, it rounds as `v` does, and it is inexact where `v` is (02 R29, R30). -/
def stickyFor (v : ℝ) (k : Nat) (h : Int) : Prop :=
  (2 : ℝ) ^ (k.log2 + h) ≤ v ∧ v < 2 ^ (k.log2 + h + 1) ∧
  ∀ (rm : Nat) (neg : Bool) (q : Int), rm < 4 → k.log2 + h - 60 ≤ q →
    roundsTo rm neg v (2 ^ q) (roundTo rm neg k h q).1 ∧ ((roundTo rm neg k h q).2 = true ↔ ∀ n : Nat, (n : ℝ) * 2 ^ q ≠ v)

/-! Accesses. -/

/-- What a scalar access asks for: its address, its bytes and how protection sees it (07 R153; 04 R88; 12 R283, R286). -/
def Instr.access (s : State) : Instr → Option (Nat × Nat × AccessKind)
  | .ld _ b o z => some (s.address b o (sizeBytes z), sizeBytes z, .read)
  | .st _ b o z => some (s.address b o (sizeBytes z), sizeBytes z, .write)
  | .ldf _ b o | .ldt _ b o | .stp _ b o | .stf _ b o => some (s.address b o 8, 8, .rmw)
  | .sete b | .setf b | .waite b | .waitv _ b _ | .wake1 _ b | .wakea _ b | .waken _ b _ => some (s.gn b, 8, .rmw)
  | .probe _ b | .waitf b => some (s.gn b, 8, .read)
  | .aadd w _ b _ | .aand w _ b _ | .aor w _ b _ | .axor w _ b _ | .amin w _ b _ | .amax w _ b _ | .aminn w _ b _ |
  .amaxn w _ b _ | .axchg w _ b _ | .adecp w _ b | .aincw w _ b _ | .afadd w _ b _ | .afmin w _ b _ | .afmax w _ b _ |
  .aaddP w b _ | .aandP w b _ | .aorP w b _ | .axorP w b _ | .aminP w b _ | .amaxP w b _ | .aminnP w b _ | .amaxnP w b _ |
  .axchgP w b _ | .adecpP w b | .aincwP w b _ | .afaddP w b _ | .afminP w b _ | .afmaxP w b _ =>
    some (s.gn b, widthBytes w, .rmw)
  | .acas64 _ b _ => some (s.gn b, 8, .rmw)
  | .acas32 _ b _ => some (s.gn b, 4, .rmw)
  | .acas128 _ b _ => some (s.gn b, 16, .rmw)
  | .touch b w => some (s.gn b, 8, if w then .write else .read)
  | _ => none

/-- The atomics with return (12 R296, R297). -/
def Instr.returns : Instr → Bool
  | .aadd _ _ _ _ | .aand _ _ _ _ | .aor _ _ _ _ | .axor _ _ _ _ | .amin _ _ _ _ | .amax _ _ _ _ | .aminn _ _ _ _ |
  .amaxn _ _ _ _ | .axchg _ _ _ _ | .adecp _ _ _ | .aincw _ _ _ _ | .afadd _ _ _ _ | .afmin _ _ _ _ | .afmax _ _ _ _ |
  .acas64 _ _ _ | .acas32 _ _ _ | .acas128 _ _ _ => true
  | _ => false

/-- Whether an access to the host window traps at issue (12 R283, R293, R299). -/
def Instr.offHost : Instr → Bool
  | .aadd _ _ _ _ | .axchg _ _ _ _ | .acas64 _ _ _ | .acas32 _ _ _ | .acas128 _ _ _ | .ld _ _ _ _ | .st _ _ _ _ |
  .touch _ _ => false
  | .ldf _ _ _ | .ldt _ _ _ | .stp _ _ _ | .stf _ _ _ | .sete _ | .setf _ | .probe _ _ | .waitf _ | .waite _ |
  .waitv _ _ _ | .wake1 _ _ | .wakea _ _ | .waken _ _ _ => true
  | i => i.returns

/-- Whether units 24 to 28 perform the access (12 R283). -/
def Instr.onStores : Instr → Bool
  | .ld _ _ _ _ | .st _ _ _ _ | .ldf _ _ _ | .stf _ _ _ | .probe _ _ | .waitf _ | .touch _ _ => true
  | _ => false

/-- Whether a protection region admits an access (04 R87, R88). -/
def Machine.regionTakes (g : Word) (dom off : Nat) (cluster : Bool) (unit : Option Nat) (k : AccessKind) : Prop :=
  g.getLsbD 44 = true ∧ (g.extractLsb' 48 16).toNat = dom ∧ (g.extractLsb' 0 13).toNat ≤ off / 64 ∧
  off / 64 ≤ (g.extractLsb' 16 13).toNat ∧ (cluster = true → g.getLsbD 42 = true) ∧
  (∀ u, unit = some u → (g.extractLsb' 32 5).toNat = u) ∧ (k ≠ .write → g.getLsbD 40 = true) ∧
  (k ≠ .read → g.getLsbD 41 = true)

/-- The byte of the issuing core's own local memory that an access which passes the checks of 07 R153 starts at; the core's name has
the 26 bits of a CID (04 R72). -/
def Machine.State.ownByte (s : State) (va n : Nat) (k : AccessKind) : Option Nat :=
  match s.checkAccess s.cur.1 s.thr.dom va n k with
  | .ok (.loc c o) => if c < 2 ^ 26 then some (localAddr c o) else none
  | _ => none

/-- The addresses that break the layout of 04 R81, field by field. -/
def outsideWindows (va : Nat) : Prop :=
  let f := fun (lo len : Nat) => va / 2 ^ lo % 2 ^ len; let w := f 60 4
  (w = 0 ∧ f 48 12 ≠ 0) ∨ (1 ≤ w ∧ w ≤ 7) ∨ (w = 8 ∧ (f 58 2 ≠ 0 ∨ f 31 6 ≠ 0)) ∨ (9 ≤ w ∧ w ≤ 11) ∨ (w = 12 ∧ f 48 12 ≠ 0) ∨
  (w = 13 ∧ (f 58 2 ≠ 0 ∨ f 19 13 ≠ 0)) ∨ (w = 14 ∧ f 24 36 ≠ 0) ∨ (w = 15 ∧ f 19 41 ≠ 0)

/-- The state once the thread has made `n` accesses that answer within its pass: the core has given out `n` wait tags (12 R289). -/
def Machine.State.accessed (s : State) (n : Nat) : State :=
  (s.onCore s.cur.1 fun c => { c with tagCount := (c.tagCount + n) % 2 ^ 24 }).onThr fun t =>
    { t with from_ := t.st, wait := .none }

/-- Memory `m'` is `m` with the low `n` bytes of `v` at `a`: every other byte stays, and the word at `a` holds no poison (07 R158,
R183). -/
def Machine.Memory.takes (m m' : Memory) (a n v : Nat) : Prop :=
  (m.wf = true → ∀ x, m'.byte x = if a ≤ x ∧ x < a + n then BitVec.ofNat 8 (v / 256 ^ (x - a)) else m.byte x) ∧
  ∀ w, m'.poisoned w = (m.poisoned w && w != a / 8)

/-- The presence bits that two memories share. -/
def Machine.Memory.sameFull (m m' : Memory) : Prop := ∀ w, m'.full w = m.full w

/-- P of the word at `a` is `p` in `m'`, and of every other word as in `m` (12 R281). -/
def Machine.Memory.presence (m m' : Memory) (a : Nat) (p : Bool) : Prop :=
  ∀ w, m'.full w = if w = a / 8 then p else m.full w

/-- The thread waits in the word's list (12 R287): the entry joins it at the end, and nothing of memory and of the registers changes. -/
def Machine.State.joins (s : State) (i : Instr) (a : Nat) (op : Op) : Prop :=
  s.admits i → ∃ t e, exec i s = .next t ∧ t.waitq = s.waitq ++ [e] ∧ e.word = a / 8 ∧ e.req.op = op ∧
    e.req.cid = s.cur.1 ∧ e.req.tag = (s.core s.cur.1).tagCount ∧ e.req.dom = s.thr.dom ∧ t.mem = s.mem ∧ t.thr.st = .parkedMem ∧ t.thr.pc = s.thr.pc ∧
    ∀ k, t.g k = s.g k

/-- The operations that wait in the list of a word of memory other than an engine store (12 R287, R293). -/
def Machine.Op.waits : Op → Bool
  | .ldf | .ldt | .stp _ | .waitf | .waite | .waitv _ => true
  | _ => false

/-- One pass of the for loop of 12 R287 over a list, from the oldest entry, for a word with presence `full` and data `v`: the entries performed with
their answers, the list that is left, the word's presence and data, and whether an LDT or STP ended the pass. -/
def servePass (full : Bool) (v : Nat) : List WaitEntry → List (WaitEntry × Ans) × List WaitEntry × Bool × Nat × Bool
  | [] => ([], [], full, v, false)
  | h :: r =>
    let rest := servePass full v r
    let performed := fun (a : Ans) => ((h, a) :: rest.1, rest.2)
    match h.req.op, full with
    | .ldt, true => ([(h, .data v)], r, false, v, true)
    | .stp x, false => ([(h, .ok)], r, true, x % 2 ^ 64, true)
    | .ldf, true => performed (.data v)
    | .waitf, true => performed .ok
    | .waite, false => performed .ok
    | _, _ => (rest.1, h :: rest.2.1, rest.2.2)

/-- The repeat loop of 12 R287: passes until one ends with nothing changed. -/
def serveRun : Nat → Bool → Nat → List WaitEntry → List (WaitEntry × Ans) × List WaitEntry × Bool × Nat
  | 0, full, v, l => ([], l, full, v)
  | n + 1, full, v, l =>
    let q := servePass full v l
    if q.2.2.2.2 then
      let u := serveRun n q.2.2.1 q.2.2.2.1 q.2.1
      (q.1 ++ u.1, u.2)
    else (q.1, q.2.1, q.2.2.1, q.2.2.2.1)

/-- One merge step of a stream instruction on the heads of A and B, none for a list at its end (08 R208): what it emits, and whether it
steps over the head of A and over that of B. -/
def streamStep (op : StreamOp) : Option Nat → Option Nat → Option Nat × Bool × Bool
  | some v, some w =>
    if v = w then (if op = .diff then none else some v, true, true)
    else if v < w then (if op = .isect then none else some v, true, false)
    else (if op = .union then some w else none, false, true)
  | some v, none => (some v, true, false)
  | none, some w => (some w, false, true)
  | none, none => (none, false, false)

/-- One execution of a stream instruction on lists that can be read (08 R208): the elements emitted, DONE, and what is left of A and B.
`x` and `y` say whether the heads of A and B are held already; at most 32 elements are fetched, so 64 steps are never used up. -/
def streamRun (op : StreamOp) : Nat → List Nat → List Nat → (x y : Bool) → (reads : Nat) → (out : List Nat) → List Nat × Bool × List Nat × List Nat
  | 0, a, b, _, _, _, out => (out, false, a, b)
  | n + 1, a, b, x, y, reads, out =>
    let done := (a.isEmpty && (b.isEmpty || op != .union)) || (b.isEmpty && op == .isect)
    let reads := reads + (if a.isEmpty || x then 0 else 1) + (if b.isEmpty || y then 0 else 1)
    let r := streamStep op a.head? b.head?
    if done then (out, true, a, b)
    else if out.length = 16 || 32 < reads then (out, false, a, b)
    else streamRun op n (if r.2.1 then a.tail else a) (if r.2.2 then b.tail else b) (!r.2.1) (!r.2.2) reads (out ++ r.1.toList)

/-! Runs. -/

/-- A step of the machine that answers a next state. -/
def Steps (s t : State) : Prop := Machine.step s = .next t

/-- Whether memory is in its canonical form. -/
def MemoryWf (s : State) : Prop := s.mem.wf = true

/-- The limits on what a thread holds: fifteen format registers (08 R184), also in the checkpoint of its region (07 R170), and TDEPTH at
most 2 (06 R140). -/
def Machine.Thread.bounded (t : Thread) : Prop :=
  t.fds.length = 15 ∧ t.trap.tdepth ≤ 2 ∧ ∀ k, t.ckpt = some k → k.fds.length = 15

/-- The limits on what a core holds: each slot once, threads within their limits, 64 journal entries (07 R159) and 16 region checkpoints
(07 R170). -/
def Machine.Core.bounded (c : Core) : Prop :=
  (c.slots.map Prod.fst).Nodup ∧ (∀ q ∈ c.slots, q.2.bounded) ∧ (∀ x g, Arrival.mig x g ∈ c.held → g.th.bounded) ∧
  c.journal.length ≤ 64 ∧ c.checkpoints ≤ 16

/-- The limits hold in every core and in every thread that is evicted, saved or on its way; a thread that issues waits for no checkpoint
(07 R174). -/
def Bounds (s : State) : Prop :=
  (∀ p ∈ s.cores, p.2.bounded) ∧ (∀ k ∈ s.ctxs, k.th.bounded) ∧
  (∀ p ∈ s.modules, ∀ x ∈ p.2.saved, ∀ k ∈ x.ctxs, k.th.bounded) ∧
  (∀ p ∈ s.net, ∀ g, p.body = .migrate g → g.th.bounded) ∧ (s.issuing = true → s.unplaced s.cur.1 s.cur.2 = false)

end Sys2Proof
end

