-- ==== Sys2Proof/Certificates/Slice0/Obligations.lean ====
section
/-!
DEFINITION. The statements about the model, in the words of the spec's numbered rules. Each docstring names the rules.
-/
open Sys2Proof Sys2Proof.Machine

/-! Issue (05 R112, R113; 05 R106). -/

/-- 05 R112 step 4: a SYS instruction, and SRD or SWR of a number from 0x100 up, with K = 0 traps PRIVILEGE with the word in TFADDR, and does
nothing else. 05 R106, R112 step 6, R113: an instruction other than a consumer, SRD, SWR and TRET traps PREFIX_STRAY while PP = 1, before the
window check; an instruction that names a register at or beyond the window traps REG_WINDOW; the lowest such number is reported
(log entry 15: DEDUCED). 02 R34, 08 R187: the first of an instruction's descriptors that is not legal traps ILLEGAL_FORMAT with the descriptor in
TFADDR (the order A, B, C: log entry 17, DEDUCED). -/
def Obligations.IssueChecksTrap : Prop :=
  ∀ (i : Instr) (s : State),
    (i.privileged = true → s.thr.k = false → exec i s = .next (s.trap Cause.privilege s.irWord)) ∧ (i.wf = true →
    ((i.privileged = true → s.thr.k = true) →
      (i.afterPrefix = false → s.thr.pp = true → exec i s = .next (s.trap Cause.prefixStray s.irWord)) ∧
      (∀ r : Nat, (i.afterPrefix = false → s.thr.pp = false) → r ∈ i.named → s.thr.win ≤ r →
        (∀ x ∈ i.named, s.thr.win ≤ x → r ≤ x) → exec i s = .next (s.trap Cause.regWindow (BitVec.ofNat 64 r)))) ∧
    (s.admits i → ∀ (l r : List Nat) (d : Nat), i.formats s.thr = l ++ d :: r → (∀ x ∈ l, (narrowOf x).legal = true) →
      (narrowOf d).legal = false → exec i s = .next (s.trap Cause.illegalFormat (BitVec.ofNat 64 d))))

/-! Scalar results (06 R142 to R152). -/

/-- 06 R143: the register integer operations but the divisions; CLZ, CTZ, POPC, BREV and BSWAP bit by bit. -/
def Obligations.IntegerOperationResults : Prop :=
  (∀ (d s t : Reg) (σ : State), let a := σ.g s; let b := σ.g t
    σ.puts (.add d s t) d (a + b) ∧ σ.puts (.sub d s t) d (a - b) ∧ σ.puts (.mul d s t) d (a * b) ∧
    σ.puts (.mulh d s t) d ((a.signExtend 128 * b.signExtend 128).extractLsb' 64 64) ∧
    σ.puts (.mulhn d s t) d ((a.setWidth 128 * b.setWidth 128).extractLsb' 64 64) ∧
    σ.puts (.and d s t) d (a &&& b) ∧ σ.puts (.or d s t) d (a ||| b) ∧ σ.puts (.xor d s t) d (a ^^^ b) ∧
    σ.puts (.andn d s t) d (a &&& ~~~b) ∧
    σ.puts (.shl d s t) d (a <<< (b.extractLsb' 0 6)) ∧ σ.puts (.shr d s t) d (a >>> (b.extractLsb' 0 6)) ∧
    σ.puts (.shra d s t) d (a.sshiftRight' (b.extractLsb' 0 6)) ∧
    σ.puts (.rotl d s t) d (a.rotateLeft (b.extractLsb' 0 6).toNat) ∧
    σ.puts (.min d s t) d (if a.slt b then a else b) ∧ σ.puts (.max d s t) d (if a.slt b then b else a) ∧
    σ.puts (.minn d s t) d (if a < b then a else b) ∧ σ.puts (.maxn d s t) d (if a < b then b else a) ∧
    σ.puts (.lea2 d s t) d (a + 2 * b) ∧ σ.puts (.lea4 d s t) d (a + 4 * b) ∧ σ.puts (.lea8 d s t) d (a + 8 * b) ∧
    σ.puts (.addw d s t) d (((a + b).setWidth 32).signExtend 64) ∧
    σ.puts (.mulw d s t) d (((a * b).setWidth 32).signExtend 64) ∧
    σ.putsSome (.absd d s t) d (fun v => (v.toNat : Int) = if a.toInt < b.toInt then b.toInt - a.toInt else a.toInt - b.toInt)) ∧
  (∀ (d s : Reg) (σ : State), let a := σ.g s
    σ.putsSome (.clz d s) d (fun v => (a = 0 → v = 64) ∧ (a ≠ 0 → v.toNat < 64 ∧ a.getLsbD (63 - v.toNat) = true) ∧
      ∀ i < 64, 64 - v.toNat ≤ i → a.getLsbD i = false) ∧
    σ.putsSome (.ctz d s) d (fun v => (a = 0 → v = 64) ∧ (a ≠ 0 → v.toNat < 64 ∧ a.getLsbD v.toNat = true) ∧
      ∀ i < v.toNat, a.getLsbD i = false) ∧
    σ.putsSome (.popc d s) d (fun v => v.toNat = ((List.range 64).filter fun i => a.getLsbD i).length) ∧
    σ.putsSome (.brev d s) d (fun v => ∀ i < 64, v.getLsbD i = a.getLsbD (63 - i)) ∧
    σ.putsSome (.bswap d s) d (fun v => ∀ i < 8, v.extractLsb' (8 * i) 8 = a.extractLsb' (8 * (7 - i)) 8))

/-- 06 R144: a division by zero traps INT_DIVZERO; any other gives the truncated quotient or its remainder. -/
def Obligations.DivisionResults : Prop :=
  ∀ (d s t : Reg) (σ : State), let a := σ.g s; let b := σ.g t
    (b = 0 → σ.leads (.div d s t) (σ.trap Cause.intDivZero 0) ∧ σ.leads (.divn d s t) (σ.trap Cause.intDivZero 0) ∧
      σ.leads (.rem d s t) (σ.trap Cause.intDivZero 0) ∧ σ.leads (.remn d s t) (σ.trap Cause.intDivZero 0)) ∧
    (b ≠ 0 → σ.puts (.div d s t) d (a.sdiv b) ∧ σ.puts (.divn d s t) d (a / b) ∧ σ.puts (.rem d s t) d (a.srem b) ∧
      σ.puts (.remn d s t) d (a % b))

/-- 06 R145, R146: immediates, constants and bit fields; a length of 0 is 64, and a field is cut at bit 63. -/
def Obligations.ImmediateAndFieldResults : Prop :=
  ∀ (d s : Reg) (i : BitVec 12) (j : BitVec 19) (n p l : Fin 64) (σ : State), let a := σ.g s
    let w := min (if l = 0 then 64 else l.val) (64 - p.val)
    σ.puts (.addi d s i) d (a + i.signExtend 64) ∧ σ.puts (.andi d s i) d (a &&& i.setWidth 64) ∧
    σ.puts (.ori d s i) d (a ||| i.setWidth 64) ∧ σ.puts (.xori d s i) d (a ^^^ i.setWidth 64) ∧
    σ.puts (.shli d s n) d (a <<< n.val) ∧ σ.puts (.shri d s n) d (a >>> n.val) ∧
    σ.puts (.shrai d s n) d (a.sshiftRight n.val) ∧ σ.puts (.rotli d s n) d (a.rotateLeft n.val) ∧
    σ.puts (.movi d j) d (j.signExtend 64) ∧ σ.puts (.movs d j) d ((σ.g d <<< 19) ||| j.setWidth 64) ∧
    σ.puts (.bfx d s p l) d ((a.extractLsb' p.val w).setWidth 64) ∧
    σ.puts (.bfxs d s p l) d ((a.extractLsb' p.val w).signExtend 64) ∧
    σ.putsSome (.bfi d s p l) d (fun v => ∀ k < 64,
      v.getLsbD k = if p.val ≤ k ∧ k < p.val + w then a.getLsbD (k - p.val) else (σ.g d).getLsbD k)

/-- 06 R135, R147 to R149: the compares, signed and natural, with registers and immediates; the predicate operations and SEL; p0 reads all ones. -/
def Obligations.CompareAndSelectResults : Prop :=
  (∀ (p : Pred) (s t : Reg) (i : BitVec 12) (σ : State), let a := σ.g s; let b := σ.g t
    let u : Word := i.signExtend 64; let n : Word := i.setWidth 64
    σ.decides (.cmpeq p s t) p (a = b) ∧ σ.decides (.cmpne p s t) p (a ≠ b) ∧
    σ.decides (.cmplt p s t) p (a.toInt < b.toInt) ∧ σ.decides (.cmple p s t) p (a.toInt ≤ b.toInt) ∧
    σ.decides (.cmpltn p s t) p (a < b) ∧ σ.decides (.cmplen p s t) p (a ≤ b) ∧
    σ.decides (.tstnz p s t) p (a &&& b ≠ 0) ∧ σ.decides (.tstz p s t) p (a &&& b = 0) ∧
    σ.decides (.cmpeqi p s i) p (a = u) ∧ σ.decides (.cmpnei p s i) p (a ≠ u) ∧
    σ.decides (.cmplti p s i) p (a.toInt < u.toInt) ∧ σ.decides (.cmplei p s i) p (a.toInt ≤ u.toInt) ∧
    σ.decides (.cmpgti p s i) p (u.toInt < a.toInt) ∧ σ.decides (.cmpgei p s i) p (u.toInt ≤ a.toInt) ∧
    σ.decides (.cmpltni p s i) p (a < n) ∧ σ.decides (.cmpleni p s i) p (a ≤ n) ∧
    σ.decides (.cmpgtni p s i) p (n < a) ∧ σ.decides (.cmpgeni p s i) p (n ≤ a)) ∧
  (∀ (d s t : Pred) (g a b : Reg) (σ : State), let x := σ.p s; let y := σ.p t
    (s = 0 → x = BitVec.allOnes 64) ∧
    σ.sets (.pand d s t) d (x &&& y) ∧ σ.sets (.por d s t) d (x ||| y) ∧ σ.sets (.pxor d s t) d (x ^^^ y) ∧
    σ.sets (.pandn d s t) d (x &&& ~~~y) ∧ σ.sets (.pnot d s) d (~~~x) ∧ σ.sets (.pmov d s) d x ∧
    σ.sets (.pall d) d (BitVec.allOnes 64) ∧ σ.sets (.pnone d) d 0 ∧
    σ.puts (.sel g a b s) g (if x.getLsbD 0 then σ.g a else σ.g b))

/-- 06 R150, R151, 05 R110: whether a branch is taken and where it goes; a target that cannot be fetched from or is not a multiple of 4
traps BAD_ADDRESS and links nothing. -/
def Obligations.BranchesAndJumpsGo : Prop :=
  ∀ (σ : State) (x : BitVec 26) (y : BitVec 22) (z : BitVec 18) (p : Pred) (s : Reg),
    let rel := fun (n : Int) => σ.thr.pc + BitVec.ofInt 64 (4 * n)
    let goes := fun (i : Instr) (taken : Prop) (dst : Word) (links : Bool) =>
      (taken → fetchable dst.toNat = true → dst.toNat % 4 = 0 → σ.admits i →
        ∃ t, exec i σ = .next t ∧ t.thr.pc = dst ∧ t.thr.lk = (if links then σ.thr.pc + 4 else σ.thr.lk) ∧ (∀ k, t.g k = σ.g k) ∧
          (∀ k, t.p k = σ.p k) ∧ t.thr.tsw = σ.thr.tsw ∧ t.thr.trap = σ.thr.trap ∧ σ.keepsOthers t ∧ σ.keepsMemory t) ∧
      (taken → (fetchable dst.toNat = false ∨ dst.toNat % 4 ≠ 0) → σ.leads i (σ.trap Cause.badAddress dst)) ∧
      (¬taken → σ.leads i σ.retire)
    goes (.br x) True (rel x.toInt) false ∧ goes (.call x) True (rel x.toInt) true ∧
    goes (.bp p y) ((σ.p p).getLsbD 0 = true) (rel y.toInt) false ∧
    goes (.bnp p y) ((σ.p p).getLsbD 0 = false) (rel y.toInt) false ∧
    goes (.bz s z) (σ.g s = 0) (rel z.toInt) false ∧ goes (.bnz s z) (σ.g s ≠ 0) (rel z.toInt) false ∧
    goes (.jr s) True (σ.g s) false ∧ goes (.jrl s) True (σ.g s) true ∧ goes .ret True σ.thr.lk false

/-- 06 R152, 14 R330: NOP goes on at the next word; YIELD sets the yield mark; BRK and TRAP n trap. -/
def Obligations.ControlInstructions : Prop :=
  ∀ (σ : State) (n : Fin 16),
    σ.leads .nop σ.retire ∧
    (σ.admits .yield → ∃ t, exec .yield σ = .next t ∧ t.thr = { σ.thr with yield := true, pc := σ.thr.pc + 4, issue0 := none, gathered := [] } ∧
      σ.keepsOthers t) ∧
    σ.leads .brk (σ.trap Cause.breakpoint 0) ∧ σ.leads (.trap n) (σ.trap (0x1F0 + n.val) 0)

/-! Special registers (06 R137 to R141, 14 R326, 04 R84, R87). -/

/-- 06 R137 to R141, 14 R326, 04 R84, R87: SRD gives each special register its content, zero in every reserved bit. -/
def Obligations.SpecialRegisterReads : Prop :=
  ∀ (d : Reg) (k : Fin 8) (j : Fin 9) (σ : State), let t := σ.thr; let cid := σ.cur.1; let c := σ.core cid
    let rd := fun (n : Nat) (v : Word) => σ.puts (.srd d (BitVec.ofNat 12 n)) d v
    rd 0x000 (t.tsw &&& 0x3FFFFFF) ∧ rd 0x001 t.lk ∧ rd 0x002 (t.trap.tcause &&& 0x3FF) ∧ rd 0x003 t.trap.tfaddr ∧
    rd 0x004 t.trap.tepc ∧
    ((σ.module (cidModule cid)).bootMode = false → rd 0x005 (BitVec.ofNat 64 (cid * 256 + σ.cur.2))) ∧
    rd 0x006 (BitVec.ofNat 64 (t.dom % 2 ^ 16)) ∧ rd 0x007 (BitVec.ofNat 64 (t.base * 256 + t.win)) ∧
    rd 0x008 (BitVec.ofNat 64 ((c.pending σ.cur.2).length % 256 * 2 ^ 32 + t.jkind % 16 * 2 ^ 8 + t.jentry % 64)) ∧
    rd 0x009 (BitVec.ofNat 64 c.cyc) ∧ rd 0x00A t.live0 ∧ rd 0x00B t.live1 ∧ rd 0x00C (BitVec.ofNat 64 t.wlim) ∧
    rd 0x00D (BitVec.ofNat 64 t.rcnt) ∧
    rd (0x010 + j.val) ((σ.masks (cidModule cid) t.dom).getD j.val 0 &&& 0x3FFFFFFFFFFF) ∧
    rd 0x100 t.trap.tsave ∧ rd 0x101 (BitVec.ofNat 64 t.trap.tdepth) ∧ rd 0x102 t.trap.xepc ∧ rd 0x103 t.trap.xcause ∧
    rd 0x104 t.trap.xfaddr ∧ rd 0x105 t.trap.xsave ∧ rd 0x106 t.trap.tscr ∧ rd (0x110 + k.val) (c.ttbl t.dom k.val) ∧
    rd (0x140 + k.val) (Tab.get 0 c.prgn k.val) ∧
    rd (0x148 + k.val) (Tab.get 0 (σ.cluster (cidCluster cid)).cprgn k.val) ∧
    (let q := Tab.get ⟨0, 0, 0, 0⟩ c.retries t.dom;
      rd 0x118 (BitVec.ofNat 64 (min q.refresh 65535 * 2 ^ 48 + min q.sc 65535 * 2 ^ 32 + min q.noList 65535 * 2 ^ 16 +
        min q.shutter 65535))) ∧
    (let here := σ.ctxs.filter fun x => x.th.dom == t.dom && cidModule x.cid == cidModule cid;
      rd 0x119 (BitVec.ofNat 64 ((here.filter (·.spilled)).length % 2 ^ 16 * 2 ^ 32 +
        (here.filter fun x => !x.spilled && x.cid == cid).length % 16))) ∧
    (∀ n, (0x107 ≤ n ∧ n ≤ 0x10F ∨ 0x11A ≤ n ∧ n ≤ 0x11F) → rd n 0)

/-- 06 R138 to R141, 14 R326: SWR writes the fields that are RW; a read-only register keeps its value. No SWR changes K or RG, a general register or
memory, whichever register it names. -/
def Obligations.SpecialRegisterWrites : Prop :=
  (∀ (s : Reg) (k : Fin 8) (σ : State), let v := σ.g s
    let wr := fun (n : Nat) (t : State) => σ.leads (.swr s (BitVec.ofNat 12 n)) t.retire
    let wt := fun (n : Nat) (f : Thread → Thread) => wr n (σ.onThr f)
    let rw := 0x3FF5FFF#64
    wt 0x000 (fun t => { t with tsw := (t.tsw &&& ~~~rw) ||| (v &&& rw) }) ∧ wt 0x001 (fun t => { t with lk := v }) ∧
    wt 0x002 (fun t => { t with trap := { t.trap with tcause := v &&& 0x3FF } }) ∧
    wt 0x003 (fun t => { t with trap := { t.trap with tfaddr := v } }) ∧
    wt 0x004 (fun t => { t with trap := { t.trap with tepc := v &&& ~~~3 } }) ∧
    wt 0x008 (fun t => { t with jkind := v.toNat / 2 ^ 8 % 16, jentry := v.toNat % 64 }) ∧
    wt 0x00A (fun t => { t with live0 := v }) ∧ wt 0x00B (fun t => { t with live1 := v }) ∧
    wt 0x00C (fun t => { t with wlim := v.toNat % 2 ^ 32 }) ∧ wt 0x00D (fun t => { t with rcnt := v.toNat % 2 ^ 32 }) ∧
    (∀ n, (0x005 ≤ n ∧ n ≤ 0x007 ∨ n = 0x009 ∨ 0x010 ≤ n ∧ n ≤ 0x018 ∨ n = 0x101 ∨ 0x107 ≤ n ∧ n ≤ 0x10F ∨ 0x119 ≤ n ∧ n ≤ 0x11F) →
      wr n σ) ∧
    wt 0x100 (fun t => { t with trap := { t.trap with tsave := v } }) ∧
    wt 0x102 (fun t => { t with trap := { t.trap with xepc := v } }) ∧
    wt 0x103 (fun t => { t with trap := { t.trap with xcause := v } }) ∧
    wt 0x104 (fun t => { t with trap := { t.trap with xfaddr := v } }) ∧
    wt 0x105 (fun t => { t with trap := { t.trap with xsave := v } }) ∧
    wt 0x106 (fun t => { t with trap := { t.trap with tscr := v } }) ∧
    (σ.admits (.swr s (BitVec.ofNat 12 (0x110 + k.val))) → ∃ t, exec (.swr s (BitVec.ofNat 12 (0x110 + k.val))) σ = .next t ∧
      (t.core σ.cur.1).ttbl σ.thr.dom k.val = v) ∧
    (σ.admits (.swr s (BitVec.ofNat 12 (0x140 + k.val))) → ∃ t, exec (.swr s (BitVec.ofNat 12 (0x140 + k.val))) σ = .next t ∧
      Tab.get 0 (t.core σ.cur.1).prgn k.val = v &&& 0xFFFF1F1F1FFF1FFF) ∧
    (σ.admits (.swr s (BitVec.ofNat 12 (0x148 + k.val))) → ∃ t, exec (.swr s (BitVec.ofNat 12 (0x148 + k.val))) σ = .next t ∧
      Tab.get 0 (t.cluster (cidCluster σ.cur.1)).cprgn k.val = v &&& 0xFFFF1F1F1FFF1FFF) ∧
    (σ.admits (.swr s 0x118) → ∃ t, exec (.swr s 0x118) σ = .next t ∧ Tab.get ⟨0, 0, 0, 0⟩ (t.core σ.cur.1).retries σ.thr.dom =
      ⟨v.toNat / 2 ^ 48, v.toNat / 2 ^ 32 % 2 ^ 16, v.toNat / 2 ^ 16 % 2 ^ 16, v.toNat % 2 ^ 16⟩)) ∧
  (∀ (s : Reg) (r : BitVec 12) (σ : State), σ.admits (.swr s r) →
    ∃ t, exec (.swr s r) σ = .next t ∧ t.thr.k = σ.thr.k ∧ t.thr.rg = σ.thr.rg ∧ (∀ j, t.g j = σ.g j) ∧ σ.keepsMemory t)

/-- 08 R186, R187, 05 R113, R115: FMTP, FDSET, FDGET and LIVEM; fd15 reads the native format and discards a write. -/
def Obligations.FormatAndLiveRegisters : Prop :=
  ∀ (a b c f : Fmt) (d s : Reg) (m : Bool) (σ : State),
    (σ.admits (.fmtp a b c) → ∃ t, exec (.fmtp a b c) σ = .next t ∧ t.thr.pp = true ∧
      t.thr.tsw.extractLsb' 1 4 = BitVec.ofNat 4 a ∧ t.thr.tsw.extractLsb' 5 4 = BitVec.ofNat 4 b ∧
      t.thr.tsw.extractLsb' 9 4 = BitVec.ofNat 4 c ∧ t.thr.tsw.extractLsb' 13 51 = σ.thr.tsw.extractLsb' 13 51) ∧
    (σ.admits (.fdset f s) → σ.thr.fds.length = 15 → ∃ t, exec (.fdset f s) σ = .next t ∧
      t.thr.fd f = if f = 15 then 0x18 else (σ.g s).setWidth 32) ∧
    σ.puts (.fdget d f) d (if f = 15 then 0x18 else (σ.thr.fd f).setWidth 64) ∧
    (d ≤ s → σ.admits (.livem d s m) → ∃ t, exec (.livem d s m) σ = .next t ∧ ∀ k < 128,
      (t.thr.live1 ++ t.thr.live0).getLsbD k =
        ((m && (σ.thr.live1 ++ σ.thr.live0).getLsbD k) || decide (d.val ≤ k ∧ k ≤ s.val)))

/-! Traps (14 R325, R327, R329, R332). -/

/-- 14 R327: a trap below depth 2 with an in-thread handler pushes its registers, sets K and goes to the handler; every other bit of TSW, every
general register and memory stay. -/
def Obligations.TrapEntersHandler : Prop :=
  ∀ (σ : State) (cause : Nat) (detail : Word), let r := σ.thr.trap
    let e := (σ.core σ.cur.1).ttbl σ.thr.dom (causeClass cause)
    r.tdepth ≤ 1 → e.extractLsb' 0 2 = 1 → e.extractLsb' 2 62 ≠ 0 →
    let u := (σ.trap cause detail).thr
    u.st = .trap ∧ u.pc = e &&& ~~~3 ∧ u.cur = none ∧ u.nxt = none ∧ u.tsw = σ.thr.tsw ||| 0x2000 ∧
    u.trap.tepc = σ.thr.pc &&& ~~~3 ∧ u.trap.tcause = BitVec.ofNat 64 (cause % 512) ∧ u.trap.tfaddr = detail ∧
    u.trap.tsave = σ.thr.tsw ∧ u.trap.tdepth = r.tdepth + 1 ∧
    (r.tdepth = 1 → u.trap.xepc = r.tepc ∧ u.trap.xcause = r.tcause ∧ u.trap.xfaddr = r.tfaddr ∧ u.trap.xsave = r.tsave) ∧
    (r.tdepth = 0 → u.trap.xepc = r.xepc ∧ u.trap.xcause = r.xcause ∧ u.trap.xfaddr = r.xfaddr ∧ u.trap.xsave = r.xsave) ∧
    (∀ k, (σ.trap cause detail).g k = σ.g k) ∧ u.preds = σ.thr.preds ∧ u.fds = σ.thr.fds ∧ u.lk = σ.thr.lk ∧
    σ.keepsOthers (σ.trap cause detail) ∧ σ.keepsMemory (σ.trap cause detail)

/-- 14 R325, R327, R328, R331, R332, R334: a trap of a thread with no handler for it, and a trap at depth 2, fault the thread; the trap registers
hold the trap, at depth 2 the ones before it. Its THREAD record joins the fault queue of a bound domain with room, or for a service thread the
host-service queue, with MSI-X vector 2 when that was empty: cause (DOUBLE_TRAP at depth 2) and name, TFADDR, TEPC, the launch's TAG, the
asynchronous bit with the cause, JSTAT, serial and domain. -/
def Obligations.TrapWithoutHandlerFaults : Prop :=
  ∀ (σ : State) (cause : Nat) (detail : Word), let r := σ.thr.trap
    let cid := σ.cur.1; let t := σ.thr; let m := cidModule cid; let x := σ.module m; let v := σ.trap cause detail
    let e := (σ.core cid).ttbl t.dom (causeClass cause)
    let u := v.thr; let faults := r.tdepth = 2 ∨ r.tdepth ≤ 1 ∧ (e.extractLsb' 0 2 ≠ 1 ∨ e.extractLsb' 2 62 = 0)
    let post := fun (serial : Nat) => [BitVec.ofNat 64 (2 ^ 56 + (if r.tdepth = 2 then 0x1E2 else cause % 512) * 2 ^ 47 + (cid * 256 + σ.cur.2) % 2 ^ 34),
      detail, if r.tdepth = 2 then t.pc else t.pc &&& ~~~3, σ.launchTag t.launch, BitVec.ofNat 64 (cause % 512), σ.jstat cid σ.cur.2, 0,
      BitVec.ofNat 64 (serial % 2 ^ 32 * 2 ^ 16 + t.dom % 2 ^ 16)]
    (r.tdepth ≤ 1 → (e.extractLsb' 0 2 ≠ 1 ∨ e.extractLsb' 2 62 = 0) →
      u.st = .faulted ∧ u.pc = t.pc ∧ u.tsw = t.tsw ||| 0x2000 ∧ u.trap.tepc = t.pc &&& ~~~3 ∧
      u.trap.tcause = BitVec.ofNat 64 (cause % 512) ∧ u.trap.tfaddr = detail ∧ u.trap.tsave = t.tsw ∧
      u.trap.tdepth = r.tdepth + 1) ∧
    (r.tdepth = 2 → u.st = .faulted ∧ u.trap = r ∧ u.tsw = t.tsw ∧ u.pc = t.pc) ∧
    (∀ (k : Nat) (d : Domain), faults → t.svc = false → t.dom ≠ 0 → x.domains = [(k, d)] → d.tag = t.dom → d.fqWait = [] → d.fq.length < 4096 →
      ∃ y, (v.module m).domains = [(k, y)] ∧ y.fqWait = [] ∧ y.fq = d.fq ++ [post d.serial] ∧ y.serial = d.serial + 1) ∧
    (faults → t.svc = true → x.hsWait = [] → x.hsq.length < 256 → let y := v.module m
      y.hsq = x.hsq ++ [post x.hsSerial] ∧ y.hsWait = [] ∧ y.msix = if x.hsq = [] then x.msix ++ [2] else x.msix)

/-- 14 R329: TRET pops the trap registers, restores K from TSAVE and discards the fetch buffers; at depth 0 it traps
TRAP_STATE, and a rollback that waits at depth 1 goes back to the instruction after RBEGIN (07 R172). At depth 2 the restored TEPC and TCAUSE
hold what those registers can hold (log entry 61: DEDUCED, the model's choice). -/
def Obligations.TretReturns : Prop :=
  ∀ (σ : State), σ.admits .tret → let r := σ.thr.trap
    (r.tdepth = 0 → exec .tret σ = .next (σ.trap Cause.trapState 0)) ∧
    (r.tdepth = 1 → σ.thr.rollback = none → ∃ t, exec .tret σ = .next t ∧ t.thr.pc = r.tepc ∧ t.thr.st = .ready ∧
      t.thr.k = r.tsave.getLsbD 13 ∧ t.thr.tsw ||| 0x2000 = σ.thr.tsw ||| 0x2000 ∧ t.thr.trap = { r with tdepth := 0 } ∧
      t.thr.cur = none ∧ t.thr.nxt = none ∧ (∀ k, t.g k = σ.g k) ∧ σ.keepsOthers t ∧ σ.keepsMemory t) ∧
    (∀ v k, r.tdepth = 1 → σ.thr.rollback = some v → σ.thr.ckpt = some k → ∃ t, exec .tret σ = .next t ∧ t.thr.pc = k.pc + 4 ∧
      t.thr.st = .ready ∧ t.thr.rg = false ∧ t.thr.ckpt = none ∧ t.thr.trap = { r with tdepth := 0 } ∧ t.g k.d = v ∧
      t.thr.preds = k.preds ∧ t.thr.fds = k.fds ∧ t.thr.lk = k.lk ∧ σ.keepsMemory t) ∧
    (r.tdepth = 2 → ∃ t, exec .tret σ = .next t ∧ t.thr.pc = r.tepc ∧ t.thr.st = .trap ∧
      t.thr.k = r.tsave.getLsbD 13 ∧ t.thr.tsw ||| 0x2000 = σ.thr.tsw ||| 0x2000 ∧
      t.thr.trap.tdepth = 1 ∧ t.thr.trap.tepc = r.xepc &&& ~~~3 ∧ t.thr.trap.tcause = r.xcause &&& 0x3FF ∧
      t.thr.trap.tfaddr = r.xfaddr ∧ t.thr.trap.tsave = r.xsave ∧ t.thr.cur = none ∧ t.thr.nxt = none ∧
      (∀ k, t.g k = σ.g k) ∧ σ.keepsOthers t ∧ σ.keepsMemory t)

/-! Frames (06 R142 to R152, 08 R185 to R203, R209 to R211). -/

/-- What a scalar instruction, and a vector instruction that reaches no memory, leaves: with FTE = 0, and for a scalar one no division by zero, for a
vector one its formats legal, it goes on at the next word and changes nothing but what `scalarWrites` or `vectorWrites` names for it. -/
def Obligations.ScalarAndVectorFrames : Prop :=
  ∀ (i : Instr) (w : Writes) (s : State), s.admits i → s.thr.fte = false →
    i.scalarWrites = some w ∧ (∀ t, i.divisor = some t → s.g t ≠ 0) ∨
      i.wf = true ∧ i.vectorWrites = some w ∧ (∀ d ∈ i.formats s.thr, (narrowOf d).legal = true) →
    ∃ t, exec i s = .next t ∧ s.frame t w ∧ t.thr.pc = s.thr.pc + 4

/-! Scalar floats (02 R28 to R32; 08 R209 to R211). -/

/-- 08 R209, R211: the exact result of the operands' values, rounded once under TSW.RM, with the flags of 02 R29 and R31. -/
def Obligations.ScalarFloatResults : Prop :=
  ∀ (w : Width) (d s t : Reg) (σ : State), let x := fmtOf w; let rm := σ.thr.rm
    let v := fun (r : Reg) => x.unpack ((σ.g r).toNat % 2 ^ x.width)
    let cv := fun (p q : FFormat) => let y := p.unpack ((σ.g s).toNat % 2 ^ p.width); q.result rm (y, if y.isSnan then 1 else 0)
    σ.floats (.fadd w d s t) d (x.result rm (FV.add rm (v s) (v t))) ∧
    σ.floats (.fsub w d s t) d (x.result rm (FV.add rm (v s) (v t).flip)) ∧
    σ.floats (.fmul w d s t) d (x.result rm (FV.mul (v s) (v t))) ∧
    σ.floats (.fdiv w d s t) d (x.result rm (FV.div (v s) (v t))) ∧
    σ.floats (.fsqrt w d s) d (x.result rm (FV.sqrt (v s))) ∧
    σ.floats (.fma w d s t) d (x.result rm (FV.fma rm (v s) (v t) (v d)
      (Config.fmaInvalid (BitVec.ofNat 64 (σ.fop x s)) (BitVec.ofNat 64 (σ.fop x t)) (BitVec.ofNat 64 (σ.fop x d))))) ∧
    σ.floats (.fcvti w d s) d (let r := toInteger rm (-2 ^ 63) (2 ^ 63 - 1) (v s); ((BitVec.ofInt 64 r.1).toNat, r.2)) ∧
    σ.floats (.fcvtf w d s) d (x.pack rm (FV.ofInt (σ.g s).toInt 0 false)) ∧
    σ.floats (.f32to64 d s) d (cv f32 f64) ∧ σ.floats (.f64to32 d s) d (cv f64 f32) ∧ σ.floats (.f32toh16 d s) d (cv f32 h16) ∧
    σ.floats (.h16tof32 d s) d (cv h16 f32) ∧ σ.floats (.f32tobf d s) d (cv f32 bf16) ∧ σ.floats (.bftof32 d s) d (cv bf16 f32)

/-- 02 R28, 08 R190, R209, R211: FABS and FNEG act on the sign bit alone and FCLASS on the fields, and none sets a flag; FMIN and FMAX give the
lesser or greater operand, -0 below +0: one quiet NaN gives the number, two the canonical NaN, a signalling one the canonical NaN with NV. -/
def Obligations.FloatSignClassAndMinMaxResults : Prop :=
  (∀ (d s : Reg) (σ : State), let a := σ.g s; let e := a.extractLsb' 23 8; let m := a.extractLsb' 0 23; let n := a.getLsbD 31
    let e' := a.extractLsb' 52 11; let m' := a.extractLsb' 0 52; let n' := a.getLsbD 63
    σ.puts (.fabs .w32 d s) d (a &&& 0x7FFFFFFF) ∧ σ.puts (.fabs .w64 d s) d (a &&& 0x7FFFFFFFFFFFFFFF) ∧
    σ.puts (.fneg .w32 d s) d ((a &&& 0xFFFFFFFF) ^^^ 0x80000000) ∧ σ.puts (.fneg .w64 d s) d (a ^^^ 0x8000000000000000) ∧
    σ.puts (.fclass32 d s) d (
      if e = 0xFF then (if m = 0 then (if n then 1 else 0x80) else if m.getLsbD 22 then 0x200 else 0x100)
      else if e = 0 then (if m = 0 then (if n then 8 else 0x10) else if n then 4 else 0x20) else if n then 2 else 0x40) ∧
    σ.puts (.fclass64 d s) d (
      if e' = 0x7FF then (if m' = 0 then (if n' then 1 else 0x80) else if m'.getLsbD 51 then 0x200 else 0x100)
      else if e' = 0 then (if m' = 0 then (if n' then 8 else 0x10) else if n' then 4 else 0x20) else if n' then 2 else 0x40)) ∧
  (∀ (w : Width) (d s t : Reg) (σ : State), let x := fmtOf w
    let a := (σ.g s).toNat % 2 ^ x.width; let b := (σ.g t).toNat % 2 ^ x.width
    let nan := match w with
      | .w32 => 0x7FC00000
      | .w64 => 0x7FF8000000000000
    let u := x.unpack a; let v := x.unpack b
    let both := fun (lo hi : Nat) (f : Nat) => σ.floats (.fmin w d s t) d (lo, f) ∧ σ.floats (.fmax w d s t) d (hi, f)
    (u.isSnan ∨ v.isSnan → both nan nan 1) ∧
    (u.isNan → v.isNan → ¬u.isSnan → ¬v.isSnan → both nan nan 0) ∧
    (u.isNan → ¬v.isNan → ¬u.isSnan → both b b 0) ∧ (¬u.isNan → v.isNan → ¬v.isSnan → both a a 0) ∧
    (u.finite → v.finite → u.rat < v.rat → both a b 0) ∧ (u.finite → v.finite → v.rat < u.rat → both b a 0) ∧
    (u = .zero true → v = .zero false → both a b 0) ∧ (u = .zero false → v = .zero true → both b a 0) ∧
    (u = .inf true → v.finite → both a b 0) ∧ (u = .inf false → v.finite → both b a 0))

/-- 08 R196, R210: the float compares: by the values, +0 equal to -0; a NaN is unordered, and signals NV as each compare says. 02 R29: an arithmetic
result from a NaN operand is the canonical NaN, with NV when an operand signals; the invalid operations give it with NV. -/
def Obligations.FloatCompareAndNaNResults : Prop :=
  (∀ (p : Pred) (s t : Reg) (σ : State),
    let go := fun (x : FFormat) (eq lt le un : Instr) =>
      let a := x.unpack ((σ.g s).toNat % 2 ^ x.width); let b := x.unpack ((σ.g t).toNat % 2 ^ x.width)
      let nv := if a.isSnan || b.isSnan then 1 else 0
      (a.isNan ∨ b.isNan → σ.tests eq p (false, nv) ∧ σ.tests lt p (false, 1) ∧ σ.tests le p (false, 1) ∧ σ.tests un p (true, nv)) ∧
      (a.finite → b.finite → σ.tests eq p (decide (a.rat = b.rat), 0) ∧ σ.tests lt p (decide (a.rat < b.rat), 0) ∧
        σ.tests le p (decide (a.rat ≤ b.rat), 0) ∧ σ.tests un p (false, 0)) ∧
      (∀ n, a = .inf n → b.finite → σ.tests eq p (false, 0) ∧ σ.tests lt p (n, 0) ∧ σ.tests le p (n, 0) ∧ σ.tests un p (false, 0)) ∧
      (∀ n, a.finite → b = .inf n → σ.tests eq p (false, 0) ∧ σ.tests lt p (!n, 0) ∧ σ.tests le p (!n, 0) ∧ σ.tests un p (false, 0)) ∧
      (∀ m n, a = .inf m → b = .inf n → σ.tests eq p (m == n, 0) ∧ σ.tests lt p (m && !n, 0) ∧ σ.tests le p (m || !n, 0) ∧
        σ.tests un p (false, 0))
    go f32 (.fceq32 p s t) (.fclt32 p s t) (.fcle32 p s t) (.fcun32 p s t) ∧
    go f64 (.fceq64 p s t) (.fclt64 p s t) (.fcle64 p s t) (.fcun64 p s t)) ∧
  (∀ (w : Width) (d s t : Reg) (σ : State), let x := fmtOf w
    let v := fun (r : Reg) => x.unpack ((σ.g r).toNat % 2 ^ x.width)
    let nan := match w with
      | .w32 => 0x7FC00000
      | .w64 => 0x7FF8000000000000
    let nv := if (v s).isSnan || (v t).isSnan then 1 else 0
    ((v s).isNan ∨ (v t).isNan → σ.floats (.fadd w d s t) d (nan, nv) ∧ σ.floats (.fsub w d s t) d (nan, nv) ∧
      σ.floats (.fmul w d s t) d (nan, nv) ∧ σ.floats (.fdiv w d s t) d (nan, nv)) ∧
    ((v s).isNan → σ.floats (.fsqrt w d s) d (nan, if (v s).isSnan then 1 else 0)) ∧
    (∀ n, v s = .inf n → v t = .inf (!n) → σ.floats (.fadd w d s t) d (nan, 1)) ∧
    (∀ n, v s = .inf n → v t = .inf n → σ.floats (.fsub w d s t) d (nan, 1)) ∧
    (∀ m n, v s = .inf m → v t = .zero n → σ.floats (.fmul w d s t) d (nan, 1)) ∧
    (∀ m n, v s = .inf m → v t = .inf n → σ.floats (.fdiv w d s t) d (nan, 1)) ∧
    (∀ m n, v s = .zero m → v t = .zero n → σ.floats (.fdiv w d s t) d (nan, 1)) ∧
    (∀ m e, v s = .fin true m e → σ.floats (.fsqrt w d s) d (nan, 1)) ∧ (v s = .inf true → σ.floats (.fsqrt w d s) d (nan, 1)))

/-- 02 R29, 08 R190: the arithmetic before rounding. Sums, products and fused sums of finite values are exact; a quotient and a square root carry what
rounding needs of the exact one, at every position down to 60 bits below its leading bit; the rules for zeros and infinities. The NV of a
fused 0 × infinity with a quiet NaN addend is the part's own (log entry 8). -/
def Obligations.ExactArithmeticBeforeRounding : Prop :=
  ∀ (a b c : FV) (rm : Nat) (o : Bool), let z := fun (v : FV) (n : Bool) => v = .zero n; let nan := fun (l : List FV) => ∃ v ∈ l, v.isNan = true
    let s := a.neg != b.neg; let add := FV.add rm a b; let mul := FV.mul a b; let div := FV.div a b; let fma := FV.fma rm a b c o
    (a.finite → b.finite → add.1.finite ∧ add.1.rat = a.rat + b.rat ∧ add.2 = 0 ∧ (FV.add rm a b.flip).1.rat = a.rat - b.rat ∧
      mul.1.finite ∧ mul.1.rat = a.rat * b.rat ∧ mul.1.neg = s ∧ mul.2 = 0 ∧
      (∀ m n, z a m → z b n → z add.1 (if m = n then m else rm == 2)) ∧ (a.rat ≠ 0 → a.rat + b.rat = 0 → z add.1 (rm == 2))) ∧
    (∀ m, a = .inf m → (b.finite → add = (.inf m, 0) ∧ (FV.add rm b a) = (.inf m, 0) ∧ div = (.inf s, 0) ∧ z (FV.div b a).1 s ∧ (FV.div b a).2 = 0 ∧
        (b.rat ≠ 0 → mul = (.inf s, 0) ∧ FV.mul b a = (.inf s, 0))) ∧
      (b = .inf m → add = (.inf m, 0)) ∧ (∀ n, b = .inf n → mul = (.inf s, 0)) ∧ FV.sqrt a = if m then (.nan false, 1) else (a, 0)) ∧
    (∀ m, z a m → FV.sqrt a = (a, 0) ∧ (b.finite → b.rat ≠ 0 → div = (.zero s, 0) ∧ FV.div b a = (.inf s, 2))) ∧
    (∀ x m e y n g, a = .fin x m e → b = .fin y n g → m ≠ 0 → n ≠ 0 → ∃ k h, div = (.fin s k h, 0) ∧ stickyFor (|a.rat| / |b.rat| : ℚ) k h) ∧
    (∀ m e, a = .fin false m e → m ≠ 0 → ∃ k h, FV.sqrt a = (.fin false k h, 0) ∧ stickyFor (Real.sqrt a.rat) k h) ∧
    (¬nan [a, b, c] → fma = if mul.2 = 0 then FV.add rm mul.1 c else (.nan false, 1)) ∧
    (nan [a, b] → fma = (.nan false, if a.isSnan || b.isSnan || c.isSnan then 1 else 0)) ∧
    (¬nan [a, b] → nan [c] → fma = (.nan false, if c.isSnan || (o && mul.2 != 0) then 1 else 0)) ∧
    (a.finite → b.finite → c.finite → fma.1.finite ∧ fma.1.rat = a.rat * b.rat + c.rat ∧ fma.2 = 0)

/-- 02 R28 to R31: a finite value is rounded once, in units of the last place of the format, subnormals kept: to nearest with ties to even, toward
zero, down or up; NX tells an inexact result and UF a tiny inexact one. A value that rounds beyond the largest finite one is an infinity or that
largest value by the mode, with OF and NX, for both (log entry 60: DEDUCED). VFRND and the conversions round to units of one (08 R190, R200). -/
def Obligations.RoundingAndRoundedResults : Prop :=
  (∀ (neg : Bool) (m rm : Nat) (e q : Int), rm < 4 → let v : ℚ := m * 2 ^ e
    roundsTo rm neg (v : ℝ) (2 ^ q) (roundTo rm neg m e q).1 ∧ ((roundTo rm neg m e q).2 = true ↔ ∀ n : Nat, (n : ℚ) * 2 ^ q ≠ v)) ∧
  (∀ (x : FFormat) (rm : Nat) (neg : Bool) (m : Nat) (e : Int), (x = f64 ∨ x = f32 ∨ x = h16 ∨ x = bf16) → rm < 4 → m ≠ 0 →
    let r := x.pack rm (.fin neg m e); roundsIn x rm ((FV.fin neg m e).rat : ℝ) r ∧ bit r.1 (x.width - 1) = neg) ∧
  (∀ (x : FFormat) (rm : Nat) (neg : Bool), x.pack rm (.zero neg) = (x.zero neg, 0) ∧ x.pack rm (.inf neg) = (x.inf neg, 0)) ∧
  (∀ (x : FFormat) (rm a : Nat), (x = f64 ∨ x = f32 ∨ x = h16 ∨ x = bf16) → a < 2 ^ x.width → let v := x.unpack a; let r := x.toIntegral rm a
    (∀ n m e, v = .fin n m e → let k := roundTo rm n m e 0; (x.unpack r.1).finite ∧ (x.unpack r.1).rat = (if n then -1 else 1) * k.1 ∧
      (x.unpack r.1).neg = n ∧ r.2 = if k.2 then 16 else 0) ∧
    (v.isNan → r = (x.nan, if v.isSnan then 1 else 0)) ∧ (¬v.isNan → (∀ n m e, v ≠ .fin n m e) → r = (a, 0)))

/-! Vectors (08 R184 to R203). -/

/-- 08 R184: group vK is g(8K) to g(8K+7), lane i of width 64 the register g(8K+i); writing a group writes those registers and no other. -/
def Obligations.VectorGroupsAreRegisters : Prop :=
  ∀ (k : Grp) (v : Nat) (σ : State), σ.grp k < 2 ^ 512 ∧
    (∀ i < 8, lane (σ.grp k) 64 i = (σ.g (8 * k + i)).toNat ∧ ((σ.setGrp k v).g (8 * k + i)).toNat = lane v 64 i) ∧
    (∀ j, j ∉ k.regs → (σ.setGrp k v).g j = σ.g j) ∧ (σ.setGrp k v).grp k = v % 2 ^ 512

/-- 08 R189: the integer lanes, signed for i32 and i16 and natural for n32. -/
def Obligations.VectorIntegerResults : Prop :=
  ∀ (d s t : Grp) (m : Pred) (y : Ty) (σ : State), let w := tyWidth y; let nat := y == .n32
    let A := fun j => BitVec.ofNat w (lane (σ.grp s) w j); let B := fun j => BitVec.ofNat w (lane (σ.grp t) w j)
    let C := fun j => BitVec.ofNat w (lane (σ.grp d) w j)
    let num := fun (x : BitVec w) => if nat then (x.toNat : Int) else x.toInt
    let lo : Int := if nat then 0 else -2 ^ (w - 1); let hi : Int := if nat then 2 ^ w - 1 else 2 ^ (w - 1) - 1
    let clamp := fun (z : Int) => ((BitVec.ofInt w (max lo (min hi z))).toNat, if lo ≤ z ∧ z ≤ hi then 0 else 32)
    let is := fun (i : Instr) (r : Nat → BitVec w) => σ.maskedLanes i y d m fun j => ((r j).toNat, 0)
    (is (.vand d s t m y) fun j => A j &&& B j) ∧ (is (.vor d s t m y) fun j => A j ||| B j) ∧
    (is (.vxor d s t m y) fun j => A j ^^^ B j) ∧
    (σ.lanes (.vsel d s t m y) y d w (tyLanes y) (fun j => if (σ.p m).getLsbD j then (A j).toNat else (B j).toNat) 0) ∧
    (y.isInt → (is (.vadd d s t m y) fun j => A j + B j) ∧ (is (.vsub d s t m y) fun j => A j - B j) ∧
      (is (.vmul d s t m y) fun j => A j * B j) ∧
      (is (.vmulh d s t m y) fun j => BitVec.ofInt w (num (A j) * num (B j) / 2 ^ w)) ∧
      (is (.vmin d s t m y) fun j => if num (A j) < num (B j) then A j else B j) ∧
      (is (.vmax d s t m y) fun j => if num (A j) < num (B j) then B j else A j) ∧
      (is (.vshl d s t m y) fun j => A j <<< ((B j).toNat % w)) ∧ (is (.vshr d s t m y) fun j => A j >>> ((B j).toNat % w)) ∧
      (is (.vshra d s t m y) fun j => (A j).sshiftRight ((B j).toNat % w)) ∧
      (is (.vabs d s m y) fun j => if num (A j) < 0 then -A j else A j) ∧ (is (.vneg d s m y) fun j => -A j) ∧
      (is (.vmadd d s t m y) fun j => C j + A j * B j) ∧
      (is (.vpopc d s m y) fun j => BitVec.ofNat w ((List.range w).filter fun k => (A j).getLsbD k).length) ∧
      (∃ z : Nat → BitVec w, is (.vclz d s m y) z ∧ ∀ j, (z j).toNat ≤ w ∧ (∀ k < w, w - (z j).toNat ≤ k → (A j).getLsbD k = false) ∧
        ((z j).toNat < w → (A j).getLsbD (w - 1 - (z j).toNat) = true)) ∧
      (σ.maskedLanes (.vsadd d s t m y) y d m fun j => clamp (num (A j) + num (B j))) ∧
      (σ.maskedLanes (.vssub d s t m y) y d m fun j => clamp (num (A j) - num (B j))))

/-- 08 R188, R190: the float lanes: an IEEE lane is the exact result rounded once under TSW.RM; a narrow lane is decoded under B, C and A, and
encoded under A. VFABS and VFNEG act on the sign of B's code on x8 lanes (log entry 54), and the NV of an invalid product with a quiet NaN addend is
the part's own (log entry 8): the model's choices. VRCP, VRSQ, VEXP2 and VLOG2 are those of `FunctionProcedures`. -/
def Obligations.VectorFloatResults : Prop :=
  ∀ (d s t : Grp) (m : Pred) (y : Ty) (σ : State), y.isFloat → let w := tyWidth y; let x := ffOf y; let rm := σ.thr.rm
    let a := fun j => lane (σ.grp s) w j; let b := fun j => lane (σ.grp t) w j; let c := fun j => lane (σ.grp d) w j
    let A := narrowOf σ.thr.fmtA; let B := narrowOf σ.thr.fmtB; let C := narrowOf σ.thr.fmtC
    let o := fun j => Config.fmaInvalid (BitVec.ofNat 64 (a j)) (BitVec.ofNat 64 (b j)) (BitVec.ofNat 64 (c j))
    let is := fun (i : Instr) (f : Nat → FV → FV → FV → Bool → FV × Nat) =>
      (∀ n ∈ i.formats σ.thr, (narrowOf n).legal = true) → σ.maskedLanes i y d m fun j =>
        if y = .x8 then
          let v := f 0 (B.decode (a j)) (C.decode (b j)) (A.decode (c j)) (o j)
          ((A.encode v.1).1, (A.encode v.1).2 ||| v.2)
        else x.result rm (f rm (x.unpack (a j)) (x.unpack (b j)) (x.unpack (c j)) (o j))
    (is (.vfadd d s t m y) fun rm p q _ _ => FV.add rm p q) ∧ (is (.vfsub d s t m y) fun rm p q _ _ => FV.add rm p q.flip) ∧
    (is (.vfmul d s t m y) fun _ p q _ _ => FV.mul p q) ∧ (is (.vfdiv d s t m y) fun _ p q _ _ => FV.div p q) ∧
    (is (.vfma d s t m y) fun rm p q r o => FV.fma rm p q r o) ∧
    (y ≠ .x8 → (σ.maskedLanes (.vfsqrt d s m y) y d m fun j => x.result rm (FV.sqrt (x.unpack (a j)))) ∧
      (σ.maskedLanes (.vfmin d s t m y) y d m fun j => x.result rm (leastValue (x.unpack (a j)) (x.unpack (b j)))) ∧
      (σ.maskedLanes (.vfmax d s t m y) y d m fun j => x.result rm (greatestValue (x.unpack (a j)) (x.unpack (b j)))) ∧
      (σ.maskedLanes (.vfabs d s m y) y d m fun j => (a j % 2 ^ (w - 1), 0)) ∧
      (σ.maskedLanes (.vfneg d s m y) y d m fun j => (a j ^^^ 2 ^ (w - 1), 0)) ∧
      (σ.maskedLanes (.vfrnd d s m y) y d m fun j => x.toIntegral rm (a j))) ∧
    (y = .x8 → A.legal → B.legal →
      (σ.maskedLanes (.vfsqrt d s m y) y d m fun j =>
        let v := FV.sqrt (B.decode (a j)); ((A.encode v.1).1, (A.encode v.1).2 ||| v.2)) ∧
      (σ.maskedLanes (.vfneg d s m y) y d m fun j => (if B.s = 1 then a j ^^^ 2 ^ (B.w - 1) else a j, 0)) ∧
      (σ.maskedLanes (.vfabs d s m y) y d m fun j => (if B.s = 1 ∧ bit (a j) (B.w - 1) then a j ^^^ 2 ^ (B.w - 1) else a j, 0)) ∧
      (C.legal → (σ.maskedLanes (.vfmin d s t m y) y d m fun j =>
          let v := leastValue (B.decode (a j)) (C.decode (b j)); ((A.encode v.1).1, (A.encode v.1).2 ||| v.2)) ∧
        σ.maskedLanes (.vfmax d s t m y) y d m fun j =>
          let v := greatestValue (B.decode (a j)) (C.decode (b j)); ((A.encode v.1).1, (A.encode v.1).2 ||| v.2))) ∧
    (y = .f32 → (σ.maskedLanes (.vrcp d s m y) y d m fun j => vrcp rm (a j)) ∧ (σ.maskedLanes (.vrsq d s m y) y d m fun j => vrsq rm (a j)) ∧
      (σ.maskedLanes (.vexp2 d s m y) y d m fun j => vexp2 rm (a j)) ∧ σ.maskedLanes (.vlog2 d s m y) y d m fun j => vlog2 rm (a j))

/-- 08 R191 to R195: VRCP, VRSQ, VEXP2 and VLOG2 lane by lane: the special operands, and otherwise the procedure's exact value, from table entries
rounded to f32 and rounded once at the end, with NX unless the procedure's exact path is taken; the tables of VEXP2 and VLOG2, and the constants
L and K, are the stated reals rounded to the nearest f32. -/
def Obligations.FunctionProcedures : Prop :=
  (∀ (rm a : Nat), rm < 4 → a < 2 ^ 32 → let v := f32.unpack a; let x : ℝ := v.rat
    let fs := [vrcp, vrsq, vexp2, vlog2]; let rounded := fun (z : ℝ) (r : Nat × Nat) => roundsIn f32 rm z r
    let once := fun (z : ℝ) (r : Nat × Nat) => ∃ q, rounded z q ∧ r = (q.1, q.2 ||| 16)
    let entry := fun (z : ℝ) (w : ℝ) => ∃ q, roundsIn f32 0 z q ∧ w = (f32.unpack q.1).rat
    (v.isNan → ∀ f ∈ fs, f rm a = (f32.nan, if v.isSnan then 1 else 0)) ∧
    (∀ n, v = .zero n → vrcp rm a = (f32.inf n, 2) ∧ vrsq rm a = (f32.inf n, 2) ∧ vexp2 rm a = (0x3F800000, 0) ∧ vlog2 rm a = (f32.inf true, 2)) ∧
    (∀ n, v = .inf n → vrcp rm a = (f32.zero n, 0) ∧ vrsq rm a = (if n then (f32.nan, 1) else (0, 0)) ∧
      vexp2 rm a = (if n then (0, 0) else (f32.inf false, 0)) ∧ vlog2 rm a = if n then (f32.nan, 1) else (f32.inf false, 0)) ∧
    (∀ m e, v = .fin true m e → vrsq rm a = (f32.nan, 1) ∧ vlog2 rm a = (f32.nan, 1)) ∧
    (v.finite → x ≠ 0 → ∀ ex : Int, 2 ^ ex ≤ |x| → |x| < 2 ^ (ex + 1) → let mm := |x| / 2 ^ ex; let sg : ℝ := if v.neg then -1 else 1
      let at_ := fun (k : ℝ) (m : ℝ) (j : Nat) => j ≤ k * (m - 1) ∧ k * (m - 1) < j + 1
      (mm = 1 → rounded (sg * 2 ^ (-ex)) (vrcp rm a) ∧ (v.neg = false → (ex ≠ 0 → rounded ex (vlog2 rm a)) ∧ (ex = 0 → vlog2 rm a = (0, 0)))) ∧
      (mm ≠ 1 → ∀ j, at_ 64 mm j →
        (∀ rc, entry (128 / (129 + 2 * j)) rc → let d := mm * rc - 1; once (sg * (rc * (1 - d + d ^ 2 - d ^ 3)) * 2 ^ (-ex)) (vrcp rm a)) ∧
        (∀ q lj, v.neg = false → entry (64 / (64 + j)) q → lj = ((f32.unpack (log2Table.getD j 0)).rat : ℝ) → let u := mm * q - 1
          let K : ℝ := (f32.unpack 0x3FB8AA3B).rat; once (ex + lj + K * (u - u ^ 2 / 2 + u ^ 3 / 3 - u ^ 4 / 4)) (vlog2 rm a))) ∧
      (v.neg = false → let odd := ex % 2 ≠ 0; let h : Int := if odd then (ex - 1) / 2 else ex / 2; let mr := if odd then 2 * mm else mm
        (mr = 1 → rounded (2 ^ (-h)) (vrsq rm a)) ∧ (mr ≠ 1 → ∀ j, at_ 32 mr j → ∀ rc, entry (1 / Real.sqrt ((65 + 2 * j) / 64)) rc → let d := mr * rc ^ 2 - 1
          once (rc * (1 - d / 2 + 3 * d ^ 2 / 8 - 5 * d ^ 3 / 16 + 35 * d ^ 4 / 128) * 2 ^ (-h)) (vrsq rm a))) ∧
      (∀ (n : Int) (f : ℝ), x = n + f → 0 ≤ f → f < 1 → (f = 0 → rounded (2 ^ n) (vexp2 rm a)) ∧
        (f ≠ 0 → ∀ j : Nat, j ≤ 64 * f → 64 * f < j + 1 → let tb : ℝ := (f32.unpack (exp2Table.getD j 0)).rat; let L : ℝ := (f32.unpack 0x3F317218).rat
          let h := (f - j / 64) * L; once (2 ^ n * (tb * (1 + h + h ^ 2 / 2 + h ^ 3 / 6))) (vexp2 rm a))))) ∧
  (∀ j : Nat, j < 64 → (roundsIn f32 0 ((2 : ℝ) ^ ((j : ℝ) / 64)) (exp2Table.getD j 0, if j = 0 then 0 else 16)) ∧
    ∀ q fl, roundsIn f32 0 (64 / (64 + (j : ℝ))) (q, fl) → if j = 0 then log2Table.getD j 0 = 0 else
      roundsIn f32 0 (-Real.logb 2 ((f32.unpack q).rat : ℝ)) (log2Table.getD j 0, 16)) ∧
  roundsIn f32 0 (Real.log 2) (0x3F317218, 16) ∧ roundsIn f32 0 (1 / Real.log 2) (0x3FB8AA3B, 16)

/-- 08 R196: the vector compares, lane by lane into a predicate. -/
def Obligations.VectorCompareResults : Prop :=
  ∀ (p : Pred) (s t : Grp) (m : Pred) (y : Ty) (σ : State), let w := tyWidth y
    let a := fun j => lane (σ.grp s) w j; let b := fun j => lane (σ.grp t) w j
    let A := fun j => BitVec.ofNat w (a j); let B := fun j => BitVec.ofNat w (b j)
    let is := fun (i : Instr) (r : Nat → Bool) => σ.maskedBits i y p m fun j => (r j, 0)
    (y.isInt → (is (.vceq p s t m y) fun j => A j = B j) ∧ (is (.vcne p s t m y) fun j => A j ≠ B j) ∧
      (is (.vclt p s t m y) fun j => (A j).toInt < (B j).toInt) ∧ (is (.vcle p s t m y) fun j => (A j).toInt ≤ (B j).toInt) ∧
      (is (.vcltn p s t m y) fun j => A j < B j) ∧ (is (.vclen p s t m y) fun j => A j ≤ B j)) ∧
    (y.isFloat → let N := narrowOf σ.thr.fmtB; let M := narrowOf σ.thr.fmtC
      let u := fun j => if y = .x8 then N.decode (a j) else (ffOf y).unpack (a j)
      let v := fun j => if y = .x8 then M.decode (b j) else (ffOf y).unpack (b j)
      (y = .x8 → N.legal ∧ M.legal) →
      (σ.maskedBits (.vfceq p s t m y) y p m fun j => fpEq (u j) (v j)) ∧ (σ.maskedBits (.vfclt p s t m y) y p m fun j => fpLt (u j) (v j)) ∧
      (σ.maskedBits (.vfcle p s t m y) y p m fun j => fpLe (u j) (v j)) ∧ σ.maskedBits (.vfcun p s t m y) y p m fun j => fpUn (u j) (v j))

/-- 08 R197 to R199: permutes, reductions, scans, compression and expansion; fsum adds in ascending lane order and rounds at each step (R198);
VBCAST, VINS, VEXT and VMOVP. -/
def Obligations.VectorPermuteAndMoveResults : Prop :=
  (∀ (d s t : Grp) (m : Pred) (y : Ty) (σ : State), let w := tyWidth y; let n := tyLanes y
    let a := fun j => lane (σ.grp s) w j; let b := fun j => lane (σ.grp t) w j; let c := fun j => lane (σ.grp d) w j
    let act := (List.range n).filter fun j => (σ.p m).getLsbD j
    let first := fun (v : Nat) => fun j => if j = 0 then v else c j
    let num := fun (v : Nat) => if y = .n32 then (v : Int) else (BitVec.ofNat w v).toInt
    (σ.maskedLanes (.vperm d s t m y) y d m fun j => (a (b j % n), 0)) ∧
    (σ.maskedLanes (.vslide d s t m y) y d m fun j => (if j + 1 < n then a (j + 1) else b 0, 0)) ∧
    (σ.maskedLanes (.vexpd d s m y) y d m fun j => (a (act.filter (· < j)).length, 0)) ∧
    σ.lanes (.vcompr d s m y) y d w n (fun j => ((act.map a)[j]?).getD 0) 0 ∧
    (y.isInt → σ.lanes (.vredadd d s m y) y d w n (first ((act.map a).sum % 2 ^ w)) 0 ∧
      (σ.maskedLanes (.vscan d s m y) y d m fun j => (((act.filter (· ≤ j)).map a).sum % 2 ^ w, 0)) ∧
      (∃ v < 2 ^ w, σ.lanes (.vredmin d s m y) y d w n (first v) 0 ∧
        (act = [] → num v = if y = .n32 then 2 ^ w - 1 else 2 ^ (w - 1) - 1) ∧ (act ≠ [] → v ∈ act.map a) ∧
        ∀ j ∈ act, num v ≤ num (a j)) ∧
      (∃ v < 2 ^ w, σ.lanes (.vredmax d s m y) y d w n (first v) 0 ∧ (act = [] → num v = if y = .n32 then 0 else -2 ^ (w - 1)) ∧
        (act ≠ [] → v ∈ act.map a) ∧ ∀ j ∈ act, num (a j) ≤ num v)) ∧
    (y.isWideFloat → let x := ffOf y; let sum := fsum x σ.thr.rm
      sum [] = (0, 0) ∧ (∀ v, sum [v] = if (x.unpack v).isNan then (x.nan, if (x.unpack v).isSnan then 1 else 0) else (v, 0)) ∧
      (∀ l v, l ≠ [] → let r := x.result σ.thr.rm (FV.add σ.thr.rm (x.unpack (sum l).1) (x.unpack v))
        sum (l ++ [v]) = (r.1, (sum l).2 ||| r.2)) ∧
      σ.lanes (.vfredadd d s m y) y d w n (first (sum (act.map a)).1) (sum (act.map a)).2 ∧
      σ.maskedLanes (.vscan d s m y) y d m fun j => sum ((act.filter (· ≤ j)).map a))) ∧
  (∀ (d : Grp) (s t : Reg) (p : Pred) (b : BWidth) (σ : State), let w := bwidthBits b; let k := 8 * d.val + (σ.g t).toNat % 8
    (∃ v, (∀ j < 512 / w, lane v w j = if (σ.p p).getLsbD j then (σ.g s).toNat % 2 ^ w else lane (σ.grp d) w j) ∧
      σ.leads (.vbcast d s b p) (σ.setGrp d v).retire) ∧
    σ.leads (.vins d s t) (σ.setG k (σ.g s)).retire ∧ σ.leads (.vext d s t) (σ.setG s (σ.g k)).retire ∧
    σ.leads (.vmovp s false p) (σ.setG s (σ.p p)).retire ∧ σ.leads (.vmovp s true p) (σ.setP p (σ.g s)).retire)

/-- 08 R200 to R203: conversions, expansion and quantisation: the lanes below N are converted where they are active. -/
def Obligations.VectorConversionResults : Prop :=
  ∀ (d s t : Grp) (x y : Ty) (h : Fin 2) (m : Pred) (σ : State), let T := σ.thr; let rm := T.rm
    let A := narrowOf T.fmtA; let B := narrowOf T.fmtB
    let is := fun (i : Instr) (w n : Nat) (rest : Nat → Nat) (r : Nat → Nat × Nat) => (∀ n ∈ i.formats T, (narrowOf n).legal = true) →
      ∃ v, (∀ j < 512 / w, lane v w j = if j < n then (if (σ.p m).getLsbD j then (r j).1 % 2 ^ w else lane (σ.grp d) w j) else rest j) ∧
        σ.signals i ((List.range n).foldl (fun acc j => if (σ.p m).getLsbD j then acc ||| (r j).2 else acc) 0)
          fun u => (u.setGrp d v).clearPrefix.retire
    (is (.vcvt d s x m y) (tyWidth y) (min (tyLanes x) (tyLanes y)) (fun _ => 0)
      fun j => convertLane T x y (lane (σ.grp s) (tyWidth x) j)) ∧
    (is (.vexpn d s t m .f32) 32 16 (fun _ => 0)
      fun j => f32.result rm (FV.mul (B.decode (lane (σ.grp s) 8 j)) (f32.unpack (lane (σ.grp t) 32 j)))) ∧
    (is (.vqnt d s t m .x8) 8 16 (fun j => lane (σ.grp d) 8 j) fun j =>
      let q := FV.div (f32.unpack (lane (σ.grp s) 32 j)) (f32.unpack (lane (σ.grp t) 32 j))
      ((A.encode q.1).1, (A.encode q.1).2 ||| q.2)) ∧
    (y.isPacked → let w := tyWidth y; let n := tyLanes y
      let z := match y with
        | .i16 => Ty.i32
        | .x8 => Ty.h16
        | _ => Ty.f32
      (is (.vpack d s t m y) w n (fun _ => 0) fun j =>
        convertLane T z y (if j < n / 2 then lane (σ.grp s) (2 * w) j else lane (σ.grp t) (2 * w) (j - n / 2))) ∧
      is (.vunpk d s h m y) (2 * w) (n / 2) (fun _ => 0) fun j => convertLane T y z (lane (σ.grp s) w (h * (n / 2) + j)))

/-- 08 R200: what one conversion gives: clamped integers, values rounded under TSW.RM, a NaN and a value out of range as NV, narrow codes by
02 R38, an x8 code into x8 too (log entry 18, DEDUCED). -/
def Obligations.ConversionRule : Prop :=
  ∀ (T : Thread) (x y : Ty) (a : Nat), a < 2 ^ tyWidth x →
    let lo : Int := if y = .n32 then 0 else -2 ^ (tyWidth y - 1)
    let hi : Int := if y = .n32 then 2 ^ tyWidth y - 1 else 2 ^ (tyWidth y - 1) - 1
    let bits := fun (z : Int) => (BitVec.ofInt (tyWidth y) z).toNat
    let num : Int := if x = .n32 then a else (BitVec.ofNat (tyWidth x) a).toInt
    let u := if x = .x8 then (narrowOf T.fmtB).decode a else (ffOf x).unpack a
    let nv := if u.isSnan then 1 else 0
    let A := narrowOf T.fmtA
    let r := convertLane T x y a
    (x = y → x ≠ .x8 → r = (a, 0)) ∧
    (x ≠ y → x.isInt → y.isInt → r = (bits (max lo (min hi num)), if lo ≤ num ∧ num ≤ hi then 0 else 32)) ∧
    (x.isInt → y.isWideFloat → r = (ffOf y).pack T.rm (FV.ofInt num 0 false)) ∧ (x.isInt → y = .x8 → r = A.encode (FV.ofInt num 0 false)) ∧
    (¬x.isInt → y.isInt →
      (u.isNan → r = (0, 1)) ∧ (∀ n, u = .inf n → r = (bits (if n then lo else hi), 1)) ∧ (∀ n, u = .zero n → r = (0, 0)) ∧
      ∀ n k e, u = .fin n k e → let q := roundTo T.rm n k e 0; let z : Int := if n then -q.1 else q.1
        r = if lo ≤ z ∧ z ≤ hi then (bits z, if q.2 then 16 else 0) else (bits (max lo (min hi z)), 1)) ∧
    (¬x.isInt → x ≠ y → y.isWideFloat → r = (ffOf y).result T.rm (u, nv)) ∧
    (¬x.isInt → y = .x8 → r = ((A.encode u).1, (A.encode u).2 ||| nv))


/-- 02 R33 to R36, R38, R39: what each code of a legal narrow format stands for, and the code and flags of each value: rounding to nearest
with ties to even whatever TSW.RM holds, MAXFIN, the canonical NaN code, overflow by SPECIAL and SAT, the zeros of each ZC. A NaN code is a
quiet NaN (log entry 94: DESIGN CHOICE). So is, as DEDUCED, the overflow of a format whose magnitudes are all zero (log entry 72). -/
def Obligations.NarrowCodesAndEncoding : Prop :=
  ∀ (d : Nat), d < 2 ^ 32 → (narrowOf d).legal = true → let n := narrowOf d; let W := n.w; let S := n.s; let E := n.e; let M := W - S - E; let B := n.bias
    let nan := if n.zc = 2 then some (2 ^ (W - 1)) else if n.special = 1 then some (2 ^ (W - S) - 1) else
      if n.special = 2 then some ((2 ^ E - 1) * 2 ^ M + 2 ^ (M - 1)) else none
    let gives := fun (r : Nat × Nat) (q : ℚ) (fl : Nat) => r.1 < 2 ^ W ∧ (n.decode r.1).finite ∧ (n.decode r.1).rat = q ∧ r.2 = fl
    (n.w = d % 16 ∧ n.s = d / 16 % 2 ∧ n.e = d / 32 % 8 ∧ n.bias = (if d / 2 ^ 15 % 2 = 1 then (d / 2 ^ 8 % 256 : Int) - 256 else (d / 2 ^ 8 % 256 : Int)) ∧
      n.special = d / 2 ^ 16 % 4 ∧ n.zc = d / 2 ^ 18 % 4 ∧ n.blk = d / 2 ^ 20 % 16 ∧ n.scf = d / 2 ^ 24 % 16 ∧ n.sat = d.testBit 28 ∧ n.rsv = d / 2 ^ 29) ∧
    (∀ c : Nat, c < 2 ^ W → let sg := decide (S = 1) && c.testBit (W - 1); let mg := c % 2 ^ (W - S); let r := n.decode c; let sign : ℚ := if sg then -1 else 1
      let ef := mg / 2 ^ M; let f := mg % 2 ^ M; let is := fun (q : ℚ) => r.finite = true ∧ r.rat = sign * q ∧ r.neg = sg
      (sg = true → mg = 0 → r = if n.zc = 0 then .zero true else if n.zc = 1 then .esc else .nan false) ∧
      (sg = false ∨ mg ≠ 0 → (n.special = 1 → mg = 2 ^ (W - S) - 1 → r = .nan false) ∧ (n.special ≠ 1 ∨ mg ≠ 2 ^ (W - S) - 1 → (E = 0 → is ((mg : ℚ) * 2 ^ (-B))) ∧
        (E ≠ 0 → (n.special = 2 → ef = 2 ^ E - 1 → r = if f = 0 then .inf sg else .nan false) ∧ (n.special ≠ 2 ∨ ef ≠ 2 ^ E - 1 →
          (ef = 0 → is ((f : ℚ) * 2 ^ (1 - B - M))) ∧ (ef ≠ 0 → is ((2 ^ M + f : ℚ) * 2 ^ ((ef : Int) - B - M)))))))) ∧
    (∀ s, n.encode (.nan s) = match nan with
      | some c => (c, 0)
      | none => (0, 1)) ∧
    (∀ sg, n.encode (.zero sg) = (if sg = true ∧ S = 1 ∧ n.zc = 0 then 2 ^ (W - 1) else 0, 0)) ∧
    (∀ top : ℚ, (∃ c < 2 ^ W, (n.decode c).finite ∧ (n.decode c).neg = false ∧ (n.decode c).rat = top) →
      (∀ c < 2 ^ W, (n.decode c).finite → (n.decode c).rat ≤ top) →
      let beyond := fun (sg : Bool) (r : Nat × Nat) => if S = 0 ∧ sg = true then r = (0, 48) else if n.special = 2 ∧ n.sat = false then
        r.1 < 2 ^ W ∧ n.decode r.1 = .inf sg ∧ r.2 = 20 else if n.special = 1 ∧ n.sat = false then some r.1 = nan ∧ r.2 = 20 else
        gives r (if sg then -top else top) 48
      (∀ sg, beyond sg (n.encode (.inf sg))) ∧
      ∀ (sg : Bool) (m : Nat) (e : Int), m ≠ 0 → let a : ℚ := m * 2 ^ e; let r := n.encode (.fin sg m e)
        let tiny := a ≤ 2 ^ (-B - 1) * (if E = 0 then 1 else 2 ^ (1 - (M : Int)))
        (S = 0 → sg = true → ¬tiny → r = (0, 48)) ∧
        (S = 1 ∨ sg = false ∨ tiny → ∀ (L : Int) (k : Nat), (2 : ℚ) ^ L ≤ a → a < 2 ^ (L + 1) → let q : Int := if E = 0 then -B else max L (1 - B) - M
          roundsTo 0 sg (a : ℝ) (2 ^ q) k → let v : ℚ := k * 2 ^ q; let nx := if v = a then 0 else 16
          let uf := if v ≠ a ∧ (E = 0 ∧ v = 0 ∨ E ≠ 0 ∧ v < 2 ^ (1 - B)) then 8 else 0
          (top < v → beyond sg r) ∧ (v ≤ top → (k = 0 → r = (if sg = true ∧ S = 1 ∧ n.zc = 0 then 2 ^ (W - 1) else 0, nx + uf)) ∧
            (k ≠ 0 → gives r (if sg then -v else v) (nx + uf)))))

/-! Memory (04 R81 to R88; 07 R153 to R174; 12 R281 to R299). -/

/-- 07 R153, 04 R81, R82, R88, 12 R283, R293, R299: the checks of a scalar access at the issuing core, in their order; BAD_CID follows
BAD_OFFSET (log entry 16: DEDUCED). Nothing but the trap happens. -/
def Obligations.AccessChecks : Prop :=
  ∀ (i : Instr) (s : State) (va n : Nat) (k : AccessKind), i.access s = some (va, n, k) →
    (i.returns = true → s.thr.rg = false) → (s.module (cidModule s.cur.1)).bootMode = false →
    let traps := fun (c : Nat) => s.leads i (s.trap c (BitVec.ofNat 64 va))
    let f := fun (lo len : Nat) => va / 2 ^ lo % 2 ^ len
    let w := f 60 4; let u := f 19 5; let off := f 0 19; let own := w = 15 ∨ w = 14 ∧ u = s.cur.1 % 32 ∧ u < 24
    let a1 := outsideWindows va
    let a2 := ¬n ∣ va
    let a3 := ((w = 13 ∨ w = 15) ∧ 0x60000 ≤ off) ∨ (w = 14 ∧ (if u < 24 then 0x60000 ≤ off else if u < 29 then 0x40000 ≤ off else
      if u = 29 then 0x1000 ≤ off else True))
    let a4 := w = 13 ∧ (23 ≤ f 37 5 ∨ 24 ≤ f 32 5)
    let dom := s.thr.dom
    let a5 := (own ∧ ∀ j < 8, ¬regionTakes (Tab.get 0 (s.core s.cur.1).prgn j) dom off false none k) ∨
      (w = 14 ∧ ¬own ∧ u < 24 ∧ ∀ j < 8, ¬regionTakes (Tab.get 0 (s.core (s.cur.1 / 32 * 32 + u)).prgn j) dom off true none k) ∨
      (w = 14 ∧ 24 ≤ u ∧ u < 29 ∧ ∀ j < 8, ¬regionTakes (Tab.get 0 (s.cluster (s.cur.1 / 32)).cprgn j) dom off true (some u) k) ∨
      (w = 14 ∧ u = 29 ∧ k ≠ .read)
    (a1 → traps Cause.badAddress) ∧ (¬a1 → a2 → traps Cause.misaligned) ∧ (¬a1 → ¬a2 → a3 → traps Cause.badOffset) ∧
    (¬a1 → ¬a2 → ¬a3 → a4 → traps Cause.badCid) ∧ (¬a1 → ¬a2 → ¬a3 → ¬a4 → a5 → traps Cause.protection) ∧
    (¬a1 → ¬a2 → ¬a3 → ¬a4 → ¬a5 → w = 12 → i.offHost = true → traps Cause.unsupportedOp) ∧
    (¬a1 → ¬a2 → ¬a3 → ¬a4 → ¬a5 → w = 14 → 24 ≤ u → u < 29 → i.onStores = false → traps Cause.protection)

/-- 07 R154, R156, R158, R182, R183: LD and ST in the core's own local memory complete within their pass; a load of poison and a store of
less than a word into poison trap POISON_CONSUMED. -/
def Obligations.LocalLoadAndStore : Prop :=
  ∀ (d b : Reg) (o : BitVec 9) (z : Size) (s : State) (a : Nat), let n := sizeBytes z; let va := s.address b o n
    let u := s.accessed 1; let poison := u.trap Cause.poison (BitVec.ofNat 64 va)
    let p := s.mem.poisoned (a / 8)
    (s.ownByte va n .read = some a →
      (p = false → s.leads (.ld d b o z) ((u.setG d (match z with
        | .i8 => (BitVec.ofNat 8 (s.mem.read a 1)).signExtend 64
        | .i16 => (BitVec.ofNat 16 (s.mem.read a 2)).signExtend 64
        | .i32 => (BitVec.ofNat 32 (s.mem.read a 4)).signExtend 64
        | _ => BitVec.ofNat 64 (s.mem.read a n))).retire)) ∧
      (p = true → s.leads (.ld d b o z) poison)) ∧
    (s.ownByte va n .write = some a →
      (p = false ∨ n = 8 → ∃ m, s.mem.takes m a n (s.gn d) ∧ s.mem.sameFull m ∧ s.leads (.st d b o z) (u.withMem m).retire) ∧
      (p = true → n ≠ 8 → s.leads (.st d b o z) poison))

/-- 12 R282, R283, R286, R287, R293, R294, R291: the presence operations, WAITV and the WAKE family on a word of the core's own local
memory in whose list nobody waits; a release finds its thread's journal entries settled (12 R284). -/
def Obligations.LocalPresenceOperations : Prop :=
  ∀ (d b c : Reg) (o : BitVec 9) (s : State) (a : Nat) (k : AccessKind) (va : Nat), s.ownByte va 8 k = some a →
    s.watched (a / 8) = false → (s.core s.cur.1).pending s.cur.2 = [] →
    let u := s.accessed 1; let full := s.mem.full (a / 8); let p := s.mem.poisoned (a / 8)
    let poison := u.trap Cause.poison (BitVec.ofNat 64 va)
    let room := s.poolRoom a s.thr.dom
    let data := BitVec.ofNat 64 (s.mem.read a 8)
    let setP := fun (i : Instr) (v : Bool) => ∃ m, m = { s.mem with empties := m.empties } ∧ s.mem.presence m a v ∧
      s.leads i (u.withMem m).retire
    let puts := fun (i : Instr) => ∃ m, s.mem.takes m a 8 (s.gn d) ∧ s.mem.presence m a true ∧ s.leads i (u.withMem m).retire
    (va = s.address b o 8 → k = .rmw →
      (full = true → p = false → s.leads (.ldf d b o) ((u.setG d data).retire) ∧
        ∃ m, m = { s.mem with empties := m.empties } ∧ s.mem.presence m a false ∧ s.leads (.ldt d b o) (((u.withMem m).setG d data).retire)) ∧
      (full = true → p = true → s.leads (.ldf d b o) poison ∧ s.leads (.ldt d b o) poison) ∧
      (full = false → room = true → s.joins (.ldf d b o) a .ldf ∧ s.joins (.ldt d b o) a .ldt) ∧
      puts (.stf d b o) ∧ (full = false → puts (.stp d b o)) ∧ (full = true → room = true → s.joins (.stp d b o) a (.stp (s.gn d)))) ∧
    (va = s.gn b → k = .rmw →
      setP (.sete b) false ∧ setP (.setf b) true ∧
      (full = false → s.leads (.waite b) u.retire) ∧ (full = true → room = true → s.joins (.waite b) a .waite) ∧
      (p = false → s.mem.read a 8 ≠ s.gn c → s.leads (.waitv d b c) ((u.setG d 3).retire)) ∧
      (p = false → s.mem.read a 8 = s.gn c → room = false → s.leads (.waitv d b c) ((u.setG d 2).retire)) ∧
      (p = false → s.mem.read a 8 = s.gn c → room = true → s.joins (.waitv d b c) a (.waitv (s.gn c))) ∧
      (p = true → s.leads (.waitv d b c) poison) ∧
      s.leads (.wake1 d b) ((u.setG d 0).retire) ∧ s.leads (.wakea d b) ((u.setG d 0).retire) ∧
      s.leads (.waken d b c) ((u.setG d 0).retire)) ∧
    (va = s.gn b → k = .read →
      s.leads (.probe d b) ((u.setG d (if full then 1 else 0)).retire) ∧
      (full = true → s.leads (.waitf b) u.retire) ∧ (full = false → room = true → s.joins (.waitf b) a .waitf))

/-- 12 R296 to R298, 07 R171, R182, R183: the atomics on the core's own local memory, with return and posted; a form with return finds
its thread's journal entries settled, gives the old value, and traps REGION_ATOMIC in a region, ACAS too. -/
def Obligations.LocalAtomics : Prop :=
  ∀ (w : Width) (d b t : Reg) (s : State) (a : Nat), let u := s.accessed 1; let p := fun (k : Nat) => s.mem.poisoned (a / 8 + k)
    let settled := s.thr.rg = false ∧ (s.core s.cur.1).pending s.cur.2 = []
    let swap := fun (size new : Nat) (full : Prop) (i : Instr) (fin : State → State) => ∃ m, s.mem.sameFull m ∧
      (full → s.mem.takes m a size new) ∧ (¬full → m = s.mem) ∧ s.leads i (fin (u.withMem m)).retire
    let poison := u.trap Cause.poison (s.g b); let n := widthBytes w
    let old := BitVec.ofNat (8 * n) (s.mem.read a n); let x := BitVec.ofNat (8 * n) (s.gn t)
    let both := fun (i j : Instr) (new : BitVec (8 * n)) => s.ownByte (s.gn b) n .rmw = some a →
      (s.thr.rg = true → s.leads i (s.trap Cause.regionAtomic (s.g b))) ∧ (settled → p 0 = true → s.leads i poison) ∧
      (p 0 = true → s.leads j poison) ∧
      (settled → p 0 = false → swap n new.toNat True i fun v => v.setG d (old.setWidth 64)) ∧ (p 0 = false → swap n new.toNat True j id)
    both (.aadd w d b t) (.aaddP w b t) (old + x) ∧ both (.aand w d b t) (.aandP w b t) (old &&& x) ∧
    both (.aor w d b t) (.aorP w b t) (old ||| x) ∧ both (.axor w d b t) (.axorP w b t) (old ^^^ x) ∧
    both (.amin w d b t) (.aminP w b t) (if old.sle x then old else x) ∧ both (.amax w d b t) (.amaxP w b t) (if x.sle old then old else x) ∧
    both (.aminn w d b t) (.aminnP w b t) (if old ≤ x then old else x) ∧ both (.amaxn w d b t) (.amaxnP w b t) (if x ≤ old then old else x) ∧
    both (.axchg w d b t) (.axchgP w b t) x ∧ both (.adecp w d b) (.adecpP w b) (if 0 < old.toInt then old - 1 else old) ∧
    both (.aincw w d b t) (.aincwP w b t) (if x ≤ old then 0 else old + 1) ∧
    both (.afadd w d b t) (.afaddP w b t) (let f := fmtOf w
      BitVec.ofNat _ (f.result 0 (FV.add 0 (f.unpack old.toNat) (f.unpack x.toNat))).1) ∧
    both (.afmin w d b t) (.afminP w b t) (BitVec.ofNat _ ((fmtOf w).min old.toNat x.toNat).1) ∧
    both (.afmax w d b t) (.afmaxP w b t) (BitVec.ofNat _ ((fmtOf w).max old.toNat x.toNat).1) ∧
    (s.thr.rg = true → ∀ i ∈ [Instr.acas64 d b t, .acas32 d b t, .acas128 d b t], s.leads i (s.trap Cause.regionAtomic (s.g b))) ∧
    (settled → s.ownByte (s.gn b) 8 .rmw = some a → let m := s.mem.read a 8
      (p 0 = false → swap 8 (s.gn t) (m = s.gn d) (.acas64 d b t) fun v => v.setG d (BitVec.ofNat 64 m)) ∧ (p 0 = true → s.leads (.acas64 d b t) poison)) ∧
    (settled → s.ownByte (s.gn b) 4 .rmw = some a → let m := s.mem.read a 4
      (p 0 = false → swap 4 (s.gn t) (m = s.gn d % 2 ^ 32) (.acas32 d b t) fun v => v.setG d (BitVec.ofNat 64 m)) ∧ (p 0 = true → s.leads (.acas32 d b t) poison)) ∧
    (settled → s.ownByte (s.gn b) 16 .rmw = some a → let lo := s.mem.read a 8; let hi := s.mem.read (a + 8) 8
      (p 0 = false → p 1 = false → swap 16 (s.gn t + 2 ^ 64 * s.gn (t + 1)) (lo = s.gn d ∧ hi = s.gn (d + 1)) (.acas128 d b t)
        fun v => (v.setG d (BitVec.ofNat 64 lo)).setG (d + 1) (BitVec.ofNat 64 hi)) ∧ (p 0 = true ∨ p 1 = true → s.leads (.acas128 d b t) poison))

/-- 12 R287, R294: a word's wait list is served by the procedure of R287, and the WAKE family wakes the oldest WAITV waiters; each waiter that is
performed leaves the list and is answered in that order. Then the instructions that change P, and the WAKE family, on a word of the core's own
local memory in whose list threads wait. -/
def Obligations.WaitersAreServed : Prop :=
  ∀ (w : Nat) (s : State), w < 2 ^ 61 / 8 → s.mem.wf = true → s.mem.poisoned w = false → (∀ e ∈ s.waitq, e.word = w → e.req.op.waits = true) →
    let mine := fun (t : State) => t.waitq.filter (·.word == w); let others := fun (t : State) => t.waitq.filter (·.word != w)
    let answers := fun (t : State) (l : List (WaitEntry × Ans)) => ∃ ps, t.net = s.net ++ ps ∧ ps.map (fun p => (p.src, p.dst, p.vc, p.body)) =
      l.map fun x => let r := x.1.req; (x.1.replyTo, cidKey r.cid, 1, Body.ans r.cid r.tag r.posted
        (if s.reaches (keyModule x.1.replyTo) (cidKey r.cid) = true then x.2 else .fault Cause.linkUnreachable))
    let run := fun (full : Bool) (v : Nat) => serveRun ((mine s).length + 1) full v (mine s)
    let after := fun (t : State) (q : List (WaitEntry × Ans) × List WaitEntry × Bool × Nat) => mine t = q.2.1 ∧ others t = others s ∧ t.mem.full w = q.2.2.1 ∧
      t.mem.read (8 * w) 8 = q.2.2.2 ∧ (∀ a, a / 8 ≠ w → t.mem.byte a = s.mem.byte a ∧ t.mem.full (a / 8) = s.mem.full (a / 8)) ∧ answers t q.1
    let waitv := fun (e : WaitEntry) => e.word == w && !e.presence; let sleepers := s.waitq.filter waitv
    let woken := fun (t : State) (n : Nat) => t.waitq.filter waitv = sleepers.drop n ∧ t.waitq.filter (fun e => !waitv e) = s.waitq.filter (fun e => !waitv e) ∧
      t.mem = s.mem ∧ answers t ((sleepers.take n).map fun e => (e, .data 0))
    let old := s.mem.read (8 * w) 8;
    (let t := s.serveAll w; t = { s with mem := t.mem, waitq := t.waitq, net := t.net } ∧ after t (run (s.mem.full w) old)) ∧
    (∀ n, let r := s.wakeN w n; r.1 = min n sleepers.length ∧ r.2 = { s with waitq := r.2.waitq, net := r.2.net } ∧ woken r.2 n) ∧
    (∀ (d b c : Reg) (o : BitVec 9) (k : AccessKind) (va : Nat), s.ownByte va 8 k = some (8 * w) → k = .rmw → (s.core s.cur.1).pending s.cur.2 = [] →
      let goes := fun (i : Instr) (q : State → Prop) => s.admits i → ∃ t, exec i s = .next t ∧ t.thr.pc = s.thr.pc + 4 ∧ t.thr.st = s.thr.st ∧ q t
      let keeps := fun (t : State) => ∀ j, t.g j = s.g j
      let counts := fun (i : Instr) (n : Nat) => goes i fun t => woken t n ∧
        ∀ j, t.g j = if j = d.val then BitVec.ofNat 64 (min n sleepers.length) else s.g j;
      (va = s.gn b → (goes (.sete b) fun t => after t (run false old) ∧ keeps t) ∧ (goes (.setf b) fun t => after t (run true old) ∧ keeps t) ∧
        counts (.wake1 d b) 1 ∧ counts (.wakea d b) sleepers.length ∧ counts (.waken d b c) (s.gn c)) ∧
      (va = s.address b o 8 → (goes (.stf d b o) fun t => after t (run true (s.gn d)) ∧ keeps t) ∧
        (s.mem.full w = false → goes (.stp d b o) fun t => after t (run true (s.gn d)) ∧ keeps t) ∧
        (s.mem.full w = true → goes (.ldt d b o) fun t => after t (run false old) ∧ ∀ j, t.g j = if j = d.val then BitVec.ofNat 64 old else s.g j)))

/-- 07 R154, R159, 12 R283, R298: a store, STF, STP or posted atomic on a global path takes a free journal entry of its kind with its VA
and operation, and its thread goes on; nothing of memory and of the registers changes. Any other access of a thread with no unsettled entry
sends its request to the home of its address and parks until the answer; so does an access that TSW.MR does not migrate. -/
def Obligations.GlobalAccessesEnterJournalOrWait : Prop :=
  ∀ (d b t : Reg) (o : BitVec 9) (z : Size) (w : Width) (s : State), let c := s.core s.cur.1
    let enters := fun (i : Instr) (op : Op) (va n kind : Nat) => (∃ x, s.checkAccess s.cur.1 s.thr.dom va n op.kind = .ok x ∧ x.path = .global ∧
        (kind = 1 ∨ kind = 2 → x.isHost = false) ∧ (s.thr.mr = true → kind ≠ 3 → s.migrationTarget x = none)) → s.thr.scdef = false → (kind = 1 ∨ kind = 2 → c.pending s.cur.2 = []) →
      c.journal.length < 64 → (c.jwait = [] ∨ c.jwait.head? = some s.cur.2) → s.scHeld s.cur.1 s.cur.2 = false → s.admits i →
      ∃ u num, exec i s = .next u ∧ num ∉ c.journal.map (·.num) ∧ num < 64 ∧
        (u.core s.cur.1).journal.map (fun e => (e.num, e.slot, e.kind, e.req.va, e.req.op, e.region)) =
          c.journal.map (fun e => (e.num, e.slot, e.kind, e.req.va, e.req.op, e.region)) ++ [(num, s.cur.2, kind, va, op, s.thr.rg)] ∧
        u.mem = s.mem ∧ (∀ k, u.g k = s.g k) ∧ u.thr = { s.thr with pc := s.thr.pc + 4, issue0 := none, gathered := [] }
    let n := sizeBytes z; let at_ := s.address b o 8; let m := widthBytes w; let v := s.gn t
    enters (.st d b o z) (.store n (s.gn d % 2 ^ (8 * n))) (s.address b o n) n 0 ∧ enters (.stf d b o) (.stf (s.gn d)) at_ 8 1 ∧
    enters (.stp d b o) (.stp (s.gn d)) at_ 8 2 ∧
    (∀ p ∈ [(Instr.aaddP w b t, AtomKind.add, v), (.aandP w b t, .and, v), (.aorP w b t, .or, v), (.axorP w b t, .xor, v),
      (.aminP w b t, .min, v), (.amaxP w b t, .max, v), (.aminnP w b t, .minn, v), (.amaxnP w b t, .maxn, v), (.axchgP w b t, .xchg, v),
      (.adecpP w b, .decp, 0), (.aincwP w b t, .incw, v), (.afaddP w b t, .fadd, v), (.afminP w b t, .fmin, v), (.afmaxP w b t, .fmax, v)],
      enters p.1 (.atom p.2.1 m p.2.2) (s.gn b) m 3) ∧
    (∀ p ∈ [(Instr.ld d b o z, Op.load n), (.ldf d b o, .ldf), (.ldt d b o, .ldt), (.sete b, .sete), (.setf b, .setf), (.probe d b, .probe), (.waitf b, .waitf),
        (.waite b, .waite), (.waitv d b t, .waitv v), (.wake1 d b, .wake (some 1)), (.wakea d b, .wake none), (.waken d b t, .wake (some v)),
        (.aadd w d b t, .atom .add m v), (.aand w d b t, .atom .and m v), (.aor w d b t, .atom .or m v), (.axor w d b t, .atom .xor m v),
        (.amin w d b t, .atom .min m v), (.amax w d b t, .atom .max m v), (.aminn w d b t, .atom .minn m v), (.amaxn w d b t, .atom .maxn m v),
        (.axchg w d b t, .atom .xchg m v), (.adecp w d b, .atom .decp m 0), (.aincw w d b t, .atom .incw m v), (.afadd w d b t, .atom .fadd m v),
        (.afmin w d b t, .atom .fmin m v), (.afmax w d b t, .atom .fmax m v), (.acas64 d b t, .cas 8 (s.gn d) v), (.acas32 d b t, .cas 4 (s.gn d % 2 ^ 32) (v % 2 ^ 32)),
        (.acas128 d b t, .cas 16 (s.gn d + 2 ^ 64 * s.gn (d + 1)) (v + 2 ^ 64 * s.gn (t + 1)))],
      ∀ va size k x, p.1.access s = some (va, size, k) → s.checkAccess s.cur.1 s.thr.dom va size p.2.kind = .ok x → x.path = .global →
        (x.isHost = true → p.1.offHost = false) → (s.thr.mr = true → s.migrationTarget x = none) → (p.1.returns = true → s.thr.rg = false) → c.pending s.cur.2 = [] →
        let key := s.targetKey s.cur.1 s.thr.dom x; s.reaches (cidModule s.cur.1) key = true → s.admits p.1 → ∃ u r q, exec p.1 s = .next u ∧
          u.net = s.net ++ [q] ∧ q.src = coreSource s.cur.1 ∧ q.dst = key ∧ q.vc = 0 ∧ q.body = .req r ∧ r.op = p.2 ∧ r.va = va ∧ r.cid = s.cur.1 ∧ r.tag = c.tagCount ∧
          r.dom = s.thr.dom ∧ r.posted = false ∧ u.thr.st = .parkedMem ∧ u.thr.pc = s.thr.pc ∧ u.mem = s.mem ∧ ∀ j, u.g j = s.g j)

/-- 07 R163 to R166, R170 to R174: FENCE, JSYNC, RBEGIN, RCOMMIT, RABORT, PREF and TOUCH. The entries that a FENCE waits for are those whose
target R163's table puts in its scope. A RCOMMIT while a rollback waits completes with no other effect (log entry 19). A TOUCH waits on an
overlapping journal entry of its own thread (log entry 105, DEDUCED). -/
def Obligations.FencesAndRegions : Prop :=
  ∀ (d b : Reg) (c : Scope) (wr : Bool) (s : State), let me := s.core s.cur.1
    let waits := fun (i : Instr) (w : CoreWait) => s.admits i → ∃ t, exec i s = .next t ∧ t.thr.st = .parkedMem ∧ t.thr.wait = .core w ∧
      t.thr.pc = s.thr.pc ∧ t.mem = s.mem ∧ t.net = s.net ∧ ∀ k, t.g k = s.g k
    let setRg := fun (v : Bool) (t : Thread) => t.setTswBit 15 v
    s.pendingIn s.cur.1 s.cur.2 c = (me.pending s.cur.2).filter (fun e => s.inScope s.cur.1 e.req.dom e.req.va c) ∧
    ((s.module (cidModule s.cur.1)).bootMode = false → ∀ dom va, ¬outsideWindows va → let cid := s.cur.1; let w := va / 2 ^ 60
      let k := va / 2 ^ 32 % 2 ^ 26; let home := s.homeOf cid dom (targetOf cid va); let own := w = 13 ∧ k = cid ∨ w = 14 ∧ va / 2 ^ 19 % 32 = cid % 32 ∨ w = 15
      let near := own ∨ w = 14 ∨ w = 13 ∧ k / 32 = cid / 32
      let die := near ∨ w = 13 ∧ k / 2 ^ 10 = cid / 2 ^ 10 ∨ ∃ m st ch, home = some (m, st, ch) ∧ m = cid / 2 ^ 14 ∧ st = cid / 2 ^ 10 % 16
      cid < 2 ^ 26 → cid % 32 < 24 → (s.inScope cid dom va c = true ↔ match c with
          | .core => own
          | .cluster => near
          | .die => die
          | .module => die ∨ w = 13 ∧ k / 2 ^ 14 = cid / 2 ^ 14 ∨ ∃ m st ch, home = some (m, st, ch) ∧ m = cid / 2 ^ 14
          | .fabric => w ≠ 12
          | .system => True)) ∧
    (s.pendingIn s.cur.1 s.cur.2 c ≠ [] → waits (.fence c) (.fence c)) ∧
    (s.pendingIn s.cur.1 s.cur.2 c = [] → c ≠ .system →
      s.leads (.fence c) (s.onThr fun t => { t with cur := none, nxt := none, fetches := [] }).retire) ∧
    (s.pendingIn s.cur.1 s.cur.2 .system = [] → s.admits (.fence .system) → ∃ t r, exec (.fence .system) s = .next t ∧ r.op = .orderRead ∧
      t.net = s.net ++ [⟨coreSource s.cur.1, endpointKey (cidModule s.cur.1), 0, none, false, .req r⟩] ∧ t.thr.st = .parkedMem ∧
      t.thr.pc = s.thr.pc ∧ t.mem = s.mem) ∧
    (me.pending s.cur.2 = [] → s.leads .jsync s.retire) ∧ (me.pending s.cur.2 ≠ [] → waits .jsync .drain) ∧
    (s.thr.rg = true → s.leads (.rbegin d) (s.trap Cause.regionState 0)) ∧
    (s.thr.rg = false → me.checkpoints < 16 → (me.ckwait = [] ∨ me.ckwait.head? = some s.cur.2) → s.admits (.rbegin d) →
      ∃ t k, exec (.rbegin d) s = .next t ∧ t.thr = { setRg true s.thr with ckpt := some k, pc := s.thr.pc + 4, issue0 := none, gathered := [] } ∧
        k.regs = (List.range s.thr.win).map s.g ∧ k.preds = s.thr.preds ∧ k.fds = s.thr.fds ∧ k.lk = s.thr.lk ∧ k.tsw = s.thr.tsw ∧ k.d = d ∧
        k.pc = s.thr.pc ∧ t.mem = s.mem ∧ ∀ j, t.g j = if j = d.val then 0 else s.g j) ∧
    (s.thr.rg = false → 16 ≤ me.checkpoints → waits (.rbegin d) .checkpoint) ∧
    (s.thr.rg = false → s.leads .rcommit (s.trap Cause.regionState 0) ∧ s.leads (.rabort b) (s.trap Cause.regionState 0)) ∧
    (s.thr.rg = true → s.thr.rollback ≠ none → s.leads .rcommit s.retire) ∧
    (s.thr.rg = true → s.thr.rollback = none → s.regionPending s.cur.1 s.cur.2 = [] → s.leads .rcommit (s.onThr fun t => { setRg false t with ckpt := none }).retire) ∧
    (s.thr.rg = true → s.thr.rollback = none → s.regionPending s.cur.1 s.cur.2 ≠ [] → waits .rcommit .commit) ∧
    (∀ k, s.thr.rg = true → s.thr.trap.tdepth = 0 → s.thr.rollback = none → s.thr.ckpt = some k → k.regs.length = s.thr.win → s.admits (.rabort b) →
      ∃ t, exec (.rabort b) s = .next t ∧ t.thr.pc = k.pc + 4 ∧ t.thr.rg = false ∧ t.thr.pp = false ∧ t.thr.ckpt = none ∧ t.thr.preds = k.preds ∧
        t.thr.fds = k.fds ∧ t.thr.lk = k.lk ∧ t.thr.rcnt = min (s.thr.rcnt + 1) (2 ^ 32 - 1) ∧
        (∀ i, 16 ≤ i → i < 26 → t.thr.tsw.getLsbD i = k.tsw.getLsbD i) ∧ t.thr.mr = k.tsw.getLsbD 14 ∧ t.thr.k = s.thr.k ∧
        (∀ j, j < s.thr.win → j ≠ k.d → t.g j = k.regs.getD j 0) ∧ t.g k.d = 0x8000000000000000#64 ||| s.g b ∧ t.mem = s.mem) ∧
    (s.admits (.pref b) → ∃ t, exec (.pref b) s = .next t ∧ t = { s.retire with tlb := t.tlb, tick := t.tick }) ∧
    (∀ a, s.ownByte (s.gn b) 8 (if wr then .write else .read) = some a → s.leads (.touch b wr) (s.accessed 1).retire)

/-- 07 R175, R176, 04 R74, R83: MIGR, and a load or store whose home is on another stack under MR: the thread drains its journal, sends its context
to the host cluster of the home, and stays parked. Window by window where MIGR goes, and which accesses migrate. The model's own readings: an
absent module traps LINK_UNREACHABLE before the state TRAP lets MIGR complete (log entry 57, DEDUCED), an invalid CID traps BAD_CID (log entry
96). -/
def Obligations.MigrationSendsContext : Prop :=
  ∀ (b d : Reg) (o : BitVec 9) (z : Size) (s : State), let cid := s.cur.1; let idle := (s.core cid).pending s.cur.2 = []
    let sends := fun (i : Instr) (dst : Nat) (anyCore : Bool) (key : Nat) (pc : Word) (regs : List Nat) => s.admits i →
      ∃ t g p, exec i s = .next t ∧ t.net = s.net ++ [p] ∧ p.dst = key ∧ p.vc = 3 ∧ p.body = .migrate g ∧ g.dst = dst ∧ g.anyCore = anyCore ∧
        g.srcCid = cid ∧ g.srcSlot = s.cur.2 ∧ g.th.pc = pc ∧ g.th.tsw = s.thr.tsw ∧ g.th.preds = s.thr.preds ∧ g.th.lk = s.thr.lk ∧
        (∀ k < s.thr.win, g.regs.getD k 0 =
          if (if k < 64 then s.thr.live0.getLsbD k else s.thr.live1.getLsbD (k - 64)) ∨ k ∈ regs then s.g k else 0) ∧
        t.thr.st = .parkedMem ∧ t.thr.pc = s.thr.pc ∧ t.mem = s.mem
    let traps := fun (c : Nat) => s.leads (.migr b) (s.trap c (s.g b))
    let there := fun (cl : Nat) => s.reaches (cidModule cid) (clusterKey cl) = true; let here := cid / 2 ^ 10;
    (s.thr.rg = true → s.leads (.migr b) (s.trap Cause.regionState 0)) ∧
    ((s.module (cidModule cid)).bootMode = false → cid < 2 ^ 26 → let va := s.gn b; let w := va / 2 ^ 60; let place := s.placeOf cid s.thr.dom va
      let f := fun (lo len : Nat) => va / 2 ^ lo % 2 ^ len; let k := f 32 26; let masks := s.masks (cidModule cid) s.thr.dom
      let bit := fun (i : Nat) => ((List.range 40).filter fun j => va.testBit (j + 8) && (masks.getD i 0).getLsbD j).length % 2
      let stack := bit 0 + 2 * bit 1 + 4 * bit 2 + 8 * bit 3; let ch := bit 4 + 2 * bit 5 + 4 * bit 6 + 8 * bit 7 + 16 * bit 8
      let at_ := fun (m st ch : Nat) => place = if m * 16 + st = here then .here else .cluster ((m * 16 + st) * 32 + 23 * ch / 32);
      (outsideWindows va ∨ w = 12 ∨ w = 14 ∨ w = 15 → place = .bad Cause.badAddress) ∧
      (¬outsideWindows va → (w = 13 → place = if 23 ≤ f 37 5 ∨ 24 ≤ f 32 5 then .bad Cause.badCid else if k = cid then .here else .core k) ∧
        (w = 8 → at_ (f 46 12) (f 42 4) (f 37 5)) ∧ (w = 0 → at_ (cid / 2 ^ 14) stack ch))) ∧
    (∀ t, (s.homeOf cid s.thr.dom t = none → s.migrationTarget t = none) ∧ ∀ m st ch, s.homeOf cid s.thr.dom t = some (m, st, ch) → st < 16 →
      let cl := (m * 16 + st) * 32 + 23 * ch / 32
      s.migrationTarget t = if m * 16 + st ≠ here ∧ s.thr.rg = false ∧ s.thr.stays = false ∧ s.thr.st ≠ .trap ∧ s.holdsEngine s.thr.uid = false ∧
        s.clusterIn cl s.thr.dom = true ∧ there cl then some cl else none) ∧
    (s.thr.rg = false →
      (∀ c, s.placeOf cid s.thr.dom (s.gn b) = .bad c → traps c) ∧
      (s.placeOf cid s.thr.dom (s.gn b) = .here → s.leads (.migr b) s.retire) ∧
      (∀ cl, s.placeOf cid s.thr.dom (s.gn b) = .cluster cl →
        (clusterModule cl ∉ s.present → traps Cause.linkUnreachable) ∧
        let may := s.thr.st ≠ .trap ∧ s.holdsEngine s.thr.uid = false ∧ there cl ∧ s.clusterIn cl s.thr.dom = true
        (clusterModule cl ∈ s.present → ¬may → s.leads (.migr b) s.retire) ∧
        (clusterModule cl ∈ s.present → may → idle → sends (.migr b) cl true (clusterKey cl) (s.thr.pc + 4) [b.val])) ∧
      (∀ k, s.placeOf cid s.thr.dom (s.gn b) = .core k →
        (cidModule k ∉ s.present → traps Cause.linkUnreachable) ∧
        let may := s.thr.st ≠ .trap ∧ s.holdsEngine s.thr.uid = false ∧ there (cidCluster k) ∧ s.clusterAvailable (cidCluster k) s.thr.dom = true ∧
          s.coreOpen k s.thr.dom = true ∧ s.fused k = false
        (cidModule k ∈ s.present → ¬may → s.leads (.migr b) s.retire) ∧
        (cidModule k ∈ s.present → may → idle → sends (.migr b) k false (cidKey k) (s.thr.pc + 4) [b.val]))) ∧
    (∀ t cl, s.thr.mr = true → s.migrationTarget t = some cl → t.isHost = false → t.isStore = false → idle →
      (s.checkAccess cid s.thr.dom (s.address b o (sizeBytes z)) (sizeBytes z) .read = .ok t → sends (.ld d b o z) cl true (clusterKey cl) s.thr.pc [d.val, b.val]) ∧
      (s.checkAccess cid s.thr.dom (s.address b o (sizeBytes z)) (sizeBytes z) .write = .ok t → sends (.st d b o z) cl true (clusterKey cl) s.thr.pc [d.val, b.val]) ∧
      (s.checkAccess cid s.thr.dom (s.address b o 8) 8 .rmw = .ok t →
        sends (.ldf d b o) cl true (clusterKey cl) s.thr.pc [d.val, b.val] ∧ sends (.ldt d b o) cl true (clusterKey cl) s.thr.pc [d.val, b.val] ∧
        sends (.stp d b o) cl true (clusterKey cl) s.thr.pc [d.val, b.val] ∧ sends (.stf d b o) cl true (clusterKey cl) s.thr.pc [d.val, b.val]))

/-- 08 R204 to R207, 07 R154, R155, 13 R307: the vector accesses whose active units all lie in the core's own local memory complete within their
pass; the block check comes first, then the units in lane order, and a failing unit traps before anything happens. VLD reads each word once. A store
is checked for poison before any word is written (log entry 55, DEDUCED), and the lowest failing lane is the one that traps (log entry 84,
DEDUCED): the model's choices. -/
def Obligations.LocalVectorAccesses : Prop :=
  ∀ (d v : Grp) (b t : Reg) (z : Bool) (m : Pred) (s : State), let on := fun (j : Nat) => (s.p m).getLsbD j
    let act := fun (size : Nat) => (List.range (64 / size)).filter on; let a := s.gn b
    let u := fun (size : Nat) => s.accessed (act size).length; let idle := (s.core s.cur.1).pending s.cur.2 = []
    let fits := fun (k : AccessKind) (size : Nat) (va home : Nat → Nat) => ∀ j ∈ act size, s.ownByte (va j) size k = some (home j)
    let fails := fun (i : Instr) (k : AccessKind) (size : Nat) (va : Nat → Nat) => ∀ j ∈ act size, ∀ c,
      s.checkAccess s.cur.1 s.thr.dom (va j) size k = .error c → (∀ l ∈ act size, l < j → ∃ x, s.ownByte (va l) size k = some x) →
      s.leads i (s.trap c (BitVec.ofNat 64 (va j)))
    let block := fun (i : Instr) (size align : Nat) => (addressBad a = true → s.leads i (s.trap Cause.badAddress (s.g b))) ∧
      (addressBad a = false → a % align ≠ 0 → s.leads i (s.trap Cause.misaligned (s.g b))) ∧
      (addressBad a = false → a % align = 0 → act size = [] → s.leads i (if i = .vstp d b m ∧ ¬idle then s.parkCore .drain else s.retire))
    let loads := fun (i : Instr) (k : AccessKind) (size : Nat) (u : State) (va : Nat → Nat) => ∀ home, fits k size va home → act size ≠ [] →
      (∀ j ∈ act size, s.mem.poisoned (home j / 8) = false ∧ (k = .rmw → s.mem.full (home j / 8) = true)) →
      ∃ w, (∀ j < 64 / size, lane w (8 * size) j = if on j then s.mem.read (home j) size else lane (s.grp d) (8 * size) j) ∧
        s.leads i ((u.setGrp d w).retire)
    let stores := fun (i : Instr) (size : Nat) (va : Nat → Nat) => ∀ home, fits .write size va home → act size ≠ [] → let bad := fun (j : Nat) => size ≠ 8 ∧ s.mem.poisoned (home j / 8) = true
      ((∀ j ∈ act size, ¬bad j) → s.leads i ((s.withMem
        ((act size).foldl (fun x j => (x.write (home j) size (lane (s.grp d) (8 * size) j)).setPoison (home j / 8) false) s.mem)).retire)) ∧
      (∀ j ∈ act size, bad j → (∀ l ∈ act size, l < j → ¬bad l) → s.leads i (s.trap Cause.poison (BitVec.ofNat 64 (va j))))
    let n := gatherSize z; let row := fun (size j : Nat) => a + size * j
    let strided := fun (j : Nat) => (s.g b + BitVec.ofNat 64 j * s.g t).toNat
    let indexed := fun (j : Nat) => (s.g b + BitVec.ofNat 64 (lane (s.grp v) 32 j * n)).toNat
    let aligned := addressBad a = false ∧ a % 64 = 0; let words := s.accessed ((List.range 8).filter fun j => on (2 * j) || on (2 * j + 1)).length
    block (.vld d b m) 4 64 ∧ (aligned → loads (.vld d b m) .read 4 words (row 4) ∧ fails (.vld d b m) .read 4 (row 4)) ∧
    block (.vldf d b m) 8 64 ∧ (aligned → loads (.vldf d b m) .rmw 8 (u 8) (row 8) ∧ fails (.vldf d b m) .rmw 8 (row 8)) ∧
    block (.vldb d b m) 8 8 ∧ (addressBad a = false → a % 8 = 0 →
      loads (.vldb d b m) .read 8 (u 8) (fun _ => a) ∧ fails (.vldb d b m) .read 8 (fun _ => a)) ∧
    loads (.vlds d b t m) .read 4 (u 4) strided ∧ fails (.vlds d b t m) .read 4 strided ∧
    loads (.vgath d b v z m) .read n (u n) indexed ∧ fails (.vgath d b v z m) .read n indexed ∧
    stores (.vsts d b t m) 4 strided ∧ fails (.vsts d b t m) .write 4 strided ∧
    stores (.vscat d b v z m) n indexed ∧ fails (.vscat d b v z m) .write n indexed ∧
    block (.vst d b m) 4 64 ∧ (aligned → fails (.vst d b m) .write 4 (row 4) ∧
      ∀ base, fits .write 4 (row 4) (fun j => base + 4 * j) → act 4 ≠ [] →
        ((∀ k < 8, s.mem.poisoned (base / 8 + k) = false) → ∃ x, s.mem.sameFull x ∧
          (s.mem.wf = true → ∀ y, x.byte y = if base ≤ y ∧ y < base + 64 ∧ on ((y - base) / 4) = true then BitVec.ofNat 8 (s.grp d / 256 ^ (y - base))
            else s.mem.byte y) ∧ s.leads (.vst d b m) (((s.accessed 1).withMem x).retire)) ∧
        (∀ k < 8, on (2 * k) ≠ on (2 * k + 1) → s.mem.poisoned (base / 8 + k) = true → s.leads (.vst d b m) ((s.accessed 1).trap Cause.poison (s.g b)))) ∧
    block (.vstp d b m) 8 64 ∧ (aligned → fails (.vstp d b m) .rmw 8 (row 8) ∧ (idle →
      ∀ home, fits .rmw 8 (row 8) home → act 8 ≠ [] → (∀ j ∈ act 8, s.mem.full (home j / 8) = false ∧ s.watched (home j / 8) = false) →
        s.leads (.vstp d b m) (((u 8).withMem ((act 8).foldl (fun x j =>
          ((x.write (home j) 8 (s.gn (8 * d + j))).setPoison (home j / 8) false).setFull (home j / 8) true) s.mem)).retire)))

/-- 08 R208: VISECT, VUNION and VDIFF on lists in the core's own local memory: what one execution emits, whether it is done, and where it
leaves the pointers; a misaligned pointer traps. -/
def Obligations.StreamSetOperations : Prop :=
  ∀ (d : Grp) (r t : Reg) (s : State) (i : Instr) (op : StreamOp), (op, i) ∈ [(.isect, .visect d r t), (.union, .vunion d r t), (.diff, .vdiff d r t)] →
    let pa := s.g r; let pb := s.g (r + 2)
    (pa.toNat % 4 ≠ 0 → s.leads i (s.trap Cause.misaligned pa)) ∧
    (pa.toNat % 4 = 0 → pb.toNat % 4 ≠ 0 → s.leads i (s.trap Cause.misaligned pb)) ∧
    (∀ a b : List Nat,
      let holds := fun (p e : Word) (l : List Nat) => p.toNat % 4 = 0 ∧ l.length = (e.toNat + 3 - p.toNat) / 4 ∧
        ∀ j < l.length, ∃ x, s.ownByte (p.toNat + 4 * j) 4 .read = some x ∧ s.mem.poisoned (x / 8) = false ∧ s.mem.read x 4 = l.getD j 0
      holds pa (s.g (r + 1)) a → holds pb (s.g (r + 3)) b →
      let q := streamRun op 64 a b false false 0 []; let k := q.1.length
      ∃ v, (∀ j < 16, lane v 32 j = q.1.getD j 0) ∧
        s.leads i (((((s.setG r (pa + BitVec.ofNat 64 (4 * (a.length - q.2.2.1.length)))).setG (r + 2) (pb + BitVec.ofNat 64 (4 * (b.length - q.2.2.2.length)))).setG
          (r + 4) (s.g (r + 4) + BitVec.ofNat 64 k)).setG t (BitVec.ofNat 64 (k + if q.2.1 then 256 else 0))).setGrp d v).retire)

/-! Tasks, system instructions, engines (09 R213 to R225; 10 R229 to R247; 11 R254 to R278; 12 R301 to R305; 14 R335 to R346). -/

/-- 12 R301 to R303, R305, 01 R14: SPAWN, SPAWNF, TEND, SEND and TSELF; the entry descriptor, and the future, on which nobody waits, lie
in the core's own local memory. The model's choices: TFADDR of a SPAWN with nonzero bits 2:1 is gS (log entry 75, DEDUCED), and a SEND waits while
a message is held at its destination (log entry 46, DEDUCED). -/
def Obligations.TaskInstructions : Prop :=
  ∀ (d a b : Reg) (n : Fin 9) (s : State), let cid := s.cur.1; let me := s.core cid; let settled := me.pending s.cur.2 = []
    let rg := s.thr.rg = true; let own := cid / 32; let room := fun (c : Nat) => (s.cluster c).spawn.length < 512
    let e := s.gn a / 8 * 8
    (rg → (∀ i ∈ [Instr.spawn a b, .spawnf d a b, .tend a], s.leads i (s.trap Cause.regionState 0)) ∧ s.leads (.send n a b) (s.trap Cause.regionState (s.g a))) ∧
    (¬rg → s.gn a / 2 % 4 ≠ 0 → ∀ i ∈ [Instr.spawn a b, .spawnf d a b], s.leads i (s.trap Cause.misaligned (s.g a))) ∧
    (∀ c, ¬rg → s.gn a / 2 % 4 = 0 → s.checkAccess cid s.thr.dom e 8 .read = .error c →
      ∀ i ∈ [Instr.spawn a b, .spawnf d a b], s.leads i (s.trap c (BitVec.ofNat 64 e))) ∧
    (∀ x c, ¬rg → s.gn a / 2 % 4 = 0 → s.checkAccess cid s.thr.dom e 8 .read = .ok x → s.checkAccess cid s.thr.dom (s.gn d) 8 .rmw = .error c →
      s.leads (.spawnf d a b) (s.trap c (s.g d))) ∧
    (∀ x, ¬rg → s.gn a / 2 % 4 = 0 → s.ownByte e 8 .read = some x → s.mem.poisoned (x / 8) = false → s.thr.gathered = [] →
      let v := s.mem.read x 8; let win := v / 2 ^ 32 % 256
      let good := 8 ≤ win ∧ win ≤ 128 ∧ win % 8 = 0 ∧ v < 2 ^ 44
      let takes := fun (c : Nat) => room own ∧ c = own ∨
        ¬room own ∧ s.gn a % 2 = 1 ∧ ((s.launchCores s.thr.launch).map (· / 32)).find? (fun c => decide (room c)) = some c;
      let spawned := fun (u : State) (c : Nat) (f : Word) (w : Bool) => (u.onCluster c fun k => { k with
        spawn := k.spawn ++ [⟨BitVec.ofNat 64 e, BitVec.ofNat 64 v, s.g b, f, w, s.thr.launch, s.thr.dom⟩] }).retire;
      (¬settled → s.leads (.spawn a b) (s.parkCore .drain)) ∧
      (settled → ¬good → s.leads (.spawn a b) (s.trap Cause.badDescriptor (BitVec.ofNat 64 e))) ∧
      (settled → good → (∀ c, takes c → s.leads (.spawn a b) (spawned s c 0 false)) ∧
        ((∀ c, ¬takes c) → s.admits (.spawn a b) → ∃ t, exec (.spawn a b) s = .next t ∧ t.thr.st = .parkedMem ∧
          t.thr.wait = .core .spawnRoom ∧ t.thr.pc = s.thr.pc ∧ t.mem = s.mem)) ∧
      (∀ y, s.ownByte (s.gn d) 8 .rmw = some y → s.watched (y / 8) = false → settled → good → ∀ c, takes c →
        ∃ m, m = { s.mem with empties := m.empties } ∧ s.mem.presence m y false ∧ s.leads (.spawnf d a b) (spawned (s.withMem m) c (s.g d) true))) ∧
    (¬rg → ¬settled → s.leads (.tend a) (s.parkCore .drain)) ∧
    (¬rg → settled → s.thr.origin ≠ 2 → s.admits (.tend a) → ∃ t, exec (.tend a) s = .next t ∧ t.thr = Thread.fresh ∧ t.mem = s.mem) ∧
    (∀ y, ¬rg → settled → s.thr.origin = 2 → s.ownByte s.thr.future.toNat 8 .rmw = some y → s.watched (y / 8) = false → s.admits (.tend a) →
      ∃ t, exec (.tend a) s = .next t ∧ t.thr = Thread.fresh ∧ s.mem.takes t.mem y 8 (s.gn a) ∧ s.mem.presence t.mem y true) ∧
    (¬rg → let w := s.gn a; let c := w / 2 ^ 32 % 16; let dst := s.resolveCid cid (w % 2 ^ 26); let i := Instr.send n a b
      let class_ := 1 ≤ c ∧ c ≤ 14; let core := w / 2 ^ 26 % 64 = 0 ∧ s.cidOk cid (w % 2 ^ 26) = true;
      let waiting := ∃ src g va e l, Arrival.msg src g va e l ∈ (s.core dst).held;
      let g : Message := ⟨dst, s.g a, s.thr.dom, c, (List.range n).map fun k => s.g (b + k), s.shownCid cid * 256 + s.cur.2, s.launchTag s.thr.launch⟩;
      (2 ^ 36 ≤ w → s.leads i (s.trap Cause.badCid (s.g a))) ∧ (w < 2 ^ 36 → ¬class_ → s.leads i (s.trap Cause.badClass (s.g a))) ∧
      (w < 2 ^ 36 → class_ → ¬core → s.leads i (s.trap Cause.badCid (s.g a))) ∧
      (w < 2 ^ 36 → class_ → core → (¬settled → s.leads i (s.parkCore .drain)) ∧ (settled → waiting → s.leads i (s.parkCore .channel)) ∧
        (settled → ¬waiting → s.reaches (cidModule cid) (cidKey dst) = true → ∃ p : Packet, p.src = coreSource cid ∧ p.dst = cidKey dst ∧
          p.vc = 4 ∧ p.body = .message g ∧ s.leads i { s with net := s.net ++ [p] }.retire) ∧
        (settled → ¬waiting → s.reaches (cidModule cid) (cidKey dst) = false →
          s.leads i (s.messageFailed (cidModule cid) Cause.linkUnreachable g).retire))) ∧
    s.leads (.tself d) ((s.setG d s.thr.future).setG (d + 1) (BitVec.ofNat 64 (s.thr.cls % 16 * 16 + s.thr.origin % 4))).retire

/-- 14 R335, R339 to R347, 04 R95, 07 R180: the SYS instructions. A name is a thread's CID and slot, or a context's id. It rests on the model's own
readings: an EVICT of a thread of another core gets its result as an answer (log entry 44), and log entries 45, 47, 48, 49 and 50 (DEDUCED). -/
def Obligations.SystemInstructions : Prop :=
  ∀ (d a b : Reg) (live : Bool) (s : State), let cid := s.cur.1; let m := cidModule cid; let dom := s.thr.dom; let here := s.g a; let w := s.gn a
    let bad := s.trap Cause.badThread here
    let ends := fun (i : Instr) (p : State → Prop) => s.admits i → ∃ t, exec i s = .next t ∧ p t
    let thread := fun (c k : Nat) => w < 2 ^ 34 ∧ c = s.resolveCid cid (w / 2 ^ 8) ∧ k = w % 256 ∧ (s.thread c k).st ≠ .free ∧ (s.thread c k).dom = dom ∧
      cidModule c = m ∧ (c, k) ≠ s.cur
    let context := fun (k : Context) => w / 2 ^ 42 = 2 ^ 21 ∧ k.cid = s.resolveCid cid (w / 2 ^ 16 % 2 ^ 26) ∧ k.serial = w % 2 ^ 16 ∧
      s.ctxs.find? (fun x => x.cid == k.cid && x.serial == k.serial) = some k ∧ k.th.dom = dom ∧ cidModule k.cid = m
    ((∀ c k, ¬thread c k) → (∀ k, ¬context k) → ∀ i ∈ [Instr.evict d a, .rstrResume d a, .rstrHandle d a, .rstrKill d a, .jdrop d a], s.leads i bad) ∧
    (∀ c k, thread c k → let x := s.thread c k; let name := BitVec.ofNat 64 (s.shownCid c * 256 + k); let entry := s.handlerOf c x
      let faulted := x.st = .faulted; let none_ := (s.core c).pending k = [];
      (s.mayLeave c k = true → s.storeFull c x.dom = false → ends (.evict d a) fun t => t.thread c k = Thread.fresh ∧ t.mem = s.mem ∧
        ∃ n, (let id := 2 ^ 63 + s.shownCid c * 2 ^ 16 + n % 2 ^ 16
            if c = cid then t.g d = BitVec.ofNat 64 id ∧ t.thr.pc = s.thr.pc + 4 else
              t.thr.st = .parkedMem ∧ t.thr.pc = s.thr.pc ∧ ∃ p, t.net = s.net ++ [p] ∧ p.dst = cidKey cid ∧ p.body = .ans cid (s.core cid).tagCount false (.data id)) ∧
          ∃ y ∈ t.ctxs, y.cid = c ∧ y.serial = n ∧ y.slot = k ∧ y.regs = s.regsOf c k ∧ y.th = x.saved) ∧
      (s.mayLeave c k = false ∨ s.storeFull c x.dom = true → s.leads (.evict d a) (s.parkCore (.evicting c k))) ∧
      (¬faulted → ∀ i ∈ [Instr.rstrResume d a, .rstrHandle d a, .rstrKill d a, .jdrop d a], s.leads i bad) ∧
      (faulted → x.dbl = true → s.leads (.rstrResume d a) bad ∧ s.leads (.rstrHandle d a) bad) ∧
      (faulted → x.dbl = false → s.leads (.rstrResume d a) ((s.trapReturn c k).setG d name).retire) ∧
      (faulted → x.dbl = false → entry = 0 → s.leads (.rstrHandle d a) bad) ∧
      (faulted → x.dbl = false → entry ≠ 0 → s.leads (.rstrHandle d a) (((s.onThread c k fun t =>
        { t with pc := entry, st := .trap, cur := none, nxt := none, fetches := [] }).setG d name).retire)) ∧
      (faulted → none_ → ends (.rstrKill d a) fun t => t.thread c k = Thread.fresh ∧ t.g d = 0 ∧ t.thr.pc = s.thr.pc + 4 ∧ t.mem = s.mem) ∧
      (faulted → ¬none_ → ends (.rstrKill d a) fun t => t.thr.wait = .core (.killing c k) ∧ t.thr.pc = s.thr.pc ∧
        ∀ e ∈ (t.core c).pending k, e.discard = true) ∧
      (faulted → s.leads (.jdrop d a) (((s.onThread c k fun t => { t with held := [] }).setG d (BitVec.ofNat 64 x.held.length)).retire))) ∧
    (∀ k, context k → s.leads (.evict d a) bad ∧
      (k.th.dbl = true → s.leads (.rstrResume d a) bad) ∧ (k.th.dbl = false → s.leads (.rstrResume d a) (s.restoreThen d k State.trapReturn)) ∧
      (k.th.st ≠ .faulted ∨ k.th.dbl = true ∨ s.handlerOf k.cid k.th = 0 → s.leads (.rstrHandle d a) bad) ∧
      (k.th.st = .faulted → k.th.dbl = false → s.handlerOf k.cid k.th ≠ 0 → s.leads (.rstrHandle d a) (s.restoreThen d k State.handleAt)) ∧
      ends (.rstrKill d a) (fun t => t.ctxs = s.ctxs.filter (fun x => x.th.uid != k.th.uid) ∧ t.g d = 0 ∧ t.thr.pc = s.thr.pc + 4) ∧
      ends (.jdrop d a) (fun t => t.g d = BitVec.ofNat 64 k.th.held.length ∧ t.thr.pc = s.thr.pc + 4)) ∧
    ((s.core cid).pending s.cur.2 ≠ [] → s.leads .halt (s.parkCore .drain)) ∧
    ((s.core cid).pending s.cur.2 = [] → ends .halt fun t => t.thr = Thread.fresh ∧ t.mem = s.mem) ∧
    (let fq := s.faultQueue m dom;
      (fq = [] → s.leads .idle (s.parkCore .idle) ∧ s.leads (.fqpop d) (s.setG d 0).retire) ∧
      (fq ≠ [] → s.leads .idle s.retire ∧ (fq.head!.length = 8 → ends (.fqpop d) fun t => t.thr.pc = s.thr.pc + 4 ∧ t.mem = s.mem ∧
        ∀ j, t.g j = if d.val ≤ j ∧ j < d.val + 8 then fq.head!.getD (j - d.val) 0 else s.g j))) ∧
    (addressBad w = true → ∀ i ∈ [Instr.invpg a, .pmarkDead a, .pmarkLive a], s.leads i (s.trap Cause.badAddress here)) ∧
    (addressBad w = false → w / 2 ^ 60 ≠ 0 → w / 2 ^ 60 ≠ 8 → (w / 2 ^ 60 ≠ 12 → s.leads (.invpg a) (s.trap Cause.badAddress here)) ∧
      ∀ i ∈ [Instr.pmarkDead a, .pmarkLive a], s.leads i (s.trap Cause.badAddress here)) ∧
    (addressBad w = false → let dropped := fun (units : List Nat) (tb : Table) (input : Nat) => { s with tlb := s.tlb.filter fun e =>
        !(units.contains e.unit && e.dom == dom && e.table == tb.code && decide (e.base ≤ input ∧ input < e.base + e.size)) }
      let pend := s.pagePending cid dom (targetOf cid w); let hla := fun (x : Nat) => hlaOf (s.masks m dom) x / 2 ^ 30
      let ends_ := fun (t : State) => (pend.2 = [] → s.leads (.invpg a) t.retire) ∧ (pend.2 ≠ [] → s.leads (.invpg a) (t.parkCore (.invpg pend.1 pend.2)));
      (∀ p, p ∈ pend.2 ↔ w / 2 ^ 60 ≤ 12 ∧ ∃ h ∈ (s.module pend.1).outstanding, p = (h.req.cid, h.req.tag) ∧ h.req.dom = dom ∧ h.req.op ≠ .orderRead ∧
        match targetOf cid w, targetOf h.req.cid h.req.va with
        | .interleaved x, .interleaved y => hla x = hla y
        | .bank _ k c x, .bank _ k' c' y => k = k' ∧ c = c' ∧ x / 2 ^ 30 = y / 2 ^ 30
        | .host x, .host y => x / 2 ^ 30 = y / 2 ^ 30
        | _, _ => False) ∧
      (w / 2 ^ 60 = 0 → let hla := hlaOf (s.masks m dom) w; let leaves := (List.range 16).map fun k => (⟨m, k, 0, .interleaved, hla⟩ : Lookup)
        let i := if live then Instr.pmarkLive a else .pmarkDead a;
        ends_ (dropped ((List.range 16).map fun k => unitOf m k .interleaved) .interleaved hla) ∧
        (∀ c, s.markLeaves dom leaves = .error c → s.leads i (s.trap c here)) ∧
        (∀ xs, s.markLeaves dom leaves = .ok xs →
          s.leads i (xs.foldl (fun u x => u.markPage dom x.1 live x.2.1 x.2.2.1 x.2.2.2) s).retire)) ∧
      (w / 2 ^ 60 = 12 → ends_ (dropped [unitOf m 0 .host] .host (w % 2 ^ 48))) ∧
      (w / 2 ^ 60 = 8 → let bm := s.ownModule cid (w / 2 ^ 46 % 2 ^ 12); let k := w / 2 ^ 42 % 16; let ch := w / 2 ^ 37 % 32; let at_ := ch * 2 ^ 31 + w % 2 ^ 31
        let i := if live then Instr.pmarkLive a else .pmarkDead a;
        (s.reaches m (channelKey bm k ch) = false → s.leads (.invpg a) (s.trap Cause.linkUnreachable here) ∧ s.leads i (s.trap Cause.linkUnreachable here)) ∧
        (s.reaches m (channelKey bm k ch) = true → ends_ (dropped [unitOf bm k .bank] .bank at_) ∧
          (∀ c, s.markedLeaf dom ⟨bm, k, ch, .bank, at_⟩ = .error c → s.leads i (s.trap c here)) ∧
          (∀ p e lv, s.markedLeaf dom ⟨bm, k, ch, .bank, at_⟩ = .ok (p, e, lv) → let lo := dramAddr bm k ch (field e 0 31); let hi := lo + pageSize lv;
            let within := fun (x : WaitEntry) => decide (lo ≤ x.word * 8) && decide (x.word * 8 < hi);
            (e.testBit 59 = !live → s.leads i s.retire) ∧ (e.testBit 59 = live → ends i fun t => t.thr.pc = s.thr.pc + 4 ∧
              t.dead = (if live then s.dead.filter (· != (lo, hi)) else s.dead ++ [(lo, hi)]) ∧
              (live = false → t.mem = s.mem.write p 8 (putField e 59 1 1) ∧ t.waitq = s.waitq.filter (fun x => !within x) ∧ ∃ ps, t.net = s.net ++ ps ∧
                ps.map (fun q => (q.dst, q.body)) = (s.waitq.filter within).map fun x => (cidKey x.req.cid, .ans x.req.cid x.req.tag x.req.posted
                  (.fault (if s.reaches (keyModule x.replyTo) (cidKey x.req.cid) = true then Cause.deadPage else Cause.linkUnreachable)))) ∧
              (live = true → s.mem.wf = true → t.waitq = s.waitq ∧ (∀ x, lo ≤ x → x < hi → t.mem.byte x = 0 ∧ t.mem.full (x / 8) = true ∧ t.mem.poisoned (x / 8) = false) ∧
                (∀ x, x < lo ∨ hi ≤ x → t.mem.byte x = (s.mem.write p 8 (putField e 59 1 0)).byte x ∧ t.mem.full (x / 8) = s.mem.full (x / 8)))))))) ∧
    (let c := s.resolveCid cid (w % 2 ^ 26); let i := if live then Instr.shutOn a else .shutOff a
      let ok := w < 2 ^ 26 ∧ s.cidOk cid (w % 2 ^ 26) = true ∧ cidModule c = m;
      (¬ok → s.leads i (s.trap Cause.badCid here)) ∧ (ok → s.othersOn c dom = true → s.leads i (s.trap Cause.protection here)) ∧
      (ok → s.othersOn c dom = false → let t := s.onCore c fun x => { x with softShut := live }
        s.leads i (if live then t.shutCore c else t).retire ∧ let pool := (poolOf (localAddr c 0)).1; let mine := s.waitq.filter fun e => e.pool == pool
        (t.shutCore c).waitq = s.waitq.filter (fun e => e.pool != pool) ∧ ((t.shutCore c).core c).held = [] ∧ ∃ back ps, (t.shutCore c).net = back ++ s.net ++ ps ∧
          back = (s.core c).held.map Arrival.packet ∧ ps.map (fun q => (q.dst, q.body)) = mine.map fun x => (cidKey x.req.cid, .ans x.req.cid x.req.tag x.req.posted
            (if s.reaches (keyModule x.replyTo) (cidKey x.req.cid) = true then .shutter else .fault Cause.linkUnreachable)))) ∧
    (let act := s.gn b / 2 ^ 56; let v := s.gn b % 2 ^ 32; let i := Instr.cfgh d a b;
      (s.gn b / 2 ^ 32 % 2 ^ 24 ≠ 0 ∨ act ≠ 1 ∧ act ≠ 2 → s.leads i (s.trap Cause.illegal (s.g b))) ∧
      (s.gn b / 2 ^ 32 % 2 ^ 24 = 0 → act = 1 → ∀ x, s.ownByte w 8 .read = some x → let p := poolOf x; let old := BitVec.ofNat 64 (s.poolLimit p.1 p.2 dom);
        (v = 0 → s.leads i (s.setG d old).retire) ∧ (v ≠ 0 → ends i fun t => t.poolLimit p.1 p.2 dom = min v p.2 ∧ t.g d = old ∧ t.thr.pc = s.thr.pc + 4 ∧
          ∀ q n c, (q, c) ≠ (p.1, dom) → t.poolLimit q n c = s.poolLimit q n c)) ∧
      (s.gn b / 2 ^ 32 % 2 ^ 24 = 0 → act = 2 → ∀ ws : List Word, ws.length = 8 →
        (∀ j < 8, ∃ x, s.ownByte (w + 8 * j) 8 .read = some x ∧ s.mem.poisoned (x / 8) = false ∧ BitVec.ofNat 64 (s.mem.read x 8) = ws.getD j 0) →
        let q := s.module m;
        (256 ≤ q.hsq.length ∨ q.hsWait ≠ [] → s.leads i (s.parkCore .hostQueue)) ∧
        (q.hsq.length < 256 → q.hsWait = [] → ends i fun t => (t.module m).hsq = q.hsq ++ [ws] ∧
          (t.module m).msix = q.msix ++ (if q.hsq = [] then [2] else []) ∧ t.g d = 0 ∧ t.thr.pc = s.thr.pc + 4 ∧ t.mem = s.mem))) ∧
    (let set := (s.domain? m dom).map fun x => x.2.set;
      (set.bind (·.gang) = none → s.leads .domsw s.retire) ∧
      (∀ x g, set = some x → x.gang = some g → s.leads .domsw (s.sendMgmt m ((leastOf x.gangModules).getD m) (.start g)).retire))

/-- 09 R212 to R214, R222, R223, 10 R228 to R230, R242 to R247, R249: the instructions of the ladle and of the matrix engine; a copy's
descriptor, sources and completion word, on which nobody waits, lie in the core's own local memory. The model's choices: the entry in a handle is
the lowest free one (log entry 52, DESIGN CHOICE), and a misaligned SLOTBASE of MRING traps BAD_OPERAND (log entry 65, DEDUCED). -/
def Obligations.EngineInstructions : Prop :=
  ∀ (d a b c : Reg) (quiet acc clamp brole : Bool) (s : State), let cid := s.cur.1; let cl := cid / 32; let dom := s.thr.dom; let w := s.gn a
    let e := (s.cluster cl).eng; let rg := s.thr.rg = true; let settled := (s.core cid).pending s.cur.2 = []
    let ends := fun (i : Instr) (p : State → Prop) => s.admits i → ∃ t, exec i s = .next t ∧ p t
    let two := fun (u : State) (x y : Nat) => ((u.setG d (BitVec.ofNat 64 x)).setG (d + 1) (BitVec.ofNat 64 y)).retire
    (∀ p ∈ [(0, Instr.lcopyCopy d a b c quiet), (1, .lcopyFill d a b c quiet), (2, .lcopyReduce d a b c quiet), (3, .lcopyGather d a b c quiet)],
      let fn := p.1; let i := p.2; let r := s.checkAccess cid dom w 8 .read; let q := s.checkAccess cid dom (s.gn b) 8 .rmw;
      (rg → s.leads i (s.trap Cause.regionState 0)) ∧ (∀ k, ¬rg → r = .error k → s.leads i (s.trap k (s.g a))) ∧
      (∀ k x, ¬rg → r = .ok x → q = .error k → s.leads i (s.trap k (s.g b))) ∧
      (∀ x y, ¬rg → r = .ok x → q = .ok y → ¬settled → s.leads i (s.parkCore .drain)) ∧
      (∀ (desc srcs : List Word) y, ¬rg → settled → s.ownByte (s.gn b) 8 .rmw = some y → s.watched (y / 8) = false →
        let holds := fun (at_ : Nat → Nat) (l : List Word) => ∀ j < l.length, ∃ x, s.ownByte (at_ j) 8 .read = some x ∧
          s.mem.poisoned (x / 8) = false ∧ BitVec.ofNat 64 (s.mem.read x 8) = l.getD j 0
        let w0 := (desc.getD 0 0).toNat; let rank := w0 % 16; let n := w0 / 2 ^ 36 % 16
        desc.length = 4 + 3 * (if rank ≤ 10 then rank else 0) → srcs.length = (if fn = 2 ∧ n ≤ 8 then n else 0) →
        holds (fun j => w + 8 * j) desc → holds (fun j => ((desc.getD 2 0).toNat + 8 * j) % 2 ^ 64) srcs →
        (∀ k, copyBad dom fn desc srcs = some k → s.leads i (s.trap k (s.g a))) ∧
        let none_ := ∀ q ∈ e.ladle, q.2.heldFor cid s.cur.2 = false;
        (copyBad dom fn desc srcs = none → none_ → e.lwait = [] → (∀ k < 32, Tab.find e.ladle k ≠ none) → ends i fun t => t.thr.st = .parkedMem ∧
          t.thr.wait = .core (.ladleEntry ⟨fn, d, desc, srcs, s.g b, s.g c, quiet⟩) ∧ t.thr.pc = s.thr.pc ∧ (t.cluster cl).eng.lwait = [cid * 256 + s.cur.2]) ∧
        (∀ k, copyBad dom fn desc srcs = none → none_ → e.lwait = [] → k < 32 → Tab.find e.ladle k = none → (∀ j < k, Tab.find e.ladle j ≠ none) →
          ends i fun t => let seq := (Tab.get 0 e.ladleSeq k + 1) % 2 ^ 16
            (∃ o, Tab.find (t.cluster cl).eng.ladle k = some o ∧ o.st = 1 ∧ o.seq = seq ∧ o.dom = dom ∧ o.cid = cid ∧ o.slot = s.cur.2 ∧
              o.form = fn ∧ o.desc = desc ∧ o.srcs = srcs ∧ o.compl = s.g b ∧ o.value = s.g c ∧ o.quiet = quiet ∧ o.pref = 0 ∧ o.flight = []) ∧
            (∀ j, j ≠ k → Tab.find (t.cluster cl).eng.ladle j = Tab.find e.ladle j) ∧ s.mem.presence t.mem y false ∧
            t.mem = { s.mem with empties := t.mem.empties } ∧ t.thr.pc = s.thr.pc + 8 ∧
            t.g d = BitVec.ofNat 64 (s.shownCluster cl % 2 ^ 21 * 2 ^ 24 + seq * 2 ^ 8 + k)))) ∧
    (let bad := w / 2 ^ 45 ≠ 0 ∨ w / 2 ^ 5 % 8 ≠ 0; let ladle := w / 2 ^ 24 % 2 ^ 21;
      (bad → s.leads (.lstat d a) (two s 0 0) ∧ s.leads (.lresume a) (s.trap Cause.ladleHandle (s.g a)) ∧
        s.leads (.lcancel a) (s.trap Cause.ladleHandle (s.g a))) ∧
      (∀ p ∈ [(0, Instr.lstat d a), (1, .lresume a), (2, .lcancel a)], let i := p.2;
        (¬bad → s.cidOk cid (ladle * 32) = false → s.leads i (s.trap Cause.badCid (s.g a))) ∧
        (¬bad → s.cidOk cid (ladle * 32) = true → s.reaches (cidModule cid) (clusterKey ladle) = true → ends i fun t =>
          ∃ r q, t.net = s.net ++ [q] ∧ q.src = coreSource cid ∧ q.dst = clusterKey ladle ∧ q.body = .req r ∧ r.op = .lctl p.1 w ∧ r.dom = dom ∧
            t.thr.st = .parkedMem ∧ t.thr.pc = s.thr.pc ∧ t.mem = s.mem))) ∧
    (∀ p ∈ [(Instr.mma d a b c acc, (⟨0, d, s.g a, s.g b, s.g c, 0, acc⟩ : Submission)), (.mmag d a c acc, ⟨1, d, s.g a, 0, s.g c, 0, acc⟩),
      (.mmat d a b c acc, ⟨2, d, s.g a, s.g b, s.g c, 0, acc⟩), (.mzero d a, ⟨3, d, 0, 0, s.g a, 0, false⟩),
      (.mdrain d a b, ⟨4, d, 0, s.g b, s.g a, s.g (b + 1), false⟩)], s.leads p.1 (s.parkCore (.submitted p.2))) ∧
    (let named := fun (j : Job) => Tab.find e.jobs (w % 32) = some j ∧ w = j.seq % 2 ^ 16 * 32 + w % 32 ∧ j.dom = dom;
      ((∀ j, ¬named j) → s.leads (.mpoll d a) (two s 0 0) ∧ s.leads (.mwait d a) (two s 0 0)) ∧
      (∀ j, named j → let status := j.st * 2 ^ 56 + (if j.st = 3 then j.cause % 512 * 2 ^ 47 else 0) + j.kind * 2 ^ 37 + j.cid % 32 * 2 ^ 32 + j.slot % 256 * 2 ^ 24 + w;
        (j.st ≠ 3 → s.leads (.mpoll d a) (two s status 0)) ∧
        ((j.st = 1 ∨ j.st = 2) → j.kind < 8 → s.leads (.mwait d a) (s.parkEngine .parkedEngine (.job d w))) ∧
        (j.st = 3 → j.kind < 8 → ∀ i ∈ [Instr.mpoll d a, .mwait d a], s.leads i (two (s.onCluster cl fun x =>
          { x with eng := { x.eng with jobs := Tab.del x.eng.jobs (w % 32) } }) status j.va)))) ∧
    (let i := Instr.mring d a; let unbind := 2 ^ 63 ≤ w; let base := w % 2 ^ 24; let nslot := w / 2 ^ 24 % 2 ^ 8; let log := w / 2 ^ 32 % 16
      let va := 0xE * 2 ^ 60 + base; let fits := 9 ≤ log ∧ log ≤ 18 ∧ 2 ≤ nslot ∧ base % 8 = 0 ∧ fitsUnit va (nslot * 2 ^ log) = true
      let open_ := unbind ∨ ∀ x ∈ wordsFrom va (nslot * 2 ^ log / 8), s.engineAdmits cid dom x .rmw = true
      let mine := fun (r : Nat × Ring) => r.2.dom == dom && r.2.desc % 2 ^ 24 == base
      let rings := fun (f : Tab Ring → Tab Ring) => s.onCluster cl fun x => { x with eng := { x.eng with rings := f x.eng.rings } }
      let new := (⟨w % 2 ^ 36, dom, 0⟩ : Ring); let shape := w / 2 ^ 36 % 2 ^ 27 = 0 ∧ (unbind ∨ fits);
      (¬shape → s.leads i (s.trap Cause.badOperand (s.g a))) ∧ (shape → ¬open_ → s.leads i (s.trap Cause.protection (s.g a))) ∧
      (∀ k r, shape → open_ → e.rings.find? mine = some (k, r) →
        (s.ringBusy cl dom base = true → s.leads i (s.parkCore (.ring base))) ∧
        (s.ringBusy cl dom base = false → s.leads i (((rings fun x => if unbind then Tab.del x k else Tab.set x k new).setG d (BitVec.ofNat 64 r.pos)).retire))) ∧
      (shape → open_ → e.rings.find? mine = none →
        (unbind → s.leads i (s.setG d 0).retire) ∧ (¬unbind → (∀ k < 8, Tab.find e.rings k ≠ none) → s.leads i (s.trap Cause.ringTableFull (s.g a))) ∧
        (∀ k < 8, ¬unbind → Tab.find e.rings k = none → (∀ j < k, Tab.find e.rings j ≠ none) → s.leads i (((rings fun x => Tab.set x k new).setG d 0).retire)))) ∧
    (let count := fun (p : Job → Bool) => (e.jobs.filter fun x => p x.2).length;
      s.leads (.mstat d) ((s.setG d (BitVec.ofNat 64 (count (fun j => j.cid == cid) + 2 ^ 8 * count (fun j => j.dom == dom) +
        2 ^ 16 * (e.rings.filter fun r => r.2.dom == dom).length))).retire)) ∧
    (let i := Instr.qtile d a b c clamp brole; let f := s.thr.fmtA; let legal := (narrowOf f).legal = true;
      (¬legal → s.leads i (s.trap Cause.illegalFormat (BitVec.ofNat 64 f))) ∧ (legal → rg → s.leads i (s.trap Cause.regionState 0)) ∧
      (∀ k, legal → ¬rg → recordVaBad w = some k → s.leads i (s.trap k (s.g a))) ∧
      (∀ k, legal → ¬rg → recordVaBad w = none → recordVaBad (s.gn b) = some k → s.leads i (s.trap k (s.g b))) ∧
      (legal → ¬rg → recordVaBad w = none → recordVaBad (s.gn b) = none →
        s.leads i (s.parkEngine .parkedMem (.quantise ⟨d, s.g d, s.g a, s.g b, s.g c, f, clamp, brole⟩))))

/-- 11 R254, R259, R275 to R278, 01 R25: XJOIN, XMMA, XLEAVE, XSTAT and XWAIT; a flask descriptor lies in the core's own local memory. The
model's readings: leaving at once, whom XSTAT asks, and BAD_DESCRIPTOR for an impossible cluster (log entries 69 and 71, DEDUCED). -/
def Obligations.FlaskInstructions : Prop :=
  ∀ (d a b c : Reg) (acc ring discard : Bool) (s : State), let cid := s.cur.1; let cl := cid / 32; let dom := s.thr.dom; let w := s.gn a
    let f := (s.cluster cl).eng.flask; let rg := s.thr.rg = true; let here := s.g a
    let ends := fun (i : Instr) (p : State → Prop) => s.admits i → ∃ t, exec i s = .next t ∧ p t
    let two := fun (r : Word × Word) => ((s.setG d r.1).setG (d + 1) r.2).retire
    (let i := Instr.xjoin d a; let r := s.checkAccess cid dom w 8 .read;
      (f.st ≠ 0 → s.leads i (s.trap Cause.flaskState here)) ∧ (∀ k, f.st = 0 → r = .error k → s.leads i (s.trap k here)) ∧
      (∀ desc : List Word, f.st = 0 → let m := (desc.getD 0 0).toNat / 2 ^ 32 % 128; let id := (desc.getD 0 0).toNat % 2 ^ 32; let head := memberOf desc 0
        desc.length = 2 + (if 2 ≤ m ∧ m ≤ 64 then (m + 1) / 2 else 0) →
        (∀ j < desc.length, ∃ x, s.ownByte (w + 8 * j) 8 .read = some x ∧ s.mem.poisoned (x / 8) = false ∧ BitVec.ofNat 64 (s.mem.read x 8) = desc.getD j 0) →
        (∀ k, flaskBad dom cl desc = some k → s.leads i (s.trap k here)) ∧
        (flaskBad dom cl desc = none → s.reaches (clusterModule cl) (clusterKey head) = true → ends i fun t => let g := (t.cluster cl).eng.flask
          g.st = 1 ∧ g.dom = dom ∧ g.id = id ∧ g.m = m ∧ g.desc = desc ∧ g.k < m ∧ memberOf desc g.k = cl ∧ g.joiner = some s.thr.uid ∧
          t.thr.st = .parkedMem ∧ t.thr.wait = .engine (.join d 0) ∧ t.thr.pc = s.thr.pc ∧ t.mem = s.mem ∧
          ∃ p, t.net = s.net ++ [p] ∧ p.dst = clusterKey head ∧ p.body = .flask ⟨dom, id, cl, .join g.k (crc64 desc)⟩))) ∧
    (let i := if ring then Instr.xmmaRing d a b c acc else .xmmaChain d a b c acc
      let member := f.dom = dom ∧ f.st ≠ 0 ∧ f.st ≠ 1 ∧ f.st ≠ 5;
      (rg → s.leads i (s.trap Cause.regionState 0)) ∧ (¬rg → ¬member → s.leads i (s.trap Cause.flaskState 0)) ∧
      (∀ k, ¬rg → member → plainVaBad w = some k → s.leads i (s.trap k here)) ∧
      (∀ k, ¬rg → member → plainVaBad w = none → plainVaBad (s.gn b) = some k → s.leads i (s.trap k (s.g b))) ∧
      (¬rg → member → plainVaBad w = none → plainVaBad (s.gn b) = none →
        s.leads i ((s.onFlask cl fun g => { g with queue := g.queue ++ [s.cur] }).parkEngine .parkedEngine (.pour ⟨ring, acc, d, s.g a, s.g b, s.g c⟩)))) ∧
    (let i := Instr.xleave discard; let own := f.st ≠ 0 ∧ f.dom = dom;
      (¬own → s.leads i s.retire) ∧ (own → f.st = 1 → s.leads i (s.trap Cause.flaskState 0)) ∧
      (own → f.st = 5 → discard = false → s.leads i (s.trap Cause.flaskState 0)) ∧
      (own → f.st = 5 → discard = true → s.leads i ((s.discardRegion cl).leaveNow cl)) ∧
      (own → f.st = 2 → s.leads i (s.leaveNow cl)) ∧
      (∀ p, own → f.st = 3 ∨ f.st = 4 → f.pour = some p → let given := f.st = 4 ∧ p.given = true ∧ f.k ≠ f.decider p.ask.ring;
        (¬given → s.leads i ((s.faultSelf cl p Cause.flaskLeft).leaveNow cl)) ∧
        (given → s.leads i ((s.becomeUnknown cl p).leaveUnknown cl discard))) ∧
      (own → f.st = 2 → 2 ≤ f.m → f.queue = [] → s.xwaiters cl = [] → ends i fun t => let g := (t.cluster cl).eng.flask
        g.st = 0 ∧ g.pour = none ∧ t.thr.pc = s.thr.pc ∧ t.mem = s.mem)) ∧
    (let q := w % 2 ^ 32; let g := s.flaskFor cl dom;
      (g.st = 0 ∨ q = 0 → s.leads (.xstat d a) (two (flaskReport g q 0 0))) ∧
      (∀ o x, g.st ≠ 0 → q ≠ 0 → g.remembered q = some (o, x) → s.leads (.xstat d a) (two (flaskReport g q o x))) ∧
      (g.st ≠ 0 → q ≠ 0 → g.remembered q = none → let k := g.deciderOf q
        s.reaches (clusterModule cl) (clusterKey k.2) = true → ends (.xstat d a) fun t => ∃ p r, t.net = s.net ++ [p] ∧ p.dst = clusterKey k.2 ∧
          p.body = .flask ⟨g.dom, g.id, cl, .query r⟩ ∧ r.op = .query q ∧ t.thr.st = .parkedMem ∧ t.thr.pc = s.thr.pc ∧ t.mem = s.mem) ∧
      (g.st = 0 → s.leads (.xwait d a) (two (flaskReport g q 0 0))) ∧
      (∀ o x, g.st ≠ 0 → g.remembered q = some (o, x) → s.leads (.xwait d a) (two (flaskReport g q o x))) ∧
      (g.st ≠ 0 → g.remembered q = none → let unknown := g.st = 5 ∧ ∃ p, g.pour = some p ∧ p.seq = q;
        (unknown → s.leads (.xwait d a) (two (flaskReport g q 5 0))) ∧
        (¬unknown → q ≠ g.next → s.leads (.xwait d a) (two (flaskReport g q 0 0))) ∧
        (¬unknown → q = g.next → s.leads (.xwait d a) (s.parkEngine .parkedEngine (.outcome d q)))))

/-! Steps that no thread issues: homes, answers, cores, the host, management, engines (03; 04; 06; 07; 12; 14 to 17). -/

/-- 04 R78 to R80, R94, R393, 06 R131, 07 R154, R159, R160, R168, R178, R179, R181, 12 R288 to R291, 14 R326, R336, R347, R354: requests at
a home, answers at a core, requests sent again, refresh and the scrubber, the core cycle. An answer that no path carries back reaches the
requester as LINK_UNREACHABLE (log entry 23, DEDUCED). -/
def Obligations.HomesAndCores : Prop :=
  ∀ (n hint cid tag k m stack ch : Nat) (s : State) (p : Packet), let u := s.takePacket n; let here := s.deliverable n = some p
    let core := s.core cid; let th := s.thread cid k; let awake := (s.module (cidModule cid)).d3hot = false
    let ends := fun (i : Instr) (q : State → Prop) => ∃ t, exec i s = .next t ∧ q t
    let answered := fun (before : List Packet) (src : Nat) (r : Req) (a : Ans) (t : State) =>
      ∃ port, t.net = before ++ [⟨src, cidKey r.cid, 1, port, false, .ans r.cid r.tag r.posted a⟩]
    let logs := fun (t : State) (kind count place : Nat) => ∃ x, (t.module m).log = (if (s.module m).log.length < 1024 then (s.module m).log else
      (s.module m).log.drop 1) ++ [[BitVec.ofNat 64 (kind * 2 ^ 56 + count), BitVec.ofNat 64 place, 0, x]] ∧ (t.module m).msix = (s.module m).msix ++ [1]
    (∀ r c off, here → p.body = .req r → targetOf r.cid r.va = .remote c off → let h := s.resolveCid r.cid c; let i := Instr.homeAccessRequest n hint
      s.fused h = false → h < 2 ^ 26 → (s.module (keyModule p.dst)).d3hot = false → s.reaches (keyModule p.dst) (cidKey r.cid) = true →
      let open_ := s.shuttered h = false; let may := fun (a : AccessKind) => admitted (s.core h).prgn r.dom .remote none off a
      (∀ z, r.op = .load z → (r.cid ≠ h → s.shuttered h = true → ends i fun t => answered u.net p.dst r .shutter t ∧ t.mem = s.mem) ∧
        (open_ → may .read = false → ends i fun t => answered u.net p.dst r (.fault Cause.protection) t ∧ t.mem = s.mem) ∧
        (open_ → may .read = true → s.mem.poisoned (localAddr h off / 8) = false →
          ends i fun t => answered u.net p.dst r (.data (s.mem.read (localAddr h off) z)) t ∧ t.mem = s.mem)) ∧
      (∀ v, r.op = .store 8 v → open_ → may .write = true →
        ends i fun t => answered u.net p.dst r .ok t ∧ s.mem.takes t.mem (localAddr h off) 8 v ∧ s.mem.sameFull t.mem)) ∧
    (∀ w l c, s.walks = [w] → (s.module (keyModule w.src)).d3hot = false → 0 < (s.unitShare w.unit w.dom 128 DomainSettings.walkShare).1 → s.lookup w.req.cid w.req.dom (targetOf w.req.cid w.req.va) = some l →
      s.reaches (keyModule w.src) (cidKey w.req.cid) = true →
      (s.homeRoot w.req.dom l = .error c ∨ ∃ root, s.homeRoot w.req.dom l = .ok root ∧ s.walkFrom l root = .error c) →
      ends (.translationWalkDone 0) fun t => t.walks = [] ∧ t.tlb = s.tlb ∧ t.mem = s.mem ∧ answered s.net w.src w.req (.fault c) t) ∧
    (here → awake → s.slotFetching cid tag = none → let i := Instr.memoryReply n;
      (∀ v d x, p.body = .ans cid tag false (.data v) → s.slotAwaiting cid tag = some (k, x) → th.wait = .mem (.word d) [x] false → x.st = .out →
        (∀ q, x.req.op ≠ .query q) → ends i fun t => t.gOf cid k d = BitVec.ofNat 64 v ∧ (t.thread cid k).pc = th.pc + 4 ∧
          (t.thread cid k).st = th.from_ ∧ (t.thread cid k).wait = .none ∧ t.mem = s.mem ∧ t.net = u.net) ∧
      (∀ a, p.body = .ans cid tag false a → s.slotAwaiting cid tag = none → s.contextAwaiting cid tag = none → exec i s = .next u)) ∧
    (∀ e a, here → awake → p.body = .ans cid tag true a → core.journal = [e] → e.req.tag = tag → let i := Instr.journalEntrySettle n
      let held := fun (t : State) => (t.thread cid e.slot).held; let settled := fun (t : State) => (t.core cid).journal = [] ∧ t.mem = s.mem;
      (a = .ok → ends i fun t => settled t ∧ held t = held s) ∧
      (∀ c, a = .fault c → e.discard = false → e.region = false →
        ends i fun t => settled t ∧ held t = held s ++ [⟨Cause.storeRefused, e.req.va, some (e.kind, e.num)⟩])) ∧
    (∀ x ∈ ([(.refresh, .refreshRetryResend cid tag, fun r => { r with refresh := min 0xFFFF (r.refresh + 1) }),
        (.noList, .noListResend cid tag, fun r => { r with noList := min 0xFFFF (r.noList + 1) }),
        (.sc, .scRetryResend cid tag, fun r => { r with sc := min 0xFFFF (r.sc + 1) }),
        (.shutter, .shutterRetryResend cid tag, fun r => { r with shutter := min 0xFFFF (r.shutter + 1) })] : List (Retry × Instr × (Retries → Retries))),
      ∀ e due, awake → core.journal = [e] → e.req.tag = tag → e.req.cid = cid → e.st = .again x.1 due → due ≤ core.cyc →
        s.reaches (cidModule cid) (s.reqKey e.req) = true → ends x.2.1 fun t =>
          (∃ r q, t.net = s.net ++ [q] ∧ q.dst = s.reqKey e.req ∧ q.body = .req r ∧ r.op = e.req.op ∧ r.va = e.req.va ∧ r.tag = tag ∧
            (x.1 = .refresh → r.resend = true) ∧ (x.1 = .sc → r.ordered = true)) ∧
          Tab.get ⟨0, 0, 0, 0⟩ (t.core cid).retries e.req.dom = x.2.2 (Tab.get ⟨0, 0, 0, 0⟩ core.retries e.req.dom)) ∧
    (∀ dom va, here → p.body = .cancel cid tag dom va → (s.module (keyModule p.dst)).d3hot = false → let i := Instr.waitCancel n;
      (∀ e, s.waitq = [e] → e.req.hasTag cid tag = true → e.req.posted = false → s.reaches (keyModule e.replyTo) (cidKey cid) = true →
        ends i fun t => t.waitq = [] ∧ answered u.net e.replyTo e.req .cancelled t ∧ t.mem = s.mem) ∧
      (s.waitq = [] → s.walks = [] → exec i s = .next u)) ∧
    (s.present.contains m = true → stack < 16 → let place := m * 16 + stack;
      (ch < 32 → ∀ bank, ends (.dramRefresh m stack ch bank) fun t => (∀ j, Tab.find t.refreshing j = if j = place * 32 + ch then bank else
        Tab.find s.refreshing j) ∧ t.mem = s.mem) ∧
      (∀ hot, s.hotStacks.contains place = !hot → ends (.refreshRateChange m stack hot) fun t =>
        (∀ j, t.hotStacks.contains j = if j = place then hot else s.hotStacks.contains j) ∧ logs t (if hot then 5 else 6) 1 stack) ∧
      (∀ off, ch < 32 → off < 2 ^ 31 → let a := dramAddr m stack ch (off / 8 * 8); let w := a / 8; let i := Instr.scrubWord m stack ch off
        let c := place * 32 + ch; let count := Tab.get 0 s.corrected c;
        s.isDead a = false → s.mem.poisoned w = false → exec (i .clean) s = .next s ∧
          (count < 1023 → ends (i .correctable) fun t => Tab.get 0 t.corrected c = count + 1 ∧ t.mem = s.mem ∧ t.modules = s.modules) ∧
          (count = 1023 → ends (i .correctable) fun t => Tab.get 0 t.corrected c = 0 ∧ t.mem = s.mem ∧ logs t 1 1024 (a % 2 ^ 40)) ∧
          ends (i .uncorrectable) fun t => (∀ j, t.mem.poisoned j = (decide (j = w) || s.mem.poisoned j)) ∧ s.mem.sameFull t.mem ∧
            (∀ x, t.mem.byte x = s.mem.byte x) ∧ logs t 2 1 (a % 2 ^ 40))) ∧
    (s.coreRuns cid = false → exec (.coreCycle cid) s = .next s) ∧
    (s.coreRuns cid = true → core.slots = [] → core.held = [] → ends (.coreCycle cid) fun t => (t.core cid).cyc = core.cyc + 1 ∧ t.mem = s.mem) ∧
    (s.coreRuns cid = true → let w := ((s.onCore cid fun c => { c with cyc := c.cyc + 1 }).tidy cid).wakeCore cid; w.choose cid = some (k, none) →
      let v := w.serveHeld cid; (v.thread cid k).st.runs = true → (v.thread cid k).due = false → (∀ a, ((v.thread cid k).shift).fetch ≠ .need a) →
      ends (.coreCycle cid) fun t => t.issuing = true ∧ t.cur = (cid, k) ∧ (t.core cid).last = k ∧ (t.thread cid k).pipe = (v.core cid).cyc + 8 ∧
        (t.thread cid k).pc = (v.thread cid k).pc ∧ t.mem = v.mem) ∧
    (∀ a r, s.coreRuns cid = true → s.mayStep cid k = true → th.st.runs = true → th.held = a :: r → th.trap.tdepth ≤ 1 →
      let e := core.ttbl th.dom (causeClass a.cause); e.extractLsb' 0 2 = 1 → e.extractLsb' 2 62 ≠ 0 →
      ends (.asyncTrapEntry cid k) fun t => let y := t.thread cid k
        y.st = .trap ∧ y.pc = e &&& ~~~3 ∧ y.held = r ∧ y.trap.tdepth = th.trap.tdepth + 1 ∧ y.trap.tepc = th.pc &&& ~~~3 ∧
          y.trap.tcause = BitVec.ofNat 64 (512 + a.cause % 512) ∧ y.trap.tfaddr = BitVec.ofNat 64 a.detail ∧ y.trap.tsave = th.tsw ∧
          (∀ x, a.refused = some x → y.jkind = x.1 ∧ y.jentry = x.2) ∧ t.mem = s.mem) ∧
    (s.coreRuns cid = true → th.limitPassed core.cyc = true → th.wait = .core .idle → s.contextsOf cid k = [] →
      ends (.wlimExpiry cid k) fun t => let y := t.thread cid k
        y.pc = th.pc + 4 ∧ y.st = th.from_ ∧ y.wait = .none ∧ t.mem = s.mem) ∧
    (∀ q, s.net[n]? = some q → q.onLink = true → (∀ x ∈ s.net.take n, x.src = q.src → x.dst = q.dst → x.vc = q.vc → x.onLink = false) →
      (q.vc < 6 → ends (.linkPacketReceive n) fun t => (∀ j, t.net[j]? = if j = n then some { q with crossed := true } else s.net[j]?) ∧ t.mem = s.mem) ∧
      (6 ≤ q.vc → ends (.linkPacketReceive n) fun t => t.net = u.net ∧ t.mem = s.mem))

/-- 04 R91 to R94, R393, 07 R155, R156, R158, R168, R178 to R183, 12 R281 to R288, R291, R293, R296, R297: an access to DRAM at its home.
The walk of a table, entry by entry; the root; a request whose page is not cached waits for a walk; when the walk ends with a leaf, the
leaf's checks, SC_RETRY, RETRY, and then the access itself, with its answer. What a unit's cache keeps is free (log entry 9). The walks and
entries that a unit gives a domain, and the channels that a domain may use, are those of log entries 88 and 89 (DEDUCED). TOUCH is exempt
from SC_RETRY (log entry 58, DEDUCED). -/
def Obligations.DramHomeAccesses : Prop :=
  ∀ (n hint m stack input node level : Nat) (host : Bool) (s : State) (w : Walk) (l : Lookup), let r := w.req
    let ends := fun (i : Instr) (q : State → Prop) => ∃ t, exec i s = .next t ∧ q t
    let index := if level = 0 then input / 2 ^ 16 % 32 else input / 2 ^ (12 + 9 * level) % 512
    let place := node + 8 * index; let at_ := dramAddr m stack (place / 2 ^ 31 % 32) (place % 2 ^ 31); let e : Word := BitVec.ofNat 64 (s.mem.read at_ 8)
    let page := if level = 0 then 16 else 12 + 9 * level; let nodeBits := if level = 1 then 8 else 12; let ht := e.getLsbD 61
    let result := walk s.mem m stack host input (level + 1) node; let addr := (e.extractLsb' 0 52).toNat
    let leafOk := level ≠ 3 ∧ e.extractLsb' 52 4 = 0 ∧ addr % 2 ^ page = 0 ∧ (host = true → ht = true) ∧ (ht = false → addr < 2 ^ 31) ∧
      (host = false → ht = true → e.getLsbD 59 = false)
    let nodeOk := level ≠ 0 ∧ e.extractLsb' 52 4 = 0 ∧ e.extractLsb' 57 4 = 0 ∧ ht = host ∧ addr < 2 ^ 36 ∧ addr % 2 ^ nodeBits = 0
    (level ≤ 3 → (s.mem.poisoned (at_ / 8) = true → result = .error Cause.poison) ∧
      (s.mem.poisoned (at_ / 8) = false → (e.getLsbD 63 = false → result = .error Cause.notPresent) ∧
        (e.getLsbD 63 = true → (e.getLsbD 56 = true → (leafOk → result = .ok ⟨e.toNat, 2 ^ page⟩) ∧ (¬leafOk → result = .error Cause.badPte)) ∧
          (e.getLsbD 56 = false → (nodeOk → result = walk s.mem m stack host input level addr) ∧ (¬nodeOk → result = .error Cause.badPte))))) ∧
    (s.domain? l.m r.dom = none → s.homeRoot r.dom l = .error Cause.protection) ∧
    (∀ d, s.domain? l.m r.dom = some d → (l.tb = .host ∨ s.admitsChannel l.m d.2.set l.stack l.ch = true) →
      s.homeRoot r.dom l = (match (match l.tb with
        | .interleaved => d.2.set.interleavedRoots.getD l.stack none
        | .bank => d.2.set.bankRoots.getD l.stack none
        | .host => d.2.set.hostRoot) with | some a => .ok a | none => .error Cause.notPresent)) ∧
    (∀ (p : Packet) root, s.deliverable n = some p → p.body = .req r → (∀ a b c, r.op ≠ .lctl a b ∧ r.op ≠ .orderRead ∧ ∀ d f, r.op ≠ .parts a b c d f) →
      r.op.supported (s.module (keyModule p.dst)).code = true → (s.module (keyModule p.dst)).d3hot = false → s.lookup r.cid r.dom (targetOf r.cid r.va) = some l →
      s.homeRoot r.dom l = .ok root → (let u := s.takePacket n; u.cached (unitOf l.m l.stack l.tb) r.dom l.tb.code l.input = none) →
      ends (.homeAccessRequest n hint) fun t => t.walks = s.walks ++ [walkOf r.dom l p.dst r] ∧ t.mem = s.mem ∧ t.net = (s.takePacket n).net) ∧
    (∀ root lf a tol subn sc, s.walks = [w] → (s.module (keyModule w.src)).d3hot = false → 0 < (s.unitShare w.unit w.dom 128 DomainSettings.walkShare).1 →
      s.reaches (keyModule w.src) (cidKey r.cid) = true → s.lookup r.cid r.dom (targetOf r.cid r.va) = some l → s.homeRoot r.dom l = .ok root →
      s.walkFrom l root = .ok lf → lf.pte.testBit 61 = false → (tol = lf.pte.testBit 58 ∧ subn = lf.pte.testBit 57 ∧ sc = lf.pte.testBit 60) →
      a = dramAddr l.m l.stack l.ch (lf.pte % 2 ^ 31 + l.input % lf.size) → a < 2 ^ 60 →
      let done := fun (x : Ans) (q : State → Prop) => ends (.translationWalkDone 0) fun t => t.walks = [] ∧ q t ∧
        ∃ port, t.net = s.net ++ [⟨w.src, cidKey r.cid, 1, port, false, .ans r.cid r.tag r.posted x⟩]
      let same := fun (t : State) => t.mem = s.mem ∧ t.waitq = s.waitq; let word := a / 8; let v := s.mem.read (8 * word) 8
      let takes := fun (size x : Nat) (t : State) => s.mem.takes t.mem a size x; let bytes := fun (t : State) => s.mem.wf = true → ∀ x, t.mem.byte x = s.mem.byte x
      let p := fun (b : Bool) (t : State) => s.mem.presence t.mem a b; let full := s.mem.full word = true
      let ordered := r.ordered = true ∨ (∃ f, r.op = .touch f) ∨ sc = false ∧ r.sc = false
      let ready := ordered ∧ (r.resend = true ∨ Tab.find s.refreshing (a / 2 ^ 31) ≠ some (Config.bankOf (a % 2 ^ 31)))
      (lf.pte.testBit 59 = true → done (.fault Cause.deadPage) same) ∧
      (lf.pte.testBit 59 = false → (r.op.kind ≠ .read → lf.pte.testBit 62 = false → done (.fault Cause.writeProtect) same) ∧
        ((r.op.kind = .read ∨ lf.pte.testBit 62 = true) → (¬ordered → done .scRetry same) ∧
          (ordered → (∀ f, r.op ≠ .touch f) → ¬ready → ∃ k, 16 ≤ k ∧ k ≤ 1024 ∧ done (.refresh k) same) ∧ (∀ f, r.op = .touch f → done .ok same) ∧
          (ready → (s.mem.poisoned word = true → ∀ z, r.op = .load z → (tol = false → done (.fault Cause.poison) same) ∧
              (tol = true → done (.data (if subn then 2 ^ (8 * z) - 1 else 0)) same)) ∧
            (∀ x, r.op = .store 8 x → a % 8 = 0 → done .ok fun t => takes 8 x t ∧ s.mem.sameFull t.mem) ∧
            (s.mem.poisoned word = false → (∀ z, r.op = .load z → done (.data (s.mem.read a z)) same) ∧
              (∀ z x, r.op = .store z x → z < 8 → a % 8 + z ≤ 8 → done .ok fun t => takes z x t ∧ s.mem.sameFull t.mem) ∧
              (a % 8 = 0 → (∀ x, r.op = .atom .add 8 x → done (.data v) fun t => takes 8 ((v + x) % 2 ^ 64) t ∧ s.mem.sameFull t.mem) ∧
                (∀ x, r.op = .atom .xchg 8 x → done (.data v) fun t => takes 8 (x % 2 ^ 64) t ∧ s.mem.sameFull t.mem) ∧
                (∀ c x, r.op = .cas 8 c x → done (.data v) fun t => takes 8 (if v = c % 2 ^ 64 then x else v) t ∧ s.mem.sameFull t.mem) ∧
                (full → (r.op = .ldf → done (.data v) same) ∧ (r.op = .waitf → done .ok same)) ∧
                (r.op = .waite → ¬full → done .ok same) ∧
                (s.waitq = [] → (r.op = .probe → done (.data (if s.mem.full word then 1 else 0)) same) ∧
                  (r.op = .ldt → full → done (.data v) fun t => bytes t ∧ p false t) ∧ (∀ x, r.op = .stf x → done .ok fun t => takes 8 x t ∧ p true t) ∧
                  (∀ x, r.op = .stp x → ¬full → done .ok fun t => takes 8 x t ∧ p true t) ∧
                  (r.op = .sete → done .ok fun t => bytes t ∧ p false t) ∧ (r.op = .setf → done .ok fun t => bytes t ∧ p true t)) ∧
                ((r.op = .ldf ∨ r.op = .ldt ∨ r.op = .waitf) ∧ ¬full ∨ ((∃ x, r.op = .stp x) ∨ r.op = .waite) ∧ full →
                  (s.poolRoom a r.dom = true → ends (.translationWalkDone 0) fun t => t.walks = [] ∧ t.mem = s.mem ∧ t.net = s.net ∧
                    ∃ e, t.waitq = s.waitq ++ [e] ∧ e.word = word ∧ e.req = r ∧ e.tol = tol ∧ e.subn = subn) ∧
                  (s.poolRoom a r.dom = false → done .noList same))))))))

/-- 03 R46 to R57, R63, 04 R97 to R100, 07 R157, R175, 12 R303, R304, 14 R333, R338, 15 R355, R356: requests of the host and completions for
the device, the launch unit, dispatch, the spawn queue, evicted contexts, messages and threads that arrive. `unitAct` and `unitWords` are
the launch unit's accesses (07 R153). The model's choices: the thread that is evicted of two parked equally long, and over which cores it is
sought (log entry 98), and an entry descriptor that cannot be read at a message's arrival (log entry 99). When the descriptor and the class
table are read is log entry 36 (DEDUCED). -/
def Obligations.HostAndLaunches : Prop :=
  ∀ (m q n off cl slot : Nat) (s : State), let x := s.module m; let y := x.queue q
    let ends := fun (i : Instr) (p : State → Prop) => ∃ t, exec i s = .next t ∧ p t
    let queue := fun (t : State) => (t.module m).queue q; let reply := fun (t : State) => (t.module m).reply; let mem := fun (t : State) => t.mem = s.mem
    let aer := fun (t : State) (l : List Nat) => (t.module m).aer = x.aer ++ l; let bar := m * 2 ^ 40 + off; let w := bar / 8
    (s.present.contains m = true →
      (∀ st data pz len op v, x.turnedAway = some st → ∀ i ∈ [Instr.putWindowWrite m q off data pz, .deviceMemoryRead m off len,
          .deviceMemoryWrite m off data pz, .completerAtomicop m off op, .qstatWrite m q v, .registerWrite m off v],
        ends i fun t => reply t = ⟨st, []⟩ ∧ mem t ∧ queue t = y ∧ t.cores = s.cores) ∧
      (x.turnedAway = none →
        (q < 64 →
          (∀ data pz, pz = true ∨ off % 8 ≠ 0 ∨ data.length % 8 ≠ 0 ∨ 128 * 2 ^ y.sizelog < off + data.length ∨ 128 * 2 ^ y.sizelog ≤ off ∨ y.en = false →
            ends (.putWindowWrite m q off data pz) fun t => queue t = { y with badw := true } ∧ aer t (if pz then [1] else []) ∧ mem t) ∧
          (∀ data v p t1 t2, off % 8 = 0 → data.length = 8 → off + 8 ≤ 128 * 2 ^ y.sizelog → y.en = true →
            let va := (y.base.toNat + off) % 2 ^ 64; let i := Instr.putWindowWrite m q off data false;
            s.unitAct m y.dom va (.touch true) none = (.ok v, t1) → t1.unitAct m y.dom va .probe none = (.ok p, t2) →
            (p % 2 = 1 → ends i fun t => queue t = { queue t2 with coll := min 0xFFFF ((queue t2).coll + 1) } ∧ t.mem = t2.mem) ∧
            (p % 2 = 0 → exec i s = .next (t2.unitAct m y.dom va (.stf (ofBytes data)) none).2)) ∧
          (∀ v : Word, ends (.qstatWrite m q v) fun t => mem t ∧ queue t = { y with
            coll := (v.extractLsb' 48 16).toNat, refd := (v.extractLsb' 32 16).toNat, badw := y.badw && !v.getLsbD 17, flt := y.flt && !v.getLsbD 16 })) ∧
        (∀ len, off + len ≤ 2 ^ 40 → len ≤ 4096 → let i := Instr.deviceMemoryRead m off len;
          (x.booted = false → ends i fun t => reply t = ⟨.ok, List.replicate len 0⟩ ∧ mem t) ∧
          (x.booted = true → s.meetsDead bar len = true → ends i fun t => reply t = ⟨.abort, []⟩ ∧ mem t) ∧
          (x.booted = true → s.meetsDead bar len = false → ends i fun t => (reply t).data = (List.range len).map (fun j => s.mem.byte (bar + j)) ∧
            mem t ∧ (s.mem.poison = [] → (reply t).status = .ok) ∧ (∀ j < len, (bar + j) / 8 ∈ s.mem.poison → (reply t).status = .poisoned))) ∧
        (∀ data pz, let i := Instr.deviceMemoryWrite m off data pz; (x.booted = false → exec i s = .next s) ∧
          (off % 8 = 0 → off + 8 ≤ 2 ^ 40 → data.length = 8 → x.booted = true → s.meetsDead bar 8 = false →
            (pz = false → ends i fun t => s.mem.takes t.mem bar 8 (ofBytes data) ∧ s.mem.sameFull t.mem) ∧
            (pz = true → ends i fun t => (∀ a, t.mem.byte a = s.mem.byte a) ∧ s.mem.sameFull t.mem ∧
              (∀ j, t.mem.poisoned j = (decide (j = w) || s.mem.poisoned j)) ∧ aer t [1] ∧ (t.module m).msix = x.msix ++ [1] ∧ ∃ n, (t.module m).log =
                (if x.log.length < 1024 then x.log else x.log.drop 1) ++ [[BitVec.ofNat 64 (2 * 2 ^ 56 + 1), BitVec.ofNat 64 off, 0, n]]))) ∧
        (∀ op v, x.booted = true → off % 8 = 0 → off + 8 ≤ 2 ^ 40 → s.meetsDead bar 8 = false → s.mem.poisoned w = false →
          let old := s.mem.read bar 8;
          (∃ c, (op, v) ∈ [(HostAtomic.fetchAdd 8 c, (old + c) % 2 ^ 64), (.swap 8 c, c % 2 ^ 64)]) ∨
            (∃ c z, op = .cas 8 c z ∧ v = if old = c % 2 ^ 64 then z else old) →
          ends (.completerAtomicop m off op) fun t => s.mem.takes t.mem bar 8 v ∧ s.mem.sameFull t.mem ∧ reply t = ⟨.ok, toBytes 8 old⟩))) ∧
    (s.present.contains m = true → x.d3hot = false → ∀ c ws, let u := s.hostWrites m ws; let i := Instr.hostCompletion m n c ws
      (x.outstanding[n]? = none → ends i fun t => aer t [2] ∧ t.mem = u.mem) ∧
      (∀ h, x.outstanding[n]? = some h → h.owner = .core → s.reaches m (cidKey h.req.cid) = true →
        let replies := fun (i : Instr) (u : State) (a : Ans) => ends i fun t => t.mem = u.mem ∧ (t.module m).outstanding = listDel x.outstanding n ∧
          ∃ port, t.net = s.net ++ [⟨endpointKey m, cidKey h.req.cid, 1, port, false, .ans h.req.cid h.req.tag h.req.posted a⟩]
        ∀ z, h.req.op = .load z → (c = .ok → u.mem.poisoned (hostAddr m h.addr / 8) = false → replies i u (.data (u.mem.read (hostAddr m h.addr) z))) ∧
          (c = .unsupported → replies i u (.fault Cause.hostReadUr)) ∧ (c = .abort → replies i u (.fault Cause.hostReadCa)) ∧
          (c = .poisoned → h.tol = false → replies i u (.fault Cause.poison)) ∧
          ∀ b, replies (.hostCompletionTimeout m n b) s (.fault Cause.hostTimeout))) ∧
    (∀ k d, q < 64 → x.takes q = true → s.domain? m y.dom = some (k, d) → let slot := (y.base.toNat + 128 * (y.cons % 2 ^ y.sizelog)) % 2 ^ 64
      let i := Instr.launchSlotTake m q;
      (∀ c t1, s.unitAct m y.dom (slot + 120) .waitf none = (.fail c, t1) →
        ends i fun t => queue t = { queue t1 with faulted := (queue t1).faulted ++ [(c, BitVec.ofNat 64 (slot + 120))], gathered := [] }) ∧
      (∀ v ws e t1 t2 t3 t4 r, s.unitAct m y.dom (slot + 120) .waitf none = (.ok v, t1) →
        t1.unitWords m q y.dom ((List.range 16).map fun k => slot + 8 * k) = (.words ws, t2) →
        t2.unitWords m q y.dom [(ws.getD 0 0).toNat] = (.words [e], t3) → ws.getD 8 0 = 0 →
        t3.unitEmpty m d.tag ((List.range 16).map fun k => slot + 8 * k) = (.words r, t4) → let z := queue t4
        let counts := { z with cons := (z.cons + 1) % 2 ^ 32, gathered := [] };
        (recordRefusal d d.tag ws (some e.toNat) true = none → ends i fun t => t.mem = t4.mem ∧ queue t = { counts with latch := some ⟨ws, e, z.cons⟩ }) ∧
        (∀ c, recordRefusal d d.tag ws (some e.toNat) true = some c → ends i fun t => t.mem = t4.mem ∧
          queue t = { counts with refd := min 0xFFFF (z.refd + 1), lastref := c, refusal := some ⟨z.cons, c, ws.getD 2 0⟩ }))) ∧
    (x.d3hot = false →
      (∀ r, y.refusal = some r → let put := s.unitAct m y.dom r.compl.toNat (.stf (0xFF * 2 ^ 56 + r.code % 256)) none; let i := Instr.launchRefusalPut m q;
        (∀ v t1, put = (.ok v, t1) → ends i fun t => t.mem = t1.mem ∧ queue t = { queue t1 with refusal := none }) ∧
        (∀ c t1, put = (.fail c, t1) → ∃ u, exec i s = .next (u.queueRecord m q c r.compl r.seq r.code) ∧ u.mem = t1.mem ∧
          queue u = { queue t1 with refusal := none })) ∧
      (∀ c va r, y.faulted = (c, va) :: r → ∃ u, exec (.launchQueueFault m q) s = .next (u.queueRecord m q c va y.cons 0) ∧ mem u ∧
        queue u = { y with flt := true, faulted := r }) ∧
      (s.claimed m = [] → let i := Instr.dispatch m; (s.selectLatch m = none → exec i s = .next s) ∧
        ∀ l lv k d e t1, s.selectLatch m = some (q, l, lv) → s.domain? m l.dom = some (k, d) → l.word 8 = 0 → s.unitWords m q l.dom [l.word 0] = (.words [e], t1) →
          let u := t1.onQueue m q fun y => { y with gathered := [] }; let z := { l with rec_ := l.rec_.take 16, desc := e }
          (∀ c, recordRefusal d d.tag l.rec_ (some e.toNat) true = some c → ends i fun t => t.mem = t1.mem ∧ queue t = { queue u with
            latch := none, refd := min 0xFFFF ((queue u).refd + 1), lastref := c, refusal := some ⟨l.seq, c, l.rec_.getD 2 0⟩ }) ∧
          (recordRefusal d d.tag l.rec_ (some e.toNat) true = none → (u.place m z = none → exec i s = .next u) ∧
            ∀ cores, u.place m z = some cores → ends i fun t => queue t = { queue u with latch := none } ∧ (t.module m).nextLaunch = (u.module m).nextLaunch + 1 ∧
              (t.module m).launches = (u.module m).launches ++ [⟨(u.module m).nextLaunch, q, z.dom, z.rec_, cores, false, false⟩])) ∧
      (∀ z, x.launches.find? (fun y => y.id == n) = some z → let i := Instr.launchComplete m n
        let put := fun (u : State) => u.unitAct m z.dom (z.rec_.getD 2 0).toNat (.stf (z.rec_.getD 3 0).toNat) none
        let gone := fun (t t1 : State) => (t.module m).launches = (t1.module m).launches.filter (fun y => y.id != z.id) ∧ t.mem = t1.mem;
        (s.unbinding m z.dom = true → exec i s = .next s) ∧ (z.putPending = false → z.complete = false → exec i s = .next s) ∧ (s.unbinding m z.dom = false →
          (∀ v t1, z.putPending = false → z.complete = true → put (s.retireLaunch m z) = (.ok v, t1) → ends i fun t => gone t t1) ∧
          (∀ v t1, z.putPending = true → (x.queue z.queue).flt = false → (x.queue z.queue).faulted = [] → x.recordWaits z.queue = false → put s = (.ok v, t1) →
            ends i fun t => gone t t1)))) ∧
    (s.watchLaunches.module m).launches = x.launches.map (fun l => { l with complete := l.complete || !(s.hasTask m l.id || s.hasWork m l.id) }) ∧
    (∀ a r, (s.cluster cl).spawn = a :: r → let e := a.desc.toNat; let win := descWin e
      let started := fun (t : State) (cid k base : Nat) => let th := t.thread cid k
        (t.cluster cl).spawn = r ∧ th.st = .ready ∧ th.pc = descPc a.va.toNat e ∧ th.tsw = descTsw e ∧ th.win = win ∧ th.base = base ∧
          th.dom = a.dom ∧ th.launch = a.launch ∧ th.future = a.future ∧ t.mem = s.mem ∧
          ∀ j < win, t.gOf cid k j = if j = 0 then a.arg else if j = 1 then a.future else 0
      (∀ cid k base, s.coreFor cl a = some cid → (s.core cid).room 4 win = some (k, base) → ends (.spawnQueuePlace cl) fun t => started t cid k base) ∧
      (∀ cid k j base, (∀ c ∈ clusterCores cl, (s.core c).held = []) → (∀ c ∈ s.taskCores cl a, (s.core c).room 4 win = none) →
        s.evictionFor (s.taskCores cl a) 4 win = some (cid, k) → s.mayLeave cid k = true → ((s.evict cid k true).2.core cid).room 4 win = some (j, base) →
        ends (.schedulerEvict cl) fun t => started t cid j base ∧ ∃ c ∈ t.ctxs, c.cid = cid ∧ c.slot = k ∧ c.sched = true ∧ c.regs = s.regsOf cid k ∧
          c.th = (s.thread cid k).saved)) ∧
    (∀ k slot base, (s.module (clusterModule cl)).d3hot = false → (clusterCores cl).findSome? s.restorable = some k → s.restoreRoom k = some (slot, base) →
      k.th.ckpt = none → k.th.wait = .none → ends (.contextRestore cl) fun t => t.thread k.cid slot = { k.th with base := base } ∧
        t.ctxs = s.ctxs.filter (fun c => c.th.uid != k.th.uid) ∧ mem t ∧ ∀ j < k.th.win, t.gOf k.cid slot j = k.regs.getD j 0) ∧
    (∀ p, s.deliverable n = some p → let u := s.takePacket n;
      (∀ g, p.body = .message g → (s.module (cidModule g.dst)).d3hot = false → s.shuttered g.dst = false → (s.core g.dst).held = [] → s.fused g.dst = false →
        s.clusterAvailable (cidCluster g.dst) g.dom = true → s.coreForeign g.dst g.dom = false → let i := Instr.messageArrival n;
        (u.served g = .unserved → exec i s = .next (u.messageFailed (cidModule g.dst) Cause.noHandler g)) ∧ (u.served g = .waits → exec i s = .next s) ∧
        (∀ va e l, u.served g = .entry va e l → (u.restorable g.dst).isSome = false →
          ((u.core g.dst).room 0 (descWin e) = none → ends i fun t => (t.core g.dst).held = [.msg p.src g va e l] ∧ mem t ∧ t.net = u.net) ∧
          (∀ k base, (u.core g.dst).room 0 (descWin e) = some (k, base) → ends i fun t => let th := t.thread g.dst k
            th.st = .ready ∧ th.pc = descPc va e ∧ th.dom = g.dom ∧ th.launch = u.messageLaunch g.dst g.dom l ∧ th.origin = 3 ∧ th.cls = g.cls ∧ mem t ∧
              t.net = u.net ∧ ∀ j < descWin e, t.gOf g.dst k j = g.payload.getD j 0))) ∧
      (∀ g k base, p.body = .migrate g → g.anyCore = false → (s.module (cidModule g.dst)).d3hot = false → s.shuttered g.dst = false → (s.core g.dst).held = [] →
        s.coreOpen g.dst g.th.dom = true → (u.restorable g.dst).isSome = false → (u.core g.dst).room 0 g.th.win = some (k, base) →
        ends (.migrationLanding n) fun t => t.thread g.dst k = { g.th with st := .ready, base := base, pipe := (u.core g.dst).cyc, ckpt := none } ∧
          (∀ j < g.th.win, t.gOf g.dst k j = g.regs.getD j 0) ∧ mem t ∧
          ∃ port, t.net = u.net ++ [⟨coreSource g.dst, cidKey g.srcCid, 3, port, false, .migAck g.srcCid g.srcSlot⟩]) ∧
      (∀ cid slot dst, p.body = .migAck cid slot → (s.thread cid slot).wait = .core (.migrate dst) →
        ends (.migrationAck n) fun t => t.thread cid slot = Thread.fresh ∧ mem t ∧ t.net = u.net)) ∧
    (∀ d e t1, Tab.find x.domains slot = some d → d.wantService = true → d.service = none → d.unbinding = false →
      s.readWhole (m * 2 ^ 14) d.tag d.set.service.toNat 8 = (.ok e, t1) → descBad e = false → t1.serviceCores m d.tag (descWin e) ≠ [] →
      ends (.serviceThreadStart m slot) fun t => t.mem = t1.mem ∧ ∃ cid ∈ t1.serviceCores m d.tag (descWin e), ∃ k, let th := t.thread cid k
        th.st = .ready ∧ th.svc = true ∧ th.k = true ∧ th.dom = d.tag ∧ th.pc = descPc d.set.service.toNat e)

/-- 00 R6, 01 R14 to R16, 03 R48, R51, R54, R59, R63, 04 R97, 15 R358: what the host reads from the control BAR and the put window; the refusal
code of a launch record, that of the first check it fails (their order: log entry 25, DEDUCED); select() and its counts; which cores are feasible;
place(); the root threads of a core. What a
read of the control BAR gives is a function of the state (log entry 78). -/
def Obligations.LaunchChecksSelectionAndPlacement : Prop :=
  ∀ (m q c cid id : Nat) (s : State), let x := s.module m; let y := x.queue q
    let reads := fun (off : Nat) (v : Word) => x.turnedAway = none → x.controlRead off = ⟨.ok, (List.range 8).map fun i => v.extractLsb' (8 * i) 8⟩
    let num := fun (w n : Nat) => BitVec.ofNat w n; let flag := fun (b : Bool) => BitVec.ofBool b
    (∀ off, off < 0x1000 ∨ 0x1800 ≤ off ∧ off ≤ 0x2000 ∨ 0x2050 ≤ off ∧ off < 0x2100 ∨ 0x3000 ≤ off → reads off 0) ∧
    (q < 64 → let r := 0x1000 + 32 * q
      reads r (y.base &&& ~~~0x7F) ∧ reads (r + 8) (num 32 0 ++ num 16 y.dom ++ num 11 0 ++ flag y.en ++ num 4 y.sizelog) ∧ reads (r + 16) (num 32 0 ++ num 32 y.cons) ∧
      reads (r + 24) (num 16 y.coll ++ num 16 y.refd ++ num 14 0 ++ flag y.badw ++ flag y.flt ++ num 8 y.lastref ++ num 7 0 ++ flag y.latch.isSome)) ∧
    reads 0x2008 (num 16 0 ++ num 16 x.mbox.tag ++ num 8 0 ++ num 8 x.mbox.result ++ num 14 0 ++ flag x.mbox.ovr ++ flag x.busy) ∧
    (∀ k < 8, reads (0x2010 + 8 * k) (x.mbox.args.getD k 0)) ∧
    (∀ n st, x.turnedAway = some st → x.controlRead n = ⟨st, []⟩ ∧ s.putWindowRead m q n 1 = ⟨st, []⟩) ∧
    (∀ off, x.turnedAway = none → (128 * 2 ^ y.sizelog ≤ off → s.putWindowRead m q off 1 = ⟨.ok, List.replicate 8 0⟩) ∧
      ∀ a, off < 128 * 2 ^ y.sizelog → s.placeInDram m y.dom ((y.base.toNat + off) % 2 ^ 64) = some a →
        s.putWindowRead m q off 1 = ⟨if s.mem.poisoned (a / 8) then .poisoned else .ok, (List.range 8).map fun i => s.mem.byte (a + i)⟩) ∧
    (∀ (d : Domain) (tag : Nat) (ws : List Word) (desc : Option Nat) (table : Bool), let b := fun (k lo len : Nat) => ((ws.getD k 0).extractLsb' lo len).toNat
      let entryBad := fun (e : Word) => e.extractLsb' 44 20 ≠ 0 ∨ ∀ n ∈ [8, 16, 24, 32, 40, 48, 56, 64, 72, 80, 88, 96, 104, 112, 120, 128], (e.extractLsb' 32 8).toNat ≠ n
      let window := if b 5 0 8 = 0 then (desc.getD 0) / 2 ^ 32 % 2 ^ 8 else b 5 0 8; let clusters := (List.range 23).countP fun k => (ws.getD 6 0).getLsbD (16 + k)
      let dies := (List.range 16).countP fun k => (ws.getD 6 0).getLsbD k
      let rows : List (Prop × Nat) := [(∀ e, desc = some e → entryBad (BitVec.ofNat 64 e), 3), (b 2 0 3 ≠ 0, 6), (b 4 57 7 ≠ 0, 1), (¬(1 ≤ b 4 48 9 ∧ b 4 48 9 ≤ 252), 4),
        (¬(1 ≤ b 4 32 16 ∧ b 4 32 16 ≤ 8832), 4), (b 4 28 4 ≠ 0, 1), (b 4 19 5 ≠ 0, 1), (b 4 0 16 = 0 ∨ b 4 0 16 ≠ tag, 2), (b 5 18 46 ≠ 0, 1), (384 < b 5 8 10, 4),
        (b 5 0 8 ≠ 0 ∧ ¬(8 ≤ b 5 0 8 ∧ b 5 0 8 ≤ 128 ∧ 8 ∣ b 5 0 8), 4), (b 6 39 25 ≠ 0, 1), (b 6 16 23 = 0, 4), (b 6 0 16 = 0, 4), (table = false, 3),
        (∃ k, 9 ≤ k ∧ k ≤ 14 ∧ ws.getD k 0 ≠ 0, 1), (b 15 8 56 ≠ 0, 1), (b 15 0 8 ≠ 1, 5), (4096 < b 4 48 9 * window, 4), (24 * (dies * clusters) < b 4 32 16, 4),
        (¬((ws.getD 4 0).getLsbD 26 = true ↔ d.set.partitioned = true), 7), (¬((ws.getD 4 0).getLsbD 24 = true ↔ d.set.gang ≠ none), 7)]
      ((∀ r ∈ rows, ¬r.1) → recordRefusal d tag ws desc table = none) ∧
      ∀ before r after, rows = before ++ r :: after → r.1 → (∀ z ∈ before, ¬z.1) → recordRefusal d tag ws desc table = some r.2) ∧
    (let held := fun (q : Nat) (l : Latched) => q < 64 ∧ (x.queue q).latch = some l ∧ ((l.rec_.getD 4 0).getLsbD 24 = true → s.switchedIn m l.dom = true) ∧
        s.unbinding m l.dom = false
      let level := fun (l : Latched) => ((l.rec_.getD 4 0).extractLsb' 16 3).toNat; let streak := fun k => Tab.get 0 x.streak k
      (s.selectLatch m = none ↔ ∀ q l, ¬held q l) ∧
      (∀ q l h lv, held q l → level l = lv → (∃ q l, held q l ∧ level l = h) → (∀ q l, held q l → level l ≤ h) →
        (let starved := fun k => k < h ∧ 16 ≤ streak k ∧ (∃ q l, held q l ∧ level l = k);
          starved lv ∧ (∀ k, starved k → k ≤ lv) ∨ lv = h ∧ ∀ k, ¬starved k) →
        (let last := Tab.get 63 x.lastL lv; last ≤ 63 ∧ ∀ r l, held r l → level l = lv → (q + 63 - last) % 64 ≤ (r + 63 - last) % 64) →
        s.selectLatch m = some (q, l, lv)) ∧
      ∀ lv ls, Tab.get 63 (x.dispatched q lv ls).lastL lv = q ∧ ∀ k < 8, Tab.get 0 (x.dispatched q lv ls).streak k =
        if k = lv then 0 else if k ∉ ls then 0 else if k < lv then streak k + 1 else streak k) ∧
    (∀ l : Latched, let win := l.win; let kib := fun (r : List Word) => ((r.getD 5 0).extractLsb' 8 10).toNat; let n := cidModule cid; let cl := s.cluster (cidCluster cid)
      (s.feasible cid l = true ↔ s.clusterAvailable (cidCluster cid) l.dom = true ∧ s.coreOpen cid l.dom = true ∧
        s.placementStopped cid l.dom = false ∧ (s.module n).over115 = false ∧ (s.module n).d3hot = false ∧ (s.core cid).fits win l.threads = true ∧
        (kib l.rec_ = 0 ∨ ∀ z ∈ (s.module n).launches, cid ∈ z.cores → kib z.rec_ ≠ 0 → s.switchedIn n z.dom = false) ∧
        ((l.rec_.getD 4 0).getLsbD 27 = false ∨ ∀ k < 5, let r := Tab.get 0 cl.cprgn k; r = 0 ∨ (r.extractLsb' 48 16).toNat = l.dom))) ∧
    (∀ (l : Latched) (ok : Nat → Bool) (dies : List Nat) (cls : Nat → List Nat), let mask := fun k => (l.rec_.getD 6 0).getLsbD k
      let cores := fun d c => (clusterCores ((m * 16 + d) * 32 + c)).filter ok
      let falling := fun (f : Nat → Nat) (u : List Nat) => u.Pairwise fun a b => f b < f a ∨ f a = f b ∧ a < b; let number := fun d => ((cls d).map fun c => (cores d c).length).sum
      (∀ d, d ∈ dies ↔ d < 16 ∧ mask d = true ∧ cls d ≠ []) → falling number dies →
      (∀ d c, c ∈ cls d ↔ c < 23 ∧ mask (16 + c) = true ∧ cores d c ≠ []) → (∀ d, falling (fun c => (cores d c).length) (cls d)) →
      let chosen := match dies with | [] => [] | d :: r => if l.cores ≤ number d then [d] else d :: r
      let order := chosen.flatMap fun d => (cls d).flatMap (cores d)
      l.choose ok m = if order.length < l.cores then none else some (order.take l.cores)) ∧
    (∀ l : Latched, l.win % 8 = 0 → (s.core cid).fits l.win l.threads = true → ∀ i < l.threads, ∃ k, let t := s.startRoots cid c l id; let th := t.thread cid k
      (s.thread cid k).st = .free ∧ th.st = .ready ∧ th.win = l.win ∧ th.dom = l.dom ∧ th.launch = some (cidModule cid, id) ∧ th.pc = descPc (l.word 0) l.desc.toNat ∧
        th.tsw = descTsw l.desc.toNat ∧ th.preds = List.replicate 8 0 ∧ th.fds = List.replicate 15 0 ∧ t.mem = s.mem ∧ ∀ j < l.win, t.gOf cid k j =
          if j = 0 then l.rec_.getD 1 0 else if j = 1 then BitVec.ofNat 64 (c * l.threads + i) else if j = 2 then BitVec.ofNat 64 (l.cores * l.threads) else 0)

/-- 03 R47, R51, R58, R68, 04 R73, 14 R333, R334, R354, 15 R358 to R368, 17 R376 to R380: the mailbox and its commands, power states,
resets, the boot, the seal and the result of boot mode. A command is served while the mailbox holds its code. The model's choices: the
RESULT of a command that breaks several rules and the layouts of settings and images (log entries 5, 13, 31, 32), what an unbinding wipes
(log entry 30), and SVC_POP of an empty queue (log entry 35). -/
def Obligations.ManagementAndReset : Prop :=
  ∀ (m : Nat) (s : State), let x := s.module m; let b := x.mbox; let life := x.fuses.lifecycle
    let ends := fun (i : Instr) (p : State → Prop) => ∃ t, exec i s = .next t ∧ p t
    let arg := fun (k : Nat) => (b.args.getD k 0).toNat; let a0 := arg 0; let a1 := arg 1; let a2 := arg 2
    let ended := fun (y : Machine.Module) (r : Nat) => { y with mbox := { y.mbox with result := r, finished := true } }
    let gives := fun (i : Instr) (y : Machine.Module) => ends i fun t => t.module m = y ∧ t.mem = s.mem ∧ t.cores = s.cores
    let does := fun (i : Instr) (y : Machine.Module) => gives i (ended y 0); let fails := fun (i : Instr) (r : Nat) => gives i (ended x r)
    let serves := fun (c : Nat) => s.present.contains m = true ∧ x.d3hot = false ∧ b.busy = true ∧ b.finished = false ∧ b.code = c
    let wiped := fun (y : Machine.Module) => { Machine.Module.fresh with fuses := y.fuses, code := y.code, over105 := y.over105, over115 := y.over115, clock := if y.over105 then 800 else 1600 }
    let clean := fun (t : State) => (∀ c, cidModule c = m → t.core c = Core.fresh) ∧ (∀ c, clusterModule c = m → t.cluster c = Cluster.fresh) ∧
      (∀ a, a / 2 ^ 40 = m ∨ (∃ c o, cidModule c = m ∧ o < 2 ^ 19 ∧ a = localAddr c o) →
        t.mem.byte a = 0 ∧ t.mem.full (a / 8) = true ∧ t.mem.poisoned (a / 8) = false) ∧
      (∀ k, k ∈ t.ctxs → cidModule k.cid ≠ m) ∧ t.present = s.present
    (s.present.contains m = true → x.turnedAway = none → ∀ v : Word, let w := fun (o : Nat) => Instr.registerWrite m o v;
      (x.busy = true → gives (w 0x2000) { x with mbox := { b with ovr := true } }) ∧
      (x.busy = false → let taken := { b with code := v.toNat % 256, tag := (v.extractLsb' 16 16).toNat, busy := true };
        (x.bootHalted = true → gives (w 0x2000) { x with mbox := { taken with result := 4, finished := true } }) ∧
        (x.bootHalted = false → (v.extractLsb' 32 32 ≠ 0 ∨ v.extractLsb' 8 8 ≠ 0 → gives (w 0x2000) { x with mbox := { taken with result := 2, finished := true } }) ∧
          (v.extractLsb' 32 32 = 0 → v.extractLsb' 8 8 = 0 →
            (v.toNat % 256 = 0 ∨ 0x0F ≤ v.toNat % 256 → gives (w 0x2000) { x with mbox := { taken with result := 1, finished := true } }) ∧
            (0 < v.toNat % 256 → v.toNat % 256 < 0x0F → gives (w 0x2000) { x with mbox := { taken with result := 0, finished := false } })))) ∧
      gives (w 0x2008) { x with mbox := { b with ovr := b.ovr && !v.getLsbD 1 } } ∧
      (∀ k < 8, gives (w (0x2010 + 8 * k)) { x with mbox := { b with args := listSet b.args k v } }) ∧
      (∀ k < 480, ends (w (0x2100 + 8 * k)) fun t => ∀ j, Tab.get 0 (t.module m).mbox.buffer j =
        if 8 * k ≤ j ∧ j < 8 * k + 8 then BitVec.ofNat 8 (v.toNat / 256 ^ (j - 8 * k)) else Tab.get 0 b.buffer j)) ∧
    (s.present.contains m = true → x.d3hot = false → b.busy = true → b.finished = true →
      gives (.mailboxCommandDone m) { x with mbox := { b with busy := false, finished := false }, msix := x.msix ++ [0] }) ∧
    (serves 0x01 → let y := x.queue a0; let i := Instr.queueSet m; let size := a2 % 16; let queue := (BitVec.ofNat 64 a2).extractLsb' 16 16; let en := a2 / 16 % 2 = 1
      let wellFormed := a0 < 64 ∧ a2 / 2 ^ 32 = 0 ∧ a2 / 32 % 2 ^ 11 = 0 ∧ a1 % 128 = 0 ∧ 1 ≤ size ∧ size ≤ 13 ∧ (a1 / 2 ^ 60 = 0 ∨ a1 / 2 ^ 60 = 8) ∧
        (en → s.domain? m queue.toNat ≠ none);
      (¬wellFormed → fails i 2) ∧ (wellFormed → (en → y.en = true → fails i 3) ∧
        (en → y.en = false →
          does i { x with queues := Tab.set x.queues a0 { y with base := b.args.getD 1 0, dom := queue.toNat, en := true, sizelog := size, cons := 0, gathered := [] } }) ∧
        (¬en →
          does i { x with queues := Tab.set x.queues a0 { y with base := b.args.getD 1 0, dom := queue.toNat, en := false, sizelog := size, gathered := [] } }))) ∧
    (serves 0x02 → let d := settingsOf (s.bufferWord m); let i := Instr.domainBind m (); (a1 = 0xFFFF → fails i 2) ∧ (a1 ≠ 0xFFFF → life = 0 ∨ life = 3 → fails i 3) ∧
      let free := a0 < 64 ∧ 0 < a1 ∧ a1 < 0xFFFF ∧ s.domain? m a1 = none ∧ Tab.find x.domains a0 = none ∧ masksBad d.imasks = false ∧
        (d.partitioned = false ∨ d.gang = none ∧ ∀ k y, (k, y) ∈ x.domains → y.set.partitioned = true → ∀ c ∈ y.set.clusters, c ∉ d.clusters)
      a1 ≠ 0xFFFF → life = 1 ∨ life = 2 → (¬free → fails i 2) ∧
        (free → does i { x with domains := Tab.set x.domains a0 ⟨a1, d, [], [], 0, none, true, false, 0, [], false⟩ })) ∧
    (serves 0x03 → let i := Instr.domainUnbind m; (Tab.find x.domains a0 = none → fails i 3) ∧
      (∀ d, Tab.find x.domains a0 = some d → let mods := s.domModules d.tag; let force := a1 % 2 = 1; let refused := s.unbindRefused d.tag mods
        let u := s.endWork mods d.tag;
        (¬force → refused = true → fails i 3) ∧
        (force ∨ refused = false → mods.any (fun k => u.stillRuns k d.tag) = true → exec i s = .next u) ∧
        (force ∨ refused = false → mods.any (fun k => u.stillRuns k d.tag) = false → ends i fun t => (∀ k ∈ mods, t.domain? k d.tag = none) ∧
          (t.module m).mbox.result = 0 ∧ (t.module m).mbox.finished = true))) ∧
    (serves 0x04 → let q := s.gang m a0; let i := Instr.gangAbort m; (q.phase1 = none → fails i 3) ∧
      (∀ p, q.phase1 = some p → (p.1 ≠ a1 → fails i 3) ∧ (p.1 = a1 → q.sending = none →
        does i { x with gangs := Tab.set x.gangs a0 { q with phase1 := none, expect := q.expect + 1 } }))) ∧
    (serves 0x05 → let c := a0 / 256 % 2 ^ 26; let k := a0 % 256; let th := s.thread c k; let i := Instr.svcControl m
      let service := a0 < 2 ^ 34 ∧ cidModule c = m ∧ a1 < 3 ∧ th.svc = true ∧ th.st = .faulted; (¬service → fails i 2) ∧
      (service → a1 < 2 → th.dbl = true → fails i 2) ∧ (service → a1 = 1 → s.handlerOf c th = 0 → fails i 2) ∧
      (service → a1 = 0 → th.dbl = false → exec i s = .next ((s.trapReturn c k).ended m 0)) ∧
      (service → a1 = 1 → th.dbl = false → s.handlerOf c th ≠ 0 → ends i fun t => (t.thread c k).pc = s.handlerOf c th ∧ (t.thread c k).st = .trap ∧ t.module m = ended x 0) ∧
      (service → a1 = 2 → (s.core c).pending k = [] → ends i fun t => t.thread c k = Thread.fresh ∧ (t.module m).mbox = { b with result := 0, finished := true }) ∧
      (service → a1 = 2 → (s.core c).pending k ≠ [] → exec i s = .next (s.discardEntries c k))) ∧
    (serves 0x06 → let i := Instr.svcAnswer m; (s.domain? m a2 = none ∨ 0xFFFF < a2 → fails i 2) ∧
      (∀ v t1, s.domain? m a2 ≠ none → a2 ≤ 0xFFFF → s.unitAct m a2 a0 (.stf a1) none = (.ok v, t1) → ends i fun t => t.module m = ended (t1.module m) 0 ∧ t.mem = t1.mem)) ∧
    (serves 0x07 → let i := Instr.svcPop m; (x.hsq = [] → does i { x with mbox := { b with args := listSet b.args 0 0 } }) ∧
      (∀ r q, x.hsq = r :: q → x.hsWait = [] → does i { x with hsq := q, mbox := { b with args := r } })) ∧
    (serves 0x08 → let es := (x.log.filter fun e => decide (((e.getD 3 0).toNat + 2 ^ 32 - a0 % 2 ^ 32) % 2 ^ 32 < 2 ^ 31)).take 112
      ends (.logRead m) fun t => let c := (t.module m).mbox
        c.args = listSet (listSet b.args 0 (BitVec.ofNat 64 es.length)) 1 (BitVec.ofNat 64 x.overrun) ∧ c.result = 0 ∧ c.finished = true ∧
        (∀ j < (es.flatMap wordBytes).length, Tab.get 0 c.buffer j = (es.flatMap wordBytes).getD j 0) ∧ t.mem = s.mem) ∧
    (serves 0x09 → let i := Instr.powerCap m; (a0 = 2400 ∨ a0 = 2800 ∨ a0 = 3200 → does i { x with cap := a0 }) ∧ (a0 ≠ 2400 → a0 ≠ 2800 → a0 ≠ 3200 → fails i 2)) ∧
    (serves 0x0A → let i := Instr.attest m; (x.fuses.keyEpoch = none ∨ life = 0 ∨ life = 3 → fails i 3) ∧
      (∀ e, x.fuses.keyEpoch = some e → life = 1 ∨ life = 2 → (32768 ≤ x.fuses.leaf → fails i 6) ∧
        (x.fuses.leaf < 32768 → let report := x.report m e (s.buffer m 32); ends i fun t => (t.module m).fuses = { x.fuses with leaf := x.fuses.leaf + 1 } ∧
          (t.module m).mbox.result = 0 ∧ (t.module m).mbox.finished = true ∧ let bytes := report ++ lmsSign m e x.fuses.leaf report
          ∀ j < bytes.length, Tab.get 0 (t.module m).mbox.buffer j = bytes.getD j 0))) ∧
    (serves 0x0B → let i := Instr.identity m; (x.fuses.keyEpoch = none ∨ life = 0 ∨ life = 3 → fails i 3) ∧
      (∀ e, x.fuses.keyEpoch = some e → life = 1 ∨ life = 2 → ends i fun t => let c := (t.module m).mbox
        c.args = listSet b.args 0 (BitVec.ofNat 64 life) ∧ c.result = 0 ∧ c.finished = true ∧ ∀ j < (lmsPublic m e).length, Tab.get 0 c.buffer j = (lmsPublic m e).getD j 0)) ∧
    (serves 0x0C → let i := Instr.fwStage m; (2 ^ 26 < a0 + 3840 → fails i 2) ∧
      (a0 + 3840 ≤ 2 ^ 26 → s.mem.wf = true → s.mem.poison = [] → ends i fun t => t.module m = { ended x 0 with staged := max x.staged (a0 + 3840) } ∧ t.cores = s.cores ∧
        s.mem.sameFull t.mem ∧ let at_ := stagingAddr m + a0; ∀ j, t.mem.byte j = if at_ ≤ j ∧ j < at_ + 3840 then Tab.get 0 b.buffer (j - at_) else s.mem.byte j)) ∧
    (serves 0x0D → let image := (List.range x.staged).map fun i => s.mem.byte (stagingAddr m + i); let f := x.fuses; let ver := f.image.versionIn image; let i := Instr.fwCommit m () ()
      let poisoned := ∃ w ∈ s.mem.poison, 8 * w < stagingAddr m + x.staged ∧ stagingAddr m < 8 * w + 8; let ok := f.image.sound f.rootHash image = true ∧ f.version ≤ ver
      (poisoned ∧ 0 < x.staged ∨ ¬ok → fails i 4) ∧ (¬poisoned → ok → does i { x with fuses := { f with flash := image, version := ver } })) ∧
    (serves 0x0E → let signed := x.fuses.command.sound x.fuses.rootHash ((List.range 3840).map fun k => Tab.get 0 b.buffer k); let i := Instr.lifecycle m ()
      let listed := (a0 = 0 ∧ life = 3) ∨ (a0 = 1 ∧ (life = 0 ∨ life = 2)) ∨ (a0 = 2 ∧ life = 1) ∨ a0 = 3; (4 ≤ a0 → fails i 2) ∧
      (a0 < 4 → ¬listed → fails i 3) ∧ (listed → a0 = 0 → signed = false → fails i 4) ∧
      (listed → (a0 = 0 → signed = true) → ends i fun t => clean t ∧ t.module m = { wiped x with fuses :=
        if a0 = 1 ∧ life = 0 then { x.fuses with lifecycle := 1, keyEpoch := some x.fuses.keysMade, keysMade := x.fuses.keysMade + 1, leaf := 0 }
        else if a0 = 3 then { x.fuses with lifecycle := 3, keyEpoch := none, leaf := 0 } else { x.fuses with lifecycle := a0 } })) ∧
    (s.present.contains m = true →
      let cold := { wiped x with over105 := false, over115 := false, clock := 1600 }
      ends (.hotReset m) (fun t => clean t ∧ t.module m = wiped x) ∧ ends (.fundamentalReset m) (fun t => clean t ∧ t.module m = cold) ∧
      (∀ v z p q, (x.over115 = true → ∀ i ∈ [Instr.functionLevelReset m, .d3hotEntry m, .d3hotExit m, .configurationWrite m (v, z) (p, q)],
          gives i { x with reply := ⟨.abort, []⟩ }) ∧
        (x.over115 = false → gives (.configurationWrite m (v, z) (p, q))
          { x with timeout := v, atomics := z, mps := if p.toNat ≤ 2 then p else x.mps, mrrs := if q.toNat ≤ 5 then q else x.mrrs })) ∧
      (x.over115 = false → ends (.functionLevelReset m) (fun t => clean t ∧ t.module m = wiped x) ∧
        (x.d3hot = true → ends (.d3hotExit m) fun t => clean t ∧ t.module m = cold) ∧
        (x.d3hot = false → ends (.d3hotEntry m) fun t => (t.module m).d3hot = true ∧ t.mem = s.mem)) ∧
      (∀ c, x.booted = false → x.bootHalted = false → x.bootMode = false → x.d3hot = false → let f := x.fuses; let i := Instr.moduleBoot m c
        let r := measure (f.image.verified f.rootHash f.flash) x.mr; let mr := extendMr r.1 (Config.configuration f.fuseMap x.cap life);
        (r.2 = false → gives i { x with mr := r.1, bootHalted := true }) ∧
        (r.2 = true → c.program = false → gives i { x with mr := mr, booted := true }) ∧
        (r.2 = true → c.program = true → ends i fun t => let y := t.module m; let cid := t.bootCore (m * 2 ^ 9); let th := t.thread cid 0
          y.mr = mr ∧ y.bootMode = true ∧ y.sealed = false ∧ y.booted = false ∧ y.boot = some c ∧ y.bootRoot = some th.uid ∧ th.st = .ready ∧ th.dom = 0xFFFF ∧ th.win = 32 ∧
            t.gOf cid 0 0 = 0x1000000 ∧ t.gOf cid 0 1 = 0 ∧ t.gOf cid 0 2 = 1)) ∧
      (∀ c, x.boot = some c → x.bootHalted = false → x.d3hot = false →
        (∀ a, x.bootMode = true → s.placeInDram m 0xFFFF c.sealVa = some a → s.mem.full (a / 8) = true →
          let agrees := ∀ i < 368, (mapWords x.fuses.fuseMap).getD i 0 = (s.writtenMap m c).getD i 0;
          (¬agrees → ends (.bootSeal m) fun t => (t.module m).bootHalted = true) ∧ (agrees → s.bootQuiet m = false → exec (.bootSeal m) s = .next s) ∧
          (agrees → s.bootQuiet m = true → ∃ u : State, exec (.bootSeal m) s = .next (u.bootPut m c.sealedVa 1) ∧ (u.module m).bootMode = false ∧
            (u.module m).sealed = true ∧ (u.module m).logicalMap = (List.range 16).map fun d => (List.range 23).map fun l => BitVec.ofNat 64 ((mapWords x.fuses.fuseMap).getD (23 * d + l) 0))) ∧
        (x.booted = false → let i := Instr.bootResult m; let halts := gives i { x with bootHalted := true }; (s.faultQueue m 0xFFFF ≠ [] → halts) ∧
          (s.faultQueue m 0xFFFF = [] → (s.bootTasks m none ≠ 0 → exec i s = .next s) ∧
            (∀ a, s.bootTasks m none = 0 → s.placeInDram m 0xFFFF c.resultVa = some a → (s.mem.read a 8 ≠ 0 → halts) ∧
              (s.mem.read a 8 = 0 → ends i fun t => (t.module m).booted = true ∧ (t.module m).boot = none ∧ t.domain? m 0xFFFF = none))))))


/-- 03 R65 to R68, 04 R78, R79, 14 R347, R349, R351 to R353, 15 R367, R368: gang switches, all-asleep detection, link ports, temperature and
clock. Messages between management cores go to every module named, on class 15. The model's choices: what a member refuses (log entry 95), the cores of a switch and the next peer (log entry 29, DEDUCED), and
whether a degraded port still holds the reserve, which is free (log entry 103). -/
def Obligations.GangsDetectionAndLinks : Prop :=
  ∀ (m n src dst vc : Nat) (port : Option Nat) (cr : Bool) (s : State), let x := s.module m; let u := s.takePacket n
    let ends := fun (i : Instr) (p : State → Prop) => ∃ t, exec i s = .next t ∧ p t
    let mem := fun (t : State) => t.mem = s.mem; let there := fun (k : Nat) => s.reaches m (mgmtKey k) = true
    let sends := fun (t : State) (before : List Packet) (l : List (Nat × Mgmt)) => ∃ ps, t.net = before ++ ps ∧
      ps.map (fun p => (p.src, p.dst, p.vc, p.body)) = l.map fun k => (mgmtKey m, mgmtKey k.1, 4, Body.mgmt k.2)
    let same := fun (l : List Nat) (k : Mgmt) => l.map fun d => (d, k)
    (∀ g d, s.gangSet m g = some d → let q := s.gang m g; let i := Instr.gangTimerExpiry m g; let inn := nextPeer d.gangPeers q.current
      s.present.contains m = true → x.d3hot = false → leastOf d.gangModules = some m → q.sending = none → q.phase1 = none → q.running = none →
      s.startRequest m g = none → (inn = q.current → exec i s = .next s) ∧
      (inn ≠ q.current → (∀ k ∈ d.gangModules, there k) → ends i fun t => mem t ∧
        t.gang m g = { q with sending := some (q.expect, q.current, inn), prepared := [], done := [] } ∧
        sends t s.net (d.gangModules.map fun k => (k, .prepare g q.expect q.current inn (s.neededCores k q.current inn))))) ∧
    (∀ g, x.d3hot = false → let q := s.gang m g; let i := Instr.gangCommit m g;
      (∀ k by_ t1 p, q.running = none → s.commitPacket m g = some (k, by_, t1) → (t1.gang m g).phase1 = some p →
        (p.1 ≠ k → exec i s = .next t1) ∧ (p.1 = k → exec i s = .next (t1.startSwitch m g p))) ∧
      (∀ k out inn cores, q.running = some (k, out, inn, cores) →
        ((∀ c ∈ cores, (s.core c).gangShut = false) → there ((((s.gangSet m g).bind fun d => leastOf d.gangModules)).getD m) → ends i fun t =>
          mem t ∧ t.gang m g = { q with running := none } ∧ sends t s.net [((((s.gangSet m g).bind fun d => leastOf d.gangModules)).getD m, .done g k m)]) ∧
        (∀ c, let left := cores.filter fun c => (s.core c).gangShut; let v := s.preemptPours left;
          left.find? (fun c => (switchUnit cores c).all fun x => v.coreQuiet x out) = some c → let w := v.switchCores out inn (switchUnit cores c)
          (∃ a ∈ cores, (w.core a).gangShut = true) → exec i s = .next w))) ∧
    (∀ k, s.deliverable n = some ⟨src, dst, vc, port, cr, .mgmt k⟩ → m = keyModule dst → x.d3hot = false → let by_ := keyModule src
      let plain := fun (i : Instr) => exec i s = .next u;
      (∀ g e out inn cores, k = .prepare g e out inn cores → let q := s.gang m g; let i := Instr.gangPrepare n;
        (e ≠ q.expect ∨ q.phase1.isSome = true ∨ q.running.isSome = true → plain i) ∧
        (e = q.expect → q.phase1 = none → q.running = none → there by_ →
          (∀ j d, s.domain? m inn = some (j, d) → d.set.gang = some g → ends i fun t => mem t ∧ sends t u.net [(by_, .prepared g e m)] ∧
            t.gang m g = { q with phase1 := some (e, out, inn, cores) }) ∧
          (∀ why, (∃ j d, s.domain? m inn = some (j, d) ∧ d.set.gang ≠ some g ∧ why = GangReason.notInGang) ∨ s.domain? m inn = none ∧ why = .notBound →
            ends i fun t => mem t ∧ sends t u.net [(by_, .refused g e m why)] ∧ t.gang m g = q))) ∧
      (∀ g e j o inn d, let q := s.gang m g; q.sending = some (e, o, inn) → j ∉ q.prepared → s.gangSet m g = some d → let i := Instr.gangPreparedReply n
        let all := ∀ k ∈ d.gangModules, k ∈ j :: q.prepared; let reach := ∀ k ∈ d.gangModules, there k;
        (k = .prepared g e j → ¬all → ends i fun t => mem t ∧ t.net = u.net ∧ t.gang m g = { q with prepared := j :: q.prepared }) ∧
        (k = .prepared g e j → all → reach → ends i fun t => mem t ∧ t.gang m g = { q with prepared := j :: q.prepared } ∧ sends t u.net (same d.gangModules (.commit g e))) ∧
        (∀ why, k = .refused g e j why → reach → ends i fun t => mem t ∧ t.gang m g = { q with sending := none, prepared := [] } ∧ sends t u.net (same d.gangModules (.abort g e)))) ∧
      (∀ g e, k = .abort g e → let q := s.gang m g; let i := Instr.gangSwitchAbort n; (e ≠ q.expect → plain i) ∧
        (e = q.expect → ends i fun t => mem t ∧ t.net = u.net ∧ t.gang m g = { q with phase1 := none, expect := q.expect + 1 })) ∧
      (∀ g e j o inn d, k = .done g e j → let q := s.gang m g; q.sending = some (e, o, inn) → s.gangSet m g = some d → ends (.gangDone n) fun t => mem t ∧ t.net = u.net ∧
        ((∀ k ∈ d.gangModules, k ∈ j :: q.done) → (t.gang m g).sending = none) ∧
        ((∃ k ∈ d.gangModules, k ∉ j :: q.done) → t.gang m g = { q with done := j :: q.done })) ∧
      (∀ dom j, k = .asleep dom j → let r := Tab.get 0 x.roundNo dom + 1; let mods := s.domModules dom; let i := Instr.asleepReceipt n;
        ((∃ y ∈ x.rounds, y.dom = dom) → exec i s = .next s) ∧
        ((∀ y ∈ x.rounds, y.dom ≠ dom) → (∀ k ∈ mods, there k) → ends i fun t => mem t ∧ sends t u.net (same mods (.query dom r false)) ∧
          (t.module m).rounds = x.rounds ++ [⟨dom, r, 1, [], []⟩] ∧ Tab.get 0 (t.module m).roundNo dom = r)) ∧
      (∀ dom r c, k = .query dom r c → there by_ → ends (.allAsleepQuery n) fun t => mem t ∧ ∃ falls, (∀ j d, s.domain? m dom = some (j, d) → falls = d.falls) ∧
        sends t u.net [(by_, .status dom r c m (u.asleepNow m dom) falls)]) ∧
      (∀ dom r c j out count y, k = .status dom r c j out count → x.rounds = [y] → y.dom = dom → y.r = r → (y.phase = 2 ↔ c = true) → y.phase = 1 ∨ y.phase = 2 →
        (∀ a ∈ y.replies, a.1 ≠ j) → let mods := s.domModules dom; let i := Instr.allAsleepReply n; let rounds := fun (t : State) => (t.module m).rounds
        let all := ∀ k ∈ mods, ∃ a ∈ (j, out, count) :: y.replies, a.1 = k; let agrees := out = true ∧ (y.phase = 2 → (j, count) ∈ y.first);
        (¬agrees → ends i fun t => mem t ∧ t.net = u.net ∧ rounds t = []) ∧
        (agrees → ¬all → ends i fun t => mem t ∧ t.net = u.net ∧ rounds t = [{ y with replies := (j, out, count) :: y.replies }]) ∧
        (agrees → all → (∀ k ∈ mods, there k) →
          (y.phase = 1 → ends i fun t => mem t ∧ rounds t = [⟨dom, r, 2, [], ((j, out, count) :: y.replies).map fun a => (a.1, a.2.2)⟩] ∧ sends t u.net (same mods (.query dom r true))) ∧
          (y.phase = 2 → ends i fun t => mem t ∧ rounds t = [] ∧ sends t u.net (same mods (.raise dom r))))) ∧
      (∀ dom r y, k = .unreachable dom r → x.rounds = [y] → y.dom = dom → y.r = r → ends (.allAsleepReply n) fun t => mem t ∧ t.net = u.net ∧ (t.module m).rounds = []) ∧
      (∀ dom r, k = .raise dom r → exec (.allAsleepRaise n) s = .next (u.postAsleep m dom r))) ∧
    (∀ d, Tab.find x.domains n = some d → (d.rises = [] → exec (.allAsleepRise m n) s = .next s) ∧ ∀ count r, d.rises = count :: r → x.d3hot = false →
      let i := Instr.allAsleepRise m n; let v := s.onDomain m d.tag fun d => { d with rises := r }; let mods := v.domModules d.tag;
      (mods.length ≤ 1 → exec i s = .next (v.postAsleep m d.tag count)) ∧
      (2 ≤ mods.length → ∀ c, leastOf mods = some c → there c → ends i fun t => mem t ∧ sends t s.net [(c, .asleep d.tag m)])) ∧
    (∀ k d, Tab.find x.domains k = some d → let out := s.asleepNow m d.tag; Tab.find (s.watchAsleep.module m).domains k = some { d with
      asleep := out, rises := if out = true ∧ d.asleep = false then d.rises ++ [d.falls] else d.rises, falls := if out = false ∧ d.asleep = true then d.falls + 1 else d.falls }) ∧
    (∀ out inn c, c ∈ s.neededCores m out inn ↔ cidModule c = m ∧ cidValid c = true ∧ ((∃ y ∈ x.saved, y.cid = c ∧ y.dom = inn) ∨
      ∃ y ∈ x.queues, ∃ l cs, y.2.latch = some l ∧ l.dom = inn ∧ c ∈ cs ∧
        l.choose (fun a => s.clusterAvailable (cidCluster a) inn && s.onlyFor a out inn) m = some cs)) ∧
    (s.present.contains m = true →
      (∀ k < 36, let p := Tab.get Port.fresh x.ports k; p.closed = false →
        (ends (.linkPortClose m k) fun t => mem t ∧ Tab.get Port.fresh (t.module m).ports k = { p with closed := true } ∧ (t.module m).msix = x.msix ++ [1] ∧
          ∃ e, (t.module m).log = (if x.log.length < 1024 then x.log else x.log.drop 1) ++ [[BitVec.ofNat 64 (4 * 2 ^ 56 + 1), BitVec.ofNat 64 k, 0, e]]) ∧
        ∀ lanes rows, lanes = 1 ∨ lanes = 2 ∨ lanes = 4 → lanes ≤ p.lanes → ends (.linkPortDegrade m k lanes rows) fun t => mem t ∧
          let worse := { p with lanes := lanes, rows := p.rows + rows }; let held := Config.reserveHeld lanes (p.rows + rows) = true
          (held → t.module m = { x with ports := Tab.set x.ports k worse }) ∧ (¬held → Tab.get Port.fresh (t.module m).ports k = { worse with closed := true })) ∧
      (x.over105 = false → ends (.junctionOver105 m) fun t => mem t ∧ t.module m = { x with over105 := true, clock := 800 }) ∧
      (x.over105 = true → ends (.junctionOver105 m) fun t => mem t ∧ t.module m = { x with over105 := x.over115 }) ∧
      (ends (.junctionOver115 m) fun t => mem t ∧ (t.module m).over105 = true ∧ (t.module m).over115 = true ∧ (t.module m).clock = 800 ∧ (t.module m).livePorts = []) ∧
      (ends (.powerCapClockStep m false) fun t => mem t ∧ t.module m = { x with clock := max 800 (x.clock - 25) }) ∧
      (ends (.powerCapClockStep m true) fun t => mem t ∧ t.module m = if x.over105 then x else { x with clock := min 1600 (x.clock + 25) }))

/-- 09 R217 to R225, 10 R228 to R250: the steps of the ladle and of the matrix engine of a cluster whose module is not in D3hot. Words that
an engine writes on its core's local path, where nobody waits, are written out; other words go through the accesses of the model. That a
chunk is issued before any completes (log entry 93, DEDUCED), and that its fault goes before the outcome of a cancel (log entry 101), are
the model's choices. So is that an MDRAIN reads its region whole before it writes (log entry 66, DEDUCED). -/
def Obligations.CopiesAndJobsGoOn : Prop :=
  ∀ (cl e n : Nat) (s : State), let eng := (s.cluster cl).eng; let m := clusterModule cl; let key := clusterKey cl
    let ends := fun (i : Instr) (p : State → Prop) => ∃ t, exec i s = .next t ∧ p t
    let own := fun (o : LadleOp) (y : Nat) => o.cid < 2 ^ 26 ∧ s.watched (y / 8) = false ∧
      ∃ off, s.checkAccess o.cid o.dom o.compl.toNat 1 .rmw = .ok (.loc o.cid off) ∧ y = localAddr o.cid off
    let put := fun (u : State) (y v : Nat) => u.withMem (((s.mem.write y 8 v).setPoison (y / 8) false).setFull (y / 8) true)
    let entries := fun (t : State) (x : Option LadleOp) => Tab.find (t.cluster cl).eng.ladle e = x ∧ ∀ j, j ≠ e → Tab.find (t.cluster cl).eng.ladle j = Tab.find eng.ladle j
    (s.module m).d3hot = false →
    (∀ o, Tab.find eng.ladle e = some o →
      (∀ mark cause, let w := progressWord mark cause o; w / 2 ^ 56 = mark ∧ w / 2 ^ 47 % 2 ^ 9 = cause % 2 ^ 9 ∧ w / 2 ^ 16 % 2 ^ 31 = o.pref % 2 ^ 31 ∧
        w / 2 ^ 15 % 2 = 0 ∧ ∀ j < 15, w.testBit j = o.done.contains (o.pref + 1 + j)) ∧
      (∀ c, o.st = 1 → o.faults = [] → o.due = [] → o.cancel = none → c < o.chunks → o.pref ≤ c → c < o.pref + 16 → c ∉ o.done → c ∉ o.flight →
        (∀ j, o.pref ≤ j → j < c → j ∈ o.done ∨ j ∈ o.flight) → (∀ p ∈ eng.ladle, p.2.age < o.age → p.2.nextChunk = none) →
        let i := Instr.ladleChunkIssue cl e; let busy := (eng.ladle.flatMap fun p => p.2.flight).length
        (16 ≤ busy → exec i s = .next s) ∧
        (busy < 16 → ends i fun t => t.mem = s.mem ∧ entries t (some { o with flight := o.flight ++ [c] }))) ∧
      (∀ k, k ∈ o.flight → k ∉ o.hostWait → let i := Instr.ladleChunkComplete cl e k; let busy := (eng.ladle.flatMap fun p => p.2.flight).length
        let more := busy < 16 ∧ ∃ p ∈ eng.ladle, p.2.nextChunk ≠ none
        let r := s.copyChunk o k; let now := if r.2.1.items = [] then o.landed k r.2.1.fault else { o with work := Tab.set o.work k r.2.1 }
        let t := r.2.2.setLadle cl e now;
        (more → exec i s = .next s) ∧ (¬more → (∀ va, r.1 = .ask va → exec i s = .next (t.askHost cl e k va now)) ∧ ((∀ va, r.1 ≠ .ask va) → exec i s = .next t)) ∧
        (∀ va y b, ¬more → Tab.find o.work 0 = none → o.form = 1 → o.esize = 8 → o.dims = [(1, 0, b)] → k = 0 → o.desc.getD 1 0 = BitVec.ofNat 64 va →
          va < 2 ^ 64 → va % 8 = 0 → (o.desc.getD 0 0).getLsbD 11 = false → o.cid < 2 ^ 26 →
          (∃ off, s.checkAccess o.cid o.dom va 1 .write = .ok (.loc o.cid off) ∧ y = localAddr o.cid off) →
          ends i fun t => t.mem = (s.mem.write y 8 (o.desc.getD 2 0).toNat).setPoison (y / 8) false ∧ entries t (some (o.landed 0 none)))) ∧
      (let i := Instr.ladleDataFault cl e; let w := fun (cause : Nat) => progressWord 0xFD cause o;
        (∀ c cause va y, o.st = 1 → o.flight = [] → o.due = [] → o.faults = [(c, cause, va)] → own o y →
          let q := { o with cause := cause, va := va, faults := [], due := [(cause, va)], after := 2 }; let t := put s y (w cause)
          (s.recordRoom m o.dom = false → exec i s = .next (t.setLadle cl e q)) ∧
          (s.recordRoom m o.dom = true → exec i s = .next (((t.ladleRecord cl e q cause va).setLadle cl e { q with st := 2, due := [] }).ladleTrap cl e q))) ∧
        (∀ c cause va k, o.st = 1 → o.flight = [] → o.due = [] → o.faults = [(c, cause, va)] → s.checkAccess o.cid o.dom o.compl.toNat 1 .rmw = .error k →
          let q := { o with put := BitVec.ofNat 64 (w cause), isValue := false, cause := k, va := va, faults := [], due := [(cause, va), (k, o.compl.toNat)], after := 3 }
          let t := s.ladleRecord cl e q cause va;
          (s.recordRoom m o.dom = false → exec i s = .next (s.setLadle cl e q)) ∧
          (s.recordRoom m o.dom = true → t.recordRoom m o.dom = false → exec i s = .next (t.setLadle cl e { q with due := [(k, o.compl.toNat)] })) ∧
          (s.recordRoom m o.dom = true → t.recordRoom m o.dom = true →
            exec i s = .next (((t.ladleRecord cl e q k o.compl.toNat).setLadle cl e { q with st := 3, due := [] }).ladleTrap cl e q))) ∧
        (∀ c va, o.st = 1 → o.flight = [] → o.due = [(c, va)] → (s.recordRoom m o.dom = false → exec i s = .next (s.setLadle cl e o)) ∧
          (s.recordRoom m o.dom = true → exec i s = .next (((s.ladleRecord cl e o c va).setLadle cl e { o with st := o.after, due := [] }).ladleTrap cl e o)))) ∧
      (o.flight = [] → o.faults = [] → o.due = [] → let i := Instr.ladleCompletionPut cl e
        (∀ y, o.cancel = none → o.st = 1 → o.pref = o.chunks → (own o y → ends i fun t => t.mem = (put s y o.value.toNat).mem ∧ entries t none) ∧
          (∀ k, s.checkAccess o.cid o.dom o.compl.toNat 1 .rmw = .error k →
            let q := { o with put := BitVec.ofNat 64 o.value.toNat, isValue := true, cause := k, faults := [], due := [(k, o.compl.toNat)], after := 3 };
            (s.recordRoom m o.dom = false → exec i s = .next (s.setLadle cl e q)) ∧ (s.recordRoom m o.dom = true →
              exec i s = .next (((s.ladleRecord cl e q k o.compl.toNat).setLadle cl e { q with st := 3, due := [] }).ladleTrap cl e q)))) ∧
        (o.cancel = none → o.st ≠ 1 ∨ o.pref ≠ o.chunks → exec i s = .next s) ∧
        (∀ r, o.cancel = some r → (o.st = 3 → exec i s = .next ((s.freeLadle cl e).sendAns key r .ok)) ∧
          (∀ y, o.st ≠ 3 → own o y → exec i s = .next (((put s y (progressWord 0xFD 0 o)).freeLadle cl e).sendAns key r .ok)) ∧
          (∀ k, o.st ≠ 3 → s.checkAccess o.cid o.dom o.compl.toNat 1 .rmw = .error k →
            exec i s = .next ((s.freeLadle cl e).sendAns key r (.faultAt k o.compl.toNat)))))) ∧
    (∀ src dst vc port cr r form h, s.deliverable n = some ⟨src, dst, vc, port, cr, .req r⟩ → r.op = .lctl form h → cl = s.resolveCid r.cid (h / 2 ^ 24 % 2 ^ 21 * 32) / 32 → e = h % 32 →
      let u := s.takePacket n; let i := Instr.ladleCtlRequest n; let named := fun (o : LadleOp) => Tab.find eng.ladle e = some o ∧ o.st ≠ 0 ∧ o.seq = h / 2 ^ 8 % 2 ^ 16 ∧ o.dom = r.dom
      ((∀ o, ¬named o) → exec i s = .next (u.sendAns key r (if form = 0 then .two 0 0 else if form = 1 then .fault Cause.ladleHandle else .ok))) ∧
      (∀ o, named o → (form = 0 → exec i s = .next (u.sendAns key r (.two (progressWord o.st (if o.st = 1 then 0 else o.cause) o)
          (if o.st = 2 then o.va else if o.st = 3 then o.compl.toNat else 0)))) ∧
        (form ≠ 0 → o.cancel.isSome = true → exec i s = .next s) ∧
        (form = 1 → o.cancel = none → (o.st ≠ 2 → o.st ≠ 3 → exec i s = .next (u.sendAns key r (.fault Cause.ladleHandle))) ∧
          (∀ y, o.st = 2 → own o y → exec i s = .next (((u.withMem (s.mem.setFull (y / 8) false)).setLadle cl e { o with st := 1, cause := 0, va := 0 }).sendAns key r .ok)) ∧
          (∀ y, o.st = 3 → own o y → let v := put u y o.put.toNat
            exec i s = .next ((if o.isValue then v.freeLadle cl e else v.setLadle cl e { o with st := 2, cause := o.put.toNat / 2 ^ 47 % 2 ^ 9 }).sendAns key r .ok))) ∧
        (form ≠ 0 → form ≠ 1 → o.cancel = none → (o.st = 3 → exec i s = .next ((u.freeLadle cl e).sendAns key r .ok)) ∧
          (o.st ≠ 3 → exec i s = .next (u.setLadle cl e { o with cancel := some r }))))) ∧
    (∀ k cid slot j, k < 32 → Tab.find eng.jobs k = none → (∀ i < k, Tab.find eng.jobs i ≠ none) → s.nextSubmitter cl = some cid →
      leastBy (fun q => (s.thread cid q.1).parked) (s.core cid).submissions = some (slot, j) → let i := Instr.matrixAccept cl; let me := s.thread cid slot
      let checks := s.acceptChecks cid slot eng j
      (j.kind = 3 → (me.rg = true → checks = .error (Cause.regionState, 0)) ∧
        (me.rg = false → regionBad j.q 0x100000 = true → checks = .error (Cause.badOperand, j.q.toNat)) ∧
        (me.rg = false → regionBad j.q 0x100000 = false → s.regionDenied cid me.dom j.q .rmw = none → checks = .ok (none, [], []))) ∧
      (∀ c va, c ≠ 0 → checks = .error (c, va) → exec i s = .next ((((s.onEng cl fun e => { e with lastc := cid % 32 }).onThread cid slot Thread.unpark).trapAt cid slot c
        (BitVec.ofNat 64 va)))) ∧
      (∀ a bs sel, checks = .ok (a, bs, sel) → let seq := (Tab.get 0 eng.jobSeq k + 1) % 2 ^ 16
        ends i fun t => t.mem = s.mem ∧ (t.cluster cl).eng.lastc = cid % 32 ∧ (∀ j, j ≠ k → Tab.find (t.cluster cl).eng.jobs j = Tab.find eng.jobs j) ∧
          (∃ b, Tab.find (t.cluster cl).eng.jobs k = some b ∧ b.st = 1 ∧ b.seq = seq ∧ b.dom = me.dom ∧ b.cid = cid ∧ b.slot = slot ∧ b.order = eng.jobAge ∧
            b.kind = j.kind ∧ b.a = a ∧ b.bs = bs ∧ b.sel = sel ∧ b.region = j.q ∧ b.acc = j.acc ∧ b.dst = j.b ∧ b.msg = j.msg ∧ b.taken = 0 ∧ b.cause = 0) ∧
          t.gOf cid slot j.d = BitVec.ofNat 64 (seq * 32 + k) ∧ (t.thread cid slot).st = me.from_ ∧ (t.thread cid slot).wait = .none ∧
          (t.thread cid slot).pc = me.pc + (if j.kind < 3 then 8 else 4))) ∧
    (∀ j, Tab.find eng.jobs e = some j → let place := fun (x : Nat) => accPlace cl x / 8; let fault := Instr.matrixJobFault cl e
      let jobs := fun (t : State) (b : Option Job) => Tab.find (t.cluster cl).eng.jobs e = b ∧ ∀ k, k ≠ e → Tab.find (t.cluster cl).eng.jobs k = Tab.find eng.jobs k
      (let i := Instr.matrixJobStart cl e; let behind := ∃ p ∈ eng.jobs, p.2.st = 2 ∨ p.2.st = 1 ∧ p.2.order < j.order; let now := { j with st := 2 }
        let live := j.ownedAll = false ∧ (j.st = 1 ∧ ¬behind ∨ j.st = 2 ∧ j.cause = 0);
        (j.st = 1 → behind → exec i s = .next s) ∧ (j.st = 1 → ¬behind → j.ownedAll = true → ends i fun t => t.mem = s.mem ∧ jobs t (some now)) ∧
        (∀ x r, live → j.untaken = x :: r → s.mem.full (place x) = false → ends i fun t => t.mem = s.mem ∧
          jobs t (some { now with ownedAll := decide (j.taken = regWordCount j.region) })) ∧
        (∀ x r, live → j.untaken = x :: r → s.mem.full (place x) = true → s.mem.poisoned (place x) = true → j.acc = true ∨ regOutside j.region j.taken = true →
          ends i fun t => t.mem = s.mem ∧ jobs t (some { now with ownedAll := decide (j.taken = regWordCount j.region), cause := Cause.poison, va := accVa x })) ∧
        (∀ x, live → j.untaken = [x] → s.mem.full (place x) = true → s.mem.poisoned (place x) = false → s.watched (place x) = false → ends i fun t =>
          t.mem = s.mem.setFull (place x) false ∧ jobs t (some
            { now with taken := j.taken + 1, old := j.old ++ [s.mem.read (accPlace cl x) 8], ownedAll := decide (j.taken + 1 = regWordCount j.region) }))) ∧
      (∀ r ring, Tab.find eng.rings r = some ring → eng.jobs.find? (fun p => p.2.st == 2) = some (e, j) → j.ownedAll = true → j.cause = 0 →
        j.wants false ring = true ∨ j.wants true ring = true → let i := Instr.ringSlotConsume cl r; let size := 2 ^ (ring.desc / 2 ^ 32 % 2 ^ 4)
        let va := 0xE * 2 ^ 60 + ring.desc % 2 ^ 24 + ring.pos % (ring.desc / 2 ^ 24 % 2 ^ 8) * size; let at_ := fun (x : Nat) => enginePlace j.cid x;
        s.engineHeld j.cid va = false → let vas := wordsFrom va (size / 8); let bytes := (List.range size).map fun k => (s.mem.byte (at_ (va + k))).toNat
        (∀ x ∈ vas, s.mem.full (at_ x / 8) = false → exec i s = .next s) ∧ ((∀ x ∈ vas, s.mem.full (at_ x / 8) = true) →
          (∀ x, vas.find? (fun x => s.enginePoison j.cid x) = some x → ends i fun t => t.mem = s.mem ∧ jobs t (some { j with cause := Cause.poison, va := x })) ∧
          ((∀ x ∈ vas, s.enginePoison j.cid x = false ∧ s.watched (at_ x / 8) = false) → ends i fun t => t.mem.cells = s.mem.cells ∧
            (∀ k, t.mem.full k = (s.mem.full k && !vas.any fun x => at_ x / 8 == k)) ∧ Tab.find (t.cluster cl).eng.rings r = some { ring with pos := ring.pos + 1 } ∧
            jobs t (some (if j.wants false ring then { j with feedA := j.feedA ++ bytes } else { j with feedB := j.feedB ++ bytes }))))) ∧
      (j.st = 2 → j.cause ≠ 0 → exec fault s = .next (s.faultJob cl e j j.cause j.va)) ∧
      (j.st = 2 → j.ownedAll = true → j.allFed = true → j.cause = 0 → let i := Instr.matrixJobCommit cl e; let values := s.jobValues j
        (j.kind ≠ 4 → (j.a = none → ∃ value, values = .ok value ∧ ∀ x y, value x y = 0) ∧
          (∀ value, values = .ok value → j.written = false → exec i s = .next (((s.commitRegion (accPlace cl) (regWordValue j.region j.old value) (regionWords j.region) 0).freeJobEntry
            cl e).wakeMwaiters cl)) ∧ (∀ c va, c ≠ 0 → values = .error (c, va) → exec fault s = .next (s.faultJob cl e j c va))) ∧
        (j.kind = 4 → j.written = false → (∀ x ∈ regionWords j.region, s.mem.full (place x) = true ∧ s.mem.poisoned (place x) = false) → let ws := s.drainWords cl j
          (∀ z t, s.drainTo j ws = (.ok z, t) → exec i s = .next (t.setJob cl e { j with written := true })) ∧
          (∀ c t, s.drainTo j ws = (.fail c, t) → exec fault s = .next (t.faultJob cl e j c ((s.drainFault j ws).getD 0))))) ∧
      (j.st = 2 → j.written = true → let dst := s.resolveCid j.cid (j.dst.toNat / 2 ^ 32 % 2 ^ 26); let cls := j.msg.toNat % 16; let i := Instr.mdrainMessageSend cl e
        s.reaches m (cidKey dst) = true → ((∃ g x v d l, Arrival.msg g x v d l ∈ (s.core dst).held) → exec i s = .next s) ∧
        ((∀ g x v d l, Arrival.msg g x v d l ∉ (s.core dst).held) → s.mwaiters cl = [] → ends i fun t => t.mem = s.mem ∧ jobs t none ∧ ∃ p : Packet, t.net = s.net ++ [p] ∧ p.dst = cidKey dst ∧
          p.vc = 4 ∧ p.body = .message ⟨dst, BitVec.ofNat 64 (cls * 2 ^ 32 + dst), j.dom, cls, [j.dst, j.region, j.msg, BitVec.ofNat 64 (jobId j.seq e)], 0, s.launchTag j.launch⟩))) ∧
    (∀ cid slot q, cidModule cid = m → (s.thread cid slot).wait = .engine (.quantise q) → let i := Instr.qtileQuantiserDone cid slot
      let stops := fun (c va : Nat) => exec i s = .next ((s.onThread cid slot Thread.unpark).trapAt cid slot c (BitVec.ofNat 64 va))
      (∀ c va, c ≠ 0 → s.tileRecords cid (s.thread cid slot).dom q = .error (c, va) → stops c va) ∧
      (∀ j, s.tileRecords cid (s.thread cid slot).dom q = .ok j → (s.tileHeld j = true → exec i s = .next s) ∧ (s.tileHeld j = false →
        (∀ c va, s.tileChecks j = some (c, va) → stops c va) ∧ (s.tileChecks j = none → let list := s.tileList j; let cap := s.tileCap j
          let r := quantise j (s.tileElements j) cap (list != 0) (fun k => (Config.freeWord 250 (s.tick + k)).toNat);
          (r = none → stops Cause.sprueOverflow q.src.toNat) ∧ exec i s = .next (s.quantiseTile cid slot j)))))

/-- 01 R19, R20, R22 to R24; 09 R215, R216: what a copy of each form makes of its elements: their indices and offsets, the items of a chunk, which
hold each of its stream bytes once, the value of an element whose source bytes lie in the submitting core's own memory, its write there, and the
accesses of a chunk one after the other, in an order that is not fixed (log entry 10). -/
def Obligations.CopyContents : Prop :=
  (∀ (dims : List (Nat × Int × Int)) (n : Nat), let ix := indicesOf dims n; let at_ := fun (k : Nat) => dims.getD k (0, 0, 0);
    ix.length = dims.length ∧ (∀ k < dims.length, ix.getD k 0 = n / ((dims.take k).map fun d => d.1).prod % (at_ k).1) ∧
    srcOffset dims ix = ((List.range dims.length).map fun k => (at_ k).2.1 * (ix.getD k 0 : Int)).sum ∧
    dstOffset dims ix = ((List.range dims.length).map fun k => (at_ k).2.2 * (ix.getD k 0 : Int)).sum) ∧
  (∀ (o : LadleOp) (c : Nat), 0 < o.esize → 4096 * c < o.length → let items := o.chunkItems c; let fin := min (4096 * c + 4096) o.length
    o.length = o.esize * (o.dims.map fun d => d.1).prod ∧ (∀ b, 4096 * c ≤ b → b < fin → (items.filter fun x => decide (x.at_ ≤ b ∧ b < x.at_ + x.len)).length = 1) ∧
    ∀ x ∈ items, 0 < x.len ∧ 4096 * c ≤ x.at_ ∧ x.at_ + x.len ≤ fin ∧ x.element = x.at_ / o.esize ∧ x.lo = x.at_ % o.esize ∧ x.lo + x.len ≤ o.esize ∧
      (o.dstOf x.element + x.lo) / 8 = (o.dstOf x.element + x.lo + x.len - 1) / 8 ∧
      x.got = if o.form = 1 then some ((o.desc.getD 2 0).toNat / 256 ^ x.lo % 256 ^ x.len) else none) ∧
  (∀ (o : LadleOp) (c n lo hi : Nat) (s : State), o.cid < 2 ^ 26 → lo ≤ hi → let ix := indicesOf o.dims n; let src := (o.desc.getD 2 0).toNat
    let sum := fun (f : Nat → Nat) => ((List.range o.dims.length).map fun k => (o.dims.getD k (0, 0, 0)).2.1 * (f k : Int)).sum
    let held := fun (va n off : Nat) => va + n ≤ 2 ^ 64 ∧ ∀ k < n, s.checkAccess o.cid o.dom (va + k) 1 .read = .ok (.loc o.cid (off + k)) ∧
      s.mem.poisoned ((localAddr o.cid off + k) / 8) = false
    let word := fun (off n : Nat) => s.mem.read (localAddr o.cid off) n; let gives := fun (v : Nat) => s.elementValue o c ix lo hi = (.ok v, s)
    let f := if (o.desc.getD 0 0).toNat / 2 ^ 32 % 4 = 0 then f32 else bf16
    let plus := fun (v w : Nat) => (f.result 0 (FV.add 0 (f.unpack v) (f.unpack w))).1;
    (o.form = 0 → ∀ off, held (address64 (src + sum (ix.getD · 0) + lo)) (hi - lo) off → gives (word off (hi - lo))) ∧
    (o.form = 1 → gives (src / 256 ^ lo % 256 ^ (hi - lo))) ∧
    (o.form = 2 → ∀ (v : Nat) (r offs : List Nat), offs.length = o.srcs.length → (∀ k < offs.length, held (address64 ((o.srcs.getD k 0).toNat + sum (ix.getD · 0))) o.esize (offs.getD k 0)) →
      offs.map (word · o.esize) = v :: r → gives (r.foldl plus v)) ∧
    (o.form = 3 → 2 ≤ o.dims.length → ∀ at_ off, held (address64 (src + 4 * (ix.getD 1 0 : Int))) 4 at_ → let idx := word at_ 4
      held (address64 ((o.desc.getD 3 0).toNat + sum (fun k => if k = 1 then idx else ix.getD k 0) + lo)) (hi - lo) off → gives (word off (hi - lo)))) ∧
  (∀ (o : LadleOp) (c v off : Nat) (x : CopyItem) (s : State), o.cid < 2 ^ 26 → x.got = some v → let va := (o.dstOf x.element + x.lo) % 2 ^ 64
    let a := localAddr o.cid off; let stored := (s.mem.write a x.len v).setPoison (a / 8) false; let pset := (o.desc.getD 0 0).getLsbD 11;
    (pset = false → s.checkAccess o.cid o.dom va 1 .write = .ok (.loc o.cid off) →
      (x.len = 8 ∨ s.mem.poisoned (a / 8) = false → s.copyItem o c x = (.ok 0, s.withMem stored)) ∧
      (x.len ≠ 8 → s.mem.poisoned (a / 8) = true → s.copyItem o c x = (.fail Cause.poison va, s))) ∧
    (pset = true → s.checkAccess o.cid o.dom va 1 .rmw = .ok (.loc o.cid off) → s.watched (a / 8) = false →
      s.copyItem o c x = (.ok 0, s.withMem (((s.mem.write a 8 v).setPoison (a / 8) false).setFull (a / 8) true)))) ∧
  (∀ (o : LadleOp) (c : Nat) (s : State), let once := { s with tick := s.tick + 1 }
    let w := match Tab.find o.work c with
      | some w => w
      | none => ⟨o.chunkItems c, none⟩;
    (∃ n, 1 ≤ n ∧ (w.items ≠ [] → n ≤ (w.items.map fun x => if x.got = none then 2 else 1).sum) ∧ s.copyChunk o c = once.copySome o c w n) ∧
    (∀ w n, let r := s.copySome o c w 1; s.copySome o c w (n + 1) = if r.1 = .no then r.2.2.copySome o c r.2.1 n else r) ∧
    ∀ w : ChunkWork, w.items ≠ [] → ∃ i x, w.items[i]? = some x ∧ let p := once.copyItem o c x; let r := s.copySome o c w 1
      (∀ v, p.1 = .ok v → r = (.no, { w with items := if x.got = none then w.items.set i { x with got := some v } else w.items.eraseIdx i }, p.2)) ∧
      (∀ k va, p.1 = .fail k va → ∃ q, r = (.no, ⟨w.items.eraseIdx i, some q⟩, p.2) ∧
        (∀ e, w.fault = some e → e.1 ≤ x.at_ → q = e) ∧ ((∀ e, w.fault = some e → x.at_ < e.1) → q = (x.at_, k, va))) ∧
      (p.1 = .blocked → r = (.yes, w, once)) ∧ (∀ va, p.1 = .ask va → r = (.ask va, w, once)))

/-- 01 R19, R20; 02 R37, R40 to R44; 10 R233, R237: the operands' elements as a matrix sum sees them, the sum of a K-block and of all, and
the final values of a job whose operands have been read. An escape beside an infinity is the model's reading (log entry 73, DEDUCED). -/
def Obligations.MatrixSums : Prop :=
  (∀ b : Nat, b < 256 → scaleValue 0 b = .fin false 1 0 ∧ (b = 255 → scaleValue 1 b = .nan false) ∧
    (b < 255 → (scaleValue 1 b).finite ∧ (scaleValue 1 b).rat = 2 ^ ((b : Int) - 127))) ∧ (∀ b, scaleValue 2 b = bf16.unpack b) ∧
  (∀ (n : Narrow) (c : Nat) (sc : FV), let v := n.decode c; let r := expand n c sc; let x : ℚ := v.rat * sc.rat
    (v = .esc → r = .esc) ∧ (v ≠ .esc → v.isNan = true ∨ sc.isNan = true → r = .nan false) ∧
    ((∃ y, v = .zero y ∧ ∃ z, sc = .inf z) ∨ (∃ y, v = .inf y ∧ ∃ z, sc = .zero z) → r = .nan false) ∧
    (∀ z, sc = .inf z → v.finite → v.rat ≠ 0 → r = .inf (v.neg != z)) ∧ (∀ z, v = .inf z → sc.finite → sc.rat ≠ 0 → r = .inf (z != sc.neg)) ∧
    (v.finite → sc.finite → r.finite ∧ (x = 0 → r.rat = 0) ∧ (∀ ex : Int, 2 ^ ex ≤ |x| → |x| < 2 ^ (ex + 1) →
      ∃ k : Nat, k * 2 ^ (ex - 7) ≤ |x| ∧ |x| < (k + 1) * 2 ^ (ex - 7) ∧ r.rat = (if x < 0 then -1 else 1) * k * 2 ^ (ex - 7)))) ∧
  (∀ ps : List FV, let pos := FV.inf false ∈ ps; let neg := FV.inf true ∈ ps; let bad := (∃ p ∈ ps, p.isNan = true) ∨ pos ∧ neg
    (bad → blockSum ps = 0x7FC00000) ∧ (¬bad → pos → blockSum ps = 0x7F800000) ∧ (¬bad → neg → blockSum ps = 0xFF800000) ∧
    (¬bad → ¬pos → ¬neg → (∀ p ∈ ps, p.rat = 0 → exponentOf p = none) → ((∀ p ∈ ps, p.rat = 0) → blockSum ps = 0) ∧
      (∀ ex : Int, (∃ p ∈ ps, 2 ^ ex ≤ |p.rat|) → (∀ p ∈ ps, |p.rat| < 2 ^ (ex + 1)) →
        let t : ℚ := (ps.map fun p => (if p.rat < 0 then -1 else 1) * (⌊|p.rat| / 2 ^ (ex - 39)⌋ : ℚ) * 2 ^ (ex - 39)).sum
        (t = 0 → blockSum ps = 0) ∧ (t ≠ 0 → ∃ fl, roundsIn f32 0 (t : ℝ) (blockSum ps, fl))))) ∧
  (∀ (acc n : Nat) (ts : List Term), let rne := fun (v : FV) => (f32.pack 0 v).1; let dense := fun (v : FV) => if v = .esc then FV.zero false else v
    let more := fun (s : Nat) (x y : FV) => rne (FV.fma 0 x y (f32.unpack s) false).1
    let wide := fun (s : Nat) (t : Term) => if t.a = .esc ∧ t.b = .esc then more s t.wa t.wb else if t.a = .esc then more s t.wa t.b
      else if t.b = .esc then more s t.a t.wb else s
    let s := ts.foldl wide (blockSum (ts.map fun t => ((dense t.a).mul (dense t.b)).1))
    addBlock acc ts = rne (FV.add 0 (f32.unpack acc) (f32.unpack s)).1 ∧
    (ts.length ≤ 32 * n → matrixSum n acc ts = (List.range ((ts.length + 31) / 32)).foldl (fun v b => addBlock v ((ts.drop (32 * b)).take 32)) acc)) ∧
  (∀ (op : Operand) (cols : Bool) (i j row : Nat), let h := fun (k : Nat) => (op.rec_.getD k 0).toNat; let rows_ := h 1 % 2 ^ 16; let cols_ := h 1 / 2 ^ 16 % 2 ^ 16
    let f := narrowOf (h 2 % 2 ^ 32); let kind := h 2 / 2 ^ 32 % 2 ^ 8; let b := 2 ^ f.blk; let up := fun (n : Nat) => (n + b - 1) / b
    let scale := if f.blk = 0 then 0 else if cols then j * up rows_ + i / b else i * up cols_ + j / b; let v := elementOf op cols i j row
    let tile := i / 128 * ((cols_ + 127) / 128) + j / 128
    (kind = 0 → v = expand f (row / 2 ^ (f.w * j) % 2 ^ f.w) (scaleValue f.scf (op.scales.getD scale 0))) ∧ (kind = 1 → v = h16.unpack (row / 2 ^ (16 * j) % 2 ^ 16)) ∧
    (kind = 2 → v = bf16.unpack (row / 2 ^ (16 * j) % 2 ^ 16)) ∧ (kind = 3 → v = f32.unpack (row / 2 ^ (32 * j) % 2 ^ 32)) ∧
    (∀ l e r, op.sprues.getD tile [] = l ++ (i % 128 * 128 + j % 128, e) :: r → (∀ x ∈ l, x.1 ≠ i % 128 * 128 + j % 128) → sprueOf op i j = f32.unpack e)) ∧
  (∀ (g : Word) (old : List Nat) (value : Nat → Nat → Nat) (n : Nat), let f := fun (lo len : Nat) => g.toNat / 2 ^ lo % 2 ^ len; let cols_ := f 20 11; let per := (cols_ + 1) / 2
    regionWords g = ((List.range (f 31 11)).flatMap fun i => (List.range per).map fun k => f 0 20 + 4 * i * f 42 12 + 8 * k) ∧
    regWordValue g old value n = value (n / per) (2 * (n % per)) + 2 ^ 32 *
      (if 2 * (n % per) + 1 = cols_ then old.getD n 0 / 2 ^ 32 % 2 ^ 32 else value (n / per) (2 * (n % per) + 1))) ∧
  (∀ (s : State) (cid : Nat) (op : Operand) (feed : List Nat), let w := op.rec_; let h := fun (k : Nat) => (w.getD k 0).toNat
    let stride := h 1 / 2 ^ 32 % 2 ^ 24; let rows_ := h 1 % 2 ^ 16; let cols_ := h 1 / 2 ^ 16 % 2 ^ 16; let kind := h 2 / 2 ^ 32 % 2 ^ 8
    let bits := if kind = 0 then (narrowOf (h 2 % 2 ^ 32)).w else if kind = 3 then 32 else 16; let n := (cols_ * bits + 7) / 8
    let row := fun (i : Nat) => h 0 + i * stride; let poisoned := fun (va : Nat) => s.mem.poisoned (enginePlace cid va / 8)
    (w.getD 6 0).getLsbD 16 = false → s.engineHeld cid (h 0) = false →
      (∀ i < rows_, ∀ k < (n + 7) / 8, poisoned (row i + 8 * k) = true → (∀ i' < rows_, ∀ k' < (n + 7) / 8, i' < i ∨ i' = i ∧ k' < k →
        poisoned (row i' + 8 * k') = false) → s.runRows cid op feed = .error (Cause.poison, row i + 8 * k)) ∧
      ((∀ i < rows_, ∀ k < (n + 7) / 8, poisoned (row i + 8 * k) = false) → ¬(kind = 0 ∧ (narrowOf (h 2 % 2 ^ 32)).zc = 1) →
        s.runRows cid op feed = .ok ((List.range rows_).map fun i => s.mem.read (enginePlace cid (row i)) n))) ∧
  (∀ (s : State) (j : Job) (a b : Operand) (ra rb : List Nat), j.kind ≠ 1 → j.a = some a → j.bs = [b] → s.runRows j.cid a j.feedA = .ok ra →
    s.runRows j.cid b j.feedB = .ok rb → ∃ value, s.jobValues j = .ok value ∧ ∀ x y : Nat, let n := ((a.rec_.getD 1 0).toNat) / 2 ^ 16 % 2 ^ 16
      let half := (regCols j.region + 1) / 2; let first := if j.acc then j.old.getD (x * half + y / 2) 0 / 2 ^ (y % 2 * 32) % 2 ^ 32 else 0
      value x y = matrixSum ((n + 31) / 32) first ((List.range n).map fun k => let p := if j.kind = 2 then (y, k) else (k, y)
        ⟨elementOf a false x k (ra.getD x 0), elementOf b (j.kind != 2) p.1 p.2 (rb.getD p.1 0), sprueOf a x k, sprueOf b p.1 p.2⟩))

/-- 01 R18 to R20, R395; 10 R232 to R234: the rules of an operand record field by field, the read of a record, the region word, the sprue
lists, and the order of acceptance for MMA and MMAT without rings and with operands of KIND 1 to 3. 10 R250: the quantiser: which elements
are elected and kept, the scale byte of each block, the codes, the list's entries, the flags and the result. The model's readings: the order
of a record's fields and what TFADDR holds (log entries 63, 64, 74 and 82, DEDUCED). -/
def Obligations.AcceptanceAndQuantiser : Prop :=
  (∀ (dom va cid : Nat) (ws : List Word) (role : Role) (s : State), let h := fun (k : Nat) => (ws.getD k 0).toNat; let f := fun (lo len k : Nat) => h k / 2 ^ lo % 2 ^ len
    let within := fun (va n : Nat) => let u := va / 2 ^ 19 % 2 ^ 5; va / 2 ^ 60 % 2 ^ 4 = 14 ∧ va / 2 ^ 24 % 2 ^ 36 = 0 ∧ (u < 24 ∨ u = 28 ∧ role.buffer = true) ∧
      va % 2 ^ 19 + n ≤ if u < 24 then 0x60000 else 0x40000
    let array := fun (va n : Nat) => va % 8 = 0 ∧ within va n; let ring := f 16 1 6 = 1; let kind := f 32 8 2; let n := narrowOf (f 0 32 2); let rows := f 0 16 1; let cols := f 16 16 1
    let bits := if kind = 0 then n.w else if kind = 3 then 32 else 16; let rowBytes := (cols * bits + 7) / 8; let stride := f 32 24 1; let b := 2 ^ n.blk
    let escapes := kind = 0 ∧ n.zc = 1; let scf := if kind = 0 then n.scf else 0; let tiles := (rows + 127) / 128 * ((cols + 127) / 128)
    let scales := if n.blk = 0 then 1 else if role.colBlocks then cols * ((rows + b - 1) / b) else rows * ((cols + b - 1) / b)
    let head := (¬ring → within (h 0) 8 ∧ h 0 % 8 = 0) ∧ f 56 8 1 = 0 ∧ stride % 8 = 0 ∧ 1 ≤ cols ∧ cols ≤ 512 ∧ 1 ≤ rows ∧ rows ≤ 512 ∧ f 40 24 2 = 0 ∧ kind ≤ 3
    let tail := (kind ≠ 0 → f 0 32 2 = 0) ∧ rowBytes ≤ stride ∧ (¬ring → within (h 0) ((rows - 1) * stride + rowBytes)) ∧
      (if scf = 0 then h 3 = 0 else array (h 3) (scales * scf)) ∧ (h 4 = 0 ∨ escapes ∧ array (h 4) (8 * tiles)) ∧ (if role.sel then array (h 5) 8 else h 5 = 0) ∧
      f 56 8 6 = 0 ∧ f 18 14 6 = 0 ∧ (f 17 1 6 = 1 ↔ role.sel = true) ∧
      (if role.sel then f 32 24 6 % 2 = 0 ∧ within (14 * 2 ^ 60 + f 32 24 6) (2 * ((rows + 15) / 16)) else f 32 24 6 = 0) ∧
      (if ring then f 36 28 7 = 0 ∧ 9 ≤ f 32 4 7 ∧ f 32 4 7 ≤ 18 ∧ 2 ≤ f 24 8 7 ∧ ¬escapes ∧ role.ring = true else h 7 = 0)
    let fate := recordBad dom ws role; let place := fun (k : Nat) => enginePlace cid (va + 8 * k); let read := s.readRecord cid dom va role false
    let fine := fun (k : Nat) => s.protects dom (targetOf cid (va + 8 * k)) .read = true ∧ s.engineHeld cid (va + 8 * k) = false ∧ s.mem.poisoned (place k / 8) = false;
    (f 0 16 6 ≠ dom → fate = some Cause.domainMismatch) ∧ (f 0 16 6 = dom → ¬head → fate = some Cause.badOperand) ∧
    (f 0 16 6 = dom → head → kind = 0 → n.legal = false → fate = some Cause.illegalFormat) ∧
    (f 0 16 6 = dom → head → (kind = 0 → n.legal = true) → (¬tail → fate = some Cause.badOperand) ∧ (tail → fate = none)) ∧
    (¬array va 64 → read = .error (Cause.badOperand, va)) ∧
    (array va 64 → (∀ k < 8, (∀ i < k, fine i) → (s.protects dom (targetOf cid (va + 8 * k)) .read = false → read = .error (Cause.protection, va + 8 * k)) ∧
        (s.protects dom (targetOf cid (va + 8 * k)) .read = true → s.engineHeld cid (va + 8 * k) = false → s.mem.poisoned (place k / 8) = true →
          read = .error (Cause.poison, va + 8 * k))) ∧
      ((∀ k < 8, fine k) → (∀ k < 8, ws.getD k 0 = BitVec.ofNat 64 (s.mem.read (place k) 8)) → ws.length = 8 → (fate = none → read = .ok ws) ∧
        (∀ c, fate = some c → read = .error (c, if c = Cause.illegalFormat then f 0 32 2 else va))))) ∧
  (∀ (g : Word) (size : Nat), let f := fun (lo len : Nat) => g.toNat / 2 ^ lo % 2 ^ len; regionBad g size = false ↔ f 54 10 = 0 ∧ f 42 12 % 2 = 0 ∧ f 20 11 ≤ f 42 12 ∧
    1 ≤ f 31 11 ∧ f 31 11 ≤ 512 ∧ 1 ≤ f 20 11 ∧ f 20 11 ≤ 512 ∧ f 0 20 % 8 = 0 ∧ f 0 20 + 4 * ((f 31 11 - 1) * f 42 12 + f 20 11) ≤ size) ∧
  (∀ (s : State) (cid dom d : Nat) (es : List Nat), let w := fun (k : Nat) => s.mem.read (enginePlace cid (d + 8 * k)) 8; let count := w 0 % 2 ^ 8; let cap := w 0 / 2 ^ 8 % 2 ^ 8
    let fits := w 0 / 2 ^ 16 = 0 ∧ 1 ≤ cap ∧ count ≤ cap ∧ es.length = count ∧ ∀ k < count, w (k + 1) / 2 ^ 48 = es.getD k 0 ∧ w (k + 1) / 2 ^ 32 % 2 ^ 16 = 0
    let r := s.entriesOf cid dom d es; (¬fits → r.1.sprue = some (Cause.sprueMismatch, d)) ∧ (fits → r.1.sprue = none ∧ r.2 = es.zip ((List.range count).map fun k => w (k + 1) % 2 ^ 32))) ∧
  (∀ (ws : List Word) (rows : List Nat) (t : Nat), let h := (ws.getD 1 0).toNat; let f := narrowOf ((ws.getD 2 0).toNat % 2 ^ 32); let wide := (h / 2 ^ 16 % 2 ^ 16 + 127) / 128
    let r0 := t / wide * 128; let c0 := t % wide * 128; (tileEscapes ws rows t).Pairwise (· < ·) ∧ ∀ x, x ∈ tileEscapes ws rows t ↔
      x / 128 < 128 ∧ r0 + x / 128 < h % 2 ^ 16 ∧ c0 + x % 128 < h / 2 ^ 16 % 2 ^ 16 ∧ f.decode (rows.getD (r0 + x / 128) 0 / 2 ^ (f.w * (c0 + x % 128)) % 2 ^ f.w) = .esc) ∧
  (∀ (s : State) (cid slot : Nat) (eng : Engines) (j : Submission), j.kind = 0 ∨ j.kind = 2 → let me := s.thread cid slot; let checks := s.acceptChecks cid slot eng j
    let fails := fun (c va : Nat) => checks = .error (c, va); let a := j.a.toNat; let b := j.b.toNat; let role := fun (cols : Bool) => (⟨false, cols, true, true⟩ : Role)
    let first := fun (va : Nat) => if addressBad va then some Cause.badAddress else if va % 8 ≠ 0 then some Cause.misaligned else if offsetBad va = true then
      some Cause.badOffset else if fitsUnit va 64 = false then some Cause.badOperand else none
    let ra := s.readRecord cid me.dom a (role false) false; let rb := s.readRecord cid me.dom b (role (j.kind != 2)) false; let here := fun (w : List Word) => (w.getD 6 0).getLsbD 16 = false
    let rows := fun (w : List Word) => (w.getD 1 0).toNat % 2 ^ 16; let cols := fun (w : List Word) => (w.getD 1 0).toNat / 2 ^ 16 % 2 ^ 16; let kind := fun (w : List Word) => (w.getD 2 0).toNat / 2 ^ 32 % 2 ^ 8
    let data : List Word → List Nat := fun w => (List.range (rows w)).flatMap fun i => (List.range ((cols w * (if kind w = 3 then 32 else 16) + 63) / 64)).map fun k =>
      (w.getD 0 0).toNat + i * ((w.getD 1 0).toNat / 2 ^ 32 % 2 ^ 24) + 8 * k
    let shapes := fun (v w : List Word) => kind v = kind w ∧ rows v = regRows j.q ∧
      (if j.kind = 2 then cols v = cols w ∧ rows w = regCols j.q else cols v = rows w ∧ cols w = regCols j.q);
    (me.rg = true → fails Cause.regionState 0) ∧ (me.rg = false → (∀ c, first a = some c → fails c a) ∧ (∀ c, first a = none → first b = some c → fails c b) ∧
      (first a = none → first b = none → (∀ c va, ra = .error (c, va) → fails c va) ∧ (∀ v, ra = .ok v → here v → (∀ c va, rb = .error (c, va) → fails c va) ∧
        (∀ w, rb = .ok w → here w → kind v ≠ 0 → kind w ≠ 0 → let denied := fun (va : Nat) => s.protects me.dom (targetOf cid va) .read = false
          (∀ l va r, data v ++ data w = l ++ va :: r → denied va → (∀ x ∈ l, ¬denied x) → regionBad j.q 0x100000 = false → shapes v w → fails Cause.protection va) ∧
          (regionBad j.q 0x100000 = true ∨ ¬shapes v w → fails Cause.badOperand j.q.toNat) ∧
          ((∀ va ∈ data v ++ data w, ¬denied va) → regionBad j.q 0x100000 = false → shapes v w →
            (∀ l x r, regionWords j.q = l ++ x :: r → s.protects me.dom (targetOf cid (accVa x)) .rmw = false →
              (∀ y ∈ l, s.protects me.dom (targetOf cid (accVa y)) .rmw = true) → fails Cause.protection (accVa x)) ∧
            ((∀ x ∈ regionWords j.q, s.protects me.dom (targetOf cid (accVa x)) .rmw = true) → checks = .ok (some ⟨v, [], []⟩, [⟨w, [], []⟩], [])))))))) ∧
  (∀ (j : TileJob) (V : Nat → Nat → FV) (cap : Nat) (hasList : Bool) (free : Nat → Nat) (top : ℚ), let f := narrowOf j.q.fmt; let theta := f32.unpack (j.q.theta.toNat % 2 ^ 32)
    let inside := fun (i c : Nat) => j.r0 ≤ i ∧ i < j.r1 ∧ j.c0 ≤ c ∧ c < j.c1; let index := fun (i c : Nat) => (i - j.r0) * 128 + (c - j.c0); let b := 2 ^ f.blk
    let xs := (List.range (j.r1 - j.r0)).flatMap fun i => (List.range (j.c1 - j.c0)).map fun c => (j.r0 + i, j.c0 + c, V (j.r0 + i) (j.c0 + c))
    let elected := fun (x : FV) => decide (f.zc = 1) && !x.isNan && !theta.isNan && !FV.lt x.abs theta; let count := (xs.filter fun x => elected x.2.2).length
    let rows := (j.dst.getD 1 0).toNat % 2 ^ 16; let cols := (j.dst.getD 1 0).toNat / 2 ^ 16 % 2 ^ 16; let r := quantise j xs cap hasList free
    let block := fun (i c : Nat) => if j.q.brole then c * ((rows + b - 1) / b) + i / b else i * ((cols + b - 1) / b) + c / b
    f.legal = true → 4 ≤ f.blk → j.r0 % 128 = 0 → j.c0 % 128 = 0 → j.r1 ≤ j.r0 + 128 → j.c1 ≤ j.c0 + 128 → j.r1 ≤ rows → j.c1 ≤ cols →
    (∀ i c, V i c ≠ .esc ∧ ∀ n e, V i c ≠ .fin n 0 e) → (∃ c < 2 ^ f.w, (f.decode c).finite ∧ (f.decode c).neg = false ∧ (f.decode c).rat = top) →
    (∀ c < 2 ^ f.w, (f.decode c).finite → (f.decode c).rat ≤ top) → 0 < top →
    (cap < count → j.q.clamp = false → r = none) ∧ (count ≤ cap ∨ j.q.clamp = true → ∃ (t : TileResult) (keep : List (Nat × Nat)) (ex : Nat → Nat → Int), r = some t ∧
      (keep.map fun p => index p.1 p.2).Pairwise (· < ·) ∧ keep.length = min cap count ∧ (∀ p ∈ keep, inside p.1 p.2 ∧ elected (V p.1 p.2) = true) ∧
      (∀ p ∈ keep, ∀ i c, inside i c → elected (V i c) = true → (i, c) ∉ keep → FV.lt (V i c).abs (V p.1 p.2).abs = true ∨
        FV.lt (V p.1 p.2).abs (V i c).abs = false ∧ index p.1 p.2 < index i c) ∧
      t.result = (if cap < count then 2 ^ 24 else 0) + keep.length * 2 ^ 16 + count ∧
      t.entries = (if hasList then keep.map fun p => index p.1 p.2 * 2 ^ 48 + (f32.pack 0 (V p.1 p.2)).1 else []) ∧
      (∀ i c, inside i c → let mates := fun (i' c' : Nat) => inside i' c' ∧ block i' c' = block i c ∧ (V i' c').finite = true ∧ elected (V i' c') = false
        ((∀ i' c', mates i' c' → (V i' c').rat = 0) → ex i c = 0) ∧
        (∀ (mx : ℚ) (k : Int), 0 < mx → (∃ i' c', mates i' c' ∧ |(V i' c').rat| = mx) → (∀ i' c', mates i' c' → |(V i' c').rat| ≤ mx) →
          top * 2 ^ (k - 1) < mx → mx ≤ top * 2 ^ k → ex i c = min (max k (-127)) 127)) ∧
      (t.scales.map Prod.fst).Nodup ∧ (∀ k v, (k, v) ∈ t.scales ↔ ∃ i c, inside i c ∧ k = block i c ∧ v = (ex i c + 127).toNat) ∧
      (let scaled := fun (i c : Nat) => f.encode (match V i c with
          | .fin n m e => .fin n m (e - ex i c)
          | v => v);
        (t.codes.map Prod.fst).Nodup ∧ (∀ i c v, ((i, c), v) ∈ t.codes ↔ inside i c ∧ v = if (i, c) ∈ keep then 2 ^ (f.w - 1) else (scaled i c).1) ∧
        ∀ k, t.flags.testBit k = true ↔ (k = 6 ∧ cap < count) ∨ ∃ i c, inside i c ∧ (i, c) ∉ keep ∧ (scaled i c).2.testBit k = true)))

/-- 11 R253 to R279: what a cluster engine does as a member of a flask, and as ordinal 0 and decider, on each packet that reaches it while
its module is not in D3hot and it is not switched out; a packet of another flask or of a state that does not expect it is dropped. The
model's readings: which early packets count, and what a leaver and a member that loses a packet do (log entries 68, 69 and 70, DEDUCED). -/
def Obligations.FlaskMembersAgree : Prop :=
  ∀ (n psrc dst vc dom id src cl : Nat) (port : Option Nat) (cr : Bool) (kind : FlaskKind) (s : State), let f := s.flask cl; let u := s.takePacket n; let m := clusterModule cl
    let ends := fun (i : Instr) (p : State → Prop) => ∃ t, exec i s = .next t ∧ p t; let plain := fun (i : Instr) => exec i s = .next u
    let there := fun (d : Nat) => s.reaches m (clusterKey d) = true; let holds := fun (t : State) (g : Flask) => t.flask cl = g ∧ t.mem = s.mem
    let sends := fun (t : State) (before : List Packet) (l : List (Nat × FlaskKind)) => ∃ ps : List Packet, t.net = before ++ ps ∧
      ps.map (fun p => (p.src, p.dst, p.vc, p.body)) = l.map fun k => (clusterKey cl, clusterKey k.1, 5, Body.flask ⟨dom, id, cl, k.2⟩)
    let mine := f.st ≠ 0 ∧ f.dom = dom ∧ f.id = id; let to_ := fun (l : List Nat) (k : FlaskKind) => l.map fun j => (f.member j, k)
    let all := ∀ j < f.m, there (f.member j)
    let settled := fun (v : State) (q outcome ford cause : Nat) (e : State → State) => (e (v.onFlask cl fun g => { g with
      st := 2, next := q + 1, pour := none, outcomes := ((g.outcomes.filter fun o => o.1 != q).reverse.take 15).reverse ++ [(q, outcome, ford, cause)],
      ready := g.ready.filter fun r => decide (q < r.1) })).wakeXwaits cl q outcome (ford * 2 ^ 9 + cause)
    (s.module m).d3hot = false → f.out = false →
    (∀ cid slot ask rest, f.st = 2 → f.queue = (cid, slot) :: rest → (s.thread cid slot).wait = .engine (.pour ask) → let i := Instr.flaskPourAccept cl
      let p := newPour f ask cid slot (s.thread cid slot).launch; let start := fun (v : State) (p : Pour) => v.onFlask cl fun g => { g with st := 3, queue := rest, pour := some p }
      (∀ c va, c ≠ 0 → s.pourChecks cl cid slot ask = .error (c, va) → exec i s = .next ((start s { p with own := some (c, va) }).sendTo cl (.fault f.next f.k c) [0])) ∧
      (∀ a b committer, s.pourChecks cl cid slot ask = .ok (a, b, committer) → let crc := crc64 (agreement f ask a.rec_ b.rec_ f.dom)
        let q := s.takeRegion (bufferPlace cl) (fun _ => false) (if committer then regionWords ask.q else []) 0
        exec i s = .next ((start q.2.2 { p with a := a, b := b, committer := committer, old := q.1, crc := crc }).sendTo cl (.ready f.next f.k crc) [0]) ∧
        (committer = false → f.dom = dom → f.id = id → there (f.member 0) → ends i fun t =>
          holds t { f with st := 3, queue := rest, pour := some { p with a := a, b := b, committer := false, old := [], crc := crc } } ∧ sends t s.net [(f.member 0, .ready f.next f.k crc)]))) ∧
    (∀ p, f.pour = some p → f.st = 4 → f.k = f.decider p.ask.ring → f.dissolved = false →
      (if p.ask.ring then p.finished.length = f.m else p.tiles = p.tileCount) →
      exec (.flaskDecide cl) s = .next (settled ((s.writeStaged cl p).sendTo cl (.commit p.seq) f.others) p.seq 2 0 0 fun v => v.endThread p .commits)) ∧
    (s.deliverable n = some ⟨psrc, dst, vc, port, cr, .flask ⟨dom, id, src, kind⟩⟩ → keyCluster dst = cl →
      (∀ k crc, kind = .join k crc → let i := Instr.flaskJoinRequest n; let joins := f.joins ++ [(k, crc)]; let froms := f.joinFrom ++ [(k, src)]
        let free := (f.st = 0 ∨ f.st = 1 ∧ f.id = id ∧ f.dom = dom) ∧ (f.joins = [] ∨ f.holdId = id ∧ f.joinDom = dom) ∧ ∀ j ∈ f.joins, j.1 ≠ k
        let whole := f.st = 1 ∧ f.k = 0 ∧ ∀ j < f.m, ∃ x ∈ joins, x.1 = j; let same := ∀ x ∈ joins, ∀ y ∈ joins, x.2 = y.2; let cleared := { f with joins := [], joinFrom := [], holdId := 0, joinDom := 0 }
        (¬free → there src → ends i fun t => holds t f ∧ sends t u.net [(src, .refuse Cause.flaskState)]) ∧
        (free → ¬whole → ends i fun t => holds t { f with joins := joins, joinFrom := froms, holdId := id, joinDom := dom } ∧ t.net = u.net) ∧
        (free → whole → (∀ x ∈ froms, there x.2) → (same → ends i fun t => holds t cleared ∧ sends t u.net (froms.map fun x => (x.2, .joined))) ∧
          (¬same → ends i fun t => holds t cleared ∧ sends t u.net (froms.map fun x => (x.2, .refuse Cause.flaskMismatch))))) ∧
      (∀ k, kind = .withdraw k → let i := Instr.flaskWithdraw n; let held := f.holdId = id ∧ f.joinDom = dom ∧ (k, src) ∈ f.joinFrom;
        (¬held → plain i) ∧ (held → there src → ends i fun t => sends t u.net [(src, .withdrawn)] ∧
          holds t { f with joins := f.joins.filter (·.1 != k), joinFrom := f.joinFrom.filter (·.1 != k) })) ∧
      (let i := Instr.flaskJoinReply n; let uid := f.joiner.getD 0; let joining := f.st = 1 ∧ mine; let over_ := fun (e : JoinEnd) => exec i s = .next ((u.onFlask cl Flask.none).settleJoin uid f.joinVa e)
        (kind = .joined ∨ (∃ c, kind = .refuse c) ∨ kind = .withdrawn → ¬joining → plain i) ∧
        (joining → (kind = .joined → exec i s = .next ((u.onFlask cl fun g => { g with st := 2, next := 1, outcomes := [], joiner := none }).settleJoin uid f.joinVa (.joined f.k)) ∧
            ∀ cid slot d x, s.slotOf uid = some (cid, slot) → (s.thread cid slot).wait = .engine (.join d x) → ends i fun t =>
              holds t { f with st := 2, next := 1, outcomes := [], joiner := none } ∧ t.gOf cid slot d = BitVec.ofNat 64 f.k ∧
              (t.thread cid slot).pc = (s.thread cid slot).pc + 4 ∧ (t.thread cid slot).st = (s.thread cid slot).from_) ∧
          (∀ c, kind = .refuse c → over_ (.failed c)) ∧ (kind = .withdrawn → over_ (if u.joinAsync uid then .again else .failed Cause.waitTimeout)))) ∧
      (∀ q j crc, kind = .ready q j crc → let i := Instr.flaskReadyReceipt n; let got := f.ready ++ [(q, j, crc)]; let of_ := fun (k : Nat) => (got.find? fun r => r.1 == q && r.2.1 == k).map fun r => r.2.2
        let asks := mine ∧ 2 ≤ f.st ∧ f.k = 0 ∧ f.next ≤ q ∧ q ∉ f.decided; let full := ∀ k < f.m, (of_ k).isSome = true
        let done := { f with ready := got.filter (·.1 != q), decided := f.decided ++ [q] };
        (¬asks → plain i) ∧ (asks → ¬full → ends i fun t => holds t { f with ready := got } ∧ t.net = u.net) ∧
        (asks → full → all → ((∀ k < f.m, of_ k = of_ 0) → ends i fun t => holds t done ∧ sends t u.net (to_ f.ordinals (.go q))) ∧
          (∀ k < f.m, of_ k ≠ of_ 0 → (∀ k' < k, of_ k' = of_ 0) → ends i fun t => holds t done ∧ sends t u.net (to_ f.ordinals (.mismatch q k))))) ∧
      (∀ q j c, kind = .fault q j c → let i := Instr.flaskFaultReceipt n; let asks := mine ∧ 2 ≤ f.st ∧ f.k = 0 ∧ f.next ≤ q ∧ q ∉ f.decided;
        (¬asks → plain i) ∧ (asks → all → ends i fun t => holds t { f with decided := f.decided ++ [q] } ∧ sends t u.net (to_ f.ordinals (.abort q j c)))) ∧
      (∀ q j, kind = .mismatch q j → let i := Instr.flaskMismatchReceipt n; let asks := mine ∧ (f.st = 2 ∨ f.st = 3) ∧ q = f.next
        (¬asks → plain i) ∧ (asks → exec i s = .next (u.abortPour cl j Cause.flaskMismatch true) ∧
          (f.k ≠ 0 → f.pour = none → f.dissolved = false → exec i s = .next (settled u q 4 j Cause.flaskMismatch fun v => v)) ∧
          (∀ p, f.k ≠ 0 → f.pour = some p → p.seq = q → f.dissolved = false → exec i s = .next (settled (u.restoreRegion cl p) q 4 j Cause.flaskMismatch
            fun v => v.endThread p (.traps Cause.flaskMismatch (flaskLayout q j Cause.flaskMismatch)))))) ∧
      (∀ q j c, kind = .abort q j c → let i := Instr.flaskAbortReceipt n; let asks := mine ∧ 2 ≤ f.st ∧ q = f.next
        (¬asks → plain i) ∧ (asks → exec i s = .next (u.takeAbort cl j c) ∧
          (f.k ≠ 0 → f.pour = none → f.dissolved = false → exec i s = .next (settled u q 3 j c fun v => v)) ∧
          (∀ p, f.k ≠ 0 → f.pour = some p → p.seq = q → f.st = 3 ∨ f.k ≠ f.decider p.ask.ring → f.dissolved = false →
            exec i s = .next (settled (u.restoreRegion cl p) q 3 j c fun v => if f.st = 5 then v else v.endThread p (match p.own with
              | some (oc, va) => if j = f.k then .traps oc va else .traps Cause.flaskAbort (flaskLayout q j c)
              | none => .traps Cause.flaskAbort (flaskLayout q j c)))))) ∧
      (∀ q, kind = .go q → let i := Instr.flaskGoReceipt n; (f.pour = none → plain i) ∧
        (∀ p, f.pour = some p → let asks := mine ∧ f.st = 3 ∧ p.seq = q; let now := { p with go := true, own := none }
          let v := (u.onFlask cl fun g => { g with st := 4 }).watch cl now;
          (¬asks → plain i) ∧ (asks → s.pourHeld p = true → exec i s = .next s) ∧
          (asks → s.pourHeld p = false → exec i s = .next (v.pourOn cl ((v.flask cl).pour.getD now)) ∧
            (∀ ra rb, s.runRows p.cid p.a [] = .ok ra → s.runRows p.cid p.b [] = .ok rb → p.ask.ring = false → f.k ≠ 0 → f.k ≠ f.m - 1 → p.partials = [] →
              there (f.member (f.m - 1)) → ends i fun t => holds t { f with st := 4, pour := some { now with watches := [f.m - 1] } } ∧ t.net = u.net)))) ∧
      (∀ p, f.pour = some p → let asks := fun (q : Nat) => mine ∧ p.seq = q ∧ (f.st = 3 ∨ f.st = 4)
        (∀ q tile last v, kind = .partials q tile last v → let i := Instr.flaskPartialReceipt n; let more := { p with partials := p.partials ++ [(tile, v)] };
          (¬asks q → plain i) ∧ (asks q → s.pourHeld p = true → exec i s = .next s) ∧ (asks q → s.pourHeld p = false →
            (f.st = 3 → ends i fun t => holds t { f with pour := some more } ∧ t.net = u.net) ∧ (f.st = 4 → exec i s = .next (u.pourOn cl more)))) ∧
        (∀ q x, kind = .panel q x → let i := Instr.flaskPanelReceipt n; let more := { p with panels := p.panels ++ [x] };
          (¬asks q → plain i) ∧ (asks q → s.pourHeld p = true → exec i s = .next s) ∧ (asks q → s.pourHeld p = false →
            (f.st = 3 → ends i fun t => holds t { f with pour := some more } ∧ t.net = u.net) ∧ (f.st = 4 → exec i s = .next (u.pourOn cl more)))) ∧
        (∀ q j, kind = .finished q j → let i := Instr.flaskFinishedReceipt n;
          (¬asks q → plain i) ∧ (asks q → ends i fun t => holds t { f with pour := some { p with finished := setInsert p.finished j } } ∧ t.net = u.net)) ∧
        (∀ q, kind = .commit q → let i := Instr.flaskCommitReceipt n; let asks := mine ∧ p.seq = q ∧ (f.st = 4 ∨ f.st = 5);
          (¬asks → plain i) ∧ (asks → f.dissolved = false → exec i s = .next (settled (u.writeStaged cl p) q 2 0 0 fun v => if f.st = 5 then v else v.endThread p .commits))) ∧
        (∀ q k watch part, kind = .lost q k watch part → let i := Instr.flaskLinkLoss n; let decides := f.k = f.decider p.ask.ring; let given := p.given = true ∧ part = false;
          (¬asks q → plain i) ∧ (asks q → f.st = 3 → exec i s = .next (u.faultSelf cl p Cause.linkUnreachable)) ∧
          (asks q → f.st = 4 → decides → exec i s = .next (u.takeAbort cl k Cause.linkUnreachable)) ∧
          (asks q → f.st = 4 → ¬decides → (¬given → exec i s = .next (u.faultSelf cl (if part then { p with given := false } else p) Cause.linkUnreachable)) ∧
            (given → watch = true → exec i s = .next (u.becomeUnknown cl p)) ∧ (given → watch = false → plain i)))) ∧
      (∀ r, kind = .leave r → let i := Instr.flaskLeaveReceipt n; let ack := fun (t : State) => exec i s = .next (t.sendAns (clusterKey cl) r .ok)
        (¬mine ∨ f.st = 1 → ack u) ∧ (mine → f.st = 2 → ack (u.leaveFlask cl)) ∧ (∀ p, mine → f.pour = some p → let decides := f.k = f.decider p.ask.ring;
          (f.st = 5 → ack (u.onFlask cl fun g => { g with dissolved := true })) ∧
          (f.st = 4 → p.given = true → ¬decides → ack ((u.becomeUnknown cl p).onFlask cl fun g => { g with dissolved := true })) ∧
          (f.st = 3 ∨ f.st = 4 → f.st = 3 ∨ p.given = false ∨ decides → ack ((u.takeAbort cl (f.ordinalOf src) Cause.flaskLeft).leaveFlask cl)))) ∧
      (∀ r q, kind = .query r → r.op = .query q → let answers := fun (v : Nat) => exec (.flaskOutcomeQuery n) s = .next (u.sendAns (clusterKey cl) r (.data v))
        (f.st = 0 → answers 5) ∧ (f.st ≠ 0 → ¬mine → plain (.flaskOutcomeQuery n)) ∧ (∀ o x, mine → f.remembered q = some (o, x) → answers (o + 2 ^ 8 * x)) ∧
        (mine → f.remembered q = none → ((∃ p, f.pour = some p ∧ p.seq = q) → answers 1) ∧ (¬(∃ p, f.pour = some p ∧ p.seq = q) → answers 0))))

/-- 11 R256, R257, R260 to R263: the agreement record field by field and its CRC, the checks of a pour whose operands have KIND 1 to 3, and
what a member computes, sends on and stages of a tile of a chain or of a panel of a ring. The detail of BAD_OPERAND is the model's reading
(log entry 74, DEDUCED). -/
def Obligations.FlaskChecksAndDataFlow : Prop :=
  (∀ (f : Flask) (ask : PourAsk) (a b : List Word) (dom : Nat), let f' := fun (w : List Word) (lo len k : Nat) => (w.getD k 0).toNat / 2 ^ lo % 2 ^ len
    let w := agreement f ask a b dom; let rows := f' a 0 16 1; f.m ≤ 64 → f.id < 2 ^ 32 → f.next < 2 ^ 32 → dom < 2 ^ 16 → rows ≤ 512 → w.length = 8 ∧
    f' w 42 22 0 = 0 ∧ f' w 41 1 0 = (if ask.acc then 1 else 0) ∧ f' w 40 1 0 = (if ask.ring then 1 else 0) ∧ f' w 39 1 0 = 0 ∧ f' w 32 7 0 = f.m ∧ f' w 0 32 0 = f.id ∧
    f' w 0 64 1 = f.next ∧ f' w 40 24 2 = 0 ∧ f' w 0 40 2 = f' a 0 40 2 ∧ f' w 40 24 3 = 0 ∧ f' w 0 40 3 = f' b 0 40 2 ∧ f' w 48 16 4 = 0 ∧
    f' w 32 16 4 = (if ask.ring then f' a 16 16 1 else 0) ∧ f' w 16 16 4 = f' b 16 16 1 ∧ f' w 0 16 4 = (if ask.ring then f.m * rows else rows) ∧
    f' w 0 64 5 = dom ∧ f' w 0 64 6 = 0 ∧ f' w 0 64 7 = 0) ∧
  (let step := fun (c : Nat) => if c.testBit 63 then (c * 2 % 2 ^ 64) ^^^ 0x42F0E1EBA9EA3693 else c * 2
    let byte := fun (c b : Nat) => (List.range 8).foldl (fun c _ => step c) (c ^^^ (b * 2 ^ 56));
    crc64 [] = 0 ∧ ∀ (ws : List Word) (w : Word), crc64 ws < 2 ^ 64 ∧
      crc64 (ws ++ [w]) = (List.range 8).foldl (fun c k => byte c (w.toNat / 2 ^ (8 * k) % 2 ^ 8)) (crc64 ws)) ∧
  (∀ (s : State) (cl cid slot : Nat) (ask : PourAsk), let f := s.flask cl; let dom := (s.thread cid slot).dom; let checks := s.pourChecks cl cid slot ask
    let fails := fun (c va : Nat) => checks = .error (c, va); let ra := s.readRecord cid dom ask.a.toNat ⟨false, false, false, false⟩ true
    let rb := s.readRecord cid dom ask.b.toNat ⟨false, true, false, false⟩ true; let committer := ask.ring = true ∨ f.k = f.m - 1
    let rows := fun (w : List Word) => (w.getD 1 0).toNat % 2 ^ 16; let cols := fun (w : List Word) => (w.getD 1 0).toNat / 2 ^ 16 % 2 ^ 16; let kind := fun (w : List Word) => (w.getD 2 0).toNat / 2 ^ 32 % 2 ^ 8
    let data : List Word → List Nat := fun w => (List.range (rows w)).flatMap fun i => (List.range ((cols w * (if kind w = 3 then 32 else 16) + 63) / 64)).map fun k =>
      (w.getD 0 0).toNat + i * ((w.getD 1 0).toNat / 2 ^ 32 % 2 ^ 24) + 8 * k
    let records := (List.range 8).map (fun k => ask.a.toNat + 8 * k) ++ (List.range 8).map (fun k => ask.b.toNat + 8 * k)
    let denied := fun (va : Nat) (k : AccessKind) => s.protects dom (targetOf cid va) k = false; let poisoned := fun (va : Nat) => s.mem.poisoned (enginePlace cid va / 8) = true
    let unit := fun (x : Nat) => 14 * 2 ^ 60 + 28 * 2 ^ 19 + x; let word := fun (x : Nat) => storeAddr cl 28 x / 8; let first := fun (l : List Nat) (p : Nat → Prop) (x : Nat) => ∃ y r, l = y ++ x :: r ∧ p x ∧ ∀ z ∈ y, ¬p z
    (∀ c x, ra = .error (c, x) → fails c (if c = Cause.illegalFormat then ask.a.toNat else x)) ∧
    (∀ v, ra = .ok v → (∀ c x, rb = .error (c, x) → fails c (if c = Cause.illegalFormat then ask.b.toNat else x)) ∧ (∀ w, rb = .ok w → kind v ≠ 0 → kind w ≠ 0 →
      let m := if ask.ring then f.m * rows v else rows v; let all := data v ++ data w
      let fits := (committer → regionBad ask.q 0x40000 = false ∧ regRows ask.q = m ∧ regCols ask.q = cols w) ∧ (¬committer → ask.q = 0) ∧ kind v = kind w ∧ cols v = rows w ∧
        m ≤ 256 ∧ cols w ≤ 256;
      (¬fits → fails Cause.badOperand ask.q.toNat) ∧ (fits → (∀ va, first all (denied · .read) va → fails Cause.protection va) ∧ ((∀ va ∈ all, ¬denied va .read) →
        let words := if ask.ring ∨ f.k = f.m - 1 then regionWords ask.q else []; let bar := fun (x : Nat) => denied (unit x) .rmw
        (∀ x, first words bar x → fails Cause.protection (unit x)) ∧ ((∀ x ∈ words, ¬bar x) →
          (∀ va, first records poisoned va → fails Cause.poison va) ∧ ((∀ va ∈ records, ¬poisoned va) →
            (∀ x, first words (fun x => s.mem.full (word x) = false) x → fails Cause.accumBusy (unit x)) ∧ ((∀ x ∈ words, s.mem.full (word x) = true) →
              (∀ x, first words (fun x => s.mem.poisoned (word x) = true) x → fails Cause.poison (unit x)) ∧
              ((∀ x ∈ words, s.mem.poisoned (word x) = false) → ∃ e, (e = true ↔ committer) ∧ checks = .ok (⟨v, [], []⟩, ⟨w, [], []⟩, e)))))))))) ∧
  (∀ (s : State) (cl n : Nat) (p : Pour) (ra rb xs : List Nat) (x : Panel), let f := s.flask cl; let cols := fun (w : List Word) => (w.getD 1 0).toNat / 2 ^ 16 % 2 ^ 16
    let rows := (p.a.rec_.getD 1 0).toNat % 2 ^ 16; let wide := (cols p.b.rec_ + 127) / 128; let tiles := (rows + 127) / 128 * wide; let g := p.ask.q; let per := (regCols g + 1) / 2
    let sum := fun (a : Operand) (ra : List Nat) (i j x : Nat) => let k := cols a.rec_; matrixSum ((k + 31) / 32) x ((List.range k).map fun y =>
      ⟨elementOf a false i y (ra.getD i 0), elementOf p.b true y j (rb.getD y 0), sprueOf a i y, sprueOf p.b y j⟩)
    let old := fun (i j y : Nat) => if p.ask.acc then (f32.pack 0 (FV.add 0 (f32.unpack (p.old.getD (i * per + j / 2) 0 / 2 ^ (j % 2 * 32) % 2 ^ 32)) (f32.unpack y)).1).1 else y
    let es := (List.range (min 128 (rows - p.tiles / wide * 128))).flatMap fun r => (List.range (min 128 (cols p.b.rec_ - p.tiles % wide * 128))).map fun c =>
      (p.tiles / wide * 128 + r, p.tiles % wide * 128 + c)
    let ys := (es.zip (List.range es.length)).map fun e => sum p.a ra e.1.1 e.1.2 (xs.getD e.2 0); let more := p.tiles + 1; let one := s.chainTile cl p ra rb xs
    (p.committer = true → one = ({ p with tiles := more, staged := p.staged ++ (es.zip ys).map fun e => (e.1.1 * regCols g + e.1.2, old e.1.1 e.1.2 e.2) }, s)) ∧
    (p.committer = false → one = ({ p with tiles := more, given := decide (more = tiles) }, s.sendTo cl (.partials p.seq p.tiles (decide (more = tiles)) ys) [f.k + 1])) ∧
    (tiles ≤ p.tiles ∨ f.k ≠ 0 ∧ (∀ q ∈ p.partials, q.1 ≠ p.tiles) → s.chainTiles cl ra rb (n + 1) p = (p, s)) ∧
    (p.tiles < tiles → f.k = 0 ∧ xs = [] ∨ f.k ≠ 0 ∧ (∃ l r, p.partials = l ++ (p.tiles, xs) :: r ∧ ∀ q ∈ l, q.1 ≠ p.tiles) → s.chainTiles cl ra rb (n + 1) p =
      one.2.chainTiles cl ra rb n { one.1 with partials := one.1.partials.filter fun q => q.1 != p.tiles }) ∧
    s.ringPanel cl p rb x = ({ p with computed := p.computed ++ [x.origin], staged := p.staged ++ (List.range rows).flatMap fun i => (List.range (regCols g)).map fun j =>
        ((x.origin * rows + i) * regCols g + j, old (x.origin * rows + i) j (sum x.op x.bytes i j 0)) },
      if x.hops + 1 < f.m then s.sendTo cl (.panel p.seq { x with hops := x.hops + 1 }) [(f.k + f.m - 1) % f.m] else s) ∧
    (∀ c va, s.runRows p.cid p.a [] = .error (c, va) ∨ (∃ r, s.runRows p.cid p.a [] = .ok r) ∧ s.runRows p.cid p.b [] = .error (c, va) →
      s.pourOn cl p = if c = 0 then s.setPour cl p else (s.setPour cl p).faultPour cl p c va) ∧
    (s.runRows p.cid p.a [] = .ok ra → s.runRows p.cid p.b [] = .ok rb → let t := s.setPour cl p; (p.ask.ring = false → s.pourOn cl p =
        (let q := t.chainTiles cl ra rb (tiles + 1) p; q.2.setPour cl q.1)) ∧
      (p.ask.ring = true → let own : List Panel := if f.k ∈ p.computed then [] else [⟨f.k, 0, ra, p.a⟩]; let q := (own ++ p.panels).foldl (fun q x => q.2.ringPanel cl q.1 rb x) (p, t)
        let now := { q.1 with panels := [] }; s.pourOn cl p = if q.1.computed.length = f.m ∧ q.1.given = false then
          (q.2.sendTo cl (.finished p.seq f.k) [0]).setPour cl { now with given := true } else q.2.setPour cl now)))

/-! Encodings, steps, invariants, reset. -/

/-- 05 R101, R105 to R117: the words of every well-formed instruction fit 32 bits each and decode to it, with every operand at every
value, whatever form the words are handed over in; and a word that decodes to an instruction decodes to a well-formed one whose words
it is. A step of the part is no well-formed instruction (log entry 6). -/
def Obligations.EncodingsAgree : Prop :=
  (∀ i : Instr, i.wf = true → i.words.1 < 2 ^ 32 ∧ i.words.2 < 2 ^ 32 ∧ decode i.words.1 i.words.2 = .ok i ∧
    decodeBytes (encode i) = .ok i ∧ (encode i).length = (if twoWords i.words.1 then 8 else 4) ∧
    ∀ n : Nat, decodeTableWord n (i.words.1 + 2 ^ 32 * i.words.2) = some i) ∧
  (∀ (i : Instr) (w v : Nat), w < 2 ^ 32 → v < 2 ^ 32 → decode w v = .ok i →
    i.wf = true ∧ i.words.1 = w ∧ (twoWords w = true → i.words.2 = v))

/-- 05 R105 to R117: instruction words written out field by field from the opcode map, one or more for each group of majors, and what
they decode to; words with an unassigned major or FN, an operand that R111 forbids, and a field that is not used. -/
def Obligations.SpecWordsDecode : Prop :=
  decode 0x04080020 0 = .ok (.add 1 0 1) ∧ decode 0x08387001 0 = .ok (.addi 7 7 1) ∧ decode 0x60286FFE 0 = .ok (.ld 5 6 0x1FF .i32) ∧
  decode 0x640867F8 0 = .ok (.st 1 6 0xFF .n8) ∧ decode 0x68286003 0 = .ok (.ldf 5 6 0) ∧ decode 0x7C000060 0 = .ok (.fence .module) ∧
  decode 0x584BC000 0 = .ok (.fmtp 1 2 15) ∧ decode 0x902050C0 0 = .ok (.waitv 4 5 6) ∧ decode 0x944050C1 0 = .ok (.spawnf 8 5 6) ∧
  decode 0xA448D203 0 = .ok (.vfma 1 2 3 2 .f32) ∧ decode 0xAC428000 0 = .ok (.vld 1 5 0) ∧ decode 0xBC840D00 0 = .ok (.visect 2 8 13) ∧
  decode 0xC42050C9 0 = .ok (.fma .w64 4 5 6) ∧ decode 0xD0000000 0 = .ok .tret ∧
  decode 0x00000000 0 = .illegal ∧ decode 0x08387001 5 = .ok (.addi 7 7 1) ∧ decode 0x78000006 0 = .illegal ∧
  decode 0x7C00006A 0 = .illegal ∧ decode 0x7C100060 0 = .reserved ∧ decode 0x60085007 0 = .illegal

/-- 05 R101 to R104, R111, R112 steps 1 to 3: in a step in which a thread that runs issues, the words at its pc, read from the fetch
buffers, decode to the instruction that the step executes; `ir` holds them, and what is added around the execution marks the launches
that are complete (15 R355) and then keeps the rises and counts the falls of the all-asleep outputs (14 R351), which changes nothing else. Words that decode to nothing trap
ILLEGAL_INSTRUCTION or RESERVED_FIELD with the words as TFADDR; a word that no buffer holds is waited for. -/
def Obligations.StepRunsDecodedInstruction : Prop :=
  (∀ (σ : State) (x y : Sector), let t := σ.thr; let pc := t.pc.toNat; let pd := (t.pc + 4).toNat
    let w := x.words.getD (pc % 64 / 4) 0
    let two := twoWords w
    let v := if two then y.words.getD (pd % 64 / 4) 0 else 0
    let u : State := { σ with issuing := false, ir := w + 2 ^ 32 * v };
    σ.issuing = true → t.st.runs = true →
    fetchable pc = true → t.sectorOf pc = some x → x.fault = none → x.poisoned.getD (pc % 64 / 8) false = false →
    (two = true → fetchable pd = true ∧ t.sectorOf pd = some y ∧ y.fault = none ∧ y.poisoned.getD (pd % 64 / 8) false = false) →
    (∀ i, decode w v = .ok i → step σ = settle (exec i u)) ∧
    (decode w v = .illegal → step σ = settle (.next (u.trap Cause.illegal u.irWord))) ∧
    (decode w v = .reserved → step σ = settle (.next (u.trap Cause.reserved u.irWord)))) ∧
  (∀ (σ : State), σ.issuing = true → σ.thr.st.runs = true → fetchable σ.thr.pc.toNat = true → σ.thr.sectorOf σ.thr.pc.toNat = none →
    step σ = settle (.next { σ with issuing := false })) ∧
  (∀ (t : State), ∃ v u : State, settle (.next t) = .next u ∧ v = { t with modules := v.modules } ∧ u = { t with modules := u.modules } ∧ ∀ m : Nat,
    v.module m = { t.module m with launches := (t.module m).launches.map fun l => { l with complete := l.complete || !(t.hasTask m l.id || t.hasWork m l.id) } } ∧
    let watched : Nat × Domain → Nat × Domain := fun p => let d := p.2; let out := v.asleepNow m d.tag
      (p.1, if out = true ∧ d.asleep = false then { d with asleep := true, rises := d.rises ++ [d.falls] }
        else if out = false ∧ d.asleep = true then { d with asleep := false, falls := d.falls + 1 } else d);
    u.module m = { t.module m with launches := (v.module m).launches, domains := (t.module m).domains.map watched }) ∧
  (∀ (σ : State) (i : Instr) (r : List Instr), σ.issuing = false → σ.agenda = i :: r → isStep i = true →
    step σ = settle (exec i { σ with agenda := r, tick := σ.tick + 1 }))

/-- 15 R362 with 07 R183, 12 R281: every step of the machine keeps memory in its canonical form: listed addresses rise, no listed byte reads as an
unlisted one, and the sets of empty and of poisoned words rise. -/
def Obligations.StepKeepsMemoryWf : Prop :=
  ∀ s t : State, MemoryWf s → Steps s t → MemoryWf t

/-- 08 R184, 06 R140, 07 R159, R170 with 14 R328, R338 and 07 R174, R175: every step keeps the machine within its limits: fifteen format registers and
TDEPTH at most 2 in every thread, and at most 64 journal entries and 16 region checkpoints in use on every core. -/
def Obligations.StepKeepsBounds : Prop :=
  ∀ s t : State, Bounds s → Steps s t → Bounds t

/-- 15 R362, R364, R367 with 10 R230, 06 R131: right after reset every device word reads zero with P = 1, W = 0 and no poison; every
slot is free; the launch queues are disabled, no domain is bound, the error log and the host-service queue are empty; MR is zero,
the life-cycle state is the fuse default, no key is fused, the cap is 3,200 W, and the mailbox reads BUSY until the boot is complete. Memory is in
its canonical form. The state of the fuses on a part that nothing has fused is the model's choice (log entry 13). -/
def Obligations.ResetState : Prop :=
  let s := State.reset
  MemoryWf s ∧ Bounds s ∧ (∀ a : Nat, a < 2 ^ 62 → s.mem.byte a = 0) ∧
  (∀ w : Nat, w < 2 ^ 59 → s.mem.full w = true ∧ s.mem.poisoned w = false ∧ ∀ e ∈ s.waitq, e.word ≠ w) ∧
  (∀ cid slot : Nat, (s.thread cid slot).st = .free) ∧
  (∀ cid r : Nat, Tab.get 0 (s.core cid).rf r = 0) ∧
  (∀ m q : Nat, ((s.module m).queue q).en = false) ∧
  (∀ m : Nat, let x := s.module m; x.domains = [] ∧ x.log = [] ∧ x.hsq = [] ∧ x.mr = 0 ∧ x.cap = 3200 ∧ x.fuses.lifecycle = 0 ∧ x.fuses.keyEpoch = none ∧
    x.fuses.keysMade = 0 ∧ x.fuses.fuseMap = [] ∧ x.launches = [] ∧ x.booted = false ∧ x.busy = true) ∧
  (∀ cl : Nat, (s.cluster cl).eng.flask.st = 0 ∧ (s.cluster cl).spawn = [] ∧ (s.cluster cl).eng.jobs = [] ∧
    (s.cluster cl).eng.ladle = [])
end

