-- ==== Sys2Proof/Laws/Dispatch.lean ====
section
/-!
SUPPORT. What `exec` does with each constructor: its meaning, one lemma a constructor.
-/
namespace Sys2Proof.Machine

@[simp] theorem exec_add (s : State) {x0 x1 x2} : exec (.add x0 x1 x2) s = execAdd x0 x1 x2 s := rfl
@[simp] theorem exec_sub (s : State) {x0 x1 x2} : exec (.sub x0 x1 x2) s = execSub x0 x1 x2 s := rfl
@[simp] theorem exec_mul (s : State) {x0 x1 x2} : exec (.mul x0 x1 x2) s = execMul x0 x1 x2 s := rfl
@[simp] theorem exec_mulh (s : State) {x0 x1 x2} : exec (.mulh x0 x1 x2) s = execMulh x0 x1 x2 s := rfl
@[simp] theorem exec_mulhn (s : State) {x0 x1 x2} : exec (.mulhn x0 x1 x2) s = execMulhn x0 x1 x2 s := rfl
@[simp] theorem exec_div (s : State) {x0 x1 x2} : exec (.div x0 x1 x2) s = execDiv x0 x1 x2 s := rfl
@[simp] theorem exec_divn (s : State) {x0 x1 x2} : exec (.divn x0 x1 x2) s = execDivn x0 x1 x2 s := rfl
@[simp] theorem exec_rem (s : State) {x0 x1 x2} : exec (.rem x0 x1 x2) s = execRem x0 x1 x2 s := rfl
@[simp] theorem exec_remn (s : State) {x0 x1 x2} : exec (.remn x0 x1 x2) s = execRemn x0 x1 x2 s := rfl
@[simp] theorem exec_and (s : State) {x0 x1 x2} : exec (.and x0 x1 x2) s = execAnd x0 x1 x2 s := rfl
@[simp] theorem exec_or (s : State) {x0 x1 x2} : exec (.or x0 x1 x2) s = execOr x0 x1 x2 s := rfl
@[simp] theorem exec_xor (s : State) {x0 x1 x2} : exec (.xor x0 x1 x2) s = execXor x0 x1 x2 s := rfl
@[simp] theorem exec_andn (s : State) {x0 x1 x2} : exec (.andn x0 x1 x2) s = execAndn x0 x1 x2 s := rfl
@[simp] theorem exec_shl (s : State) {x0 x1 x2} : exec (.shl x0 x1 x2) s = execShl x0 x1 x2 s := rfl
@[simp] theorem exec_shr (s : State) {x0 x1 x2} : exec (.shr x0 x1 x2) s = execShr x0 x1 x2 s := rfl
@[simp] theorem exec_shra (s : State) {x0 x1 x2} : exec (.shra x0 x1 x2) s = execShra x0 x1 x2 s := rfl
@[simp] theorem exec_rotl (s : State) {x0 x1 x2} : exec (.rotl x0 x1 x2) s = execRotl x0 x1 x2 s := rfl
@[simp] theorem exec_min (s : State) {x0 x1 x2} : exec (.min x0 x1 x2) s = execMin x0 x1 x2 s := rfl
@[simp] theorem exec_max (s : State) {x0 x1 x2} : exec (.max x0 x1 x2) s = execMax x0 x1 x2 s := rfl
@[simp] theorem exec_minn (s : State) {x0 x1 x2} : exec (.minn x0 x1 x2) s = execMinn x0 x1 x2 s := rfl
@[simp] theorem exec_maxn (s : State) {x0 x1 x2} : exec (.maxn x0 x1 x2) s = execMaxn x0 x1 x2 s := rfl
@[simp] theorem exec_lea2 (s : State) {x0 x1 x2} : exec (.lea2 x0 x1 x2) s = execLea2 x0 x1 x2 s := rfl
@[simp] theorem exec_lea4 (s : State) {x0 x1 x2} : exec (.lea4 x0 x1 x2) s = execLea4 x0 x1 x2 s := rfl
@[simp] theorem exec_lea8 (s : State) {x0 x1 x2} : exec (.lea8 x0 x1 x2) s = execLea8 x0 x1 x2 s := rfl
@[simp] theorem exec_addw (s : State) {x0 x1 x2} : exec (.addw x0 x1 x2) s = execAddw x0 x1 x2 s := rfl
@[simp] theorem exec_mulw (s : State) {x0 x1 x2} : exec (.mulw x0 x1 x2) s = execMulw x0 x1 x2 s := rfl
@[simp] theorem exec_clz (s : State) {x0 x1} : exec (.clz x0 x1) s = execClz x0 x1 s := rfl
@[simp] theorem exec_ctz (s : State) {x0 x1} : exec (.ctz x0 x1) s = execCtz x0 x1 s := rfl
@[simp] theorem exec_popc (s : State) {x0 x1} : exec (.popc x0 x1) s = execPopc x0 x1 s := rfl
@[simp] theorem exec_brev (s : State) {x0 x1} : exec (.brev x0 x1) s = execBrev x0 x1 s := rfl
@[simp] theorem exec_bswap (s : State) {x0 x1} : exec (.bswap x0 x1) s = execBswap x0 x1 s := rfl
@[simp] theorem exec_absd (s : State) {x0 x1 x2} : exec (.absd x0 x1 x2) s = execAbsd x0 x1 x2 s := rfl
@[simp] theorem exec_addi (s : State) {x0 x1 x2} : exec (.addi x0 x1 x2) s = execAddi x0 x1 x2 s := rfl
@[simp] theorem exec_andi (s : State) {x0 x1 x2} : exec (.andi x0 x1 x2) s = execAndi x0 x1 x2 s := rfl
@[simp] theorem exec_ori (s : State) {x0 x1 x2} : exec (.ori x0 x1 x2) s = execOri x0 x1 x2 s := rfl
@[simp] theorem exec_xori (s : State) {x0 x1 x2} : exec (.xori x0 x1 x2) s = execXori x0 x1 x2 s := rfl
@[simp] theorem exec_shli (s : State) {x0 x1 x2} : exec (.shli x0 x1 x2) s = execShli x0 x1 x2 s := rfl
@[simp] theorem exec_shri (s : State) {x0 x1 x2} : exec (.shri x0 x1 x2) s = execShri x0 x1 x2 s := rfl
@[simp] theorem exec_shrai (s : State) {x0 x1 x2} : exec (.shrai x0 x1 x2) s = execShrai x0 x1 x2 s := rfl
@[simp] theorem exec_rotli (s : State) {x0 x1 x2} : exec (.rotli x0 x1 x2) s = execRotli x0 x1 x2 s := rfl
@[simp] theorem exec_movi (s : State) {x0 x1} : exec (.movi x0 x1) s = execMovi x0 x1 s := rfl
@[simp] theorem exec_movs (s : State) {x0 x1} : exec (.movs x0 x1) s = execMovs x0 x1 s := rfl
@[simp] theorem exec_bfx (s : State) {x0 x1 x2 x3} : exec (.bfx x0 x1 x2 x3) s = execBfx x0 x1 x2 x3 s := rfl
@[simp] theorem exec_bfxs (s : State) {x0 x1 x2 x3} : exec (.bfxs x0 x1 x2 x3) s = execBfxs x0 x1 x2 x3 s := rfl
@[simp] theorem exec_bfi (s : State) {x0 x1 x2 x3} : exec (.bfi x0 x1 x2 x3) s = execBfi x0 x1 x2 x3 s := rfl
@[simp] theorem exec_cmpeq (s : State) {x0 x1 x2} : exec (.cmpeq x0 x1 x2) s = execCmpeq x0 x1 x2 s := rfl
@[simp] theorem exec_cmpne (s : State) {x0 x1 x2} : exec (.cmpne x0 x1 x2) s = execCmpne x0 x1 x2 s := rfl
@[simp] theorem exec_cmplt (s : State) {x0 x1 x2} : exec (.cmplt x0 x1 x2) s = execCmplt x0 x1 x2 s := rfl
@[simp] theorem exec_cmple (s : State) {x0 x1 x2} : exec (.cmple x0 x1 x2) s = execCmple x0 x1 x2 s := rfl
@[simp] theorem exec_cmpltn (s : State) {x0 x1 x2} : exec (.cmpltn x0 x1 x2) s = execCmpltn x0 x1 x2 s := rfl
@[simp] theorem exec_cmplen (s : State) {x0 x1 x2} : exec (.cmplen x0 x1 x2) s = execCmplen x0 x1 x2 s := rfl
@[simp] theorem exec_tstnz (s : State) {x0 x1 x2} : exec (.tstnz x0 x1 x2) s = execTstnz x0 x1 x2 s := rfl
@[simp] theorem exec_tstz (s : State) {x0 x1 x2} : exec (.tstz x0 x1 x2) s = execTstz x0 x1 x2 s := rfl
@[simp] theorem exec_cmpeqi (s : State) {x0 x1 x2} : exec (.cmpeqi x0 x1 x2) s = execCmpeqi x0 x1 x2 s := rfl
@[simp] theorem exec_cmpnei (s : State) {x0 x1 x2} : exec (.cmpnei x0 x1 x2) s = execCmpnei x0 x1 x2 s := rfl
@[simp] theorem exec_cmplti (s : State) {x0 x1 x2} : exec (.cmplti x0 x1 x2) s = execCmplti x0 x1 x2 s := rfl
@[simp] theorem exec_cmplei (s : State) {x0 x1 x2} : exec (.cmplei x0 x1 x2) s = execCmplei x0 x1 x2 s := rfl
@[simp] theorem exec_cmpgti (s : State) {x0 x1 x2} : exec (.cmpgti x0 x1 x2) s = execCmpgti x0 x1 x2 s := rfl
@[simp] theorem exec_cmpgei (s : State) {x0 x1 x2} : exec (.cmpgei x0 x1 x2) s = execCmpgei x0 x1 x2 s := rfl
@[simp] theorem exec_cmpltni (s : State) {x0 x1 x2} : exec (.cmpltni x0 x1 x2) s = execCmpltni x0 x1 x2 s := rfl
@[simp] theorem exec_cmpleni (s : State) {x0 x1 x2} : exec (.cmpleni x0 x1 x2) s = execCmpleni x0 x1 x2 s := rfl
@[simp] theorem exec_cmpgtni (s : State) {x0 x1 x2} : exec (.cmpgtni x0 x1 x2) s = execCmpgtni x0 x1 x2 s := rfl
@[simp] theorem exec_cmpgeni (s : State) {x0 x1 x2} : exec (.cmpgeni x0 x1 x2) s = execCmpgeni x0 x1 x2 s := rfl
@[simp] theorem exec_pand (s : State) {x0 x1 x2} : exec (.pand x0 x1 x2) s = execPand x0 x1 x2 s := rfl
@[simp] theorem exec_por (s : State) {x0 x1 x2} : exec (.por x0 x1 x2) s = execPor x0 x1 x2 s := rfl
@[simp] theorem exec_pxor (s : State) {x0 x1 x2} : exec (.pxor x0 x1 x2) s = execPxor x0 x1 x2 s := rfl
@[simp] theorem exec_pandn (s : State) {x0 x1 x2} : exec (.pandn x0 x1 x2) s = execPandn x0 x1 x2 s := rfl
@[simp] theorem exec_pnot (s : State) {x0 x1} : exec (.pnot x0 x1) s = execPnot x0 x1 s := rfl
@[simp] theorem exec_pmov (s : State) {x0 x1} : exec (.pmov x0 x1) s = execPmov x0 x1 s := rfl
@[simp] theorem exec_pall (s : State) {x0} : exec (.pall x0) s = execPall x0 s := rfl
@[simp] theorem exec_pnone (s : State) {x0} : exec (.pnone x0) s = execPnone x0 s := rfl
@[simp] theorem exec_sel (s : State) {x0 x1 x2 x3} : exec (.sel x0 x1 x2 x3) s = execSel x0 x1 x2 x3 s := rfl
@[simp] theorem exec_br (s : State) {x0} : exec (.br x0) s = execBr x0 s := rfl
@[simp] theorem exec_call (s : State) {x0} : exec (.call x0) s = execCall x0 s := rfl
@[simp] theorem exec_bp (s : State) {x0 x1} : exec (.bp x0 x1) s = execBp x0 x1 s := rfl
@[simp] theorem exec_bnp (s : State) {x0 x1} : exec (.bnp x0 x1) s = execBnp x0 x1 s := rfl
@[simp] theorem exec_bz (s : State) {x0 x1} : exec (.bz x0 x1) s = execBz x0 x1 s := rfl
@[simp] theorem exec_bnz (s : State) {x0 x1} : exec (.bnz x0 x1) s = execBnz x0 x1 s := rfl
@[simp] theorem exec_jr (s : State) {x0} : exec (.jr x0) s = execJr x0 s := rfl
@[simp] theorem exec_jrl (s : State) {x0} : exec (.jrl x0) s = execJrl x0 s := rfl
@[simp] theorem exec_ret (s : State) : exec (.ret) s = execRet s := rfl
@[simp] theorem exec_nop (s : State) : exec (.nop) s = execNop s := rfl
@[simp] theorem exec_yield (s : State) : exec (.yield) s = execYield s := rfl
@[simp] theorem exec_brk (s : State) : exec (.brk) s = execBrk s := rfl
@[simp] theorem exec_fmtp (s : State) {x0 x1 x2} : exec (.fmtp x0 x1 x2) s = execFmtp x0 x1 x2 s := rfl
@[simp] theorem exec_fdset (s : State) {x0 x1} : exec (.fdset x0 x1) s = execFdset x0 x1 s := rfl
@[simp] theorem exec_fdget (s : State) {x0 x1} : exec (.fdget x0 x1) s = execFdget x0 x1 s := rfl
@[simp] theorem exec_ld (s : State) {x0 x1 x2 x3} : exec (.ld x0 x1 x2 x3) s = execLd x0 x1 x2 x3 s := rfl
@[simp] theorem exec_st (s : State) {x0 x1 x2 x3} : exec (.st x0 x1 x2 x3) s = execSt x0 x1 x2 x3 s := rfl
@[simp] theorem exec_ldf (s : State) {x0 x1 x2} : exec (.ldf x0 x1 x2) s = execLdf x0 x1 x2 s := rfl
@[simp] theorem exec_ldt (s : State) {x0 x1 x2} : exec (.ldt x0 x1 x2) s = execLdt x0 x1 x2 s := rfl
@[simp] theorem exec_stp (s : State) {x0 x1 x2} : exec (.stp x0 x1 x2) s = execStp x0 x1 x2 s := rfl
@[simp] theorem exec_stf (s : State) {x0 x1 x2} : exec (.stf x0 x1 x2) s = execStf x0 x1 x2 s := rfl
@[simp] theorem exec_sete (s : State) {x0} : exec (.sete x0) s = execSete x0 s := rfl
@[simp] theorem exec_setf (s : State) {x0} : exec (.setf x0) s = execSetf x0 s := rfl
@[simp] theorem exec_probe (s : State) {x0 x1} : exec (.probe x0 x1) s = execProbe x0 x1 s := rfl
@[simp] theorem exec_waitf (s : State) {x0} : exec (.waitf x0) s = execWaitf x0 s := rfl
@[simp] theorem exec_waite (s : State) {x0} : exec (.waite x0) s = execWaite x0 s := rfl
@[simp] theorem exec_fence (s : State) {x0} : exec (.fence x0) s = execFence x0 s := rfl
@[simp] theorem exec_jsync (s : State) : exec (.jsync) s = execJsync s := rfl
@[simp] theorem exec_rbegin (s : State) {x0} : exec (.rbegin x0) s = execRbegin x0 s := rfl
@[simp] theorem exec_rcommit (s : State) : exec (.rcommit) s = execRcommit s := rfl
@[simp] theorem exec_pref (s : State) {x0} : exec (.pref x0) s = execPref x0 s := rfl
@[simp] theorem exec_migr (s : State) {x0} : exec (.migr x0) s = execMigr x0 s := rfl
@[simp] theorem exec_livem (s : State) {x0 x1 x2} : exec (.livem x0 x1 x2) s = execLivem x0 x1 x2 s := rfl
@[simp] theorem exec_touch (s : State) {x0 x1} : exec (.touch x0 x1) s = execTouch x0 x1 s := rfl
@[simp] theorem exec_rabort (s : State) {x0} : exec (.rabort x0) s = execRabort x0 s := rfl
@[simp] theorem exec_aadd (s : State) {x0 x1 x2 x3} : exec (.aadd x0 x1 x2 x3) s = execAadd x0 x1 x2 x3 s := rfl
@[simp] theorem exec_aand (s : State) {x0 x1 x2 x3} : exec (.aand x0 x1 x2 x3) s = execAand x0 x1 x2 x3 s := rfl
@[simp] theorem exec_aor (s : State) {x0 x1 x2 x3} : exec (.aor x0 x1 x2 x3) s = execAor x0 x1 x2 x3 s := rfl
@[simp] theorem exec_axor (s : State) {x0 x1 x2 x3} : exec (.axor x0 x1 x2 x3) s = execAxor x0 x1 x2 x3 s := rfl
@[simp] theorem exec_amin (s : State) {x0 x1 x2 x3} : exec (.amin x0 x1 x2 x3) s = execAmin x0 x1 x2 x3 s := rfl
@[simp] theorem exec_amax (s : State) {x0 x1 x2 x3} : exec (.amax x0 x1 x2 x3) s = execAmax x0 x1 x2 x3 s := rfl
@[simp] theorem exec_aminn (s : State) {x0 x1 x2 x3} : exec (.aminn x0 x1 x2 x3) s = execAminn x0 x1 x2 x3 s := rfl
@[simp] theorem exec_amaxn (s : State) {x0 x1 x2 x3} : exec (.amaxn x0 x1 x2 x3) s = execAmaxn x0 x1 x2 x3 s := rfl
@[simp] theorem exec_axchg (s : State) {x0 x1 x2 x3} : exec (.axchg x0 x1 x2 x3) s = execAxchg x0 x1 x2 x3 s := rfl
@[simp] theorem exec_adecp (s : State) {x0 x1 x2} : exec (.adecp x0 x1 x2) s = execAdecp x0 x1 x2 s := rfl
@[simp] theorem exec_aincw (s : State) {x0 x1 x2 x3} : exec (.aincw x0 x1 x2 x3) s = execAincw x0 x1 x2 x3 s := rfl
@[simp] theorem exec_afadd (s : State) {x0 x1 x2 x3} : exec (.afadd x0 x1 x2 x3) s = execAfadd x0 x1 x2 x3 s := rfl
@[simp] theorem exec_afmin (s : State) {x0 x1 x2 x3} : exec (.afmin x0 x1 x2 x3) s = execAfmin x0 x1 x2 x3 s := rfl
@[simp] theorem exec_afmax (s : State) {x0 x1 x2 x3} : exec (.afmax x0 x1 x2 x3) s = execAfmax x0 x1 x2 x3 s := rfl
@[simp] theorem exec_aaddP (s : State) {x0 x1 x2} : exec (.aaddP x0 x1 x2) s = execAaddP x0 x1 x2 s := rfl
@[simp] theorem exec_aandP (s : State) {x0 x1 x2} : exec (.aandP x0 x1 x2) s = execAandP x0 x1 x2 s := rfl
@[simp] theorem exec_aorP (s : State) {x0 x1 x2} : exec (.aorP x0 x1 x2) s = execAorP x0 x1 x2 s := rfl
@[simp] theorem exec_axorP (s : State) {x0 x1 x2} : exec (.axorP x0 x1 x2) s = execAxorP x0 x1 x2 s := rfl
@[simp] theorem exec_aminP (s : State) {x0 x1 x2} : exec (.aminP x0 x1 x2) s = execAminP x0 x1 x2 s := rfl
@[simp] theorem exec_amaxP (s : State) {x0 x1 x2} : exec (.amaxP x0 x1 x2) s = execAmaxP x0 x1 x2 s := rfl
@[simp] theorem exec_aminnP (s : State) {x0 x1 x2} : exec (.aminnP x0 x1 x2) s = execAminnP x0 x1 x2 s := rfl
@[simp] theorem exec_amaxnP (s : State) {x0 x1 x2} : exec (.amaxnP x0 x1 x2) s = execAmaxnP x0 x1 x2 s := rfl
@[simp] theorem exec_axchgP (s : State) {x0 x1 x2} : exec (.axchgP x0 x1 x2) s = execAxchgP x0 x1 x2 s := rfl
@[simp] theorem exec_adecpP (s : State) {x0 x1} : exec (.adecpP x0 x1) s = execAdecpP x0 x1 s := rfl
@[simp] theorem exec_aincwP (s : State) {x0 x1 x2} : exec (.aincwP x0 x1 x2) s = execAincwP x0 x1 x2 s := rfl
@[simp] theorem exec_afaddP (s : State) {x0 x1 x2} : exec (.afaddP x0 x1 x2) s = execAfaddP x0 x1 x2 s := rfl
@[simp] theorem exec_afminP (s : State) {x0 x1 x2} : exec (.afminP x0 x1 x2) s = execAfminP x0 x1 x2 s := rfl
@[simp] theorem exec_afmaxP (s : State) {x0 x1 x2} : exec (.afmaxP x0 x1 x2) s = execAfmaxP x0 x1 x2 s := rfl
@[simp] theorem exec_acas64 (s : State) {x0 x1 x2} : exec (.acas64 x0 x1 x2) s = execAcas64 x0 x1 x2 s := rfl
@[simp] theorem exec_acas32 (s : State) {x0 x1 x2} : exec (.acas32 x0 x1 x2) s = execAcas32 x0 x1 x2 s := rfl
@[simp] theorem exec_acas128 (s : State) {x0 x1 x2} : exec (.acas128 x0 x1 x2) s = execAcas128 x0 x1 x2 s := rfl
@[simp] theorem exec_lstat (s : State) {x0 x1} : exec (.lstat x0 x1) s = execLstat x0 x1 s := rfl
@[simp] theorem exec_lresume (s : State) {x0} : exec (.lresume x0) s = execLresume x0 s := rfl
@[simp] theorem exec_lcancel (s : State) {x0} : exec (.lcancel x0) s = execLcancel x0 s := rfl
@[simp] theorem exec_waitv (s : State) {x0 x1 x2} : exec (.waitv x0 x1 x2) s = execWaitv x0 x1 x2 s := rfl
@[simp] theorem exec_wake1 (s : State) {x0 x1} : exec (.wake1 x0 x1) s = execWake1 x0 x1 s := rfl
@[simp] theorem exec_wakea (s : State) {x0 x1} : exec (.wakea x0 x1) s = execWakea x0 x1 s := rfl
@[simp] theorem exec_waken (s : State) {x0 x1 x2} : exec (.waken x0 x1 x2) s = execWaken x0 x1 x2 s := rfl
@[simp] theorem exec_spawn (s : State) {x0 x1} : exec (.spawn x0 x1) s = execSpawn x0 x1 s := rfl
@[simp] theorem exec_spawnf (s : State) {x0 x1 x2} : exec (.spawnf x0 x1 x2) s = execSpawnf x0 x1 x2 s := rfl
@[simp] theorem exec_tend (s : State) {x0} : exec (.tend x0) s = execTend x0 s := rfl
@[simp] theorem exec_send (s : State) {x0 x1 x2} : exec (.send x0 x1 x2) s = execSend x0 x1 x2 s := rfl
@[simp] theorem exec_tself (s : State) {x0} : exec (.tself x0) s = execTself x0 s := rfl
@[simp] theorem exec_srd (s : State) {x0 x1} : exec (.srd x0 x1) s = execSrd x0 x1 s := rfl
@[simp] theorem exec_swr (s : State) {x0 x1} : exec (.swr x0 x1) s = execSwr x0 x1 s := rfl
@[simp] theorem exec_vadd (s : State) {x0 x1 x2 x3 x4} : exec (.vadd x0 x1 x2 x3 x4) s = execVadd x0 x1 x2 x3 x4 s := rfl
@[simp] theorem exec_vsub (s : State) {x0 x1 x2 x3 x4} : exec (.vsub x0 x1 x2 x3 x4) s = execVsub x0 x1 x2 x3 x4 s := rfl
@[simp] theorem exec_vmul (s : State) {x0 x1 x2 x3 x4} : exec (.vmul x0 x1 x2 x3 x4) s = execVmul x0 x1 x2 x3 x4 s := rfl
@[simp] theorem exec_vmulh (s : State) {x0 x1 x2 x3 x4} : exec (.vmulh x0 x1 x2 x3 x4) s = execVmulh x0 x1 x2 x3 x4 s := rfl
@[simp] theorem exec_vmin (s : State) {x0 x1 x2 x3 x4} : exec (.vmin x0 x1 x2 x3 x4) s = execVmin x0 x1 x2 x3 x4 s := rfl
@[simp] theorem exec_vmax (s : State) {x0 x1 x2 x3 x4} : exec (.vmax x0 x1 x2 x3 x4) s = execVmax x0 x1 x2 x3 x4 s := rfl
@[simp] theorem exec_vand (s : State) {x0 x1 x2 x3 x4} : exec (.vand x0 x1 x2 x3 x4) s = execVand x0 x1 x2 x3 x4 s := rfl
@[simp] theorem exec_vor (s : State) {x0 x1 x2 x3 x4} : exec (.vor x0 x1 x2 x3 x4) s = execVor x0 x1 x2 x3 x4 s := rfl
@[simp] theorem exec_vxor (s : State) {x0 x1 x2 x3 x4} : exec (.vxor x0 x1 x2 x3 x4) s = execVxor x0 x1 x2 x3 x4 s := rfl
@[simp] theorem exec_vshl (s : State) {x0 x1 x2 x3 x4} : exec (.vshl x0 x1 x2 x3 x4) s = execVshl x0 x1 x2 x3 x4 s := rfl
@[simp] theorem exec_vshr (s : State) {x0 x1 x2 x3 x4} : exec (.vshr x0 x1 x2 x3 x4) s = execVshr x0 x1 x2 x3 x4 s := rfl
@[simp] theorem exec_vshra (s : State) {x0 x1 x2 x3 x4} : exec (.vshra x0 x1 x2 x3 x4) s = execVshra x0 x1 x2 x3 x4 s := rfl
@[simp] theorem exec_vabs (s : State) {x0 x1 x2 x3} : exec (.vabs x0 x1 x2 x3) s = execVabs x0 x1 x2 x3 s := rfl
@[simp] theorem exec_vneg (s : State) {x0 x1 x2 x3} : exec (.vneg x0 x1 x2 x3) s = execVneg x0 x1 x2 x3 s := rfl
@[simp] theorem exec_vsadd (s : State) {x0 x1 x2 x3 x4} : exec (.vsadd x0 x1 x2 x3 x4) s = execVsadd x0 x1 x2 x3 x4 s := rfl
@[simp] theorem exec_vssub (s : State) {x0 x1 x2 x3 x4} : exec (.vssub x0 x1 x2 x3 x4) s = execVssub x0 x1 x2 x3 x4 s := rfl
@[simp] theorem exec_vpopc (s : State) {x0 x1 x2 x3} : exec (.vpopc x0 x1 x2 x3) s = execVpopc x0 x1 x2 x3 s := rfl
@[simp] theorem exec_vclz (s : State) {x0 x1 x2 x3} : exec (.vclz x0 x1 x2 x3) s = execVclz x0 x1 x2 x3 s := rfl
@[simp] theorem exec_vmadd (s : State) {x0 x1 x2 x3 x4} : exec (.vmadd x0 x1 x2 x3 x4) s = execVmadd x0 x1 x2 x3 x4 s := rfl
@[simp] theorem exec_vsel (s : State) {x0 x1 x2 x3 x4} : exec (.vsel x0 x1 x2 x3 x4) s = execVsel x0 x1 x2 x3 x4 s := rfl
@[simp] theorem exec_vfadd (s : State) {x0 x1 x2 x3 x4} : exec (.vfadd x0 x1 x2 x3 x4) s = execVfadd x0 x1 x2 x3 x4 s := rfl
@[simp] theorem exec_vfsub (s : State) {x0 x1 x2 x3 x4} : exec (.vfsub x0 x1 x2 x3 x4) s = execVfsub x0 x1 x2 x3 x4 s := rfl
@[simp] theorem exec_vfmul (s : State) {x0 x1 x2 x3 x4} : exec (.vfmul x0 x1 x2 x3 x4) s = execVfmul x0 x1 x2 x3 x4 s := rfl
@[simp] theorem exec_vfma (s : State) {x0 x1 x2 x3 x4} : exec (.vfma x0 x1 x2 x3 x4) s = execVfma x0 x1 x2 x3 x4 s := rfl
@[simp] theorem exec_vfdiv (s : State) {x0 x1 x2 x3 x4} : exec (.vfdiv x0 x1 x2 x3 x4) s = execVfdiv x0 x1 x2 x3 x4 s := rfl
@[simp] theorem exec_vfsqrt (s : State) {x0 x1 x2 x3} : exec (.vfsqrt x0 x1 x2 x3) s = execVfsqrt x0 x1 x2 x3 s := rfl
@[simp] theorem exec_vfmin (s : State) {x0 x1 x2 x3 x4} : exec (.vfmin x0 x1 x2 x3 x4) s = execVfmin x0 x1 x2 x3 x4 s := rfl
@[simp] theorem exec_vfmax (s : State) {x0 x1 x2 x3 x4} : exec (.vfmax x0 x1 x2 x3 x4) s = execVfmax x0 x1 x2 x3 x4 s := rfl
@[simp] theorem exec_vfabs (s : State) {x0 x1 x2 x3} : exec (.vfabs x0 x1 x2 x3) s = execVfabs x0 x1 x2 x3 s := rfl
@[simp] theorem exec_vfneg (s : State) {x0 x1 x2 x3} : exec (.vfneg x0 x1 x2 x3) s = execVfneg x0 x1 x2 x3 s := rfl
@[simp] theorem exec_vrcp (s : State) {x0 x1 x2 x3} : exec (.vrcp x0 x1 x2 x3) s = execVrcp x0 x1 x2 x3 s := rfl
@[simp] theorem exec_vrsq (s : State) {x0 x1 x2 x3} : exec (.vrsq x0 x1 x2 x3) s = execVrsq x0 x1 x2 x3 s := rfl
@[simp] theorem exec_vexp2 (s : State) {x0 x1 x2 x3} : exec (.vexp2 x0 x1 x2 x3) s = execVexp2 x0 x1 x2 x3 s := rfl
@[simp] theorem exec_vlog2 (s : State) {x0 x1 x2 x3} : exec (.vlog2 x0 x1 x2 x3) s = execVlog2 x0 x1 x2 x3 s := rfl
@[simp] theorem exec_vfrnd (s : State) {x0 x1 x2 x3} : exec (.vfrnd x0 x1 x2 x3) s = execVfrnd x0 x1 x2 x3 s := rfl
@[simp] theorem exec_vceq (s : State) {x0 x1 x2 x3 x4} : exec (.vceq x0 x1 x2 x3 x4) s = execVceq x0 x1 x2 x3 x4 s := rfl
@[simp] theorem exec_vcne (s : State) {x0 x1 x2 x3 x4} : exec (.vcne x0 x1 x2 x3 x4) s = execVcne x0 x1 x2 x3 x4 s := rfl
@[simp] theorem exec_vclt (s : State) {x0 x1 x2 x3 x4} : exec (.vclt x0 x1 x2 x3 x4) s = execVclt x0 x1 x2 x3 x4 s := rfl
@[simp] theorem exec_vcle (s : State) {x0 x1 x2 x3 x4} : exec (.vcle x0 x1 x2 x3 x4) s = execVcle x0 x1 x2 x3 x4 s := rfl
@[simp] theorem exec_vcltn (s : State) {x0 x1 x2 x3 x4} : exec (.vcltn x0 x1 x2 x3 x4) s = execVcltn x0 x1 x2 x3 x4 s := rfl
@[simp] theorem exec_vclen (s : State) {x0 x1 x2 x3 x4} : exec (.vclen x0 x1 x2 x3 x4) s = execVclen x0 x1 x2 x3 x4 s := rfl
@[simp] theorem exec_vfceq (s : State) {x0 x1 x2 x3 x4} : exec (.vfceq x0 x1 x2 x3 x4) s = execVfceq x0 x1 x2 x3 x4 s := rfl
@[simp] theorem exec_vfclt (s : State) {x0 x1 x2 x3 x4} : exec (.vfclt x0 x1 x2 x3 x4) s = execVfclt x0 x1 x2 x3 x4 s := rfl
@[simp] theorem exec_vfcle (s : State) {x0 x1 x2 x3 x4} : exec (.vfcle x0 x1 x2 x3 x4) s = execVfcle x0 x1 x2 x3 x4 s := rfl
@[simp] theorem exec_vfcun (s : State) {x0 x1 x2 x3 x4} : exec (.vfcun x0 x1 x2 x3 x4) s = execVfcun x0 x1 x2 x3 x4 s := rfl
@[simp] theorem exec_vld (s : State) {x0 x1 x2} : exec (.vld x0 x1 x2) s = execVld x0 x1 x2 s := rfl
@[simp] theorem exec_vst (s : State) {x0 x1 x2} : exec (.vst x0 x1 x2) s = execVst x0 x1 x2 s := rfl
@[simp] theorem exec_vlds (s : State) {x0 x1 x2 x3} : exec (.vlds x0 x1 x2 x3) s = execVlds x0 x1 x2 x3 s := rfl
@[simp] theorem exec_vsts (s : State) {x0 x1 x2 x3} : exec (.vsts x0 x1 x2 x3) s = execVsts x0 x1 x2 x3 s := rfl
@[simp] theorem exec_vgath (s : State) {x0 x1 x2 x3 x4} : exec (.vgath x0 x1 x2 x3 x4) s = execVgath x0 x1 x2 x3 x4 s := rfl
@[simp] theorem exec_vscat (s : State) {x0 x1 x2 x3 x4} : exec (.vscat x0 x1 x2 x3 x4) s = execVscat x0 x1 x2 x3 x4 s := rfl
@[simp] theorem exec_vldf (s : State) {x0 x1 x2} : exec (.vldf x0 x1 x2) s = execVldf x0 x1 x2 s := rfl
@[simp] theorem exec_vstp (s : State) {x0 x1 x2} : exec (.vstp x0 x1 x2) s = execVstp x0 x1 x2 s := rfl
@[simp] theorem exec_vldb (s : State) {x0 x1 x2} : exec (.vldb x0 x1 x2) s = execVldb x0 x1 x2 s := rfl
@[simp] theorem exec_vperm (s : State) {x0 x1 x2 x3 x4} : exec (.vperm x0 x1 x2 x3 x4) s = execVperm x0 x1 x2 x3 x4 s := rfl
@[simp] theorem exec_vredadd (s : State) {x0 x1 x2 x3} : exec (.vredadd x0 x1 x2 x3) s = execVredadd x0 x1 x2 x3 s := rfl
@[simp] theorem exec_vredmin (s : State) {x0 x1 x2 x3} : exec (.vredmin x0 x1 x2 x3) s = execVredmin x0 x1 x2 x3 s := rfl
@[simp] theorem exec_vredmax (s : State) {x0 x1 x2 x3} : exec (.vredmax x0 x1 x2 x3) s = execVredmax x0 x1 x2 x3 s := rfl
@[simp] theorem exec_vfredadd (s : State) {x0 x1 x2 x3} : exec (.vfredadd x0 x1 x2 x3) s = execVfredadd x0 x1 x2 x3 s := rfl
@[simp] theorem exec_vscan (s : State) {x0 x1 x2 x3} : exec (.vscan x0 x1 x2 x3) s = execVscan x0 x1 x2 x3 s := rfl
@[simp] theorem exec_vcompr (s : State) {x0 x1 x2 x3} : exec (.vcompr x0 x1 x2 x3) s = execVcompr x0 x1 x2 x3 s := rfl
@[simp] theorem exec_vexpd (s : State) {x0 x1 x2 x3} : exec (.vexpd x0 x1 x2 x3) s = execVexpd x0 x1 x2 x3 s := rfl
@[simp] theorem exec_vslide (s : State) {x0 x1 x2 x3 x4} : exec (.vslide x0 x1 x2 x3 x4) s = execVslide x0 x1 x2 x3 x4 s := rfl
@[simp] theorem exec_vbcast (s : State) {x0 x1 x2 x3} : exec (.vbcast x0 x1 x2 x3) s = execVbcast x0 x1 x2 x3 s := rfl
@[simp] theorem exec_vins (s : State) {x0 x1 x2} : exec (.vins x0 x1 x2) s = execVins x0 x1 x2 s := rfl
@[simp] theorem exec_vext (s : State) {x0 x1 x2} : exec (.vext x0 x1 x2) s = execVext x0 x1 x2 s := rfl
@[simp] theorem exec_vmovp (s : State) {x0 x1 x2} : exec (.vmovp x0 x1 x2) s = execVmovp x0 x1 x2 s := rfl
@[simp] theorem exec_vcvt (s : State) {x0 x1 x2 x3 x4} : exec (.vcvt x0 x1 x2 x3 x4) s = execVcvt x0 x1 x2 x3 x4 s := rfl
@[simp] theorem exec_vexpn (s : State) {x0 x1 x2 x3 x4} : exec (.vexpn x0 x1 x2 x3 x4) s = execVexpn x0 x1 x2 x3 x4 s := rfl
@[simp] theorem exec_vqnt (s : State) {x0 x1 x2 x3 x4} : exec (.vqnt x0 x1 x2 x3 x4) s = execVqnt x0 x1 x2 x3 x4 s := rfl
@[simp] theorem exec_vpack (s : State) {x0 x1 x2 x3 x4} : exec (.vpack x0 x1 x2 x3 x4) s = execVpack x0 x1 x2 x3 x4 s := rfl
@[simp] theorem exec_vunpk (s : State) {x0 x1 x2 x3 x4} : exec (.vunpk x0 x1 x2 x3 x4) s = execVunpk x0 x1 x2 x3 x4 s := rfl
@[simp] theorem exec_visect (s : State) {x0 x1 x2} : exec (.visect x0 x1 x2) s = execVisect x0 x1 x2 s := rfl
@[simp] theorem exec_vunion (s : State) {x0 x1 x2} : exec (.vunion x0 x1 x2) s = execVunion x0 x1 x2 s := rfl
@[simp] theorem exec_vdiff (s : State) {x0 x1 x2} : exec (.vdiff x0 x1 x2) s = execVdiff x0 x1 x2 s := rfl
@[simp] theorem exec_fadd (s : State) {x0 x1 x2 x3} : exec (.fadd x0 x1 x2 x3) s = execFadd x0 x1 x2 x3 s := rfl
@[simp] theorem exec_fsub (s : State) {x0 x1 x2 x3} : exec (.fsub x0 x1 x2 x3) s = execFsub x0 x1 x2 x3 s := rfl
@[simp] theorem exec_fmul (s : State) {x0 x1 x2 x3} : exec (.fmul x0 x1 x2 x3) s = execFmul x0 x1 x2 x3 s := rfl
@[simp] theorem exec_fdiv (s : State) {x0 x1 x2 x3} : exec (.fdiv x0 x1 x2 x3) s = execFdiv x0 x1 x2 x3 s := rfl
@[simp] theorem exec_fsqrt (s : State) {x0 x1 x2} : exec (.fsqrt x0 x1 x2) s = execFsqrt x0 x1 x2 s := rfl
@[simp] theorem exec_fmin (s : State) {x0 x1 x2 x3} : exec (.fmin x0 x1 x2 x3) s = execFmin x0 x1 x2 x3 s := rfl
@[simp] theorem exec_fmax (s : State) {x0 x1 x2 x3} : exec (.fmax x0 x1 x2 x3) s = execFmax x0 x1 x2 x3 s := rfl
@[simp] theorem exec_fabs (s : State) {x0 x1 x2} : exec (.fabs x0 x1 x2) s = execFabs x0 x1 x2 s := rfl
@[simp] theorem exec_fneg (s : State) {x0 x1 x2} : exec (.fneg x0 x1 x2) s = execFneg x0 x1 x2 s := rfl
@[simp] theorem exec_fma (s : State) {x0 x1 x2 x3} : exec (.fma x0 x1 x2 x3) s = execFma x0 x1 x2 x3 s := rfl
@[simp] theorem exec_fcvti (s : State) {x0 x1 x2} : exec (.fcvti x0 x1 x2) s = execFcvti x0 x1 x2 s := rfl
@[simp] theorem exec_fcvtf (s : State) {x0 x1 x2} : exec (.fcvtf x0 x1 x2) s = execFcvtf x0 x1 x2 s := rfl
@[simp] theorem exec_fceq32 (s : State) {x0 x1 x2} : exec (.fceq32 x0 x1 x2) s = execFceq32 x0 x1 x2 s := rfl
@[simp] theorem exec_fclt32 (s : State) {x0 x1 x2} : exec (.fclt32 x0 x1 x2) s = execFclt32 x0 x1 x2 s := rfl
@[simp] theorem exec_fcle32 (s : State) {x0 x1 x2} : exec (.fcle32 x0 x1 x2) s = execFcle32 x0 x1 x2 s := rfl
@[simp] theorem exec_fcun32 (s : State) {x0 x1 x2} : exec (.fcun32 x0 x1 x2) s = execFcun32 x0 x1 x2 s := rfl
@[simp] theorem exec_fceq64 (s : State) {x0 x1 x2} : exec (.fceq64 x0 x1 x2) s = execFceq64 x0 x1 x2 s := rfl
@[simp] theorem exec_fclt64 (s : State) {x0 x1 x2} : exec (.fclt64 x0 x1 x2) s = execFclt64 x0 x1 x2 s := rfl
@[simp] theorem exec_fcle64 (s : State) {x0 x1 x2} : exec (.fcle64 x0 x1 x2) s = execFcle64 x0 x1 x2 s := rfl
@[simp] theorem exec_fcun64 (s : State) {x0 x1 x2} : exec (.fcun64 x0 x1 x2) s = execFcun64 x0 x1 x2 s := rfl
@[simp] theorem exec_f32to64 (s : State) {x0 x1} : exec (.f32to64 x0 x1) s = execF32to64 x0 x1 s := rfl
@[simp] theorem exec_f64to32 (s : State) {x0 x1} : exec (.f64to32 x0 x1) s = execF64to32 x0 x1 s := rfl
@[simp] theorem exec_f32toh16 (s : State) {x0 x1} : exec (.f32toh16 x0 x1) s = execF32toh16 x0 x1 s := rfl
@[simp] theorem exec_h16tof32 (s : State) {x0 x1} : exec (.h16tof32 x0 x1) s = execH16tof32 x0 x1 s := rfl
@[simp] theorem exec_f32tobf (s : State) {x0 x1} : exec (.f32tobf x0 x1) s = execF32tobf x0 x1 s := rfl
@[simp] theorem exec_bftof32 (s : State) {x0 x1} : exec (.bftof32 x0 x1) s = execBftof32 x0 x1 s := rfl
@[simp] theorem exec_fclass32 (s : State) {x0 x1} : exec (.fclass32 x0 x1) s = execFclass32 x0 x1 s := rfl
@[simp] theorem exec_fclass64 (s : State) {x0 x1} : exec (.fclass64 x0 x1) s = execFclass64 x0 x1 s := rfl
@[simp] theorem exec_tret (s : State) : exec (.tret) s = execTret s := rfl
@[simp] theorem exec_evict (s : State) {x0 x1} : exec (.evict x0 x1) s = execEvict x0 x1 s := rfl
@[simp] theorem exec_rstrResume (s : State) {x0 x1} : exec (.rstrResume x0 x1) s = execRstrResume x0 x1 s := rfl
@[simp] theorem exec_rstrHandle (s : State) {x0 x1} : exec (.rstrHandle x0 x1) s = execRstrHandle x0 x1 s := rfl
@[simp] theorem exec_rstrKill (s : State) {x0 x1} : exec (.rstrKill x0 x1) s = execRstrKill x0 x1 s := rfl
@[simp] theorem exec_halt (s : State) : exec (.halt) s = execHalt s := rfl
@[simp] theorem exec_idle (s : State) : exec (.idle) s = execIdle s := rfl
@[simp] theorem exec_invpg (s : State) {x0} : exec (.invpg x0) s = execInvpg x0 s := rfl
@[simp] theorem exec_pmarkDead (s : State) {x0} : exec (.pmarkDead x0) s = execPmarkDead x0 s := rfl
@[simp] theorem exec_pmarkLive (s : State) {x0} : exec (.pmarkLive x0) s = execPmarkLive x0 s := rfl
@[simp] theorem exec_shutOff (s : State) {x0} : exec (.shutOff x0) s = execShutOff x0 s := rfl
@[simp] theorem exec_shutOn (s : State) {x0} : exec (.shutOn x0) s = execShutOn x0 s := rfl
@[simp] theorem exec_jdrop (s : State) {x0 x1} : exec (.jdrop x0 x1) s = execJdrop x0 x1 s := rfl
@[simp] theorem exec_cfgh (s : State) {x0 x1 x2} : exec (.cfgh x0 x1 x2) s = execCfgh x0 x1 x2 s := rfl
@[simp] theorem exec_domsw (s : State) : exec (.domsw) s = execDomsw s := rfl
@[simp] theorem exec_fqpop (s : State) {x0} : exec (.fqpop x0) s = execFqpop x0 s := rfl
@[simp] theorem exec_trap (s : State) {x0} : exec (.trap x0) s = execTrap x0 s := rfl
@[simp] theorem exec_mzero (s : State) {x0 x1} : exec (.mzero x0 x1) s = execMzero x0 x1 s := rfl
@[simp] theorem exec_mdrain (s : State) {x0 x1 x2} : exec (.mdrain x0 x1 x2) s = execMdrain x0 x1 x2 s := rfl
@[simp] theorem exec_mwait (s : State) {x0 x1} : exec (.mwait x0 x1) s = execMwait x0 x1 s := rfl
@[simp] theorem exec_mpoll (s : State) {x0 x1} : exec (.mpoll x0 x1) s = execMpoll x0 x1 s := rfl
@[simp] theorem exec_mring (s : State) {x0 x1} : exec (.mring x0 x1) s = execMring x0 x1 s := rfl
@[simp] theorem exec_mstat (s : State) {x0} : exec (.mstat x0) s = execMstat x0 s := rfl
@[simp] theorem exec_xjoin (s : State) {x0 x1} : exec (.xjoin x0 x1) s = execXjoin x0 x1 s := rfl
@[simp] theorem exec_xleave (s : State) {x0} : exec (.xleave x0) s = execXleave x0 s := rfl
@[simp] theorem exec_xstat (s : State) {x0 x1} : exec (.xstat x0 x1) s = execXstat x0 x1 s := rfl
@[simp] theorem exec_xwait (s : State) {x0 x1} : exec (.xwait x0 x1) s = execXwait x0 x1 s := rfl
@[simp] theorem exec_mma (s : State) {x0 x1 x2 x3 x4} : exec (.mma x0 x1 x2 x3 x4) s = execMma x0 x1 x2 x3 x4 s := rfl
@[simp] theorem exec_mmag (s : State) {x0 x1 x2 x3} : exec (.mmag x0 x1 x2 x3) s = execMmag x0 x1 x2 x3 s := rfl
@[simp] theorem exec_mmat (s : State) {x0 x1 x2 x3 x4} : exec (.mmat x0 x1 x2 x3 x4) s = execMmat x0 x1 x2 x3 x4 s := rfl
@[simp] theorem exec_xmmaChain (s : State) {x0 x1 x2 x3 x4} : exec (.xmmaChain x0 x1 x2 x3 x4) s = execXmmaChain x0 x1 x2 x3 x4 s := rfl
@[simp] theorem exec_xmmaRing (s : State) {x0 x1 x2 x3 x4} : exec (.xmmaRing x0 x1 x2 x3 x4) s = execXmmaRing x0 x1 x2 x3 x4 s := rfl
@[simp] theorem exec_lcopyCopy (s : State) {x0 x1 x2 x3 x4} : exec (.lcopyCopy x0 x1 x2 x3 x4) s = execLcopyCopy x0 x1 x2 x3 x4 s := rfl
@[simp] theorem exec_lcopyFill (s : State) {x0 x1 x2 x3 x4} : exec (.lcopyFill x0 x1 x2 x3 x4) s = execLcopyFill x0 x1 x2 x3 x4 s := rfl
@[simp] theorem exec_lcopyReduce (s : State) {x0 x1 x2 x3 x4} : exec (.lcopyReduce x0 x1 x2 x3 x4) s = execLcopyReduce x0 x1 x2 x3 x4 s := rfl
@[simp] theorem exec_lcopyGather (s : State) {x0 x1 x2 x3 x4} : exec (.lcopyGather x0 x1 x2 x3 x4) s = execLcopyGather x0 x1 x2 x3 x4 s := rfl
@[simp] theorem exec_qtile (s : State) {x0 x1 x2 x3 x4 x5} : exec (.qtile x0 x1 x2 x3 x4 x5) s = execQtile x0 x1 x2 x3 x4 x5 s := rfl
@[simp] theorem exec_asyncTrapEntry (s : State) {x0 x1} : exec (.asyncTrapEntry x0 x1) s = execAsyncTrapEntry x0 x1 s := rfl
@[simp] theorem exec_coreCycle (s : State) {x0} : exec (.coreCycle x0) s = execCoreCycle x0 s := rfl
@[simp] theorem exec_putWindowWrite (s : State) {x0 x1 x2 x3 x4} : exec (.putWindowWrite x0 x1 x2 x3 x4) s = execPutWindowWrite x0 x1 x2 x3 x4 s := rfl
@[simp] theorem exec_deviceMemoryRead (s : State) {x0 x1 x2} : exec (.deviceMemoryRead x0 x1 x2) s = execDeviceMemoryRead x0 x1 x2 s := rfl
@[simp] theorem exec_deviceMemoryWrite (s : State) {x0 x1 x2 x3} : exec (.deviceMemoryWrite x0 x1 x2 x3) s = execDeviceMemoryWrite x0 x1 x2 x3 s := rfl
@[simp] theorem exec_completerAtomicop (s : State) {x0 x1 x2} : exec (.completerAtomicop x0 x1 x2) s = execCompleterAtomicop x0 x1 x2 s := rfl
@[simp] theorem exec_qstatWrite (s : State) {x0 x1 x2} : exec (.qstatWrite x0 x1 x2) s = execQstatWrite x0 x1 x2 s := rfl
@[simp] theorem exec_registerWrite (s : State) {x0 x1 x2} : exec (.registerWrite x0 x1 x2) s = execRegisterWrite x0 x1 x2 s := rfl
@[simp] theorem exec_queueSet (s : State) {x0} : exec (.queueSet x0) s = execQueueSet x0 s := rfl
@[simp] theorem exec_domainBind (s : State) {x0 x1} : exec (.domainBind x0 x1) s = execDomainBind x0 x1 s := rfl
@[simp] theorem exec_domainUnbind (s : State) {x0} : exec (.domainUnbind x0) s = execDomainUnbind x0 s := rfl
@[simp] theorem exec_gangAbort (s : State) {x0} : exec (.gangAbort x0) s = execGangAbort x0 s := rfl
@[simp] theorem exec_svcControl (s : State) {x0} : exec (.svcControl x0) s = execSvcControl x0 s := rfl
@[simp] theorem exec_svcAnswer (s : State) {x0} : exec (.svcAnswer x0) s = execSvcAnswer x0 s := rfl
@[simp] theorem exec_svcPop (s : State) {x0} : exec (.svcPop x0) s = execSvcPop x0 s := rfl
@[simp] theorem exec_logRead (s : State) {x0} : exec (.logRead x0) s = execLogRead x0 s := rfl
@[simp] theorem exec_powerCap (s : State) {x0} : exec (.powerCap x0) s = execPowerCap x0 s := rfl
@[simp] theorem exec_attest (s : State) {x0} : exec (.attest x0) s = execAttest x0 s := rfl
@[simp] theorem exec_identity (s : State) {x0} : exec (.identity x0) s = execIdentity x0 s := rfl
@[simp] theorem exec_fwStage (s : State) {x0} : exec (.fwStage x0) s = execFwStage x0 s := rfl
@[simp] theorem exec_fwCommit (s : State) {x0 x1 x2} : exec (.fwCommit x0 x1 x2) s = execFwCommit x0 x1 x2 s := rfl
@[simp] theorem exec_lifecycle (s : State) {x0 x1} : exec (.lifecycle x0 x1) s = execLifecycle x0 x1 s := rfl
@[simp] theorem exec_mailboxCommandDone (s : State) {x0} : exec (.mailboxCommandDone x0) s = execMailboxCommandDone x0 s := rfl
@[simp] theorem exec_d3hotEntry (s : State) {x0} : exec (.d3hotEntry x0) s = execD3hotEntry x0 s := rfl
@[simp] theorem exec_d3hotExit (s : State) {x0} : exec (.d3hotExit x0) s = execD3hotExit x0 s := rfl
@[simp] theorem exec_functionLevelReset (s : State) {x0} : exec (.functionLevelReset x0) s = execFunctionLevelReset x0 s := rfl
@[simp] theorem exec_hotReset (s : State) {x0} : exec (.hotReset x0) s = execHotReset x0 s := rfl
@[simp] theorem exec_fundamentalReset (s : State) {x0} : exec (.fundamentalReset x0) s = execFundamentalReset x0 s := rfl
@[simp] theorem exec_moduleBoot (s : State) {x0 x1} : exec (.moduleBoot x0 x1) s = execModuleBoot x0 x1 s := rfl
@[simp] theorem exec_bootSeal (s : State) {x0} : exec (.bootSeal x0) s = execBootSeal x0 s := rfl
@[simp] theorem exec_bootResult (s : State) {x0} : exec (.bootResult x0) s = execBootResult x0 s := rfl
@[simp] theorem exec_hostCompletion (s : State) {x0 x1 x2 x3} : exec (.hostCompletion x0 x1 x2 x3) s = execHostCompletion x0 x1 x2 x3 s := rfl
@[simp] theorem exec_hostCompletionTimeout (s : State) {x0 x1 x2} : exec (.hostCompletionTimeout x0 x1 x2) s = execHostCompletionTimeout x0 x1 x2 s := rfl
@[simp] theorem exec_launchSlotTake (s : State) {x0 x1} : exec (.launchSlotTake x0 x1) s = execLaunchSlotTake x0 x1 s := rfl
@[simp] theorem exec_launchRefusalPut (s : State) {x0 x1} : exec (.launchRefusalPut x0 x1) s = execLaunchRefusalPut x0 x1 s := rfl
@[simp] theorem exec_launchQueueFault (s : State) {x0 x1} : exec (.launchQueueFault x0 x1) s = execLaunchQueueFault x0 x1 s := rfl
@[simp] theorem exec_dispatch (s : State) {x0} : exec (.dispatch x0) s = execDispatch x0 s := rfl
@[simp] theorem exec_launchComplete (s : State) {x0 x1} : exec (.launchComplete x0 x1) s = execLaunchComplete x0 x1 s := rfl
@[simp] theorem exec_spawnQueuePlace (s : State) {x0} : exec (.spawnQueuePlace x0) s = execSpawnQueuePlace x0 s := rfl
@[simp] theorem exec_schedulerEvict (s : State) {x0} : exec (.schedulerEvict x0) s = execSchedulerEvict x0 s := rfl
@[simp] theorem exec_contextRestore (s : State) {x0} : exec (.contextRestore x0) s = execContextRestore x0 s := rfl
@[simp] theorem exec_messageArrival (s : State) {x0} : exec (.messageArrival x0) s = execMessageArrival x0 s := rfl
@[simp] theorem exec_migrationLanding (s : State) {x0} : exec (.migrationLanding x0) s = execMigrationLanding x0 s := rfl
@[simp] theorem exec_migrationAck (s : State) {x0} : exec (.migrationAck x0) s = execMigrationAck x0 s := rfl
@[simp] theorem exec_serviceThreadStart (s : State) {x0 x1} : exec (.serviceThreadStart x0 x1) s = execServiceThreadStart x0 x1 s := rfl
@[simp] theorem exec_homeAccessRequest (s : State) {x0 x1} : exec (.homeAccessRequest x0 x1) s = execHomeAccessRequest x0 x1 s := rfl
@[simp] theorem exec_memoryReply (s : State) {x0} : exec (.memoryReply x0) s = execMemoryReply x0 s := rfl
@[simp] theorem exec_journalEntrySettle (s : State) {x0} : exec (.journalEntrySettle x0) s = execJournalEntrySettle x0 s := rfl
@[simp] theorem exec_refreshRetryResend (s : State) {x0 x1} : exec (.refreshRetryResend x0 x1) s = execRefreshRetryResend x0 x1 s := rfl
@[simp] theorem exec_noListResend (s : State) {x0 x1} : exec (.noListResend x0 x1) s = execNoListResend x0 x1 s := rfl
@[simp] theorem exec_scRetryResend (s : State) {x0 x1} : exec (.scRetryResend x0 x1) s = execScRetryResend x0 x1 s := rfl
@[simp] theorem exec_shutterRetryResend (s : State) {x0 x1} : exec (.shutterRetryResend x0 x1) s = execShutterRetryResend x0 x1 s := rfl
@[simp] theorem exec_wlimExpiry (s : State) {x0 x1} : exec (.wlimExpiry x0 x1) s = execWlimExpiry x0 x1 s := rfl
@[simp] theorem exec_waitCancel (s : State) {x0} : exec (.waitCancel x0) s = execWaitCancel x0 s := rfl
@[simp] theorem exec_translationWalkDone (s : State) {x0} : exec (.translationWalkDone x0) s = execTranslationWalkDone x0 s := rfl
@[simp] theorem exec_dramRefresh (s : State) {x0 x1 x2 x3} : exec (.dramRefresh x0 x1 x2 x3) s = execDramRefresh x0 x1 x2 x3 s := rfl
@[simp] theorem exec_refreshRateChange (s : State) {x0 x1 x2} : exec (.refreshRateChange x0 x1 x2) s = execRefreshRateChange x0 x1 x2 s := rfl
@[simp] theorem exec_scrubWord (s : State) {x0 x1 x2 x3 x4} : exec (.scrubWord x0 x1 x2 x3 x4) s = execScrubWord x0 x1 x2 x3 x4 s := rfl
@[simp] theorem exec_linkPacketReceive (s : State) {x0} : exec (.linkPacketReceive x0) s = execLinkPacketReceive x0 s := rfl
@[simp] theorem exec_linkPortClose (s : State) {x0 x1} : exec (.linkPortClose x0 x1) s = execLinkPortClose x0 x1 s := rfl
@[simp] theorem exec_gangTimerExpiry (s : State) {x0 x1} : exec (.gangTimerExpiry x0 x1) s = execGangTimerExpiry x0 x1 s := rfl
@[simp] theorem exec_gangPrepare (s : State) {x0} : exec (.gangPrepare x0) s = execGangPrepare x0 s := rfl
@[simp] theorem exec_gangPreparedReply (s : State) {x0} : exec (.gangPreparedReply x0) s = execGangPreparedReply x0 s := rfl
@[simp] theorem exec_gangCommit (s : State) {x0 x1} : exec (.gangCommit x0 x1) s = execGangCommit x0 x1 s := rfl
@[simp] theorem exec_gangSwitchAbort (s : State) {x0} : exec (.gangSwitchAbort x0) s = execGangSwitchAbort x0 s := rfl
@[simp] theorem exec_gangDone (s : State) {x0} : exec (.gangDone x0) s = execGangDone x0 s := rfl
@[simp] theorem exec_flaskJoinRequest (s : State) {x0} : exec (.flaskJoinRequest x0) s = execFlaskJoinRequest x0 s := rfl
@[simp] theorem exec_flaskJoinReply (s : State) {x0} : exec (.flaskJoinReply x0) s = execFlaskJoinReply x0 s := rfl
@[simp] theorem exec_flaskWithdraw (s : State) {x0} : exec (.flaskWithdraw x0) s = execFlaskWithdraw x0 s := rfl
@[simp] theorem exec_flaskPourAccept (s : State) {x0} : exec (.flaskPourAccept x0) s = execFlaskPourAccept x0 s := rfl
@[simp] theorem exec_flaskReadyReceipt (s : State) {x0} : exec (.flaskReadyReceipt x0) s = execFlaskReadyReceipt x0 s := rfl
@[simp] theorem exec_flaskFaultReceipt (s : State) {x0} : exec (.flaskFaultReceipt x0) s = execFlaskFaultReceipt x0 s := rfl
@[simp] theorem exec_flaskGoReceipt (s : State) {x0} : exec (.flaskGoReceipt x0) s = execFlaskGoReceipt x0 s := rfl
@[simp] theorem exec_flaskMismatchReceipt (s : State) {x0} : exec (.flaskMismatchReceipt x0) s = execFlaskMismatchReceipt x0 s := rfl
@[simp] theorem exec_flaskAbortReceipt (s : State) {x0} : exec (.flaskAbortReceipt x0) s = execFlaskAbortReceipt x0 s := rfl
@[simp] theorem exec_flaskPartialReceipt (s : State) {x0} : exec (.flaskPartialReceipt x0) s = execFlaskPartialReceipt x0 s := rfl
@[simp] theorem exec_flaskPanelReceipt (s : State) {x0} : exec (.flaskPanelReceipt x0) s = execFlaskPanelReceipt x0 s := rfl
@[simp] theorem exec_flaskFinishedReceipt (s : State) {x0} : exec (.flaskFinishedReceipt x0) s = execFlaskFinishedReceipt x0 s := rfl
@[simp] theorem exec_flaskDecide (s : State) {x0} : exec (.flaskDecide x0) s = execFlaskDecide x0 s := rfl
@[simp] theorem exec_flaskCommitReceipt (s : State) {x0} : exec (.flaskCommitReceipt x0) s = execFlaskCommitReceipt x0 s := rfl
@[simp] theorem exec_flaskLinkLoss (s : State) {x0} : exec (.flaskLinkLoss x0) s = execFlaskLinkLoss x0 s := rfl
@[simp] theorem exec_flaskLeaveReceipt (s : State) {x0} : exec (.flaskLeaveReceipt x0) s = execFlaskLeaveReceipt x0 s := rfl
@[simp] theorem exec_flaskOutcomeQuery (s : State) {x0} : exec (.flaskOutcomeQuery x0) s = execFlaskOutcomeQuery x0 s := rfl
@[simp] theorem exec_ladleChunkIssue (s : State) {x0 x1} : exec (.ladleChunkIssue x0 x1) s = execLadleChunkIssue x0 x1 s := rfl
@[simp] theorem exec_ladleChunkComplete (s : State) {x0 x1 x2} : exec (.ladleChunkComplete x0 x1 x2) s = execLadleChunkComplete x0 x1 x2 s := rfl
@[simp] theorem exec_ladleDataFault (s : State) {x0 x1} : exec (.ladleDataFault x0 x1) s = execLadleDataFault x0 x1 s := rfl
@[simp] theorem exec_ladleCompletionPut (s : State) {x0 x1} : exec (.ladleCompletionPut x0 x1) s = execLadleCompletionPut x0 x1 s := rfl
@[simp] theorem exec_ladleCtlRequest (s : State) {x0} : exec (.ladleCtlRequest x0) s = execLadleCtlRequest x0 s := rfl
@[simp] theorem exec_matrixAccept (s : State) {x0} : exec (.matrixAccept x0) s = execMatrixAccept x0 s := rfl
@[simp] theorem exec_matrixJobStart (s : State) {x0 x1} : exec (.matrixJobStart x0 x1) s = execMatrixJobStart x0 x1 s := rfl
@[simp] theorem exec_ringSlotConsume (s : State) {x0 x1} : exec (.ringSlotConsume x0 x1) s = execRingSlotConsume x0 x1 s := rfl
@[simp] theorem exec_matrixJobCommit (s : State) {x0 x1} : exec (.matrixJobCommit x0 x1) s = execMatrixJobCommit x0 x1 s := rfl
@[simp] theorem exec_matrixJobFault (s : State) {x0 x1} : exec (.matrixJobFault x0 x1) s = execMatrixJobFault x0 x1 s := rfl
@[simp] theorem exec_mdrainMessageSend (s : State) {x0 x1} : exec (.mdrainMessageSend x0 x1) s = execMdrainMessageSend x0 x1 s := rfl
@[simp] theorem exec_allAsleepRise (s : State) {x0 x1} : exec (.allAsleepRise x0 x1) s = execAllAsleepRise x0 x1 s := rfl
@[simp] theorem exec_asleepReceipt (s : State) {x0} : exec (.asleepReceipt x0) s = execAsleepReceipt x0 s := rfl
@[simp] theorem exec_allAsleepQuery (s : State) {x0} : exec (.allAsleepQuery x0) s = execAllAsleepQuery x0 s := rfl
@[simp] theorem exec_allAsleepReply (s : State) {x0} : exec (.allAsleepReply x0) s = execAllAsleepReply x0 s := rfl
@[simp] theorem exec_allAsleepRaise (s : State) {x0} : exec (.allAsleepRaise x0) s = execAllAsleepRaise x0 s := rfl
@[simp] theorem exec_junctionOver105 (s : State) {x0} : exec (.junctionOver105 x0) s = execJunctionOver105 x0 s := rfl
@[simp] theorem exec_junctionOver115 (s : State) {x0} : exec (.junctionOver115 x0) s = execJunctionOver115 x0 s := rfl
@[simp] theorem exec_powerCapClockStep (s : State) {x0 x1} : exec (.powerCapClockStep x0 x1) s = execPowerCapClockStep x0 x1 s := rfl
@[simp] theorem exec_linkPortDegrade (s : State) {x0 x1 x2 x3} : exec (.linkPortDegrade x0 x1 x2 x3) s = execLinkPortDegrade x0 x1 x2 x3 s := rfl
@[simp] theorem exec_qtileQuantiserDone (s : State) {x0 x1} : exec (.qtileQuantiserDone x0 x1) s = execQtileQuantiserDone x0 x1 s := rfl
@[simp] theorem exec_configurationWrite (s : State) {x0 x1 x2} : exec (.configurationWrite x0 x1 x2) s = execConfigurationWrite x0 x1 x2 s := rfl

end Sys2Proof.Machine
end

