-- ==== Sys2Proof/Laws/Tab.lean ====
section
/-!
SUPPORT. Sparse tables: a read after a write. Sorted sets of numbers.
-/
namespace Sys2Proof.Machine

@[simp] theorem Tab.get_set_same {α : Type} (d : α) (t : Tab α) (k : Nat) (v : α) : Tab.get d (Tab.set t k v) k = v := by
  induction t with
  | nil => simp [Tab.set, Tab.get]
  | cons p r ih =>
    obtain ⟨j, w⟩ := p
    by_cases h : j = k
    · subst h; simp [Tab.set, Tab.get]
    · simp [Tab.set, Tab.get, h, ih]

theorem Tab.get_set_ne {α : Type} (d : α) (t : Tab α) (k j : Nat) (v : α) (h : j ≠ k) :
    Tab.get d (Tab.set t k v) j = Tab.get d t j := by
  induction t with
  | nil => simp [Tab.set, Tab.get, Ne.symm h]
  | cons p r ih =>
    obtain ⟨i, w⟩ := p
    by_cases hi : i = k
    · subst hi; simp [Tab.set, Tab.get, Ne.symm h]
    · by_cases hj : i = j
      · subst hj; simp [Tab.set, Tab.get, hi]
      · simp [Tab.set, Tab.get, hi, hj, ih]

/-- A read after a write of a table. -/
theorem Tab.get_set {α : Type} (d : α) (t : Tab α) (k j : Nat) (v : α) :
    Tab.get d (Tab.set t k v) j = if j = k then v else Tab.get d t j := by
  by_cases h : j = k
  · subst h; simp
  · simp [h, Tab.get_set_ne]

/-- What a table lists after a write. -/
theorem Tab.find_set {α : Type} (t : Tab α) (k j : Nat) (v : α) :
    Tab.find (Tab.set t k v) j = if j = k then some v else Tab.find t j := by
  induction t with
  | nil => simp [Tab.set, Tab.find, @eq_comm _ k j]
  | cons p r ih =>
    obtain ⟨i, w⟩ := p
    by_cases hi : i = k
    · subst hi; by_cases h : i = j <;> simp [Tab.set, Tab.find, h, @eq_comm _ j i]
    · by_cases hj : i = j
      · subst hj; simp [Tab.set, Tab.find, hi]
      · simp [Tab.set, Tab.find, hi, hj, ih]

theorem leastOf_eq_none (l : List Nat) : leastOf l = none ↔ l = [] := by
  cases l with
  | nil => simp [leastOf]
  | cons a r => simp only [leastOf]; split <;> simp

end Sys2Proof.Machine
end

