-- ==== Sys2Proof/Laws/Issue.lean ====
section
/-!
SUPPORT. The checks of 05 R112 before an instruction acts: what each failure answers, and that an instruction which passes them acts.
-/
namespace Sys2Proof.Machine

theorem firstBeyond_eq_none (win : Nat) (regs : List Nat) : firstBeyond win regs = none ↔ ∀ r ∈ regs, r < win := by
  simp [firstBeyond, leastOf_eq_none, List.filter_eq_nil_iff]

theorem leastOf_eq_some {l : List Nat} {r : Nat} (hr : r ∈ l) (hmin : ∀ x ∈ l, r ≤ x) : leastOf l = some r := by
  induction l with
  | nil => simp at hr
  | cons a t ih =>
    have ha := hmin a (by simp)
    rcases List.mem_cons.mp hr with h | h
    · subst h
      simp only [leastOf]
      split
      · rfl
      · rename_i b hb
        have hb' : b ∈ t := by
          clear ih hr hmin ha
          induction t generalizing b with
          | nil => simp [leastOf] at hb
          | cons c u ihu =>
            simp only [leastOf] at hb
            split at hb
            · simp at hb; simp [hb]
            · rename_i e he
              simp only [Option.some.injEq] at hb
              by_cases hce : c ≤ e
              · rw [Nat.min_eq_left hce] at hb; simp [hb]
              · rw [Nat.min_eq_right (by omega)] at hb
                subst hb
                exact List.mem_cons_of_mem _ (ihu _ he)
        rw [Nat.min_eq_left (hmin b (List.mem_cons_of_mem _ hb'))]
    · have := ih h (fun x hx => hmin x (List.mem_cons_of_mem _ hx))
      simp only [leastOf, this]
      rw [Nat.min_eq_right ha]

theorem firstBeyond_eq_some {win r : Nat} {regs : List Nat} (hr : r ∈ regs) (hw : win ≤ r)
    (hmin : ∀ x ∈ regs, win ≤ x → r ≤ x) : firstBeyond win regs = some r :=
  leastOf_eq_some (by simp [hr, hw]) (by intro x hx; simp at hx; exact hmin x hx.1 hx.2)

/-- An instruction that passes the checks acts. -/
theorem issue_acts {priv : Bool} {x : Prefix} {regs : List Nat} {k : State → State} {s : State}
    (hk : priv = true → s.thr.k = true) (hp : x = .plain → s.thr.pp = false) (hr : ∀ r ∈ regs, r < s.thr.win) :
    issue priv x regs k s = k s := by
  have h1 : (priv && !s.thr.k) = false := by cases priv <;> simp_all
  have h2 : (x == .plain && s.thr.pp) = false := by cases x <;> simp_all
  simp only [issue, h1, h2, Bool.false_eq_true, if_false, (firstBeyond_eq_none _ _).mpr hr]

theorem plain_acts {regs : List Nat} {k : State → State} {s : State} (hp : s.thr.pp = false) (hr : ∀ r ∈ regs, r < s.thr.win) :
    plain regs k s = k s := issue_acts (by simp) (fun _ => hp) hr

theorem sys_acts {regs : List Nat} {k : State → State} {s : State} (hk : s.thr.k = true) (hp : s.thr.pp = false)
    (hr : ∀ r ∈ regs, r < s.thr.win) : sys regs k s = k s := issue_acts (fun _ => hk) (fun _ => hp) hr

theorem consume_acts {regs : List Nat} {k : State → State} {s : State} (hr : ∀ r ∈ regs, r < s.thr.win) :
    consume regs k s = k s := issue_acts (by simp) (by simp) hr

/-- A privileged instruction with K = 0. -/
theorem issue_privilege {x : Prefix} {regs : List Nat} {k : State → State} {s : State} (hk : s.thr.k = false) :
    issue true x regs k s = s.trap Cause.privilege s.irWord := by simp [issue, hk]

/-- An instruction that may not follow a prefix, with PP = 1. -/
theorem issue_stray {priv : Bool} {regs : List Nat} {k : State → State} {s : State} (hk : priv = true → s.thr.k = true)
    (hp : s.thr.pp = true) : issue priv .plain regs k s = s.trap Cause.prefixStray s.irWord := by
  have h1 : (priv && !s.thr.k) = false := by cases priv <;> simp_all
  simp [issue, h1, hp]

/-- An instruction that names a register beyond the window. -/
theorem issue_window {priv : Bool} {x : Prefix} {regs : List Nat} {k : State → State} {s : State} {r : Nat}
    (hk : priv = true → s.thr.k = true) (hp : x = .plain → s.thr.pp = false) (hr : r ∈ regs) (hw : s.thr.win ≤ r)
    (hmin : ∀ y ∈ regs, s.thr.win ≤ y → r ≤ y) :
    issue priv x regs k s = s.trap Cause.regWindow (BitVec.ofNat 64 r) := by
  have h1 : (priv && !s.thr.k) = false := by cases priv <;> simp_all
  have h2 : (x == .plain && s.thr.pp) = false := by cases x <;> simp_all
  simp only [issue, h1, h2, Bool.false_eq_true, if_false, firstBeyond_eq_some hr hw hmin]

end Sys2Proof.Machine
end

