-- ==== Sys2Proof/Laws/State.lean ====
section
/-!
SUPPORT. For each named update of the state, the fields that it leaves: one lemma a field, true by definition, so that no later
proof unfolds a record update.
-/
namespace Sys2Proof.Machine

@[simp] theorem State.setCore_clusters (s : State) (cid : Nat) (c : Core) : (s.setCore cid c).clusters = s.clusters := rfl
@[simp] theorem State.setCore_modules (s : State) (cid : Nat) (c : Core) : (s.setCore cid c).modules = s.modules := rfl
@[simp] theorem State.setCore_present (s : State) (cid : Nat) (c : Core) : (s.setCore cid c).present = s.present := rfl
@[simp] theorem State.setCore_mem (s : State) (cid : Nat) (c : Core) : (s.setCore cid c).mem = s.mem := rfl
@[simp] theorem State.setCore_waitq (s : State) (cid : Nat) (c : Core) : (s.setCore cid c).waitq = s.waitq := rfl
@[simp] theorem State.setCore_limits (s : State) (cid : Nat) (c : Core) : (s.setCore cid c).limits = s.limits := rfl
@[simp] theorem State.setCore_tlb (s : State) (cid : Nat) (c : Core) : (s.setCore cid c).tlb = s.tlb := rfl
@[simp] theorem State.setCore_walks (s : State) (cid : Nat) (c : Core) : (s.setCore cid c).walks = s.walks := rfl
@[simp] theorem State.setCore_substs (s : State) (cid : Nat) (c : Core) : (s.setCore cid c).substs = s.substs := rfl
@[simp] theorem State.setCore_corrected (s : State) (cid : Nat) (c : Core) : (s.setCore cid c).corrected = s.corrected := rfl
@[simp] theorem State.setCore_refreshing (s : State) (cid : Nat) (c : Core) : (s.setCore cid c).refreshing = s.refreshing := rfl
@[simp] theorem State.setCore_hotStacks (s : State) (cid : Nat) (c : Core) : (s.setCore cid c).hotStacks = s.hotStacks := rfl
@[simp] theorem State.setCore_dead (s : State) (cid : Nat) (c : Core) : (s.setCore cid c).dead = s.dead := rfl
@[simp] theorem State.setCore_ctxs (s : State) (cid : Nat) (c : Core) : (s.setCore cid c).ctxs = s.ctxs := rfl
@[simp] theorem State.setCore_net (s : State) (cid : Nat) (c : Core) : (s.setCore cid c).net = s.net := rfl
@[simp] theorem State.setCore_agenda (s : State) (cid : Nat) (c : Core) : (s.setCore cid c).agenda = s.agenda := rfl
@[simp] theorem State.setCore_tick (s : State) (cid : Nat) (c : Core) : (s.setCore cid c).tick = s.tick := rfl
@[simp] theorem State.setCore_uids (s : State) (cid : Nat) (c : Core) : (s.setCore cid c).uids = s.uids := rfl
@[simp] theorem State.setCore_cur (s : State) (cid : Nat) (c : Core) : (s.setCore cid c).cur = s.cur := rfl
@[simp] theorem State.setCore_issuing (s : State) (cid : Nat) (c : Core) : (s.setCore cid c).issuing = s.issuing := rfl
@[simp] theorem State.setCore_ir (s : State) (cid : Nat) (c : Core) : (s.setCore cid c).ir = s.ir := rfl
@[simp] theorem State.onCore_clusters (s : State) (cid : Nat) (f : Core → Core) : (s.onCore cid f).clusters = s.clusters := rfl
@[simp] theorem State.onCore_modules (s : State) (cid : Nat) (f : Core → Core) : (s.onCore cid f).modules = s.modules := rfl
@[simp] theorem State.onCore_present (s : State) (cid : Nat) (f : Core → Core) : (s.onCore cid f).present = s.present := rfl
@[simp] theorem State.onCore_mem (s : State) (cid : Nat) (f : Core → Core) : (s.onCore cid f).mem = s.mem := rfl
@[simp] theorem State.onCore_waitq (s : State) (cid : Nat) (f : Core → Core) : (s.onCore cid f).waitq = s.waitq := rfl
@[simp] theorem State.onCore_limits (s : State) (cid : Nat) (f : Core → Core) : (s.onCore cid f).limits = s.limits := rfl
@[simp] theorem State.onCore_tlb (s : State) (cid : Nat) (f : Core → Core) : (s.onCore cid f).tlb = s.tlb := rfl
@[simp] theorem State.onCore_walks (s : State) (cid : Nat) (f : Core → Core) : (s.onCore cid f).walks = s.walks := rfl
@[simp] theorem State.onCore_substs (s : State) (cid : Nat) (f : Core → Core) : (s.onCore cid f).substs = s.substs := rfl
@[simp] theorem State.onCore_corrected (s : State) (cid : Nat) (f : Core → Core) : (s.onCore cid f).corrected = s.corrected := rfl
@[simp] theorem State.onCore_refreshing (s : State) (cid : Nat) (f : Core → Core) : (s.onCore cid f).refreshing = s.refreshing := rfl
@[simp] theorem State.onCore_hotStacks (s : State) (cid : Nat) (f : Core → Core) : (s.onCore cid f).hotStacks = s.hotStacks := rfl
@[simp] theorem State.onCore_dead (s : State) (cid : Nat) (f : Core → Core) : (s.onCore cid f).dead = s.dead := rfl
@[simp] theorem State.onCore_ctxs (s : State) (cid : Nat) (f : Core → Core) : (s.onCore cid f).ctxs = s.ctxs := rfl
@[simp] theorem State.onCore_net (s : State) (cid : Nat) (f : Core → Core) : (s.onCore cid f).net = s.net := rfl
@[simp] theorem State.onCore_agenda (s : State) (cid : Nat) (f : Core → Core) : (s.onCore cid f).agenda = s.agenda := rfl
@[simp] theorem State.onCore_tick (s : State) (cid : Nat) (f : Core → Core) : (s.onCore cid f).tick = s.tick := rfl
@[simp] theorem State.onCore_uids (s : State) (cid : Nat) (f : Core → Core) : (s.onCore cid f).uids = s.uids := rfl
@[simp] theorem State.onCore_cur (s : State) (cid : Nat) (f : Core → Core) : (s.onCore cid f).cur = s.cur := rfl
@[simp] theorem State.onCore_issuing (s : State) (cid : Nat) (f : Core → Core) : (s.onCore cid f).issuing = s.issuing := rfl
@[simp] theorem State.onCore_ir (s : State) (cid : Nat) (f : Core → Core) : (s.onCore cid f).ir = s.ir := rfl
@[simp] theorem State.onCluster_cores (s : State) (cl : Nat) (f : Cluster → Cluster) : (s.onCluster cl f).cores = s.cores := rfl
@[simp] theorem State.onCluster_modules (s : State) (cl : Nat) (f : Cluster → Cluster) : (s.onCluster cl f).modules = s.modules := rfl
@[simp] theorem State.onCluster_present (s : State) (cl : Nat) (f : Cluster → Cluster) : (s.onCluster cl f).present = s.present := rfl
@[simp] theorem State.onCluster_mem (s : State) (cl : Nat) (f : Cluster → Cluster) : (s.onCluster cl f).mem = s.mem := rfl
@[simp] theorem State.onCluster_waitq (s : State) (cl : Nat) (f : Cluster → Cluster) : (s.onCluster cl f).waitq = s.waitq := rfl
@[simp] theorem State.onCluster_limits (s : State) (cl : Nat) (f : Cluster → Cluster) : (s.onCluster cl f).limits = s.limits := rfl
@[simp] theorem State.onCluster_tlb (s : State) (cl : Nat) (f : Cluster → Cluster) : (s.onCluster cl f).tlb = s.tlb := rfl
@[simp] theorem State.onCluster_walks (s : State) (cl : Nat) (f : Cluster → Cluster) : (s.onCluster cl f).walks = s.walks := rfl
@[simp] theorem State.onCluster_substs (s : State) (cl : Nat) (f : Cluster → Cluster) : (s.onCluster cl f).substs = s.substs := rfl
@[simp] theorem State.onCluster_corrected (s : State) (cl : Nat) (f : Cluster → Cluster) : (s.onCluster cl f).corrected = s.corrected := rfl
@[simp] theorem State.onCluster_refreshing (s : State) (cl : Nat) (f : Cluster → Cluster) : (s.onCluster cl f).refreshing = s.refreshing := rfl
@[simp] theorem State.onCluster_hotStacks (s : State) (cl : Nat) (f : Cluster → Cluster) : (s.onCluster cl f).hotStacks = s.hotStacks := rfl
@[simp] theorem State.onCluster_dead (s : State) (cl : Nat) (f : Cluster → Cluster) : (s.onCluster cl f).dead = s.dead := rfl
@[simp] theorem State.onCluster_ctxs (s : State) (cl : Nat) (f : Cluster → Cluster) : (s.onCluster cl f).ctxs = s.ctxs := rfl
@[simp] theorem State.onCluster_net (s : State) (cl : Nat) (f : Cluster → Cluster) : (s.onCluster cl f).net = s.net := rfl
@[simp] theorem State.onCluster_agenda (s : State) (cl : Nat) (f : Cluster → Cluster) : (s.onCluster cl f).agenda = s.agenda := rfl
@[simp] theorem State.onCluster_tick (s : State) (cl : Nat) (f : Cluster → Cluster) : (s.onCluster cl f).tick = s.tick := rfl
@[simp] theorem State.onCluster_uids (s : State) (cl : Nat) (f : Cluster → Cluster) : (s.onCluster cl f).uids = s.uids := rfl
@[simp] theorem State.onCluster_cur (s : State) (cl : Nat) (f : Cluster → Cluster) : (s.onCluster cl f).cur = s.cur := rfl
@[simp] theorem State.onCluster_issuing (s : State) (cl : Nat) (f : Cluster → Cluster) : (s.onCluster cl f).issuing = s.issuing := rfl
@[simp] theorem State.onCluster_ir (s : State) (cl : Nat) (f : Cluster → Cluster) : (s.onCluster cl f).ir = s.ir := rfl
@[simp] theorem State.onModule_cores (s : State) (m : Nat) (f : Module → Module) : (s.onModule m f).cores = s.cores := rfl
@[simp] theorem State.onModule_clusters (s : State) (m : Nat) (f : Module → Module) : (s.onModule m f).clusters = s.clusters := rfl
@[simp] theorem State.onModule_present (s : State) (m : Nat) (f : Module → Module) : (s.onModule m f).present = s.present := rfl
@[simp] theorem State.onModule_mem (s : State) (m : Nat) (f : Module → Module) : (s.onModule m f).mem = s.mem := rfl
@[simp] theorem State.onModule_waitq (s : State) (m : Nat) (f : Module → Module) : (s.onModule m f).waitq = s.waitq := rfl
@[simp] theorem State.onModule_limits (s : State) (m : Nat) (f : Module → Module) : (s.onModule m f).limits = s.limits := rfl
@[simp] theorem State.onModule_tlb (s : State) (m : Nat) (f : Module → Module) : (s.onModule m f).tlb = s.tlb := rfl
@[simp] theorem State.onModule_walks (s : State) (m : Nat) (f : Module → Module) : (s.onModule m f).walks = s.walks := rfl
@[simp] theorem State.onModule_substs (s : State) (m : Nat) (f : Module → Module) : (s.onModule m f).substs = s.substs := rfl
@[simp] theorem State.onModule_corrected (s : State) (m : Nat) (f : Module → Module) : (s.onModule m f).corrected = s.corrected := rfl
@[simp] theorem State.onModule_refreshing (s : State) (m : Nat) (f : Module → Module) : (s.onModule m f).refreshing = s.refreshing := rfl
@[simp] theorem State.onModule_hotStacks (s : State) (m : Nat) (f : Module → Module) : (s.onModule m f).hotStacks = s.hotStacks := rfl
@[simp] theorem State.onModule_dead (s : State) (m : Nat) (f : Module → Module) : (s.onModule m f).dead = s.dead := rfl
@[simp] theorem State.onModule_ctxs (s : State) (m : Nat) (f : Module → Module) : (s.onModule m f).ctxs = s.ctxs := rfl
@[simp] theorem State.onModule_net (s : State) (m : Nat) (f : Module → Module) : (s.onModule m f).net = s.net := rfl
@[simp] theorem State.onModule_agenda (s : State) (m : Nat) (f : Module → Module) : (s.onModule m f).agenda = s.agenda := rfl
@[simp] theorem State.onModule_tick (s : State) (m : Nat) (f : Module → Module) : (s.onModule m f).tick = s.tick := rfl
@[simp] theorem State.onModule_uids (s : State) (m : Nat) (f : Module → Module) : (s.onModule m f).uids = s.uids := rfl
@[simp] theorem State.onModule_cur (s : State) (m : Nat) (f : Module → Module) : (s.onModule m f).cur = s.cur := rfl
@[simp] theorem State.onModule_issuing (s : State) (m : Nat) (f : Module → Module) : (s.onModule m f).issuing = s.issuing := rfl
@[simp] theorem State.onModule_ir (s : State) (m : Nat) (f : Module → Module) : (s.onModule m f).ir = s.ir := rfl
@[simp] theorem State.onThread_clusters (s : State) (cid slot : Nat) (f : Thread → Thread) : (s.onThread cid slot f).clusters = s.clusters := rfl
@[simp] theorem State.onThread_modules (s : State) (cid slot : Nat) (f : Thread → Thread) : (s.onThread cid slot f).modules = s.modules := rfl
@[simp] theorem State.onThread_present (s : State) (cid slot : Nat) (f : Thread → Thread) : (s.onThread cid slot f).present = s.present := rfl
@[simp] theorem State.onThread_mem (s : State) (cid slot : Nat) (f : Thread → Thread) : (s.onThread cid slot f).mem = s.mem := rfl
@[simp] theorem State.onThread_waitq (s : State) (cid slot : Nat) (f : Thread → Thread) : (s.onThread cid slot f).waitq = s.waitq := rfl
@[simp] theorem State.onThread_limits (s : State) (cid slot : Nat) (f : Thread → Thread) : (s.onThread cid slot f).limits = s.limits := rfl
@[simp] theorem State.onThread_tlb (s : State) (cid slot : Nat) (f : Thread → Thread) : (s.onThread cid slot f).tlb = s.tlb := rfl
@[simp] theorem State.onThread_walks (s : State) (cid slot : Nat) (f : Thread → Thread) : (s.onThread cid slot f).walks = s.walks := rfl
@[simp] theorem State.onThread_substs (s : State) (cid slot : Nat) (f : Thread → Thread) : (s.onThread cid slot f).substs = s.substs := rfl
@[simp] theorem State.onThread_corrected (s : State) (cid slot : Nat) (f : Thread → Thread) : (s.onThread cid slot f).corrected = s.corrected := rfl
@[simp] theorem State.onThread_refreshing (s : State) (cid slot : Nat) (f : Thread → Thread) : (s.onThread cid slot f).refreshing = s.refreshing := rfl
@[simp] theorem State.onThread_hotStacks (s : State) (cid slot : Nat) (f : Thread → Thread) : (s.onThread cid slot f).hotStacks = s.hotStacks := rfl
@[simp] theorem State.onThread_dead (s : State) (cid slot : Nat) (f : Thread → Thread) : (s.onThread cid slot f).dead = s.dead := rfl
@[simp] theorem State.onThread_ctxs (s : State) (cid slot : Nat) (f : Thread → Thread) : (s.onThread cid slot f).ctxs = s.ctxs := rfl
@[simp] theorem State.onThread_net (s : State) (cid slot : Nat) (f : Thread → Thread) : (s.onThread cid slot f).net = s.net := rfl
@[simp] theorem State.onThread_agenda (s : State) (cid slot : Nat) (f : Thread → Thread) : (s.onThread cid slot f).agenda = s.agenda := rfl
@[simp] theorem State.onThread_tick (s : State) (cid slot : Nat) (f : Thread → Thread) : (s.onThread cid slot f).tick = s.tick := rfl
@[simp] theorem State.onThread_uids (s : State) (cid slot : Nat) (f : Thread → Thread) : (s.onThread cid slot f).uids = s.uids := rfl
@[simp] theorem State.onThread_cur (s : State) (cid slot : Nat) (f : Thread → Thread) : (s.onThread cid slot f).cur = s.cur := rfl
@[simp] theorem State.onThread_issuing (s : State) (cid slot : Nat) (f : Thread → Thread) : (s.onThread cid slot f).issuing = s.issuing := rfl
@[simp] theorem State.onThread_ir (s : State) (cid slot : Nat) (f : Thread → Thread) : (s.onThread cid slot f).ir = s.ir := rfl
@[simp] theorem State.onThr_clusters (s : State) (f : Thread → Thread) : (s.onThr f).clusters = s.clusters := rfl
@[simp] theorem State.onThr_modules (s : State) (f : Thread → Thread) : (s.onThr f).modules = s.modules := rfl
@[simp] theorem State.onThr_present (s : State) (f : Thread → Thread) : (s.onThr f).present = s.present := rfl
@[simp] theorem State.onThr_mem (s : State) (f : Thread → Thread) : (s.onThr f).mem = s.mem := rfl
@[simp] theorem State.onThr_waitq (s : State) (f : Thread → Thread) : (s.onThr f).waitq = s.waitq := rfl
@[simp] theorem State.onThr_limits (s : State) (f : Thread → Thread) : (s.onThr f).limits = s.limits := rfl
@[simp] theorem State.onThr_tlb (s : State) (f : Thread → Thread) : (s.onThr f).tlb = s.tlb := rfl
@[simp] theorem State.onThr_walks (s : State) (f : Thread → Thread) : (s.onThr f).walks = s.walks := rfl
@[simp] theorem State.onThr_substs (s : State) (f : Thread → Thread) : (s.onThr f).substs = s.substs := rfl
@[simp] theorem State.onThr_corrected (s : State) (f : Thread → Thread) : (s.onThr f).corrected = s.corrected := rfl
@[simp] theorem State.onThr_refreshing (s : State) (f : Thread → Thread) : (s.onThr f).refreshing = s.refreshing := rfl
@[simp] theorem State.onThr_hotStacks (s : State) (f : Thread → Thread) : (s.onThr f).hotStacks = s.hotStacks := rfl
@[simp] theorem State.onThr_dead (s : State) (f : Thread → Thread) : (s.onThr f).dead = s.dead := rfl
@[simp] theorem State.onThr_ctxs (s : State) (f : Thread → Thread) : (s.onThr f).ctxs = s.ctxs := rfl
@[simp] theorem State.onThr_net (s : State) (f : Thread → Thread) : (s.onThr f).net = s.net := rfl
@[simp] theorem State.onThr_agenda (s : State) (f : Thread → Thread) : (s.onThr f).agenda = s.agenda := rfl
@[simp] theorem State.onThr_tick (s : State) (f : Thread → Thread) : (s.onThr f).tick = s.tick := rfl
@[simp] theorem State.onThr_uids (s : State) (f : Thread → Thread) : (s.onThr f).uids = s.uids := rfl
@[simp] theorem State.onThr_cur (s : State) (f : Thread → Thread) : (s.onThr f).cur = s.cur := rfl
@[simp] theorem State.onThr_issuing (s : State) (f : Thread → Thread) : (s.onThr f).issuing = s.issuing := rfl
@[simp] theorem State.onThr_ir (s : State) (f : Thread → Thread) : (s.onThr f).ir = s.ir := rfl
@[simp] theorem State.onTrap_clusters (s : State) (f : TrapRegs → TrapRegs) : (s.onTrap f).clusters = s.clusters := rfl
@[simp] theorem State.onTrap_modules (s : State) (f : TrapRegs → TrapRegs) : (s.onTrap f).modules = s.modules := rfl
@[simp] theorem State.onTrap_present (s : State) (f : TrapRegs → TrapRegs) : (s.onTrap f).present = s.present := rfl
@[simp] theorem State.onTrap_mem (s : State) (f : TrapRegs → TrapRegs) : (s.onTrap f).mem = s.mem := rfl
@[simp] theorem State.onTrap_waitq (s : State) (f : TrapRegs → TrapRegs) : (s.onTrap f).waitq = s.waitq := rfl
@[simp] theorem State.onTrap_limits (s : State) (f : TrapRegs → TrapRegs) : (s.onTrap f).limits = s.limits := rfl
@[simp] theorem State.onTrap_tlb (s : State) (f : TrapRegs → TrapRegs) : (s.onTrap f).tlb = s.tlb := rfl
@[simp] theorem State.onTrap_walks (s : State) (f : TrapRegs → TrapRegs) : (s.onTrap f).walks = s.walks := rfl
@[simp] theorem State.onTrap_substs (s : State) (f : TrapRegs → TrapRegs) : (s.onTrap f).substs = s.substs := rfl
@[simp] theorem State.onTrap_corrected (s : State) (f : TrapRegs → TrapRegs) : (s.onTrap f).corrected = s.corrected := rfl
@[simp] theorem State.onTrap_refreshing (s : State) (f : TrapRegs → TrapRegs) : (s.onTrap f).refreshing = s.refreshing := rfl
@[simp] theorem State.onTrap_hotStacks (s : State) (f : TrapRegs → TrapRegs) : (s.onTrap f).hotStacks = s.hotStacks := rfl
@[simp] theorem State.onTrap_dead (s : State) (f : TrapRegs → TrapRegs) : (s.onTrap f).dead = s.dead := rfl
@[simp] theorem State.onTrap_ctxs (s : State) (f : TrapRegs → TrapRegs) : (s.onTrap f).ctxs = s.ctxs := rfl
@[simp] theorem State.onTrap_net (s : State) (f : TrapRegs → TrapRegs) : (s.onTrap f).net = s.net := rfl
@[simp] theorem State.onTrap_agenda (s : State) (f : TrapRegs → TrapRegs) : (s.onTrap f).agenda = s.agenda := rfl
@[simp] theorem State.onTrap_tick (s : State) (f : TrapRegs → TrapRegs) : (s.onTrap f).tick = s.tick := rfl
@[simp] theorem State.onTrap_uids (s : State) (f : TrapRegs → TrapRegs) : (s.onTrap f).uids = s.uids := rfl
@[simp] theorem State.onTrap_cur (s : State) (f : TrapRegs → TrapRegs) : (s.onTrap f).cur = s.cur := rfl
@[simp] theorem State.onTrap_issuing (s : State) (f : TrapRegs → TrapRegs) : (s.onTrap f).issuing = s.issuing := rfl
@[simp] theorem State.onTrap_ir (s : State) (f : TrapRegs → TrapRegs) : (s.onTrap f).ir = s.ir := rfl
@[simp] theorem State.onDomain_cores (s : State) (m dom : Nat) (f : Domain → Domain) : (s.onDomain m dom f).cores = s.cores := rfl
@[simp] theorem State.onDomain_clusters (s : State) (m dom : Nat) (f : Domain → Domain) : (s.onDomain m dom f).clusters = s.clusters := rfl
@[simp] theorem State.onDomain_present (s : State) (m dom : Nat) (f : Domain → Domain) : (s.onDomain m dom f).present = s.present := rfl
@[simp] theorem State.onDomain_mem (s : State) (m dom : Nat) (f : Domain → Domain) : (s.onDomain m dom f).mem = s.mem := rfl
@[simp] theorem State.onDomain_waitq (s : State) (m dom : Nat) (f : Domain → Domain) : (s.onDomain m dom f).waitq = s.waitq := rfl
@[simp] theorem State.onDomain_limits (s : State) (m dom : Nat) (f : Domain → Domain) : (s.onDomain m dom f).limits = s.limits := rfl
@[simp] theorem State.onDomain_tlb (s : State) (m dom : Nat) (f : Domain → Domain) : (s.onDomain m dom f).tlb = s.tlb := rfl
@[simp] theorem State.onDomain_walks (s : State) (m dom : Nat) (f : Domain → Domain) : (s.onDomain m dom f).walks = s.walks := rfl
@[simp] theorem State.onDomain_substs (s : State) (m dom : Nat) (f : Domain → Domain) : (s.onDomain m dom f).substs = s.substs := rfl
@[simp] theorem State.onDomain_corrected (s : State) (m dom : Nat) (f : Domain → Domain) : (s.onDomain m dom f).corrected = s.corrected := rfl
@[simp] theorem State.onDomain_refreshing (s : State) (m dom : Nat) (f : Domain → Domain) : (s.onDomain m dom f).refreshing = s.refreshing := rfl
@[simp] theorem State.onDomain_hotStacks (s : State) (m dom : Nat) (f : Domain → Domain) : (s.onDomain m dom f).hotStacks = s.hotStacks := rfl
@[simp] theorem State.onDomain_dead (s : State) (m dom : Nat) (f : Domain → Domain) : (s.onDomain m dom f).dead = s.dead := rfl
@[simp] theorem State.onDomain_ctxs (s : State) (m dom : Nat) (f : Domain → Domain) : (s.onDomain m dom f).ctxs = s.ctxs := rfl
@[simp] theorem State.onDomain_net (s : State) (m dom : Nat) (f : Domain → Domain) : (s.onDomain m dom f).net = s.net := rfl
@[simp] theorem State.onDomain_agenda (s : State) (m dom : Nat) (f : Domain → Domain) : (s.onDomain m dom f).agenda = s.agenda := rfl
@[simp] theorem State.onDomain_tick (s : State) (m dom : Nat) (f : Domain → Domain) : (s.onDomain m dom f).tick = s.tick := rfl
@[simp] theorem State.onDomain_uids (s : State) (m dom : Nat) (f : Domain → Domain) : (s.onDomain m dom f).uids = s.uids := rfl
@[simp] theorem State.onDomain_cur (s : State) (m dom : Nat) (f : Domain → Domain) : (s.onDomain m dom f).cur = s.cur := rfl
@[simp] theorem State.onDomain_issuing (s : State) (m dom : Nat) (f : Domain → Domain) : (s.onDomain m dom f).issuing = s.issuing := rfl
@[simp] theorem State.onDomain_ir (s : State) (m dom : Nat) (f : Domain → Domain) : (s.onDomain m dom f).ir = s.ir := rfl
@[simp] theorem State.setGOf_clusters (s : State) (cid slot k : Nat) (v : Word) : (s.setGOf cid slot k v).clusters = s.clusters := rfl
@[simp] theorem State.setGOf_modules (s : State) (cid slot k : Nat) (v : Word) : (s.setGOf cid slot k v).modules = s.modules := rfl
@[simp] theorem State.setGOf_present (s : State) (cid slot k : Nat) (v : Word) : (s.setGOf cid slot k v).present = s.present := rfl
@[simp] theorem State.setGOf_mem (s : State) (cid slot k : Nat) (v : Word) : (s.setGOf cid slot k v).mem = s.mem := rfl
@[simp] theorem State.setGOf_waitq (s : State) (cid slot k : Nat) (v : Word) : (s.setGOf cid slot k v).waitq = s.waitq := rfl
@[simp] theorem State.setGOf_limits (s : State) (cid slot k : Nat) (v : Word) : (s.setGOf cid slot k v).limits = s.limits := rfl
@[simp] theorem State.setGOf_tlb (s : State) (cid slot k : Nat) (v : Word) : (s.setGOf cid slot k v).tlb = s.tlb := rfl
@[simp] theorem State.setGOf_walks (s : State) (cid slot k : Nat) (v : Word) : (s.setGOf cid slot k v).walks = s.walks := rfl
@[simp] theorem State.setGOf_substs (s : State) (cid slot k : Nat) (v : Word) : (s.setGOf cid slot k v).substs = s.substs := rfl
@[simp] theorem State.setGOf_corrected (s : State) (cid slot k : Nat) (v : Word) : (s.setGOf cid slot k v).corrected = s.corrected := rfl
@[simp] theorem State.setGOf_refreshing (s : State) (cid slot k : Nat) (v : Word) : (s.setGOf cid slot k v).refreshing = s.refreshing := rfl
@[simp] theorem State.setGOf_hotStacks (s : State) (cid slot k : Nat) (v : Word) : (s.setGOf cid slot k v).hotStacks = s.hotStacks := rfl
@[simp] theorem State.setGOf_dead (s : State) (cid slot k : Nat) (v : Word) : (s.setGOf cid slot k v).dead = s.dead := rfl
@[simp] theorem State.setGOf_ctxs (s : State) (cid slot k : Nat) (v : Word) : (s.setGOf cid slot k v).ctxs = s.ctxs := rfl
@[simp] theorem State.setGOf_net (s : State) (cid slot k : Nat) (v : Word) : (s.setGOf cid slot k v).net = s.net := rfl
@[simp] theorem State.setGOf_agenda (s : State) (cid slot k : Nat) (v : Word) : (s.setGOf cid slot k v).agenda = s.agenda := rfl
@[simp] theorem State.setGOf_tick (s : State) (cid slot k : Nat) (v : Word) : (s.setGOf cid slot k v).tick = s.tick := rfl
@[simp] theorem State.setGOf_uids (s : State) (cid slot k : Nat) (v : Word) : (s.setGOf cid slot k v).uids = s.uids := rfl
@[simp] theorem State.setGOf_cur (s : State) (cid slot k : Nat) (v : Word) : (s.setGOf cid slot k v).cur = s.cur := rfl
@[simp] theorem State.setGOf_issuing (s : State) (cid slot k : Nat) (v : Word) : (s.setGOf cid slot k v).issuing = s.issuing := rfl
@[simp] theorem State.setGOf_ir (s : State) (cid slot k : Nat) (v : Word) : (s.setGOf cid slot k v).ir = s.ir := rfl
@[simp] theorem State.setG_clusters (s : State) (k : Nat) (v : Word) : (s.setG k v).clusters = s.clusters := rfl
@[simp] theorem State.setG_modules (s : State) (k : Nat) (v : Word) : (s.setG k v).modules = s.modules := rfl
@[simp] theorem State.setG_present (s : State) (k : Nat) (v : Word) : (s.setG k v).present = s.present := rfl
@[simp] theorem State.setG_mem (s : State) (k : Nat) (v : Word) : (s.setG k v).mem = s.mem := rfl
@[simp] theorem State.setG_waitq (s : State) (k : Nat) (v : Word) : (s.setG k v).waitq = s.waitq := rfl
@[simp] theorem State.setG_limits (s : State) (k : Nat) (v : Word) : (s.setG k v).limits = s.limits := rfl
@[simp] theorem State.setG_tlb (s : State) (k : Nat) (v : Word) : (s.setG k v).tlb = s.tlb := rfl
@[simp] theorem State.setG_walks (s : State) (k : Nat) (v : Word) : (s.setG k v).walks = s.walks := rfl
@[simp] theorem State.setG_substs (s : State) (k : Nat) (v : Word) : (s.setG k v).substs = s.substs := rfl
@[simp] theorem State.setG_corrected (s : State) (k : Nat) (v : Word) : (s.setG k v).corrected = s.corrected := rfl
@[simp] theorem State.setG_refreshing (s : State) (k : Nat) (v : Word) : (s.setG k v).refreshing = s.refreshing := rfl
@[simp] theorem State.setG_hotStacks (s : State) (k : Nat) (v : Word) : (s.setG k v).hotStacks = s.hotStacks := rfl
@[simp] theorem State.setG_dead (s : State) (k : Nat) (v : Word) : (s.setG k v).dead = s.dead := rfl
@[simp] theorem State.setG_ctxs (s : State) (k : Nat) (v : Word) : (s.setG k v).ctxs = s.ctxs := rfl
@[simp] theorem State.setG_net (s : State) (k : Nat) (v : Word) : (s.setG k v).net = s.net := rfl
@[simp] theorem State.setG_agenda (s : State) (k : Nat) (v : Word) : (s.setG k v).agenda = s.agenda := rfl
@[simp] theorem State.setG_tick (s : State) (k : Nat) (v : Word) : (s.setG k v).tick = s.tick := rfl
@[simp] theorem State.setG_uids (s : State) (k : Nat) (v : Word) : (s.setG k v).uids = s.uids := rfl
@[simp] theorem State.setG_cur (s : State) (k : Nat) (v : Word) : (s.setG k v).cur = s.cur := rfl
@[simp] theorem State.setG_issuing (s : State) (k : Nat) (v : Word) : (s.setG k v).issuing = s.issuing := rfl
@[simp] theorem State.setG_ir (s : State) (k : Nat) (v : Word) : (s.setG k v).ir = s.ir := rfl
@[simp] theorem State.setP_clusters (s : State) (k : Nat) (v : Word) : (s.setP k v).clusters = s.clusters := rfl
@[simp] theorem State.setP_modules (s : State) (k : Nat) (v : Word) : (s.setP k v).modules = s.modules := rfl
@[simp] theorem State.setP_present (s : State) (k : Nat) (v : Word) : (s.setP k v).present = s.present := rfl
@[simp] theorem State.setP_mem (s : State) (k : Nat) (v : Word) : (s.setP k v).mem = s.mem := rfl
@[simp] theorem State.setP_waitq (s : State) (k : Nat) (v : Word) : (s.setP k v).waitq = s.waitq := rfl
@[simp] theorem State.setP_limits (s : State) (k : Nat) (v : Word) : (s.setP k v).limits = s.limits := rfl
@[simp] theorem State.setP_tlb (s : State) (k : Nat) (v : Word) : (s.setP k v).tlb = s.tlb := rfl
@[simp] theorem State.setP_walks (s : State) (k : Nat) (v : Word) : (s.setP k v).walks = s.walks := rfl
@[simp] theorem State.setP_substs (s : State) (k : Nat) (v : Word) : (s.setP k v).substs = s.substs := rfl
@[simp] theorem State.setP_corrected (s : State) (k : Nat) (v : Word) : (s.setP k v).corrected = s.corrected := rfl
@[simp] theorem State.setP_refreshing (s : State) (k : Nat) (v : Word) : (s.setP k v).refreshing = s.refreshing := rfl
@[simp] theorem State.setP_hotStacks (s : State) (k : Nat) (v : Word) : (s.setP k v).hotStacks = s.hotStacks := rfl
@[simp] theorem State.setP_dead (s : State) (k : Nat) (v : Word) : (s.setP k v).dead = s.dead := rfl
@[simp] theorem State.setP_ctxs (s : State) (k : Nat) (v : Word) : (s.setP k v).ctxs = s.ctxs := rfl
@[simp] theorem State.setP_net (s : State) (k : Nat) (v : Word) : (s.setP k v).net = s.net := rfl
@[simp] theorem State.setP_agenda (s : State) (k : Nat) (v : Word) : (s.setP k v).agenda = s.agenda := rfl
@[simp] theorem State.setP_tick (s : State) (k : Nat) (v : Word) : (s.setP k v).tick = s.tick := rfl
@[simp] theorem State.setP_uids (s : State) (k : Nat) (v : Word) : (s.setP k v).uids = s.uids := rfl
@[simp] theorem State.setP_cur (s : State) (k : Nat) (v : Word) : (s.setP k v).cur = s.cur := rfl
@[simp] theorem State.setP_issuing (s : State) (k : Nat) (v : Word) : (s.setP k v).issuing = s.issuing := rfl
@[simp] theorem State.setP_ir (s : State) (k : Nat) (v : Word) : (s.setP k v).ir = s.ir := rfl
@[simp] theorem State.retireTo_clusters (s : State) (pc : Word) : (s.retireTo pc).clusters = s.clusters := rfl
@[simp] theorem State.retireTo_modules (s : State) (pc : Word) : (s.retireTo pc).modules = s.modules := rfl
@[simp] theorem State.retireTo_present (s : State) (pc : Word) : (s.retireTo pc).present = s.present := rfl
@[simp] theorem State.retireTo_mem (s : State) (pc : Word) : (s.retireTo pc).mem = s.mem := rfl
@[simp] theorem State.retireTo_waitq (s : State) (pc : Word) : (s.retireTo pc).waitq = s.waitq := rfl
@[simp] theorem State.retireTo_limits (s : State) (pc : Word) : (s.retireTo pc).limits = s.limits := rfl
@[simp] theorem State.retireTo_tlb (s : State) (pc : Word) : (s.retireTo pc).tlb = s.tlb := rfl
@[simp] theorem State.retireTo_walks (s : State) (pc : Word) : (s.retireTo pc).walks = s.walks := rfl
@[simp] theorem State.retireTo_substs (s : State) (pc : Word) : (s.retireTo pc).substs = s.substs := rfl
@[simp] theorem State.retireTo_corrected (s : State) (pc : Word) : (s.retireTo pc).corrected = s.corrected := rfl
@[simp] theorem State.retireTo_refreshing (s : State) (pc : Word) : (s.retireTo pc).refreshing = s.refreshing := rfl
@[simp] theorem State.retireTo_hotStacks (s : State) (pc : Word) : (s.retireTo pc).hotStacks = s.hotStacks := rfl
@[simp] theorem State.retireTo_dead (s : State) (pc : Word) : (s.retireTo pc).dead = s.dead := rfl
@[simp] theorem State.retireTo_ctxs (s : State) (pc : Word) : (s.retireTo pc).ctxs = s.ctxs := rfl
@[simp] theorem State.retireTo_net (s : State) (pc : Word) : (s.retireTo pc).net = s.net := rfl
@[simp] theorem State.retireTo_agenda (s : State) (pc : Word) : (s.retireTo pc).agenda = s.agenda := rfl
@[simp] theorem State.retireTo_tick (s : State) (pc : Word) : (s.retireTo pc).tick = s.tick := rfl
@[simp] theorem State.retireTo_uids (s : State) (pc : Word) : (s.retireTo pc).uids = s.uids := rfl
@[simp] theorem State.retireTo_cur (s : State) (pc : Word) : (s.retireTo pc).cur = s.cur := rfl
@[simp] theorem State.retireTo_issuing (s : State) (pc : Word) : (s.retireTo pc).issuing = s.issuing := rfl
@[simp] theorem State.retireTo_ir (s : State) (pc : Word) : (s.retireTo pc).ir = s.ir := rfl
@[simp] theorem State.retire_clusters (s : State) : (s.retire).clusters = s.clusters := rfl
@[simp] theorem State.retire_modules (s : State) : (s.retire).modules = s.modules := rfl
@[simp] theorem State.retire_present (s : State) : (s.retire).present = s.present := rfl
@[simp] theorem State.retire_mem (s : State) : (s.retire).mem = s.mem := rfl
@[simp] theorem State.retire_waitq (s : State) : (s.retire).waitq = s.waitq := rfl
@[simp] theorem State.retire_limits (s : State) : (s.retire).limits = s.limits := rfl
@[simp] theorem State.retire_tlb (s : State) : (s.retire).tlb = s.tlb := rfl
@[simp] theorem State.retire_walks (s : State) : (s.retire).walks = s.walks := rfl
@[simp] theorem State.retire_substs (s : State) : (s.retire).substs = s.substs := rfl
@[simp] theorem State.retire_corrected (s : State) : (s.retire).corrected = s.corrected := rfl
@[simp] theorem State.retire_refreshing (s : State) : (s.retire).refreshing = s.refreshing := rfl
@[simp] theorem State.retire_hotStacks (s : State) : (s.retire).hotStacks = s.hotStacks := rfl
@[simp] theorem State.retire_dead (s : State) : (s.retire).dead = s.dead := rfl
@[simp] theorem State.retire_ctxs (s : State) : (s.retire).ctxs = s.ctxs := rfl
@[simp] theorem State.retire_net (s : State) : (s.retire).net = s.net := rfl
@[simp] theorem State.retire_agenda (s : State) : (s.retire).agenda = s.agenda := rfl
@[simp] theorem State.retire_tick (s : State) : (s.retire).tick = s.tick := rfl
@[simp] theorem State.retire_uids (s : State) : (s.retire).uids = s.uids := rfl
@[simp] theorem State.retire_cur (s : State) : (s.retire).cur = s.cur := rfl
@[simp] theorem State.retire_issuing (s : State) : (s.retire).issuing = s.issuing := rfl
@[simp] theorem State.retire_ir (s : State) : (s.retire).ir = s.ir := rfl
@[simp] theorem State.retire2_clusters (s : State) : (s.retire2).clusters = s.clusters := rfl
@[simp] theorem State.retire2_modules (s : State) : (s.retire2).modules = s.modules := rfl
@[simp] theorem State.retire2_present (s : State) : (s.retire2).present = s.present := rfl
@[simp] theorem State.retire2_mem (s : State) : (s.retire2).mem = s.mem := rfl
@[simp] theorem State.retire2_waitq (s : State) : (s.retire2).waitq = s.waitq := rfl
@[simp] theorem State.retire2_limits (s : State) : (s.retire2).limits = s.limits := rfl
@[simp] theorem State.retire2_tlb (s : State) : (s.retire2).tlb = s.tlb := rfl
@[simp] theorem State.retire2_walks (s : State) : (s.retire2).walks = s.walks := rfl
@[simp] theorem State.retire2_substs (s : State) : (s.retire2).substs = s.substs := rfl
@[simp] theorem State.retire2_corrected (s : State) : (s.retire2).corrected = s.corrected := rfl
@[simp] theorem State.retire2_refreshing (s : State) : (s.retire2).refreshing = s.refreshing := rfl
@[simp] theorem State.retire2_hotStacks (s : State) : (s.retire2).hotStacks = s.hotStacks := rfl
@[simp] theorem State.retire2_dead (s : State) : (s.retire2).dead = s.dead := rfl
@[simp] theorem State.retire2_ctxs (s : State) : (s.retire2).ctxs = s.ctxs := rfl
@[simp] theorem State.retire2_net (s : State) : (s.retire2).net = s.net := rfl
@[simp] theorem State.retire2_agenda (s : State) : (s.retire2).agenda = s.agenda := rfl
@[simp] theorem State.retire2_tick (s : State) : (s.retire2).tick = s.tick := rfl
@[simp] theorem State.retire2_uids (s : State) : (s.retire2).uids = s.uids := rfl
@[simp] theorem State.retire2_cur (s : State) : (s.retire2).cur = s.cur := rfl
@[simp] theorem State.retire2_issuing (s : State) : (s.retire2).issuing = s.issuing := rfl
@[simp] theorem State.retire2_ir (s : State) : (s.retire2).ir = s.ir := rfl
@[simp] theorem State.clearPrefix_clusters (s : State) : (s.clearPrefix).clusters = s.clusters := rfl
@[simp] theorem State.clearPrefix_modules (s : State) : (s.clearPrefix).modules = s.modules := rfl
@[simp] theorem State.clearPrefix_present (s : State) : (s.clearPrefix).present = s.present := rfl
@[simp] theorem State.clearPrefix_mem (s : State) : (s.clearPrefix).mem = s.mem := rfl
@[simp] theorem State.clearPrefix_waitq (s : State) : (s.clearPrefix).waitq = s.waitq := rfl
@[simp] theorem State.clearPrefix_limits (s : State) : (s.clearPrefix).limits = s.limits := rfl
@[simp] theorem State.clearPrefix_tlb (s : State) : (s.clearPrefix).tlb = s.tlb := rfl
@[simp] theorem State.clearPrefix_walks (s : State) : (s.clearPrefix).walks = s.walks := rfl
@[simp] theorem State.clearPrefix_substs (s : State) : (s.clearPrefix).substs = s.substs := rfl
@[simp] theorem State.clearPrefix_corrected (s : State) : (s.clearPrefix).corrected = s.corrected := rfl
@[simp] theorem State.clearPrefix_refreshing (s : State) : (s.clearPrefix).refreshing = s.refreshing := rfl
@[simp] theorem State.clearPrefix_hotStacks (s : State) : (s.clearPrefix).hotStacks = s.hotStacks := rfl
@[simp] theorem State.clearPrefix_dead (s : State) : (s.clearPrefix).dead = s.dead := rfl
@[simp] theorem State.clearPrefix_ctxs (s : State) : (s.clearPrefix).ctxs = s.ctxs := rfl
@[simp] theorem State.clearPrefix_net (s : State) : (s.clearPrefix).net = s.net := rfl
@[simp] theorem State.clearPrefix_agenda (s : State) : (s.clearPrefix).agenda = s.agenda := rfl
@[simp] theorem State.clearPrefix_tick (s : State) : (s.clearPrefix).tick = s.tick := rfl
@[simp] theorem State.clearPrefix_uids (s : State) : (s.clearPrefix).uids = s.uids := rfl
@[simp] theorem State.clearPrefix_cur (s : State) : (s.clearPrefix).cur = s.cur := rfl
@[simp] theorem State.clearPrefix_issuing (s : State) : (s.clearPrefix).issuing = s.issuing := rfl
@[simp] theorem State.clearPrefix_ir (s : State) : (s.clearPrefix).ir = s.ir := rfl
@[simp] theorem State.linkNext_clusters (s : State) : (s.linkNext).clusters = s.clusters := rfl
@[simp] theorem State.linkNext_modules (s : State) : (s.linkNext).modules = s.modules := rfl
@[simp] theorem State.linkNext_present (s : State) : (s.linkNext).present = s.present := rfl
@[simp] theorem State.linkNext_mem (s : State) : (s.linkNext).mem = s.mem := rfl
@[simp] theorem State.linkNext_waitq (s : State) : (s.linkNext).waitq = s.waitq := rfl
@[simp] theorem State.linkNext_limits (s : State) : (s.linkNext).limits = s.limits := rfl
@[simp] theorem State.linkNext_tlb (s : State) : (s.linkNext).tlb = s.tlb := rfl
@[simp] theorem State.linkNext_walks (s : State) : (s.linkNext).walks = s.walks := rfl
@[simp] theorem State.linkNext_substs (s : State) : (s.linkNext).substs = s.substs := rfl
@[simp] theorem State.linkNext_corrected (s : State) : (s.linkNext).corrected = s.corrected := rfl
@[simp] theorem State.linkNext_refreshing (s : State) : (s.linkNext).refreshing = s.refreshing := rfl
@[simp] theorem State.linkNext_hotStacks (s : State) : (s.linkNext).hotStacks = s.hotStacks := rfl
@[simp] theorem State.linkNext_dead (s : State) : (s.linkNext).dead = s.dead := rfl
@[simp] theorem State.linkNext_ctxs (s : State) : (s.linkNext).ctxs = s.ctxs := rfl
@[simp] theorem State.linkNext_net (s : State) : (s.linkNext).net = s.net := rfl
@[simp] theorem State.linkNext_agenda (s : State) : (s.linkNext).agenda = s.agenda := rfl
@[simp] theorem State.linkNext_tick (s : State) : (s.linkNext).tick = s.tick := rfl
@[simp] theorem State.linkNext_uids (s : State) : (s.linkNext).uids = s.uids := rfl
@[simp] theorem State.linkNext_cur (s : State) : (s.linkNext).cur = s.cur := rfl
@[simp] theorem State.linkNext_issuing (s : State) : (s.linkNext).issuing = s.issuing := rfl
@[simp] theorem State.linkNext_ir (s : State) : (s.linkNext).ir = s.ir := rfl
@[simp] theorem State.parkCore_clusters (s : State) (w : CoreWait) : (s.parkCore w).clusters = s.clusters := rfl
@[simp] theorem State.parkCore_modules (s : State) (w : CoreWait) : (s.parkCore w).modules = s.modules := rfl
@[simp] theorem State.parkCore_present (s : State) (w : CoreWait) : (s.parkCore w).present = s.present := rfl
@[simp] theorem State.parkCore_mem (s : State) (w : CoreWait) : (s.parkCore w).mem = s.mem := rfl
@[simp] theorem State.parkCore_waitq (s : State) (w : CoreWait) : (s.parkCore w).waitq = s.waitq := rfl
@[simp] theorem State.parkCore_limits (s : State) (w : CoreWait) : (s.parkCore w).limits = s.limits := rfl
@[simp] theorem State.parkCore_tlb (s : State) (w : CoreWait) : (s.parkCore w).tlb = s.tlb := rfl
@[simp] theorem State.parkCore_walks (s : State) (w : CoreWait) : (s.parkCore w).walks = s.walks := rfl
@[simp] theorem State.parkCore_substs (s : State) (w : CoreWait) : (s.parkCore w).substs = s.substs := rfl
@[simp] theorem State.parkCore_corrected (s : State) (w : CoreWait) : (s.parkCore w).corrected = s.corrected := rfl
@[simp] theorem State.parkCore_refreshing (s : State) (w : CoreWait) : (s.parkCore w).refreshing = s.refreshing := rfl
@[simp] theorem State.parkCore_hotStacks (s : State) (w : CoreWait) : (s.parkCore w).hotStacks = s.hotStacks := rfl
@[simp] theorem State.parkCore_dead (s : State) (w : CoreWait) : (s.parkCore w).dead = s.dead := rfl
@[simp] theorem State.parkCore_ctxs (s : State) (w : CoreWait) : (s.parkCore w).ctxs = s.ctxs := rfl
@[simp] theorem State.parkCore_net (s : State) (w : CoreWait) : (s.parkCore w).net = s.net := rfl
@[simp] theorem State.parkCore_agenda (s : State) (w : CoreWait) : (s.parkCore w).agenda = s.agenda := rfl
@[simp] theorem State.parkCore_tick (s : State) (w : CoreWait) : (s.parkCore w).tick = s.tick := rfl
@[simp] theorem State.parkCore_uids (s : State) (w : CoreWait) : (s.parkCore w).uids = s.uids := rfl
@[simp] theorem State.parkCore_cur (s : State) (w : CoreWait) : (s.parkCore w).cur = s.cur := rfl
@[simp] theorem State.parkCore_issuing (s : State) (w : CoreWait) : (s.parkCore w).issuing = s.issuing := rfl
@[simp] theorem State.parkCore_ir (s : State) (w : CoreWait) : (s.parkCore w).ir = s.ir := rfl
@[simp] theorem State.parkMem_clusters (s : State) (f : Finish) (u : List Access) : (s.parkMem f u).clusters = s.clusters := rfl
@[simp] theorem State.parkMem_modules (s : State) (f : Finish) (u : List Access) : (s.parkMem f u).modules = s.modules := rfl
@[simp] theorem State.parkMem_present (s : State) (f : Finish) (u : List Access) : (s.parkMem f u).present = s.present := rfl
@[simp] theorem State.parkMem_mem (s : State) (f : Finish) (u : List Access) : (s.parkMem f u).mem = s.mem := rfl
@[simp] theorem State.parkMem_waitq (s : State) (f : Finish) (u : List Access) : (s.parkMem f u).waitq = s.waitq := rfl
@[simp] theorem State.parkMem_limits (s : State) (f : Finish) (u : List Access) : (s.parkMem f u).limits = s.limits := rfl
@[simp] theorem State.parkMem_tlb (s : State) (f : Finish) (u : List Access) : (s.parkMem f u).tlb = s.tlb := rfl
@[simp] theorem State.parkMem_walks (s : State) (f : Finish) (u : List Access) : (s.parkMem f u).walks = s.walks := rfl
@[simp] theorem State.parkMem_substs (s : State) (f : Finish) (u : List Access) : (s.parkMem f u).substs = s.substs := rfl
@[simp] theorem State.parkMem_corrected (s : State) (f : Finish) (u : List Access) : (s.parkMem f u).corrected = s.corrected := rfl
@[simp] theorem State.parkMem_refreshing (s : State) (f : Finish) (u : List Access) : (s.parkMem f u).refreshing = s.refreshing := rfl
@[simp] theorem State.parkMem_hotStacks (s : State) (f : Finish) (u : List Access) : (s.parkMem f u).hotStacks = s.hotStacks := rfl
@[simp] theorem State.parkMem_dead (s : State) (f : Finish) (u : List Access) : (s.parkMem f u).dead = s.dead := rfl
@[simp] theorem State.parkMem_ctxs (s : State) (f : Finish) (u : List Access) : (s.parkMem f u).ctxs = s.ctxs := rfl
@[simp] theorem State.parkMem_net (s : State) (f : Finish) (u : List Access) : (s.parkMem f u).net = s.net := rfl
@[simp] theorem State.parkMem_agenda (s : State) (f : Finish) (u : List Access) : (s.parkMem f u).agenda = s.agenda := rfl
@[simp] theorem State.parkMem_tick (s : State) (f : Finish) (u : List Access) : (s.parkMem f u).tick = s.tick := rfl
@[simp] theorem State.parkMem_uids (s : State) (f : Finish) (u : List Access) : (s.parkMem f u).uids = s.uids := rfl
@[simp] theorem State.parkMem_cur (s : State) (f : Finish) (u : List Access) : (s.parkMem f u).cur = s.cur := rfl
@[simp] theorem State.parkMem_issuing (s : State) (f : Finish) (u : List Access) : (s.parkMem f u).issuing = s.issuing := rfl
@[simp] theorem State.parkMem_ir (s : State) (f : Finish) (u : List Access) : (s.parkMem f u).ir = s.ir := rfl
@[simp] theorem State.parkEngine_clusters (s : State) (st : TState) (w : EngineWait) : (s.parkEngine st w).clusters = s.clusters := rfl
@[simp] theorem State.parkEngine_modules (s : State) (st : TState) (w : EngineWait) : (s.parkEngine st w).modules = s.modules := rfl
@[simp] theorem State.parkEngine_present (s : State) (st : TState) (w : EngineWait) : (s.parkEngine st w).present = s.present := rfl
@[simp] theorem State.parkEngine_mem (s : State) (st : TState) (w : EngineWait) : (s.parkEngine st w).mem = s.mem := rfl
@[simp] theorem State.parkEngine_waitq (s : State) (st : TState) (w : EngineWait) : (s.parkEngine st w).waitq = s.waitq := rfl
@[simp] theorem State.parkEngine_limits (s : State) (st : TState) (w : EngineWait) : (s.parkEngine st w).limits = s.limits := rfl
@[simp] theorem State.parkEngine_tlb (s : State) (st : TState) (w : EngineWait) : (s.parkEngine st w).tlb = s.tlb := rfl
@[simp] theorem State.parkEngine_walks (s : State) (st : TState) (w : EngineWait) : (s.parkEngine st w).walks = s.walks := rfl
@[simp] theorem State.parkEngine_substs (s : State) (st : TState) (w : EngineWait) : (s.parkEngine st w).substs = s.substs := rfl
@[simp] theorem State.parkEngine_corrected (s : State) (st : TState) (w : EngineWait) : (s.parkEngine st w).corrected = s.corrected := rfl
@[simp] theorem State.parkEngine_refreshing (s : State) (st : TState) (w : EngineWait) : (s.parkEngine st w).refreshing = s.refreshing := rfl
@[simp] theorem State.parkEngine_hotStacks (s : State) (st : TState) (w : EngineWait) : (s.parkEngine st w).hotStacks = s.hotStacks := rfl
@[simp] theorem State.parkEngine_dead (s : State) (st : TState) (w : EngineWait) : (s.parkEngine st w).dead = s.dead := rfl
@[simp] theorem State.parkEngine_ctxs (s : State) (st : TState) (w : EngineWait) : (s.parkEngine st w).ctxs = s.ctxs := rfl
@[simp] theorem State.parkEngine_net (s : State) (st : TState) (w : EngineWait) : (s.parkEngine st w).net = s.net := rfl
@[simp] theorem State.parkEngine_agenda (s : State) (st : TState) (w : EngineWait) : (s.parkEngine st w).agenda = s.agenda := rfl
@[simp] theorem State.parkEngine_tick (s : State) (st : TState) (w : EngineWait) : (s.parkEngine st w).tick = s.tick := rfl
@[simp] theorem State.parkEngine_uids (s : State) (st : TState) (w : EngineWait) : (s.parkEngine st w).uids = s.uids := rfl
@[simp] theorem State.parkEngine_cur (s : State) (st : TState) (w : EngineWait) : (s.parkEngine st w).cur = s.cur := rfl
@[simp] theorem State.parkEngine_issuing (s : State) (st : TState) (w : EngineWait) : (s.parkEngine st w).issuing = s.issuing := rfl
@[simp] theorem State.parkEngine_ir (s : State) (st : TState) (w : EngineWait) : (s.parkEngine st w).ir = s.ir := rfl
@[simp] theorem State.raiseMsix_cores (s : State) (m v : Nat) : (s.raiseMsix m v).cores = s.cores := rfl
@[simp] theorem State.raiseMsix_clusters (s : State) (m v : Nat) : (s.raiseMsix m v).clusters = s.clusters := rfl
@[simp] theorem State.raiseMsix_present (s : State) (m v : Nat) : (s.raiseMsix m v).present = s.present := rfl
@[simp] theorem State.raiseMsix_mem (s : State) (m v : Nat) : (s.raiseMsix m v).mem = s.mem := rfl
@[simp] theorem State.raiseMsix_waitq (s : State) (m v : Nat) : (s.raiseMsix m v).waitq = s.waitq := rfl
@[simp] theorem State.raiseMsix_limits (s : State) (m v : Nat) : (s.raiseMsix m v).limits = s.limits := rfl
@[simp] theorem State.raiseMsix_tlb (s : State) (m v : Nat) : (s.raiseMsix m v).tlb = s.tlb := rfl
@[simp] theorem State.raiseMsix_walks (s : State) (m v : Nat) : (s.raiseMsix m v).walks = s.walks := rfl
@[simp] theorem State.raiseMsix_substs (s : State) (m v : Nat) : (s.raiseMsix m v).substs = s.substs := rfl
@[simp] theorem State.raiseMsix_corrected (s : State) (m v : Nat) : (s.raiseMsix m v).corrected = s.corrected := rfl
@[simp] theorem State.raiseMsix_refreshing (s : State) (m v : Nat) : (s.raiseMsix m v).refreshing = s.refreshing := rfl
@[simp] theorem State.raiseMsix_hotStacks (s : State) (m v : Nat) : (s.raiseMsix m v).hotStacks = s.hotStacks := rfl
@[simp] theorem State.raiseMsix_dead (s : State) (m v : Nat) : (s.raiseMsix m v).dead = s.dead := rfl
@[simp] theorem State.raiseMsix_ctxs (s : State) (m v : Nat) : (s.raiseMsix m v).ctxs = s.ctxs := rfl
@[simp] theorem State.raiseMsix_net (s : State) (m v : Nat) : (s.raiseMsix m v).net = s.net := rfl
@[simp] theorem State.raiseMsix_agenda (s : State) (m v : Nat) : (s.raiseMsix m v).agenda = s.agenda := rfl
@[simp] theorem State.raiseMsix_tick (s : State) (m v : Nat) : (s.raiseMsix m v).tick = s.tick := rfl
@[simp] theorem State.raiseMsix_uids (s : State) (m v : Nat) : (s.raiseMsix m v).uids = s.uids := rfl
@[simp] theorem State.raiseMsix_cur (s : State) (m v : Nat) : (s.raiseMsix m v).cur = s.cur := rfl
@[simp] theorem State.raiseMsix_issuing (s : State) (m v : Nat) : (s.raiseMsix m v).issuing = s.issuing := rfl
@[simp] theorem State.raiseMsix_ir (s : State) (m v : Nat) : (s.raiseMsix m v).ir = s.ir := rfl
@[simp] theorem State.raiseAer_cores (s : State) (m v : Nat) : (s.raiseAer m v).cores = s.cores := rfl
@[simp] theorem State.raiseAer_clusters (s : State) (m v : Nat) : (s.raiseAer m v).clusters = s.clusters := rfl
@[simp] theorem State.raiseAer_present (s : State) (m v : Nat) : (s.raiseAer m v).present = s.present := rfl
@[simp] theorem State.raiseAer_mem (s : State) (m v : Nat) : (s.raiseAer m v).mem = s.mem := rfl
@[simp] theorem State.raiseAer_waitq (s : State) (m v : Nat) : (s.raiseAer m v).waitq = s.waitq := rfl
@[simp] theorem State.raiseAer_limits (s : State) (m v : Nat) : (s.raiseAer m v).limits = s.limits := rfl
@[simp] theorem State.raiseAer_tlb (s : State) (m v : Nat) : (s.raiseAer m v).tlb = s.tlb := rfl
@[simp] theorem State.raiseAer_walks (s : State) (m v : Nat) : (s.raiseAer m v).walks = s.walks := rfl
@[simp] theorem State.raiseAer_substs (s : State) (m v : Nat) : (s.raiseAer m v).substs = s.substs := rfl
@[simp] theorem State.raiseAer_corrected (s : State) (m v : Nat) : (s.raiseAer m v).corrected = s.corrected := rfl
@[simp] theorem State.raiseAer_refreshing (s : State) (m v : Nat) : (s.raiseAer m v).refreshing = s.refreshing := rfl
@[simp] theorem State.raiseAer_hotStacks (s : State) (m v : Nat) : (s.raiseAer m v).hotStacks = s.hotStacks := rfl
@[simp] theorem State.raiseAer_dead (s : State) (m v : Nat) : (s.raiseAer m v).dead = s.dead := rfl
@[simp] theorem State.raiseAer_ctxs (s : State) (m v : Nat) : (s.raiseAer m v).ctxs = s.ctxs := rfl
@[simp] theorem State.raiseAer_net (s : State) (m v : Nat) : (s.raiseAer m v).net = s.net := rfl
@[simp] theorem State.raiseAer_agenda (s : State) (m v : Nat) : (s.raiseAer m v).agenda = s.agenda := rfl
@[simp] theorem State.raiseAer_tick (s : State) (m v : Nat) : (s.raiseAer m v).tick = s.tick := rfl
@[simp] theorem State.raiseAer_uids (s : State) (m v : Nat) : (s.raiseAer m v).uids = s.uids := rfl
@[simp] theorem State.raiseAer_cur (s : State) (m v : Nat) : (s.raiseAer m v).cur = s.cur := rfl
@[simp] theorem State.raiseAer_issuing (s : State) (m v : Nat) : (s.raiseAer m v).issuing = s.issuing := rfl
@[simp] theorem State.raiseAer_ir (s : State) (m v : Nat) : (s.raiseAer m v).ir = s.ir := rfl
@[simp] theorem State.pumpFaultQueue_cores (s : State) (m dom : Nat) : (s.pumpFaultQueue m dom).cores = s.cores := rfl
@[simp] theorem State.pumpFaultQueue_clusters (s : State) (m dom : Nat) : (s.pumpFaultQueue m dom).clusters = s.clusters := rfl
@[simp] theorem State.pumpFaultQueue_present (s : State) (m dom : Nat) : (s.pumpFaultQueue m dom).present = s.present := rfl
@[simp] theorem State.pumpFaultQueue_mem (s : State) (m dom : Nat) : (s.pumpFaultQueue m dom).mem = s.mem := rfl
@[simp] theorem State.pumpFaultQueue_waitq (s : State) (m dom : Nat) : (s.pumpFaultQueue m dom).waitq = s.waitq := rfl
@[simp] theorem State.pumpFaultQueue_limits (s : State) (m dom : Nat) : (s.pumpFaultQueue m dom).limits = s.limits := rfl
@[simp] theorem State.pumpFaultQueue_tlb (s : State) (m dom : Nat) : (s.pumpFaultQueue m dom).tlb = s.tlb := rfl
@[simp] theorem State.pumpFaultQueue_walks (s : State) (m dom : Nat) : (s.pumpFaultQueue m dom).walks = s.walks := rfl
@[simp] theorem State.pumpFaultQueue_substs (s : State) (m dom : Nat) : (s.pumpFaultQueue m dom).substs = s.substs := rfl
@[simp] theorem State.pumpFaultQueue_corrected (s : State) (m dom : Nat) : (s.pumpFaultQueue m dom).corrected = s.corrected := rfl
@[simp] theorem State.pumpFaultQueue_refreshing (s : State) (m dom : Nat) : (s.pumpFaultQueue m dom).refreshing = s.refreshing := rfl
@[simp] theorem State.pumpFaultQueue_hotStacks (s : State) (m dom : Nat) : (s.pumpFaultQueue m dom).hotStacks = s.hotStacks := rfl
@[simp] theorem State.pumpFaultQueue_dead (s : State) (m dom : Nat) : (s.pumpFaultQueue m dom).dead = s.dead := rfl
@[simp] theorem State.pumpFaultQueue_ctxs (s : State) (m dom : Nat) : (s.pumpFaultQueue m dom).ctxs = s.ctxs := rfl
@[simp] theorem State.pumpFaultQueue_net (s : State) (m dom : Nat) : (s.pumpFaultQueue m dom).net = s.net := rfl
@[simp] theorem State.pumpFaultQueue_agenda (s : State) (m dom : Nat) : (s.pumpFaultQueue m dom).agenda = s.agenda := rfl
@[simp] theorem State.pumpFaultQueue_tick (s : State) (m dom : Nat) : (s.pumpFaultQueue m dom).tick = s.tick := rfl
@[simp] theorem State.pumpFaultQueue_uids (s : State) (m dom : Nat) : (s.pumpFaultQueue m dom).uids = s.uids := rfl
@[simp] theorem State.pumpFaultQueue_cur (s : State) (m dom : Nat) : (s.pumpFaultQueue m dom).cur = s.cur := rfl
@[simp] theorem State.pumpFaultQueue_issuing (s : State) (m dom : Nat) : (s.pumpFaultQueue m dom).issuing = s.issuing := rfl
@[simp] theorem State.pumpFaultQueue_ir (s : State) (m dom : Nat) : (s.pumpFaultQueue m dom).ir = s.ir := rfl
@[simp] theorem State.postRecord_cores (s : State) (m dom : Nat) (r : List Word) : (s.postRecord m dom r).cores = s.cores := rfl
@[simp] theorem State.postRecord_clusters (s : State) (m dom : Nat) (r : List Word) : (s.postRecord m dom r).clusters = s.clusters := rfl
@[simp] theorem State.postRecord_present (s : State) (m dom : Nat) (r : List Word) : (s.postRecord m dom r).present = s.present := rfl
@[simp] theorem State.postRecord_mem (s : State) (m dom : Nat) (r : List Word) : (s.postRecord m dom r).mem = s.mem := rfl
@[simp] theorem State.postRecord_waitq (s : State) (m dom : Nat) (r : List Word) : (s.postRecord m dom r).waitq = s.waitq := rfl
@[simp] theorem State.postRecord_limits (s : State) (m dom : Nat) (r : List Word) : (s.postRecord m dom r).limits = s.limits := rfl
@[simp] theorem State.postRecord_tlb (s : State) (m dom : Nat) (r : List Word) : (s.postRecord m dom r).tlb = s.tlb := rfl
@[simp] theorem State.postRecord_walks (s : State) (m dom : Nat) (r : List Word) : (s.postRecord m dom r).walks = s.walks := rfl
@[simp] theorem State.postRecord_substs (s : State) (m dom : Nat) (r : List Word) : (s.postRecord m dom r).substs = s.substs := rfl
@[simp] theorem State.postRecord_corrected (s : State) (m dom : Nat) (r : List Word) : (s.postRecord m dom r).corrected = s.corrected := rfl
@[simp] theorem State.postRecord_refreshing (s : State) (m dom : Nat) (r : List Word) : (s.postRecord m dom r).refreshing = s.refreshing := rfl
@[simp] theorem State.postRecord_hotStacks (s : State) (m dom : Nat) (r : List Word) : (s.postRecord m dom r).hotStacks = s.hotStacks := rfl
@[simp] theorem State.postRecord_dead (s : State) (m dom : Nat) (r : List Word) : (s.postRecord m dom r).dead = s.dead := rfl
@[simp] theorem State.postRecord_ctxs (s : State) (m dom : Nat) (r : List Word) : (s.postRecord m dom r).ctxs = s.ctxs := rfl
@[simp] theorem State.postRecord_net (s : State) (m dom : Nat) (r : List Word) : (s.postRecord m dom r).net = s.net := rfl
@[simp] theorem State.postRecord_agenda (s : State) (m dom : Nat) (r : List Word) : (s.postRecord m dom r).agenda = s.agenda := rfl
@[simp] theorem State.postRecord_tick (s : State) (m dom : Nat) (r : List Word) : (s.postRecord m dom r).tick = s.tick := rfl
@[simp] theorem State.postRecord_uids (s : State) (m dom : Nat) (r : List Word) : (s.postRecord m dom r).uids = s.uids := rfl
@[simp] theorem State.postRecord_cur (s : State) (m dom : Nat) (r : List Word) : (s.postRecord m dom r).cur = s.cur := rfl
@[simp] theorem State.postRecord_issuing (s : State) (m dom : Nat) (r : List Word) : (s.postRecord m dom r).issuing = s.issuing := rfl
@[simp] theorem State.postRecord_ir (s : State) (m dom : Nat) (r : List Word) : (s.postRecord m dom r).ir = s.ir := rfl
@[simp] theorem State.logError_cores (s : State) (m k d n p : Nat) : (s.logError m k d n p).cores = s.cores := rfl
@[simp] theorem State.logError_clusters (s : State) (m k d n p : Nat) : (s.logError m k d n p).clusters = s.clusters := rfl
@[simp] theorem State.logError_present (s : State) (m k d n p : Nat) : (s.logError m k d n p).present = s.present := rfl
@[simp] theorem State.logError_mem (s : State) (m k d n p : Nat) : (s.logError m k d n p).mem = s.mem := rfl
@[simp] theorem State.logError_waitq (s : State) (m k d n p : Nat) : (s.logError m k d n p).waitq = s.waitq := rfl
@[simp] theorem State.logError_limits (s : State) (m k d n p : Nat) : (s.logError m k d n p).limits = s.limits := rfl
@[simp] theorem State.logError_tlb (s : State) (m k d n p : Nat) : (s.logError m k d n p).tlb = s.tlb := rfl
@[simp] theorem State.logError_walks (s : State) (m k d n p : Nat) : (s.logError m k d n p).walks = s.walks := rfl
@[simp] theorem State.logError_substs (s : State) (m k d n p : Nat) : (s.logError m k d n p).substs = s.substs := rfl
@[simp] theorem State.logError_corrected (s : State) (m k d n p : Nat) : (s.logError m k d n p).corrected = s.corrected := rfl
@[simp] theorem State.logError_refreshing (s : State) (m k d n p : Nat) : (s.logError m k d n p).refreshing = s.refreshing := rfl
@[simp] theorem State.logError_hotStacks (s : State) (m k d n p : Nat) : (s.logError m k d n p).hotStacks = s.hotStacks := rfl
@[simp] theorem State.logError_dead (s : State) (m k d n p : Nat) : (s.logError m k d n p).dead = s.dead := rfl
@[simp] theorem State.logError_ctxs (s : State) (m k d n p : Nat) : (s.logError m k d n p).ctxs = s.ctxs := rfl
@[simp] theorem State.logError_net (s : State) (m k d n p : Nat) : (s.logError m k d n p).net = s.net := rfl
@[simp] theorem State.logError_agenda (s : State) (m k d n p : Nat) : (s.logError m k d n p).agenda = s.agenda := rfl
@[simp] theorem State.logError_tick (s : State) (m k d n p : Nat) : (s.logError m k d n p).tick = s.tick := rfl
@[simp] theorem State.logError_uids (s : State) (m k d n p : Nat) : (s.logError m k d n p).uids = s.uids := rfl
@[simp] theorem State.logError_cur (s : State) (m k d n p : Nat) : (s.logError m k d n p).cur = s.cur := rfl
@[simp] theorem State.logError_issuing (s : State) (m k d n p : Nat) : (s.logError m k d n p).issuing = s.issuing := rfl
@[simp] theorem State.logError_ir (s : State) (m k d n p : Nat) : (s.logError m k d n p).ir = s.ir := rfl
@[simp] theorem State.withMem_cores (s : State) (m : Memory) : (s.withMem m).cores = s.cores := rfl
@[simp] theorem State.withMem_clusters (s : State) (m : Memory) : (s.withMem m).clusters = s.clusters := rfl
@[simp] theorem State.withMem_modules (s : State) (m : Memory) : (s.withMem m).modules = s.modules := rfl
@[simp] theorem State.withMem_present (s : State) (m : Memory) : (s.withMem m).present = s.present := rfl
@[simp] theorem State.withMem_waitq (s : State) (m : Memory) : (s.withMem m).waitq = s.waitq := rfl
@[simp] theorem State.withMem_limits (s : State) (m : Memory) : (s.withMem m).limits = s.limits := rfl
@[simp] theorem State.withMem_tlb (s : State) (m : Memory) : (s.withMem m).tlb = s.tlb := rfl
@[simp] theorem State.withMem_walks (s : State) (m : Memory) : (s.withMem m).walks = s.walks := rfl
@[simp] theorem State.withMem_substs (s : State) (m : Memory) : (s.withMem m).substs = s.substs := rfl
@[simp] theorem State.withMem_corrected (s : State) (m : Memory) : (s.withMem m).corrected = s.corrected := rfl
@[simp] theorem State.withMem_refreshing (s : State) (m : Memory) : (s.withMem m).refreshing = s.refreshing := rfl
@[simp] theorem State.withMem_hotStacks (s : State) (m : Memory) : (s.withMem m).hotStacks = s.hotStacks := rfl
@[simp] theorem State.withMem_dead (s : State) (m : Memory) : (s.withMem m).dead = s.dead := rfl
@[simp] theorem State.withMem_ctxs (s : State) (m : Memory) : (s.withMem m).ctxs = s.ctxs := rfl
@[simp] theorem State.withMem_net (s : State) (m : Memory) : (s.withMem m).net = s.net := rfl
@[simp] theorem State.withMem_agenda (s : State) (m : Memory) : (s.withMem m).agenda = s.agenda := rfl
@[simp] theorem State.withMem_tick (s : State) (m : Memory) : (s.withMem m).tick = s.tick := rfl
@[simp] theorem State.withMem_uids (s : State) (m : Memory) : (s.withMem m).uids = s.uids := rfl
@[simp] theorem State.withMem_cur (s : State) (m : Memory) : (s.withMem m).cur = s.cur := rfl
@[simp] theorem State.withMem_issuing (s : State) (m : Memory) : (s.withMem m).issuing = s.issuing := rfl
@[simp] theorem State.withMem_ir (s : State) (m : Memory) : (s.withMem m).ir = s.ir := rfl
@[simp] theorem State.sendRaw_cores (s : State) (m src dst vc : Nat) (b : Body) : (s.sendRaw m src dst vc b).cores = s.cores := rfl
@[simp] theorem State.sendRaw_clusters (s : State) (m src dst vc : Nat) (b : Body) : (s.sendRaw m src dst vc b).clusters = s.clusters := rfl
@[simp] theorem State.sendRaw_modules (s : State) (m src dst vc : Nat) (b : Body) : (s.sendRaw m src dst vc b).modules = s.modules := rfl
@[simp] theorem State.sendRaw_present (s : State) (m src dst vc : Nat) (b : Body) : (s.sendRaw m src dst vc b).present = s.present := rfl
@[simp] theorem State.sendRaw_mem (s : State) (m src dst vc : Nat) (b : Body) : (s.sendRaw m src dst vc b).mem = s.mem := rfl
@[simp] theorem State.sendRaw_waitq (s : State) (m src dst vc : Nat) (b : Body) : (s.sendRaw m src dst vc b).waitq = s.waitq := rfl
@[simp] theorem State.sendRaw_limits (s : State) (m src dst vc : Nat) (b : Body) : (s.sendRaw m src dst vc b).limits = s.limits := rfl
@[simp] theorem State.sendRaw_tlb (s : State) (m src dst vc : Nat) (b : Body) : (s.sendRaw m src dst vc b).tlb = s.tlb := rfl
@[simp] theorem State.sendRaw_walks (s : State) (m src dst vc : Nat) (b : Body) : (s.sendRaw m src dst vc b).walks = s.walks := rfl
@[simp] theorem State.sendRaw_substs (s : State) (m src dst vc : Nat) (b : Body) : (s.sendRaw m src dst vc b).substs = s.substs := rfl
@[simp] theorem State.sendRaw_corrected (s : State) (m src dst vc : Nat) (b : Body) : (s.sendRaw m src dst vc b).corrected = s.corrected := rfl
@[simp] theorem State.sendRaw_refreshing (s : State) (m src dst vc : Nat) (b : Body) : (s.sendRaw m src dst vc b).refreshing = s.refreshing := rfl
@[simp] theorem State.sendRaw_hotStacks (s : State) (m src dst vc : Nat) (b : Body) : (s.sendRaw m src dst vc b).hotStacks = s.hotStacks := rfl
@[simp] theorem State.sendRaw_dead (s : State) (m src dst vc : Nat) (b : Body) : (s.sendRaw m src dst vc b).dead = s.dead := rfl
@[simp] theorem State.sendRaw_ctxs (s : State) (m src dst vc : Nat) (b : Body) : (s.sendRaw m src dst vc b).ctxs = s.ctxs := rfl
@[simp] theorem State.sendRaw_agenda (s : State) (m src dst vc : Nat) (b : Body) : (s.sendRaw m src dst vc b).agenda = s.agenda := rfl
@[simp] theorem State.sendRaw_tick (s : State) (m src dst vc : Nat) (b : Body) : (s.sendRaw m src dst vc b).tick = s.tick := rfl
@[simp] theorem State.sendRaw_uids (s : State) (m src dst vc : Nat) (b : Body) : (s.sendRaw m src dst vc b).uids = s.uids := rfl
@[simp] theorem State.sendRaw_cur (s : State) (m src dst vc : Nat) (b : Body) : (s.sendRaw m src dst vc b).cur = s.cur := rfl
@[simp] theorem State.sendRaw_issuing (s : State) (m src dst vc : Nat) (b : Body) : (s.sendRaw m src dst vc b).issuing = s.issuing := rfl
@[simp] theorem State.sendRaw_ir (s : State) (m src dst vc : Nat) (b : Body) : (s.sendRaw m src dst vc b).ir = s.ir := rfl
@[simp] theorem State.takePacket_cores (s : State) (n : Nat) : (s.takePacket n).cores = s.cores := rfl
@[simp] theorem State.takePacket_clusters (s : State) (n : Nat) : (s.takePacket n).clusters = s.clusters := rfl
@[simp] theorem State.takePacket_modules (s : State) (n : Nat) : (s.takePacket n).modules = s.modules := rfl
@[simp] theorem State.takePacket_present (s : State) (n : Nat) : (s.takePacket n).present = s.present := rfl
@[simp] theorem State.takePacket_mem (s : State) (n : Nat) : (s.takePacket n).mem = s.mem := rfl
@[simp] theorem State.takePacket_waitq (s : State) (n : Nat) : (s.takePacket n).waitq = s.waitq := rfl
@[simp] theorem State.takePacket_limits (s : State) (n : Nat) : (s.takePacket n).limits = s.limits := rfl
@[simp] theorem State.takePacket_tlb (s : State) (n : Nat) : (s.takePacket n).tlb = s.tlb := rfl
@[simp] theorem State.takePacket_walks (s : State) (n : Nat) : (s.takePacket n).walks = s.walks := rfl
@[simp] theorem State.takePacket_substs (s : State) (n : Nat) : (s.takePacket n).substs = s.substs := rfl
@[simp] theorem State.takePacket_corrected (s : State) (n : Nat) : (s.takePacket n).corrected = s.corrected := rfl
@[simp] theorem State.takePacket_refreshing (s : State) (n : Nat) : (s.takePacket n).refreshing = s.refreshing := rfl
@[simp] theorem State.takePacket_hotStacks (s : State) (n : Nat) : (s.takePacket n).hotStacks = s.hotStacks := rfl
@[simp] theorem State.takePacket_dead (s : State) (n : Nat) : (s.takePacket n).dead = s.dead := rfl
@[simp] theorem State.takePacket_ctxs (s : State) (n : Nat) : (s.takePacket n).ctxs = s.ctxs := rfl
@[simp] theorem State.takePacket_agenda (s : State) (n : Nat) : (s.takePacket n).agenda = s.agenda := rfl
@[simp] theorem State.takePacket_tick (s : State) (n : Nat) : (s.takePacket n).tick = s.tick := rfl
@[simp] theorem State.takePacket_uids (s : State) (n : Nat) : (s.takePacket n).uids = s.uids := rfl
@[simp] theorem State.takePacket_cur (s : State) (n : Nat) : (s.takePacket n).cur = s.cur := rfl
@[simp] theorem State.takePacket_issuing (s : State) (n : Nat) : (s.takePacket n).issuing = s.issuing := rfl
@[simp] theorem State.takePacket_ir (s : State) (n : Nat) : (s.takePacket n).ir = s.ir := rfl

end Sys2Proof.Machine
end

