-- ==== Sys2Proof/Laws/Registers.lean ====
section
/-!
SUPPORT. Cores, threads and general registers: a read after an update, and the frames of the updates that stay in the issuing thread.
-/
namespace Sys2Proof.Machine

/-! Cores and threads. -/

theorem State.core_onCore (s : State) (cid c : Nat) (f : Core → Core) :
    (s.onCore cid f).core c = if c = cid then f (s.core cid) else s.core c := by
  simp only [State.onCore, State.setCore, State.core, Tab.get_set]

@[simp] theorem State.core_onCore_same (s : State) (cid : Nat) (f : Core → Core) : (s.onCore cid f).core cid = f (s.core cid) := by
  simp [State.core_onCore]

@[simp] theorem Core.slot_set (c : Core) (slot k : Nat) (t : Thread) :
    Core.slot { c with slots := Tab.set c.slots slot t } k = if k = slot then t else c.slot k := by
  simp only [Core.slot, Tab.get_set]

theorem State.core_onThread (s : State) (cid slot c : Nat) (f : Thread → Thread) :
    (s.onThread cid slot f).core c =
      if c = cid then { s.core cid with slots := Tab.set (s.core cid).slots slot (f (s.thread cid slot)) } else s.core c := by
  simp only [State.onThread, State.core_onCore]; rfl

theorem State.thread_onThread (s : State) (cid slot c k : Nat) (f : Thread → Thread) :
    (s.onThread cid slot f).thread c k = if c = cid ∧ k = slot then f (s.thread cid slot) else s.thread c k := by
  simp only [State.thread, State.core_onThread]
  by_cases h : c = cid
  · subst h; by_cases hk : k = slot <;> simp [hk]
  · simp [h]

@[simp] theorem State.thread_onThread_same (s : State) (cid slot : Nat) (f : Thread → Thread) :
    (s.onThread cid slot f).thread cid slot = f (s.thread cid slot) := by simp [State.thread_onThread]

@[simp] theorem State.thr_onThr (s : State) (f : Thread → Thread) : (s.onThr f).thr = f s.thr := by
  simp only [State.onThr, State.thr, State.onThread_cur, State.thread_onThread_same]

@[simp] theorem State.rf_onThread (s : State) (cid slot c : Nat) (f : Thread → Thread) :
    ((s.onThread cid slot f).core c).rf = (s.core c).rf := by
  rw [State.core_onThread]; split
  · rename_i h; subst h; rfl
  · rfl

@[simp] theorem State.rf_onThr (s : State) (c : Nat) (f : Thread → Thread) : ((s.onThr f).core c).rf = (s.core c).rf :=
  State.rf_onThread ..

@[simp] theorem State.thread_setGOf (s : State) (cid slot k c j : Nat) (v : Word) :
    (s.setGOf cid slot k v).thread c j = s.thread c j := by
  simp only [State.thread, State.setGOf, State.core_onCore]
  split
  · rename_i h; subst h; rfl
  · rfl

@[simp] theorem State.thread_setG (s : State) (k c j : Nat) (v : Word) : (s.setG k v).thread c j = s.thread c j :=
  State.thread_setGOf ..

@[simp] theorem State.thr_setG (s : State) (k : Nat) (v : Word) : (s.setG k v).thr = s.thr := by
  simp [State.thr]

/-! General registers. -/

theorem State.rf_setGOf (s : State) (cid slot k : Nat) (v : Word) :
    ((s.setGOf cid slot k v).core cid).rf = Tab.set (s.core cid).rf ((s.thread cid slot).base + k) v := by
  simp only [State.setGOf, State.core_onCore_same]

theorem State.gOf_setGOf (s : State) (cid slot k j : Nat) (v : Word) :
    (s.setGOf cid slot k v).gOf cid slot j = if j = k then v else s.gOf cid slot j := by
  simp only [State.gOf, State.thread_setGOf, State.rf_setGOf, Tab.get_set, Nat.add_left_cancel_iff]

/-- A register read after a register written (06 R133). -/
theorem State.g_setG (s : State) (k j : Nat) (v : Word) : (s.setG k v).g j = if j = k then v else s.g j := by
  simp only [State.g, State.setG, State.setGOf_cur, State.gOf_setGOf]

@[simp] theorem State.g_setG_same (s : State) (k : Nat) (v : Word) : (s.setG k v).g k = v := by simp [State.g_setG]

theorem State.g_onThr (s : State) (j : Nat) (f : Thread → Thread) (h : (f s.thr).base = s.thr.base) :
    (s.onThr f).g j = s.g j := by
  simp only [State.g, State.gOf, State.onThr_cur, State.rf_onThr]
  rw [show (s.onThr f).thread s.cur.1 s.cur.2 = f s.thr from State.thread_onThread_same ..]
  rw [show (s.thread s.cur.1 s.cur.2) = s.thr from rfl, h]

@[simp] theorem State.g_retireTo (s : State) (pc : Word) (j : Nat) : (s.retireTo pc).g j = s.g j := State.g_onThr _ _ _ rfl
@[simp] theorem State.g_retire (s : State) (j : Nat) : s.retire.g j = s.g j := State.g_retireTo ..
@[simp] theorem State.g_setP (s : State) (k j : Nat) (v : Word) : (s.setP k v).g j = s.g j :=
  State.g_onThr _ _ _ (by simp only [Thread.setPred]; split <;> rfl)
@[simp] theorem State.thr_retireTo (s : State) (pc : Word) :
    (s.retireTo pc).thr = { s.thr with pc := pc, issue0 := none, gathered := [] } := State.thr_onThr ..
@[simp] theorem State.thr_retire (s : State) :
    s.retire.thr = { s.thr with pc := s.thr.pc + 4, issue0 := none, gathered := [] } := State.thr_retireTo ..
@[simp] theorem State.thr_setP (s : State) (k : Nat) (v : Word) : (s.setP k v).thr = s.thr.setPred k v := State.thr_onThr ..

/-! Predicates, format registers, TSW. -/

theorem listSet_getD {α : Type} (l : List α) (k j : Nat) (v d : α) :
    (listSet l k v).getD j d = if j = k ∧ k < l.length then v else l.getD j d := by
  induction l generalizing k j with
  | nil => simp [listSet]
  | cons a r ih =>
    cases k with
    | zero => cases j <;> simp [listSet]
    | succ k => cases j with
      | zero => simp [listSet]
      | succ j => simpa [listSet] using ih k j

/-- A predicate read after a predicate written (06 R135): p0 reads all ones and discards a write. -/
theorem Thread.pred_setPred (t : Thread) (k n : Nat) (v : Word) (hl : t.preds.length = 8) (hk : k < 8) :
    (t.setPred k v).pred n = if n = 0 then ones else if n = k then v else t.pred n := by
  by_cases hn : n = 0
  · simp [Thread.pred, hn]
  · by_cases hk0 : k = 0
    · subst hk0; simp [Thread.setPred, Thread.pred, hn]
    · simp only [Thread.setPred, Thread.pred, hn, hk0, if_false, listSet_getD, hl]
      by_cases h : n = k <;> simp [h, hk]

theorem Thread.pred_setPred_ne (t : Thread) (k n : Nat) (v : Word) (h : n ≠ k) : (t.setPred k v).pred n = t.pred n := by
  simp only [Thread.setPred, Thread.pred]
  split
  · rfl
  · split
    · rfl
    · rw [listSet_getD, if_neg (by intro h'; exact h h'.1)]

theorem Thread.fd_setFd_ne (t : Thread) (k n : Nat) (v : BitVec 32) (h : n ≠ k) : (t.setFd k v).fd n = t.fd n := by
  simp only [Thread.setFd, Thread.fd]
  split
  · rfl
  · split
    · rfl
    · rw [listSet_getD, if_neg (by intro h'; exact h h'.1)]

/-! Frames. -/

theorem State.keepsOthers_refl (s : State) : s.keepsOthers s := ⟨rfl, fun _ _ => rfl, rfl, fun _ _ => rfl⟩

theorem State.keepsOthers_cur {s t : State} (h : s.keepsOthers t) : t.cur = s.cur := by rw [h.1]

theorem State.keepsOthers_trans {s t u : State} (h : s.keepsOthers t) (h' : t.keepsOthers u) : s.keepsOthers u := by
  have hc := State.keepsOthers_cur h
  obtain ⟨a1, a2, a3, a4⟩ := h
  obtain ⟨b1, b2, b3, b4⟩ := h'
  rw [hc] at b2 b3 b4
  refine ⟨?_, fun c hcc => (b2 c hcc).trans (a2 c hcc), ?_, fun k hk => (b4 k hk).trans (a4 k hk)⟩
  · rw [b1, a1]
  · rw [b3, a3]

theorem State.keepsOthers_onThr (s : State) (f : Thread → Thread) : s.keepsOthers (s.onThr f) := by
  refine ⟨rfl, fun c hc => ?_, ?_, fun k hk => ?_⟩
  · simp [State.onThr, State.core_onThread, hc]
  · simp [State.onThr, State.core_onThread]
  · simp [State.onThr, State.thread_onThread, hk]

theorem State.keepsOthers_setG (s : State) (k : Nat) (v : Word) : s.keepsOthers (s.setG k v) := by
  refine ⟨rfl, fun c hc => ?_, ?_, fun j hj => ?_⟩
  · simp [State.setG, State.setGOf, State.core_onCore, hc]
  · simp [State.setG, State.setGOf, State.core_onCore]
  · simp

theorem State.keepsRegs_setG (s : State) (k : Nat) (v : Word) : s.keepsRegs (s.setG k v) [k] := by
  intro j hj
  simp only [List.map_cons, List.map_nil, List.mem_singleton] at hj
  simp only [State.setG, State.setGOf, State.core_onCore, if_true]
  exact Tab.get_set_ne _ _ _ _ _ hj

theorem State.keepsRegs_onThr (s : State) (f : Thread → Thread) (ds : List Nat) : s.keepsRegs (s.onThr f) ds := by
  intro j _; simp

theorem State.keepsRegs_trans {s t u : State} {a b c : List Nat} (h : s.keepsRegs t a) (h' : t.keepsRegs u b) (hc : t.cur = s.cur)
    (hb : t.thr.base = s.thr.base) (ha : ∀ x ∈ a, x ∈ c) (hbc : ∀ x ∈ b, x ∈ c) : s.keepsRegs u c := by
  intro k hk
  have e1 := h k (fun hx => hk (List.map_subset _ ha hx))
  have e2 := h' k (by rw [hb]; exact fun hx => hk (List.map_subset _ hbc hx))
  rw [hc] at e2
  exact e2.trans e1

end Sys2Proof.Machine
end

