-- ==== Sys2Proof/Laws/Forms.lean ====
section
/-!
SUPPORT. What an instruction over a shared operation leads to, from one equation about its meaning; bit fields; lanes of a group.
-/
set_option maxRecDepth 100000
set_option linter.unusedVariables false
set_option linter.unusedSimpArgs false
namespace Sys2Proof.Laws
open Sys2Proof Sys2Proof.Machine

/-- What a plain instruction leads to. -/
theorem leads_plain {σ : State} {i : Instr} {regs : List Nat} {k : State → State} {t : State}
    (he : exec i σ = .next (plain regs k σ)) (hn : regs = i.named) (ha : i.afterPrefix = false) (hk : k σ = t) : σ.leads i t := by
  intro h
  rw [he, plain_acts (h.2.1 ha) (by rw [hn]; exact h.2.2), hk]
/-- A binary integer operation. -/
theorem puts_int {σ : State} {i : Instr} {d s t : Reg} {f} {v : Word} (he : exec i σ = intOp d s t f σ)
   (hn : [d.val, s.val, t.val] = i.named) (ha : i.afterPrefix = false) (hv : f (σ.g s) (σ.g t) = v) : σ.puts i d v :=
  leads_plain he hn ha (by rw [hv])
/-- A unary integer operation. -/
theorem puts_un {σ : State} {i : Instr} {d s : Reg} {f} {v : Word} (he : exec i σ = intUnary d s f σ)
   (hn : [d.val, s.val] = i.named) (ha : i.afterPrefix = false) (hv : f (σ.g s) = v) : σ.puts i d v :=
  leads_plain he hn ha (by rw [hv])
/-- A register compare. -/
theorem decides_cmp {σ : State} {i : Instr} {p : Pred} {s t : Reg} {f} {c : Prop} (he : exec i σ = cmpOp p s t f σ)
   (hn : [s.val, t.val] = i.named) (ha : i.afterPrefix = false) (hv : f (σ.g s) (σ.g t) = true ↔ c) : σ.decides i p c :=
  ⟨fun hc => leads_plain he hn ha (by rw [hv.mpr hc]; rfl), fun hc => leads_plain he hn ha (by
    rw [show f (σ.g s) (σ.g t) = false by rw [← Bool.not_eq_true, hv]; exact hc]; rfl)⟩
/-- An immediate compare. -/
theorem decides_imm {σ : State} {i : Instr} {p : Pred} {s : Reg} {u : Word} {f} {c : Prop} (he : exec i σ = cmpImm p s u f σ)
   (hn : [s.val] = i.named) (ha : i.afterPrefix = false) (hv : f (σ.g s) u = true ↔ c) : σ.decides i p c :=
  ⟨fun hc => leads_plain he hn ha (by rw [hv.mpr hc]; rfl), fun hc => leads_plain he hn ha (by
    rw [show f (σ.g s) u = false by rw [← Bool.not_eq_true, hv]; exact hc]; rfl)⟩
/-- A predicate operation. -/
theorem sets_pred {σ : State} {i : Instr} {d s t : Pred} {f} {v : Word} (he : exec i σ = predOp d s t f σ)
   (hn : [] = i.named) (ha : i.afterPrefix = false) (hv : f (σ.p s) (σ.p t) = v) : σ.sets i d v :=
  leads_plain he hn ha (by rw [hv])
/-- The two low bits cleared. -/
theorem div4 (v : Word) : BitVec.ofNat 64 (v.toNat / 4 * 4) = v &&& ~~~(3 : Word) := by
  have : v &&& ~~~(3 : Word) = (v >>> 2) <<< 2 := by
    apply BitVec.eq_of_getLsbD_eq
    intro i hi
    by_cases h0 : i = 0
    · subst h0; simp
    by_cases h1 : i = 1
    · subst h1; simp
    have h2 : (3#64).getLsbD i = false := by
      have : ∀ i < 64, i ≠ 0 → i ≠ 1 → (3#64).getLsbD i = false := by decide
      exact this i hi h0 h1
    have h3 : 2 ≤ i := by omega
    simp only [BitVec.getLsbD_and, BitVec.getLsbD_not, h2, BitVec.getLsbD_shiftLeft, BitVec.getLsbD_ushiftRight]
    rw [show (BitVec.getLsbD (3:Word) i) = false from h2]; simp [hi, show ¬ i < 2 by omega, show 2 + (i - 2) = i by omega]
  rw [this]
  apply BitVec.eq_of_toNat_eq
  simp [Nat.shiftRight_eq_div_pow, Nat.shiftLeft_eq]
/-- A plain instruction that is admitted. -/
theorem plain_next {σ : State} {i : Instr} {regs : List Nat} {k : State → State} 
    (he : exec i σ = .next (plain regs k σ)) (hn : regs = i.named) (ha : i.afterPrefix = false) (h : σ.admits i) : exec i σ = .next (k σ) := by
  rw [he, plain_acts (h.2.1 ha) (by rw [hn]; exact h.2.2)]
/-- The bits of a word with a field put. -/
theorem testBit_putField (n lo len v i : Nat) : (putField n lo len v).testBit i = if i < lo then n.testBit i else if i < lo + len then v.testBit (i - lo) else n.testBit i := by
  unfold putField
  have e : n / 2 ^ (lo + len) * 2 ^ (lo + len) + v % 2 ^ len * 2 ^ lo + n % 2 ^ lo = 2 ^ lo * (2 ^ len * (n / 2 ^ (lo + len)) + v % 2 ^ len) + n % 2 ^ lo := by
    rw [pow_add]; ring
  rw [e, Nat.testBit_two_pow_mul_add _ (Nat.mod_lt _ (by positivity))]
  split
  · rw [Nat.testBit_mod_two_pow]; simp [*]
  rw [Nat.testBit_two_pow_mul_add _ (Nat.mod_lt _ (by positivity))]
  split
  · rw [if_pos (by omega), Nat.testBit_mod_two_pow]; simp [*]
  · rw [if_neg (by omega), Nat.testBit_div_two_pow]; congr 1; omega
/-- The bits of TSW with one set. -/
theorem getLsbD_setTswBit (t : Thread) (k : Nat) (b : Bool) (i : Nat) : (t.setTswBit k b).tsw.getLsbD i = if i < 64 then (if i = k then b else t.tsw.getLsbD i) else false := by
  simp only [Thread.setTswBit, BitVec.getLsbD_ofNat, testBit_putField]
  by_cases h : i < 64
  · simp only [h, decide_true, Bool.true_and, if_true]
    by_cases hk : i = k
    · subst hk; simp; cases b <;> rfl
    · rw [if_neg hk]
      split
      · rfl
      · rw [if_neg (by omega)]; rfl
  · simp [h]
/-- A lane of the number made of lanes. -/
theorem lane_ofLanes (w : Nat) (l : List Nat) (j : Nat) : lane (ofLanes w l) w j = (l[j]?).getD 0 % 2 ^ w := by
  induction l generalizing j with
  | nil => simp [ofLanes, lane]
  | cons a r ih =>
    cases j with
    | zero => 
      simp only [lane, ofLanes, Nat.mul_zero, pow_zero, Nat.div_one, List.getElem?_cons_zero, Option.getD_some]
      rw [Nat.add_mul_mod_self_left, Nat.mod_mod]
    | succ k =>
      rw [List.getElem?_cons_succ, ← ih k]
      unfold lane
      rw [show w * (k + 1) = w + w * k by ring, pow_add, ← Nat.div_div_eq_div_mul]
      congr 2
      rw [ofLanes, Nat.add_mul_div_left _ _ (by positivity), Nat.div_eq_of_lt (Nat.mod_lt _ (by positivity)), zero_add]
theorem lane_lt (v w i : Nat) : lane v w i < 2 ^ w := Nat.mod_lt _ (by positivity)
theorem lane_mod (v w i : Nat) : lane v w i % 2 ^ w = lane v w i := Nat.mod_eq_of_lt (lane_lt v w i)
/-- A lane after a masked write. -/
theorem lane_mergeLanes (w n old : Nat) (act : Nat → Bool) (f : Nat → Nat) (j : Nat) (hj : j < n) :
   lane (mergeLanes w n old act f) w j = (if act j then f j else lane old w j) % 2 ^ w := by
  unfold mergeLanes
  rw [lane_ofLanes]
  simp [hj]
/-- Sign extension as a number. -/
theorem sext_eq (w a : Nat) (hw : 0 < w) (ha : a < 2 ^ w) : sextNat w a = (BitVec.ofNat w a).toInt := by
  rw [BitVec.toInt_eq_toNat_cond, BitVec.toNat_ofNat, Nat.mod_eq_of_lt ha]
  unfold sextNat
  rw [Nat.mod_eq_of_lt ha]
  have : 2 ^ w = 2 * 2 ^ (w - 1) := by rw [← pow_succ', show w - 1 + 1 = w by omega]
  by_cases h : a < 2 ^ (w - 1)
  · rw [if_pos h, if_pos (by omega)]
  · rw [if_neg h, if_neg (by omega)]
/-- The second of two writes of a table stays. -/
theorem Tab.set_set {α : Type} (t : Tab α) (k : Nat) (a b : α) : Tab.set (Tab.set t k a) k b = Tab.set t k b := by
  induction t with
  | nil => simp [Tab.set]
  | cons p r ih => 
    obtain ⟨j, w⟩ := p
    by_cases h : j = k
    · simp [Tab.set, h]
    · simp [Tab.set, h, ih]
/-- Two changes of a core. -/
theorem onCore_onCore (s : State) (c : Nat) (f g : Core → Core) : (s.onCore c f).onCore c g = s.onCore c (fun x => g (f x)) := by
  unfold State.onCore State.setCore
  congr 1
  · simp only [State.core, Tab.get_set_same, Tab.set_set]
/-- Two changes of the issuing thread. -/
theorem onThr_onThr (s : State) (f g : Thread → Thread) : (s.onThr f).onThr g = s.onThr (fun t => g (f t)) := by
  unfold State.onThr State.onThread
  simp only [onCore_onCore, State.onCore_cur, Core.slot, Tab.get_set_same, Tab.set_set]

end Sys2Proof.Laws
end

