-- ==== Sys2Proof/Laws/Mem.lean ====
section
/-!
SUPPORT. Memory: a read after a write, and the canonical form that every operation on memory keeps.
-/
namespace Sys2Proof.Machine

/-! Cells. -/

theorem cellsWf_mono {l : List Host.Cell} {a b : Nat} (h : cellsWf a l = true) (hab : b ≤ a) : cellsWf b l = true := by
  cases l with
  | nil => rfl
  | cons c r =>
    simp only [cellsWf, Bool.and_eq_true, decide_eq_true_eq] at h ⊢
    exact ⟨⟨Nat.le_trans hab h.1.1, h.1.2⟩, h.2⟩

theorem cellsWf_put (l : List Host.Cell) : ∀ (lo a : Nat) (v : Byte), lo ≤ a → cellsWf lo l = true →
    cellsWf lo (cellPut l a v) = true := by
  induction l with
  | nil =>
    intro lo a v ha _
    simp only [cellPut]
    split <;> simp_all [cellsWf]
  | cons c r ih =>
    intro lo a v ha h
    obtain ⟨b, w⟩ := c
    simp only [cellsWf, Bool.and_eq_true, decide_eq_true_eq] at h
    simp only [cellPut]
    split
    · rename_i hb
      split
      · simp_all [cellsWf]
      · simp only [cellsWf, Bool.and_eq_true, decide_eq_true_eq]
        exact ⟨⟨ha, by simpa using ‹¬v = Memory.blank›⟩, ⟨⟨by omega, h.1.2⟩, h.2⟩⟩
    · split
      · rename_i hb
        subst hb
        split
        · exact cellsWf_mono h.2 (by omega)
        · simp_all [cellsWf]
      · simp only [cellsWf, Bool.and_eq_true, decide_eq_true_eq]
        exact ⟨h.1, ih _ _ _ (by omega) h.2⟩

theorem cellsWf_filter (p : Host.Cell → Bool) (l : List Host.Cell) : ∀ lo, cellsWf lo l = true →
    cellsWf lo (l.filter p) = true := by
  induction l with
  | nil => intro lo _; rfl
  | cons c r ih =>
    intro lo h
    obtain ⟨b, w⟩ := c
    simp only [cellsWf, Bool.and_eq_true, decide_eq_true_eq] at h
    by_cases hp : p (b, w) = true
    · simp only [List.filter_cons_of_pos hp, cellsWf, Bool.and_eq_true, decide_eq_true_eq]
      exact ⟨h.1, ih _ h.2⟩
    · rw [List.filter_cons_of_neg hp]
      exact cellsWf_mono (ih _ h.2) (by omega)

theorem cellAt_below {l : List Host.Cell} : ∀ {lo a : Nat}, cellsWf lo l = true → a < lo → cellAt l a = Memory.blank := by
  cases l with
  | nil => intros; rfl
  | cons c r =>
    intro lo a h ha
    obtain ⟨b, w⟩ := c
    simp only [cellsWf, Bool.and_eq_true, decide_eq_true_eq] at h
    simp only [cellAt]
    rw [if_neg (by omega), if_pos (by omega)]

theorem cellAt_put (l : List Host.Cell) : ∀ (lo a b : Nat) (v : Byte), cellsWf lo l = true →
    cellAt (cellPut l a v) b = if b = a then v else cellAt l b := by
  induction l with
  | nil =>
    intro lo a b v _
    simp only [cellPut]
    split
    · simp_all [cellAt]
    · by_cases hb : b = a
      · subst hb; simp [cellAt]
      · simp [cellAt, hb, Ne.symm hb]
  | cons c r ih =>
    intro lo a b v h
    obtain ⟨k, w⟩ := c
    simp only [cellsWf, Bool.and_eq_true, decide_eq_true_eq] at h
    simp only [cellPut]
    split
    · rename_i hak
      split
      · rename_i hv
        by_cases hb : b = a
        · subst hb; simp only [if_true, cellAt]; rw [if_neg (by omega), if_pos (by omega), hv]
        · simp [hb]
      · by_cases hb : b = a
        · subst hb; simp [cellAt]
        · by_cases hba : b < a
          · simp only [cellAt, if_neg (Ne.symm hb), if_pos hba, if_neg hb]
            rw [if_neg (by omega), if_pos (by omega)]
          · simp only [cellAt, if_neg (Ne.symm hb), if_neg hba, if_neg hb]
    · split
      · rename_i hak hkk
        subst hkk
        split
        · rename_i hv
          by_cases hb : b = a
          · subst hb; simp only [if_true]; rw [cellAt_below h.2 (by omega), hv]
          · simp only [cellAt, if_neg hb, if_neg (Ne.symm hb)]
            split
            · exact cellAt_below h.2 (by omega)
            · rfl
        · by_cases hb : b = a
          · subst hb; simp [cellAt]
          · simp [cellAt, hb, Ne.symm hb]
      · rename_i hak hkk
        simp only [cellAt]
        rw [ih (k + 1) a b v h.2]
        by_cases hb : b = a
        · subst hb; simp only [if_true]; rw [if_neg (by omega), if_neg (by omega)]
        · simp [hb]

/-! Sets of word numbers. -/

theorem risingFrom_mono {l : List Nat} {a b : Nat} (h : risingFrom a l = true) (hab : b ≤ a) : risingFrom b l = true := by
  cases l with
  | nil => rfl
  | cons c r =>
    simp only [risingFrom, Bool.and_eq_true, decide_eq_true_eq] at h ⊢
    exact ⟨Nat.le_trans hab h.1, h.2⟩

theorem risingFrom_insert (l : List Nat) : ∀ lo n, lo ≤ n → risingFrom lo l = true → risingFrom lo (setInsert l n) = true := by
  induction l with
  | nil => intro lo n hn _; simp [setInsert, risingFrom, hn]
  | cons a r ih =>
    intro lo n hn h
    simp only [risingFrom, Bool.and_eq_true, decide_eq_true_eq] at h
    simp only [setInsert]
    split
    · simp only [risingFrom, Bool.and_eq_true, decide_eq_true_eq]
      exact ⟨hn, by omega, h.2⟩
    · split
      · simp [risingFrom, h.1, h.2]
      · simp only [risingFrom, Bool.and_eq_true, decide_eq_true_eq]
        exact ⟨h.1, ih _ _ (by omega) h.2⟩

theorem risingFrom_filter (p : Nat → Bool) (l : List Nat) : ∀ lo, risingFrom lo l = true → risingFrom lo (l.filter p) = true := by
  induction l with
  | nil => intro lo _; rfl
  | cons a r ih =>
    intro lo h
    simp only [risingFrom, Bool.and_eq_true, decide_eq_true_eq] at h
    by_cases hp : p a = true
    · simp only [List.filter_cons_of_pos hp, risingFrom, Bool.and_eq_true, decide_eq_true_eq]
      exact ⟨h.1, ih _ h.2⟩
    · rw [List.filter_cons_of_neg hp]
      exact risingFrom_mono (ih _ h.2) (by omega)

theorem mem_setInsert (l : List Nat) (n w : Nat) : w ∈ setInsert l n ↔ w = n ∨ w ∈ l := by
  induction l with
  | nil => simp [setInsert]
  | cons a r ih =>
    simp only [setInsert]
    split
    · simp
    · split
      · rename_i h; subst h; simp
      · simp only [List.mem_cons, ih]; exact or_left_comm

theorem mem_setErase (l : List Nat) (n w : Nat) : w ∈ setErase l n ↔ w ∈ l ∧ w ≠ n := by
  simp [setErase]

/-! Operations on memory keep its canonical form. -/

theorem Memory.wf_iff (m : Memory) :
    m.wf = true ↔ cellsWf 0 m.cells = true ∧ risingFrom 0 m.empties = true ∧ risingFrom 0 m.poison = true := by
  simp [Memory.wf, and_assoc]

theorem Memory.wf_putByte {m : Memory} (h : m.wf = true) (a : Nat) (v : Byte) : (m.putByte a v).wf = true := by
  rw [Memory.wf_iff] at h ⊢
  exact ⟨cellsWf_put _ _ _ _ (Nat.zero_le _) h.1, h.2⟩

theorem Memory.wf_write {m : Memory} (h : m.wf = true) (a n v : Nat) : (m.write a n v).wf = true := by
  induction n generalizing m a v with
  | zero => exact h
  | succ n ih => exact ih (Memory.wf_putByte h _ _) _ _

theorem Memory.wf_setFull {m : Memory} (h : m.wf = true) (w : Nat) (p : Bool) : (m.setFull w p).wf = true := by
  rw [Memory.wf_iff] at h ⊢
  refine ⟨h.1, ?_, h.2.2⟩
  show risingFrom 0 (if p then setErase m.empties w else setInsert m.empties w) = true
  split
  · exact risingFrom_filter _ _ _ h.2.1
  · exact risingFrom_insert _ _ _ (Nat.zero_le _) h.2.1

theorem Memory.wf_setPoison {m : Memory} (h : m.wf = true) (w : Nat) (p : Bool) : (m.setPoison w p).wf = true := by
  rw [Memory.wf_iff] at h ⊢
  refine ⟨h.1, h.2.1, ?_⟩
  show risingFrom 0 (if p then setInsert m.poison w else setErase m.poison w) = true
  split
  · exact risingFrom_insert _ _ _ (Nat.zero_le _) h.2.2
  · exact risingFrom_filter _ _ _ h.2.2

theorem Memory.wf_wipe {m : Memory} (h : m.wf = true) (lo hi : Nat) : (m.wipe lo hi).wf = true := by
  rw [Memory.wf_iff] at h ⊢
  exact ⟨cellsWf_filter _ _ _ h.1, risingFrom_filter _ _ _ h.2.1, risingFrom_filter _ _ _ h.2.2⟩

/-- A fold of operations that keep the canonical form keeps it. -/
theorem Memory.wf_foldl {α : Type} (f : Memory → α → Memory) (hf : ∀ m x, m.wf = true → (f m x).wf = true) (l : List α) :
    ∀ m : Memory, m.wf = true → (l.foldl f m).wf = true := by
  induction l with
  | nil => intro m h; exact h
  | cons x r ih => intro m h; exact ih _ (hf _ _ h)

theorem Memory.wf_load {m : Memory} (h : m.wf = true) (bytes : List Host.Cell) (empties poison : List Nat) :
    (m.load bytes empties poison).wf = true :=
  Memory.wf_foldl _ (fun _ _ h => Memory.wf_setPoison h _ _) _ _
    (Memory.wf_foldl _ (fun _ _ h => Memory.wf_setFull h _ _) _ _
      (Memory.wf_foldl _ (fun _ _ h => Memory.wf_putByte h _ _) _ _ h))

theorem Memory.wf_wipeModule {m : Memory} (h : m.wf = true) (k : Nat) : (m.wipeModule k).wf = true :=
  Memory.wf_wipe (Memory.wf_wipe (Memory.wf_wipe h _ _) _ _) _ _

theorem cellsWf_foldl (l : List Host.Cell) : ∀ acc, cellsWf 0 acc = true →
    cellsWf 0 (l.foldl (fun l c => cellPut l c.1 c.2) acc) = true := by
  induction l with
  | nil => intro acc h; exact h
  | cons c r ih => intro acc h; exact ih _ (cellsWf_put _ _ _ _ (Nat.zero_le _) h)

theorem risingFrom_foldl (l : List Nat) : ∀ acc, risingFrom 0 acc = true → risingFrom 0 (l.foldl setInsert acc) = true := by
  induction l with
  | nil => intro acc h; exact h
  | cons c r ih => intro acc h; exact ih _ (risingFrom_insert _ _ _ (Nat.zero_le _) h)

theorem Memory.wf_rename (m : Memory) (f : Nat → Nat) : (m.rename f).wf = true := by
  rw [Memory.wf_iff]
  exact ⟨cellsWf_foldl _ _ rfl, risingFrom_foldl _ _ rfl, risingFrom_foldl _ _ rfl⟩

/-! Reads after writes. -/

/-- A byte read after a byte written. -/
theorem Memory.byte_putByte {m : Memory} (h : m.wf = true) (a b : Nat) (v : Byte) :
    (m.putByte a v).byte b = if b = a then v else m.byte b := cellAt_put _ 0 _ _ _ ((Memory.wf_iff m).mp h).1

/-- A byte read outside the bytes written. -/
theorem Memory.byte_write_other {m : Memory} (h : m.wf = true) (a n v b : Nat) (hb : b < a ∨ a + n ≤ b) :
    (m.write a n v).byte b = m.byte b := by
  induction n generalizing m a v with
  | zero => rfl
  | succ n ih =>
    rw [show m.write a (n + 1) v = (m.putByte a (BitVec.ofNat 8 v)).write (a + 1) n (v / 256) from rfl,
      ih (Memory.wf_putByte h _ _) _ _ (by omega), Memory.byte_putByte h, if_neg (by omega)]

/-- A number read where it was written. -/
theorem Memory.read_write {m : Memory} (h : m.wf = true) (a n v : Nat) : (m.write a n v).read a n = v % 2 ^ (8 * n) := by
  induction n generalizing m a v with
  | zero => simp [Memory.read, Nat.mod_one]
  | succ n ih =>
    have e : m.write a (n + 1) v = (m.putByte a (BitVec.ofNat 8 v)).write (a + 1) n (v / 256) := rfl
    have hp := Memory.wf_putByte h a (BitVec.ofNat 8 v)
    show ((m.write a (n + 1) v).byte a).toNat + 256 * (m.write a (n + 1) v).read (a + 1) n = _
    rw [e, ih hp, Memory.byte_write_other hp _ _ _ _ (by omega), Memory.byte_putByte h, if_pos rfl]
    have h2 : (2 : Nat) ^ (8 * (n + 1)) = 256 * 2 ^ (8 * n) := by
      rw [show 8 * (n + 1) = 8 + 8 * n by omega, Nat.pow_add]
    rw [h2, BitVec.toNat_ofNat, Nat.mod_mul]

/-- P of a word after P of a word is set. -/
theorem Memory.full_setFull (m : Memory) (w k : Nat) (p : Bool) : (m.setFull w p).full k = if k = w then p else m.full k := by
  rw [Bool.eq_iff_iff]
  cases p <;> by_cases h : k = w <;> simp [Memory.full, Memory.setFull, mem_setInsert, mem_setErase, h]

/-- Whether a word is poisoned after a word is poisoned or healed. -/
theorem Memory.poisoned_setPoison (m : Memory) (w k : Nat) (p : Bool) :
    (m.setPoison w p).poisoned k = if k = w then p else m.poisoned k := by
  rw [Bool.eq_iff_iff]
  cases p <;> by_cases h : k = w <;> simp [Memory.poisoned, Memory.setPoison, mem_setInsert, mem_setErase, h]

end Sys2Proof.Machine
end

