-- ==== Sys2Proof/Laws/Modules.lean ====
section
/-!
SUPPORT. Modules, queues, gangs, engines and flasks after a change; traps, packets and records in one lemma each.
-/
set_option maxRecDepth 100000
set_option linter.unusedVariables false
set_option linter.unusedSimpArgs false
namespace Sys2Proof.Laws
open Sys2Proof Sys2Proof.Machine

/-- A trap with an in-thread handler, field by field. -/
theorem take_handler (σ : State) (cid slot cause : Nat) (a : Bool) (epc detail : Word) (hd : (σ.thread cid slot).trap.tdepth ≠ 2)
    (hin : ttblInThread ((σ.core cid).ttbl (σ.thread cid slot).dom (causeClass cause)) = true) :
    σ.take cid slot cause a epc detail = σ.onThread cid slot fun t =>
        { (t.push a cause epc detail).dropFetch with
          pc := ttblPc ((σ.core cid).ttbl (σ.thread cid slot).dom (causeClass cause)), st := .trap, wait := .none, issue0 := none } :=
  (if_neg hd).trans (if_pos hin)
/-- A trap without one. -/
theorem take_faulted (σ : State) (cid slot cause : Nat) (a : Bool) (epc detail : Word) (hd : (σ.thread cid slot).trap.tdepth ≠ 2)
    (hin : ttblInThread ((σ.core cid).ttbl (σ.thread cid slot).dom (causeClass cause)) ≠ true) :
    σ.take cid slot cause a epc detail = (σ.onThread cid slot fun t =>
        { (t.push a cause epc detail) with st := .faulted, wait := .none, issue0 := none }).postThreadRecord
        cid slot cause detail (BitVec.ofNat 64 (epc.toNat / 4 * 4)) (causeWord a cause) :=
  (if_neg hd).trans (if_neg hin)
/-- A trap at depth 2. -/
theorem take_double (σ : State) (cid slot cause : Nat) (a : Bool) (epc detail : Word) (hd : (σ.thread cid slot).trap.tdepth = 2) :
    σ.take cid slot cause a epc detail = (σ.onThread cid slot fun t =>
        { t with st := .faulted, wait := .none, issue0 := none, dbl := true }).postThreadRecord
      cid slot Cause.doubleTrap detail epc (causeWord a cause) := if_pos hd
/-- What a table lists after a deletion. -/
theorem find_del {α : Type} (t : Tab α) (k j : Nat) : Tab.find (Tab.del t k) j = if j = k then none else Tab.find t j := by
  induction t with
  | nil => simp [Tab.del, Tab.find]
  | cons p r ih =>
    obtain ⟨i, w⟩ := p
    by_cases hi : i = k
    · subst hi
      have : Tab.del ((i, w) :: r) i = Tab.del r i := by simp [Tab.del]
      rw [this, ih]
      by_cases h : j = i
      · simp [h]
      · simp [h, Tab.find, Ne.symm h]
    · have : Tab.del ((i, w) :: r) k = (i, w) :: Tab.del r k := by simp [Tab.del, hi]
      rw [this]
      simp only [Tab.find, ih]
      by_cases h : i = j
      · subst h; simp [hi]
      · simp [h]
/-- A read of a filtered table. -/
theorem get_filter {α : Type} (d : α) (p : Nat → Bool) (t : Tab α) (k : Nat) (h : p k = false) : Tab.get d (t.filter fun q => p q.1) k = d := by
  induction t with
  | nil => rfl
  | cons q r ih =>
    obtain ⟨j, v⟩ := q
    simp only [List.filter_cons]
    split
    · rename_i hp
      simp only [Tab.get]
      rw [if_neg (fun e => by rw [e, h] at hp; cases hp)]
      exact ih
    · exact ih
/-- A module after its change. -/
theorem module_onModule (s : State) (m : Nat) (f : Module → Module) : (s.onModule m f).module m = f (s.module m) := by
  unfold State.onModule State.module
  simp
/-- Any module after a change of one. -/
theorem module_onModule' (s : State) (m j : Nat) (f) : (s.onModule m f).module j = if j = m then f (s.module m) else s.module j := by
  unfold State.onModule State.module
  simp only
  rw [Tab.get_set]
/-- A queue after its change. -/
theorem queue_onQueue (s : State) (m q : Nat) (f) : ((s.onQueue m q f).module m).queue q = f ((s.module m).queue q) := by
  unfold State.onQueue
  rw [module_onModule]
  unfold Module.queue
  simp [Tab.get_set]
/-- Reach depends on the modules alone. -/
theorem reaches_same (s t : State) (m d : Nat) (h1 : t.present = s.present) (h2 : t.modules = s.modules) : t.reaches m d = s.reaches m d := by
  unfold State.reaches State.route State.module; rw [h1, h2]
/-- Reach depends on the modules present and the live ports. -/
theorem reaches_set (s t : State) (m d : Nat) (h1 : t.present = s.present) (h2 : ∀ j, (t.module j).livePorts = (s.module j).livePorts) : t.reaches m d = s.reaches m d := by
  unfold State.reaches State.route
  rw [h1, h2, h2]
/-- The live ports after a change of a module. -/
theorem live_on (s : State) (m j : Nat) (f) (h : (f (s.module m)).livePorts = (s.module m).livePorts) : ((s.onModule m f).module j).livePorts = (s.module j).livePorts := by
  rw [module_onModule']; split
  · rename_i e; rw [h, e]
  · rfl
/-- A change of a module that leaves its ports leaves reach. -/
theorem reaches_on (s : State) (m : Nat) (f) (h : (f (s.module m)).livePorts = (s.module m).livePorts) (j d : Nat) : (s.onModule m f).reaches j d = s.reaches j d :=
  reaches_set _ _ _ _ rfl (fun k => live_on _ _ _ _ h)
/-- A management message on a live path. -/
theorem tell_sends (s : State) (m d : Nat) (k : Mgmt) (h : s.reaches m (mgmtKey d) = true) : ∃ port, s.tell m d k = { s with net := s.net ++ [⟨mgmtKey m, mgmtKey d, 4, port, false, .mgmt k⟩] } := by
  unfold State.tell State.sendMgmt State.sendRaw
  rw [if_pos h, if_pos h]
  exact ⟨_, rfl⟩
/-- A gang after its change. -/
theorem gang_onGang (s : State) (m g : Nat) (f) : (s.onGang m g f).gang m g = f (s.gang m g) := by
  unfold State.gang State.onGang
  rw [module_onModule]
  exact (Tab.get_set ..).trans (if_pos rfl)
/-- A cluster after its change. -/
theorem cluster_onEng' (s : State) (cl : Nat) (f) : ((s.onCluster cl f).cluster cl) = f (s.cluster cl) := by
  unfold State.onCluster State.cluster
  simp
/-- The engines of a cluster after their change. -/
theorem eng_onEng (s : State) (cl : Nat) (f : Engines → Engines) : ((s.onEng cl f).cluster cl).eng = f (s.cluster cl).eng := by
  unfold State.onEng State.cluster
  have : (s.onCluster cl fun c => { c with eng := f c.eng }).clusters = Tab.set s.clusters cl { (s.cluster cl) with eng := f (s.cluster cl).eng } := rfl
  rw [this, Tab.get_set]
  simp; rfl
/-- The ladle entries after one is set. -/
theorem find_setL (s : State) (cl e : Nat) (o : LadleOp) : Tab.find ((s.setLadle cl e o).cluster cl).eng.ladle e = some o ∧ ∀ j, j ≠ e → Tab.find ((s.setLadle cl e o).cluster cl).eng.ladle j = Tab.find (s.cluster cl).eng.ladle j := by
  unfold State.setLadle
  rw [eng_onEng]
  refine ⟨by rw [Tab.find_set, if_pos rfl], fun j hj => by rw [Tab.find_set, if_neg hj]⟩
/-- The ladle entries after one is freed. -/
theorem find_freeL (s : State) (cl e : Nat) : Tab.find ((s.freeLadle cl e).cluster cl).eng.ladle e = none ∧ ∀ j, j ≠ e → Tab.find ((s.freeLadle cl e).cluster cl).eng.ladle j = Tab.find (s.cluster cl).eng.ladle j := by
  unfold State.freeLadle
  rw [eng_onEng]
  refine ⟨by rw [find_del, if_pos rfl], fun j hj => by rw [find_del, if_neg hj]⟩
/-- The bits of a mask made by a fold. -/
theorem mask_bits (p : Nat → Bool) : ∀ n j, (((List.range n).foldl (fun v i => if p i then v + 2 ^ i else v) 0).testBit j = (decide (j < n) && p j)) ∧ ((List.range n).foldl (fun v i => if p i then v + 2 ^ i else v) 0) < 2 ^ n := by
  intro n
  induction n with
  | zero => intro j; simp
  | succ n ih =>
    intro j
    rw [List.range_succ, List.foldl_append]
    simp only [List.foldl_cons, List.foldl_nil]
    obtain ⟨h1, h2⟩ := ih j
    generalize hv : (List.range n).foldl (fun v i => if p i then v + 2 ^ i else v) 0 = v at *
    by_cases hp : p n = true
    · rw [if_pos hp]
      refine ⟨?_, by rw [pow_succ]; omega⟩
      by_cases e : j = n
      · subst e
        rw [Nat.testBit_lt_two_pow h2] at h1
        have : v + 2 ^ j = 2 ^ j * 1 + v := by ring
        rw [this, Nat.testBit_two_pow_mul_add 1 h2]
        simp [hp]
      · by_cases l : j < n
        · rw [show v + 2 ^ n = 2 ^ n * 1 + v by ring, Nat.testBit_two_pow_mul_add 1 h2, if_pos l, h1]
          simp [l, Nat.lt_succ_of_lt l]
        · have : v + 2 ^ n < 2 ^ j := by
            have : 2 ^ (n + 1) ≤ 2 ^ j := Nat.pow_le_pow_right (by norm_num) (by omega)
            rw [pow_succ] at this; omega
          rw [Nat.testBit_lt_two_pow this]
          have : ¬ j < n + 1 := by omega
          simp [this]
    · rw [if_neg hp]
      refine ⟨?_, by rw [pow_succ]; omega⟩
      rw [h1]
      by_cases e : j = n
      · subst e; simp [hp]
      · have : (j < n + 1) ↔ (j < n) := by omega
        simp [this]
/-- The job entries after one is set. -/
theorem find_setJ (s : State) (cl e : Nat) (j : Job) : Tab.find ((s.setJob cl e j).cluster cl).eng.jobs e = some j ∧ ∀ k, k ≠ e → Tab.find ((s.setJob cl e j).cluster cl).eng.jobs k = Tab.find (s.cluster cl).eng.jobs k := by
  unfold State.setJob
  rw [eng_onEng]
  refine ⟨by rw [Tab.find_set, if_pos rfl], fun j hj => by rw [Tab.find_set, if_neg hj]⟩
/-- The job entries after one is freed. -/
theorem find_freeJ (s : State) (cl e : Nat) : Tab.find ((s.freeJobEntry cl e).cluster cl).eng.jobs e = none ∧ ∀ j, j ≠ e → Tab.find ((s.freeJobEntry cl e).cluster cl).eng.jobs j = Tab.find (s.cluster cl).eng.jobs j := by
  unfold State.freeJobEntry
  rw [eng_onEng]
  refine ⟨by rw [find_del, if_pos rfl], fun j hj => by rw [find_del, if_neg hj]⟩
/-- A flask after its change. -/
theorem flask_onFlask (s : State) (cl : Nat) (g : Flask → Flask) : (s.onFlask cl g).flask cl = g (s.flask cl) := by
  unfold State.onFlask State.flask; rw [eng_onEng]
/-- Reach after a change of a flask. -/
theorem reaches_onFlask (s : State) (cl : Nat) (g) (m d : Nat) : (s.onFlask cl g).reaches m d = s.reaches m d := reaches_same _ _ _ _ rfl rfl
/-- A flask message on a live path. -/
theorem sendFlask_ok (s : State) (a b k d i : Nat) (x : FlaskKind) (h : s.reaches (clusterModule a) (clusterKey b) = true) :
    ∃ port, s.sendFlask a b k d i x = { s with net := s.net ++ [⟨clusterKey a, clusterKey b, 5, port, false, .flask ⟨d, i, a, x⟩⟩] } := by
  unfold State.sendFlask
  simp only
  rw [if_pos h]
  exact ⟨_, rfl⟩
/-- A packet that can be delivered. -/
theorem receive_eq {s : State} {n : Nat} {p : Packet} (h : s.deliverable n = some p) : s.receive n = some (p, s.takePacket n) := by
  unfold State.receive; rw [h]; rfl
/-- An answer on a live path. -/
theorem sendAns_eq {s : State} {src : Nat} {r : Req} {a : Ans} (h : s.reaches (keyModule src) (cidKey r.cid) = true) :
    ∃ port, s.sendAns src r a = { s with net := s.net ++ [⟨src, cidKey r.cid, 1, port, false, .ans r.cid r.tag r.posted a⟩] } := by
  unfold State.sendAns
  rw [if_pos h]
  exact ⟨_, rfl⟩
/-- A host request that is not turned away. -/
theorem hostReq_ok {s : State} {m : Nat} (hp : s.present.contains m = true) (ht : (s.module m).turnedAway = none) (k : State → State) : s.hostRequest m k = k s := by
  unfold State.hostRequest
  rw [hp, ht]; rfl
/-- The error log after an entry. -/
theorem logError_facts (s : State) (m kind dom count place : Nat) : (∃ x, ((s.logError m kind dom count place).module m).log = (if (s.module m).log.length < 1024 then (s.module m).log else (s.module m).log.drop 1) ++
     [[BitVec.ofNat 64 (kind * 2 ^ 56 + dom % 2 ^ 16 * 2 ^ 32 + count % 2 ^ 32), BitVec.ofNat 64 place, 0, x]]) ∧ ((s.logError m kind dom count place).module m).msix = (s.module m).msix ++ [1] := by
  unfold State.logError State.raiseMsix
  rw [module_onModule, module_onModule]
  refine ⟨⟨BitVec.ofNat 64 ((s.module m).logged % 2 ^ 32), ?_⟩, rfl⟩
  simp only
  split <;> rfl
/-- A thread that waits at its core. -/
theorem parkCore_facts (s : State) (w : CoreWait) : (s.parkCore w).thr.st = .parkedMem ∧ (s.parkCore w).thr.wait = .core w ∧
      (s.parkCore w).thr.pc = s.thr.pc ∧ (s.parkCore w).mem = s.mem ∧ (s.parkCore w).net = s.net ∧ ∀ k, (s.parkCore w).g k = s.g k := by
  have : (s.parkCore w).thr = { s.thr with st := .parkedMem, from_ := s.thr.st, wait := .core w, issue0 := some (s.thr.issue0.getD s.now), retry0 := none, parked := s.now, pipe := s.now } := by
    unfold State.parkCore; rw [State.thr_onThr]; rfl
  rw [this]
  exact ⟨rfl, rfl, rfl, rfl, rfl, fun k => State.g_onThr _ _ _ rfl⟩
/-- The end of a task. -/
theorem endTask_facts (s : State) (c k : Nat) : (s.endTask c k).cur = s.cur ∧ (s.endTask c k).mem = s.mem ∧ (s.endTask c k).thread c k = Thread.fresh ∧ 
    (∀ x y, (x, y) ≠ (c, k) → (s.endTask c k).thread x y = s.thread x y) := by
  unfold State.endTask
  simp only
  refine ⟨?_, ?_, ?_, ?_⟩
  · split <;> rfl
  · split <;> rfl
  · rw [State.thread_onThread_same]
  · intro x y h
    rw [State.thread_onThread, if_neg (by rintro ⟨rfl, rfl⟩; exact h rfl)]
    split <;> rfl

end Sys2Proof.Laws
end

