-- ==== Sys2Proof/Laws/Own.lean ====
section
/-!
SUPPORT. An access of a thread to its core's own local memory: what the home does, what the thread reads back, when it waits.
-/
set_option maxRecDepth 100000
set_option linter.unusedVariables false
set_option linter.unusedSimpArgs false
namespace Sys2Proof.Laws
open Sys2Proof Sys2Proof.Machine

/-- The issuing thread with only the issue mark changed. -/
def marked (s : State) (x : Option Nat) : State := s.onThr fun t => { t with issue0 := x }

theorem marked_thr (s : State) (x) : (marked s x).thr = { s.thr with issue0 := x } := by unfold marked; rw [State.thr_onThr]
theorem onThr_marked (s : State) (x) (f : Thread → Thread) (h : ∀ t, f { t with issue0 := x } = f t) : (marked s x).onThr f = s.onThr f := by
  unfold marked; rw [onThr_onThr]; congr 1; funext t; exact h t
theorem retire_marked (s : State) (x) : (marked s x).retire = s.retire := by
  unfold State.retire State.retireTo
  rw [marked_thr]
  exact onThr_marked _ _ _ fun _ => rfl
theorem setGOf_onThread (s : State) (c k j : Nat) (v : Word) (f : Thread → Thread) (hb : ∀ t, (f t).base = t.base) :
    (s.onThread c k f).setGOf c k j v = (s.setGOf c k j v).onThread c k f := by
  unfold State.setGOf State.onThread
  simp only [onCore_onCore, State.thread, State.core_onCore_same, Core.slot, Tab.get_set_same, hb]
theorem setG_onThr (s : State) (j : Nat) (v : Word) (f : Thread → Thread) (hb : ∀ t, (f t).base = t.base) :
    (s.onThr f).setG j v = (s.setG j v).onThr f := setGOf_onThread s _ _ j v f hb
theorem onCore_cur (s : State) (c : Nat) (f) : (s.onCore c f).cur = s.cur := rfl
theorem cur_onThread' (s : State) (c k) (f) : (s.onThread c k f).cur = s.cur := rfl
theorem cur_onThr (s : State) (f) : (s.onThr f).cur = s.cur := rfl
theorem setG_marked (s : State) (x) (j : Nat) (v : Word) : (marked s x).setG j v = marked (s.setG j v) x :=
  setG_onThr _ _ _ _ fun _ => rfl
theorem withMem_marked (s : State) (x) (m : Memory) : (marked s x).withMem m = marked (s.withMem m) x := rfl
theorem onThread_onThread (s : State) (c k : Nat) (f g : Thread → Thread) : (s.onThread c k f).onThread c k g = s.onThread c k fun t => g (f t) := by
  unfold State.onThread
  simp only [onCore_onCore, Core.slot, Tab.get_set_same, Tab.set_set]
theorem jstat_marked (s : State) (x) (c k : Nat) : (marked s x).jstat c k = s.jstat c k := by
  unfold State.jstat marked State.onThr
  simp only [State.thread_onThread]
  have h1 : ((s.onThread s.cur.1 s.cur.2 fun t => { t with issue0 := x }).core c).pending k = (s.core c).pending k := by
    rw [State.core_onThread]
    split
    · next h => subst h; rfl
    · rfl
  rw [h1]
  split
  · next h => obtain ⟨rfl, rfl⟩ := h; rfl
  · rfl
theorem trap_marked (s : State) (x) (c : Nat) (v : Word) : (marked s x).trap c v = s.trap c v := by
  have hc : (marked s x).cur = s.cur := rfl
  have ht : (marked s x).thread s.cur.1 s.cur.2 = { s.thread s.cur.1 s.cur.2 with issue0 := x } := marked_thr s x
  have htt : ((marked s x).core s.cur.1).ttbl = (s.core s.cur.1).ttbl := by
    unfold marked State.onThr
    rw [State.core_onThread, if_pos rfl]; rfl
  have on : ∀ f : Thread → Thread, (∀ t, f { t with issue0 := x } = f t) → (marked s x).onThread s.cur.1 s.cur.2 f = s.onThread s.cur.1 s.cur.2 f :=
    fun f hf => onThr_marked s x f hf
  unfold State.trap State.take
  simp only [hc, marked_thr, ht, htt]
  have e : s.thr = s.thread s.cur.1 s.cur.2 := rfl
  split
  · rw [on _ fun _ => rfl]
  · split
    · rw [on _ fun _ => rfl]
    · rw [on _ fun _ => rfl]
theorem onThread_congr {s : State} {c k : Nat} {f g : Thread → Thread} (h : f (s.thread c k) = g (s.thread c k)) : s.onThread c k f = s.onThread c k g := by
  unfold State.onThread State.onCore State.setCore
  have : f ((s.core c).slot k) = g ((s.core c).slot k) := h
  simp only [this]
theorem trapAt_cur (s : State) (c : Nat) (v : Word) : s.trapAt s.cur.1 s.cur.2 c v = s.trap c v := rfl
theorem retireAt_cur (s : State) : s.retireAt s.cur.1 s.cur.2 = s.retire := by
  unfold State.retireAt State.retire State.retireTo State.onThr
  exact onThread_congr rfl
theorem accessed_cur (s : State) (n : Nat) : (s.accessed n).cur = s.cur := rfl

theorem ownByte_some {s : State} {va n : Nat} {k} {a : Nat} (h : s.ownByte va n k = some a) :
    s.checkAccess s.cur.1 s.thr.dom va n k = .ok (.loc s.cur.1 (field va 0 19)) ∧ a = localAddr s.cur.1 (field va 0 19) ∧
    targetOf s.cur.1 va = .loc s.cur.1 (field va 0 19) ∧ s.cur.1 < 2 ^ 26 ∧ addressBad va = false ∧ va % n = 0 ∧ offsetBad va = false := by
  unfold State.ownByte at h
  split at h
  · next c o hc =>
    have ht : targetOf s.cur.1 va = .loc c o := by
      unfold State.checkAccess at hc
      split at hc; · cases hc
      split at hc; · cases hc
      split at hc; · cases hc
      split at hc
      · split at hc
        · cases hc
        · cases hc
      · split at hc
        · exact Except.ok.inj hc
        · cases hc
    have : c = s.cur.1 ∧ o = field va 0 19 := by
      unfold targetOf at ht
      split at ht
      · cases ht
      · cases ht
      · cases ht
      · simp only at ht
        split at ht
        · split at ht
          · cases ht; exact ⟨rfl, rfl⟩
          · cases ht
        · split at ht <;> cases ht
      · cases ht; exact ⟨rfl, rfl⟩
      · cases ht
    obtain ⟨rfl, rfl⟩ := this
    split at h
    · next hlt =>
      cases h
      refine ⟨hc, rfl, ht, hlt, ?_⟩
      unfold State.checkAccess at hc
      split at hc; · cases hc
      split at hc; · cases hc
      split at hc; · cases hc
      refine ⟨by simpa using ‹¬addressBad va = true›, by omega, by simpa using ‹¬offsetBad va = true›⟩
    · cases h
  · cases h

/-- The request of the issuing thread's access in its own local memory. -/
def ownReq (s : State) (op : Op) (va : Nat) : Req := (s.newTag s.cur.1).2.mkReq s.cur.1 s.cur.2 (s.core s.cur.1).tagCount op va false
theorem newTag_eq (s : State) (c : Nat) : s.newTag c = ((s.core c).tagCount, s.onCore c fun x => { x with tagCount := (x.tagCount + 1) % 2 ^ 24 }) := by
  unfold State.newTag
  rfl
/-- An access to the own local memory is made within the pass. -/
theorem access_own (s : State) (q : Ask) {a : Nat} (h : s.ownByte q.va q.size q.op.kind = some a) (hr : q.release = true → (s.core s.cur.1).pending s.cur.2 = []) :
    s.access q = s.await q.fin (s.localUnits s.thr.dom [(0, q.op, q.va)]) := by
  obtain ⟨hc, rfl, ht, -⟩ := ownByte_some h
  unfold State.access
  simp only [hc, Target.isHost, Target.isStore, Bool.false_and, Bool.false_eq_true, if_false]
  rw [show (if (q.migrates && s.thr.mr) = true then s.migrationTarget (.loc s.cur.1 (field q.va 0 19)) else none) = none by
    split
    · rfl
    · rfl]
  simp only
  rw [if_neg (by
    intro hh
    rw [Bool.and_eq_true] at hh
    rw [hr hh.1] at hh
    simp at hh)]
  simp only [State.perform, Target.path]
/-- An answer that ends a unit. -/
def final (a : Ans) : Prop := match a with
  | .refresh _ | .noList | .shutter | .scRetry => False
  | _ => True
theorem after_final {a : Ans} (h : final a) (n b : Nat) : a.after n b = (.done a, b) := by
  cases a <;> first | rfl | exact absurd h id
theorem localUnits_one (s : State) (dom : Nat) (op : Op) (va : Nat) (hb : ∀ m d, op ≠ .block m d) : s.localUnits dom [(0, op, va)] =
    (let p := (s.newTag s.cur.1).2.atLocal s.cur.1 (field va 0 19) false (ownReq s op va)
     let u : Access := ⟨0, ownReq s op va, .out, 64⟩
     ([match p.1 with
      | some a => u.answered (s.newTag s.cur.1).2.now a
      | none => u], p.2)) := by
  simp only [State.localUnits, ownReq, newTag_eq, onCore_cur]
  cases op <;> first
    | exact absurd rfl (hb _ _)
    | (generalize State.atLocal _ _ _ _ _ = p
       obtain ⟨a, t⟩ := p
       cases a with
       | none => rfl
       | some a => cases a <;> rfl)

/-- The thread as it stands after units that were answered within the pass. -/
def passed (s : State) : State := s.onThr fun t => { t with from_ := t.st, wait := .none }
theorem await_one (x s : State) (f : Finish) (u : Access) (h : u.answer.isSome = true) :
    x.await f ([u], s) = (s.onThr fun t => { t with from_ := t.st }).finishWait s.cur.1 s.cur.2 f [u] false := by
  simp [State.await, h]
theorem unpark_passed (s : State) :
    (s.onThr fun t => { t with from_ := t.st }).onThread s.cur.1 s.cur.2 Thread.unpark = passed s := by
  unfold passed State.onThr
  rw [onThread_onThread]
  rfl
theorem accessed_one (s : State) : s.accessed 1 = passed (s.newTag s.cur.1).2 := by
  rw [newTag_eq]
  rfl

/-- What one answered unit writes. -/
def wrote (s : State) (f : Finish) (v : Nat) : State :=
  match f with
  | .load d z => s.setG d (sizeExtend z v)
  | .word d => s.setG d (BitVec.ofNat 64 v)
  | .pair d => (s.setG d (BitVec.ofNat 64 v)).setG (d + 1) (BitVec.ofNat 64 (v / 2 ^ 64))
  | _ => s
/-- A finish of one access. -/
def plainFin : Finish → Bool
  | .load _ _ | .word _ | .pair _ | .none => true
  | _ => false
theorem wrote_marked (s : State) (x) (f : Finish) (v : Nat) : wrote (marked s x) f v = marked (wrote s f v) x := by
  cases f <;> simp only [wrote, setG_marked]
theorem writeBack_one (s : State) (f : Finish) (u : Access) (hf : plainFin f = true) : s.writeBack s.cur.1 s.cur.2 f [u] = wrote s f u.data := by
  cases f <;> first | rfl | cases hf
theorem wrote_cur (s : State) (f : Finish) (v : Nat) : (wrote s f v).cur = s.cur := by cases f <;> rfl
/-- The cause with which an answer fails. -/
def failCause : Ans → Option Nat
  | .fault c => some c
  | .faultAt c _ => some c
  | _ => none
/-- How an access that succeeded ends. -/
theorem finish_ok (s : State) (f : Finish) (l b : Nat) (r : Req) (a : Ans) (hf : plainFin f = true) (ha : a ≠ .cancelled) (hc : failCause a = none)
    (u : State) : u.await f ([⟨l, r, .done a, b⟩], s) = (wrote (passed s) f (Access.data ⟨l, r, .done a, b⟩)).retire := by
  rw [await_one _ _ _ _ rfl]
  unfold State.finishWait
  simp only [unpark_passed]
  have h1 : ([⟨l, r, .done a, b⟩] : List Access).find? (fun u => u.answer == some .cancelled) = none := by
    simp [Access.answer, ha]
  have h2 : failedUnit [⟨l, r, .done a, b⟩] = none := by
    simp only [failedUnit, List.find?_eq_none, List.mem_singleton, forall_eq, Access.cause]
    cases a <;> simp_all [failCause]
  have fin : ((passed s).writeBack s.cur.1 s.cur.2 f [⟨l, r, .done a, b⟩]).retireAt s.cur.1 s.cur.2 = (wrote (passed s) f (Access.data ⟨l, r, .done a, b⟩)).retire := by
    have e : (passed s).cur = s.cur := rfl
    rw [← e, writeBack_one _ _ _ hf, ← wrote_cur (passed s) f (Access.data ⟨l, r, .done a, b⟩), retireAt_cur]
  cases f <;> first | (cases hf; done) | (simp only [h1, h2]; exact fin)
/-- How an access that failed ends. -/
theorem finish_fault (s : State) (f : Finish) (l b : Nat) (r : Req) (c : Nat) (hf : plainFin f = true)
    (hc : (Access.covered ⟨l, r, .done (.fault c), b⟩) = false)
    (u : State) : u.await f ([⟨l, r, .done (.fault c), b⟩], s) = (passed s).trap c (BitVec.ofNat 64 r.va) := by
  rw [await_one _ _ _ _ rfl]
  unfold State.finishWait
  simp only [unpark_passed]
  have h2 : failedUnit [⟨l, r, .done (.fault c), b⟩] = some ⟨l, r, .done (.fault c), b⟩ := by
    simp [failedUnit, Access.cause]
  have fin : (passed s).failUnit s.cur.1 s.cur.2 f [⟨l, r, .done (.fault c), b⟩] ⟨l, r, .done (.fault c), b⟩ =
      (passed s).trap c (BitVec.ofNat 64 r.va) := by
    unfold State.failUnit State.failAs
    cases f <;> first
      | (cases hf; done)
      | (simp only [hc, Bool.and_false, Bool.false_eq_true, if_false]
         rfl)
  cases f <;> first | (cases hf; done) | (simp only [h2]; exact fin)

/-- The datum of an answer. -/
def ansData : Ans → Nat
  | .data v => v
  | _ => 0
/-- An access in the core's own local memory that is answered at once. -/
theorem own_ok {s : State} (q : Ask) {a : Nat} (h : s.ownByte q.va q.size q.op.kind = some a) (hr : q.release = true → (s.core s.cur.1).pending s.cur.2 = [])
    (hf : plainFin q.fin = true) {ans : Ans} {s2 : State} (hl : (s.newTag s.cur.1).2.atLocal s.cur.1 (field q.va 0 19) false (ownReq s q.op q.va) = (some ans, s2))
    (hcur : s2.cur = s.cur) (hfin : final ans) (ha : ans ≠ .cancelled) (hc : failCause ans = none)
    (hb : ∀ m d, q.op ≠ .block m d := by intro _ _ h; cases h) :
    s.access q = (wrote (passed s2) q.fin (ansData ans)).retire := by
  rw [access_own s q h hr, localUnits_one _ _ _ _ hb]
  simp only [hl, Access.answered, after_final hfin]
  rw [finish_ok _ _ _ _ _ _ hf ha hc]
  congr 2
  cases ans <;> rfl
theorem coveredPath_own {s : State} {va n k a} (h : s.ownByte va n k = some a) : coveredPath s.cur.1 va = false := by
  unfold coveredPath
  rw [(ownByte_some h).2.2.1]; rfl
/-- An access to the own local memory that fails. -/
theorem own_fault {s : State} (q : Ask) {a : Nat} (h : s.ownByte q.va q.size q.op.kind = some a) (hr : q.release = true → (s.core s.cur.1).pending s.cur.2 = [])
    (hf : plainFin q.fin = true) {c : Nat} {s2 : State} (hl : (s.newTag s.cur.1).2.atLocal s.cur.1 (field q.va 0 19) false (ownReq s q.op q.va) = (some (.fault c), s2))
    (hop : ∀ x y, q.op ≠ .lctl x y) (hb : ∀ m d, q.op ≠ .block m d := by intro _ _ h; cases h) :
    s.access q = (passed s2).trap c (BitVec.ofNat 64 q.va) := by
  rw [access_own s q h hr, localUnits_one _ _ _ _ hb]
  simp only [hl, Access.answered, after_final (show final (.fault c) from trivial)]
  rw [finish_fault _ _ _ _ _ _ hf]
  · rfl
  · unfold Access.covered
    have : (ownReq s q.op q.va).op = q.op := rfl
    simp only [this]
    split
    · next h => exact absurd h (hop _ _)
    · rfl
    · rfl
    · exact coveredPath_own h

/-- The state after the tag of an access was given out. -/
def tagged (s : State) : State := (s.newTag s.cur.1).2
theorem tagged_mem (s : State) : (tagged s).mem = s.mem := rfl
theorem tagged_cur (s : State) : (tagged s).cur = s.cur := rfl
theorem tagged_waitq (s : State) : (tagged s).waitq = s.waitq := rfl
theorem passed_tagged (s : State) : passed (tagged s) = s.accessed 1 := (accessed_one s).symm
theorem passed_tagged_mem (s : State) (m) : passed ((tagged s).withMem m) = (s.accessed 1).withMem m := by rw [← passed_tagged]; rfl
theorem atLocal_own (s : State) (op : Op) (va : Nat) (hop : ∀ w, op ≠ .touch w) :
    (s.newTag s.cur.1).2.atLocal s.cur.1 (field va 0 19) false (ownReq s op va) =
      (tagged s).homePerform (localAddr s.cur.1 (field va 0 19)) (cidKey s.cur.1) false false (ownReq s op va) := by
  unfold State.atLocal
  have h1 : (ownReq s op va).cid = s.cur.1 := rfl
  have h2 : (ownReq s op va).op = op := rfl
  simp only [h1, h2, ne_eq, not_true_eq_false, decide_false, Bool.false_and, Bool.false_eq_true, if_false]
  cases op with
  | touch w => exact absurd rfl (hop w)
  | _ => rfl
theorem isStore_own {s : State} {va n k a} (h : s.ownByte va n k = some a) : isStoreAddr a = false := by
  obtain ⟨-, rfl, -, hc, -⟩ := ownByte_some h
  have ho : field va 0 19 < 2 ^ 19 := by unfold field; exact Nat.mod_lt _ (by norm_num)
  unfold isStoreAddr localAddr
  simp only [Bool.and_eq_false_iff, decide_eq_false_iff_not]
  left; omega
theorem write_fields (m : Memory) (a n v : Nat) : (m.write a n v).empties = m.empties ∧ (m.write a n v).poison = m.poison := by
  induction n generalizing m a v with
  | zero => exact ⟨rfl, rfl⟩
  | succ n ih => exact ih (m.putByte a _) (a+1) _
theorem byte_write {m : Memory} (h : m.wf = true) (a n v x : Nat) :
    (m.write a n v).byte x = if a ≤ x ∧ x < a + n then BitVec.ofNat 8 (v / 256 ^ (x - a)) else m.byte x := by
  induction n generalizing m a v with
  | zero => rw [if_neg (by omega)]; rfl
  | succ n ih =>
    simp only [Memory.write]
    rw [ih (Memory.wf_putByte h _ _), Memory.byte_putByte h]
    by_cases h1 : x = a
    · subst h1
      simp
    · by_cases h2 : a + 1 ≤ x ∧ x < a + 1 + n
      · rw [if_pos h2, if_pos (by omega), show x - a = (x - (a + 1)) + 1 by omega, pow_succ', Nat.div_div_eq_div_mul]
      · rw [if_neg h2]
        simp only [h1, if_false]
        rw [if_neg (by omega)]
/-- A write, byte by byte. -/
theorem takes_write (m : Memory) (a n v : Nat) : m.takes ((m.write a n v).setPoison (wordOf a) false) a n v := by
  refine ⟨fun h x => byte_write h a n v x, fun w => ?_⟩
  rw [Memory.poisoned_setPoison]
  unfold Memory.poisoned wordOf
  rw [(write_fields m a n v).2]
  by_cases h : w = a / 8 <;> simp [h]
/-- A write leaves presence as it is. -/
theorem same_write (m : Memory) (a n v : Nat) : m.sameFull ((m.write a n v).setPoison (wordOf a) false) := by
  intro w
  unfold Memory.full Memory.setPoison
  simp only [(write_fields m a n v).1]
theorem write_mod (m : Memory) (a n v : Nat) : m.write a n (v % 2 ^ (8 * n)) = m.write a n v := by
  induction n generalizing m a v with
  | zero => rfl
  | succ n ih =>
    simp only [Memory.write]
    have e : 2 ^ (8 * (n + 1)) = 256 * 2 ^ (8 * n) := by rw [show 8 * (n+1) = 8 + 8 * n by ring, pow_add]; norm_num
    have h1 : BitVec.ofNat 8 (v % 2 ^ (8 * (n + 1))) = BitVec.ofNat 8 v := by
      apply BitVec.eq_of_toNat_eq
      simp only [BitVec.toNat_ofNat]
      rw [e]; exact Nat.mod_mul_right_mod v 256 _
    have h2 : v % 2 ^ (8 * (n + 1)) / 256 = v / 256 % 2 ^ (8 * n) := by
      rw [e, Nat.mod_mul_right_div_self]
    rw [h1, h2, ih]
theorem read_lt (m : Memory) (a n : Nat) : m.read a n < 2 ^ (8 * n) := by
  induction n generalizing a with
  | zero => simp [Memory.read]
  | succ n ih =>
    simp only [Memory.read]
    have := ih (a + 1)
    have h2 := (m.byte a).isLt
    rw [show 8 * (n+1) = 8 + 8 * n by ring, pow_add]
    omega
theorem size_ext (z : Size) (m : Memory) (a : Nat) : sizeExtend z (m.read a (sizeBytes z)) = (match z with
        | .i8 => (BitVec.ofNat 8 (m.read a 1)).signExtend 64
        | .i16 => (BitVec.ofNat 16 (m.read a 2)).signExtend 64
        | .i32 => (BitVec.ofNat 32 (m.read a 4)).signExtend 64
        | _ => BitVec.ofNat 64 (m.read a (sizeBytes z))) := by
  have sx : ∀ (w : Nat), 0 < w → ∀ r, r < 2 ^ w → BitVec.ofInt 64 (sextNat w r) = (BitVec.ofNat w r).signExtend 64 := by
    intro w hw r hr
    rw [sext_eq w r hw hr, BitVec.signExtend]
  cases z
  case i8 => exact sx 8 (by norm_num) _ (read_lt m a 1)
  case i16 => exact sx 16 (by norm_num) _ (read_lt m a 2)
  case i32 => exact sx 32 (by norm_num) _ (read_lt m a 4)
  all_goals
    unfold sizeExtend
    simp only
    rw [Nat.mod_eq_of_lt (read_lt m a _)]

theorem consume_no (s : State) (a n dom : Nat) (t : Bool) : s.consume a n dom false t = if s.mem.poisoned (a / 8) then (none, s) else (some (s.mem.read a n), s) := by
  unfold State.consume wordOf
  simp
/-- What the home does for a load. -/
theorem home_load {s : State} {va n : Nat} {a : Nat} (h : s.ownByte va n .read = some a) (sz : Nat) :
    (s.newTag s.cur.1).2.atLocal s.cur.1 (field va 0 19) false (ownReq s (.load sz) va) =
      if s.mem.poisoned (a / 8) then (some (.fault Cause.poison), tagged s) else (some (.data (s.mem.read a sz)), tagged s) := by
  have hs := isStore_own h
  obtain ⟨-, rfl, -⟩ := ownByte_some h
  rw [atLocal_own _ _ _ (by simp)]
  unfold State.homePerform
  have : (ownReq s (.load sz) va).op = .load sz := rfl
  simp only [this, condition, hs, Bool.not_false, Bool.true_or, if_true, State.performOp, consume_no, tagged_mem, wordOf, Op.changesP, Bool.false_and]
  by_cases hp : s.mem.poisoned (localAddr s.cur.1 (field va 0 19) / 8) = true <;> simp [hp]
/-- What the home does for a store. -/
theorem home_store {s : State} {va n : Nat} {k} {a : Nat} (h : s.ownByte va n k = some a) (sz v : Nat) :
    (s.newTag s.cur.1).2.atLocal s.cur.1 (field va 0 19) false (ownReq s (.store sz v) va) =
      if s.mem.poisoned (a / 8) ∧ sz ≠ 8 then (some (.fault Cause.poison), tagged s) else
        (some .ok, (tagged s).withMem ((s.mem.write a sz v).setPoison (wordOf a) false)) := by
  have hs := isStore_own h
  obtain ⟨-, rfl, -⟩ := ownByte_some h
  rw [atLocal_own _ _ _ (by simp)]
  unfold State.homePerform
  have : (ownReq s (.store sz v) va).op = .store sz v := rfl
  simp only [this, condition, hs, Bool.not_false, Bool.true_or, if_true, State.performOp, State.storeBytes, tagged_mem, wordOf, Op.changesP, Bool.false_and]
  by_cases h1 : s.mem.poisoned (localAddr s.cur.1 (field va 0 19) / 8) = true
  · by_cases h2 : sz = 8 <;> simp [h1, h2]
  · simp [h1]

/-- What an instruction with one access leads to when it succeeds. -/
theorem leads_ok {s : State} {i : Instr} {regs : List Nat} {k : State → State} {t : State} {a : Nat} {ans : Ans} {s2 : State} (q : Ask)
    (he : exec i s = .next (plain regs k s)) (hk : k s = s.access q) (hn : regs = i.named) (ha : i.afterPrefix = false)
    (h : s.ownByte q.va q.size q.op.kind = some a) (hr : q.release = true → (s.core s.cur.1).pending s.cur.2 = []) (hf : plainFin q.fin = true)
    (hl : (s.newTag s.cur.1).2.atLocal s.cur.1 (field q.va 0 19) false (ownReq s q.op q.va) = (some ans, s2))
    (hcur : s2.cur = s.cur) (hfin : final ans) (hx : ans ≠ .cancelled) (hc : failCause ans = none)
    (ht : (wrote (passed s2) q.fin (ansData ans)).retire = t) (hb : ∀ m d, q.op ≠ .block m d := by intro _ _ h; cases h) :
    s.leads i t :=
  leads_plain he hn ha (by rw [hk, own_ok q h hr hf hl hcur hfin hx hc hb, ht])
/-- What it leads to when it fails. -/
theorem leads_fault {s : State} {i : Instr} {regs : List Nat} {k : State → State} {a c : Nat} (q : Ask)
    (he : exec i s = .next (plain regs k s)) (hk : k s = s.access q) (hn : regs = i.named) (ha : i.afterPrefix = false)
    (h : s.ownByte q.va q.size q.op.kind = some a) (hr : q.release = true → (s.core s.cur.1).pending s.cur.2 = []) (hf : plainFin q.fin = true)
    (hl : (s.newTag s.cur.1).2.atLocal s.cur.1 (field q.va 0 19) false (ownReq s q.op q.va) = (some (.fault c), tagged s))
    (hop : ∀ x y, q.op ≠ .lctl x y) (hb : ∀ m d, q.op ≠ .block m d := by intro _ _ h; cases h) :
    s.leads i ((s.accessed 1).trap c (BitVec.ofNat 64 q.va)) :=
  leads_plain he hn ha (by rw [hk, own_fault q h hr hf hl hop hb, passed_tagged])
/-- Serving a word on which nobody waits. -/
theorem serve_none {s : State} {w : Nat} (h : s.watched w = false) (n : Nat) : s.serve w n = s := by
  cases n with
  | zero => rfl
  | succ n =>
    unfold State.serve
    have : s.servable w = none := by
      unfold State.servable
      rw [List.find?_eq_none]
      intro e he
      unfold State.watched at h
      rw [List.any_eq_false] at h
      have := h e he
      simp_all
    rw [this]
theorem watched_withMem (s : State) (m) (w) : (s.withMem m).watched w = s.watched w := rfl
theorem op_own (s : State) (op va) : (ownReq s op va).op = op := rfl
/-- Performing at once an operation that is neither WAITV nor WAKE. -/
theorem home_do {s : State} {va n : Nat} {k} {a : Nat} {op : Op} (h : s.ownByte va n k = some a) (hw : s.watched (a / 8) = false)
    (hop : ∀ w, op ≠ .touch w) (h1 : ∀ v, op ≠ .waitv v) (h2 : ∀ v, op ≠ .wake v) (hc : condition s.mem (a / 8) false op = true)
    {ans : Ans} {s2 : State} (hp : (tagged s).performOp a false false (ownReq s op va) = (ans, s2)) (hq : s2.waitq = s.waitq) :
    (s.newTag s.cur.1).2.atLocal s.cur.1 (field va 0 19) false (ownReq s op va) = (some ans, s2) := by
  have hs := isStore_own h
  obtain ⟨-, rfl, -⟩ := ownByte_some h
  rw [atLocal_own _ _ _ hop]
  unfold State.homePerform
  simp only [op_own]
  have hz : s2.serveAll (wordOf (localAddr s.cur.1 (field va 0 19))) = s2 := by
    unfold State.serveAll
    apply serve_none
    unfold State.watched at hw ⊢
    rw [hq]; exact hw
  cases op <;> first
    | exact absurd rfl (h1 _)
    | exact absurd rfl (h2 _)
    | (simp only [hs, tagged_mem, wordOf] at hc ⊢
       rw [if_pos hc, hp]
       simp only [hz, wordOf] at *
       simp [hz])
/-- A wait in the word's list. -/
theorem home_join {s : State} {va n : Nat} {k} {a : Nat} {op : Op} (h : s.ownByte va n k = some a)
    (hop : ∀ w, op ≠ .touch w) (h1 : ∀ v, op ≠ .waitv v) (h2 : ∀ v, op ≠ .wake v) (hc : condition s.mem (a / 8) false op = false) :
    (s.newTag s.cur.1).2.atLocal s.cur.1 (field va 0 19) false (ownReq s op va) =
      (tagged s).joinList a (cidKey s.cur.1) false false (ownReq s op va) := by
  have hs := isStore_own h
  obtain ⟨-, rfl, -⟩ := ownByte_some h
  rw [atLocal_own _ _ _ hop]
  unfold State.homePerform
  simp only [op_own]
  cases op <;> first
    | exact absurd rfl (h1 _)
    | exact absurd rfl (h2 _)
    | (simp only [hs, tagged_mem, wordOf] at hc ⊢
       rw [if_neg (by rw [hc]; simp)])
theorem room_tagged (s : State) (a dom : Nat) : (tagged s).poolRoom a dom = s.poolRoom a dom := rfl
theorem join_room {s : State} {a src : Nat} {r : Req} (h : s.poolRoom a r.dom = true) :
    (tagged s).joinList a src false false r = (none, { tagged s with waitq := s.waitq ++ [⟨a / 8, (poolOf a).1, src, r, src, false, false⟩] }) := by
  unfold State.joinList
  rw [room_tagged, if_pos h]; rfl
theorem g_tagged (s : State) (k : Nat) : (tagged s).g k = s.g k := by
  unfold tagged State.g State.gOf
  rw [newTag_eq, onCore_cur]
  simp only [State.thread, State.core_onCore_same]
  rfl
theorem thr_tagged (s : State) : (tagged s).thr = s.thr := by
  unfold tagged State.thr State.thread
  rw [newTag_eq, onCore_cur, State.core_onCore_same]
  rfl
/-- An instruction whose operation joins the wait list. -/
theorem joins_ok {s : State} {i : Instr} {regs : List Nat} {k : State → State} {a src : Nat} (q : Ask)
    (he : exec i s = .next (plain regs k s)) (hk : k s = s.access q) (hn : regs = i.named) (ha : i.afterPrefix = false)
    (h : s.ownByte q.va q.size q.op.kind = some a) (hr : q.release = true → (s.core s.cur.1).pending s.cur.2 = [])
    (hroom : s.poolRoom a s.thr.dom = true)
    (hl : (s.newTag s.cur.1).2.atLocal s.cur.1 (field q.va 0 19) false (ownReq s q.op q.va) = (tagged s).joinList a src false false (ownReq s q.op q.va))
    (hb : ∀ m d, q.op ≠ .block m d := by intro _ _ h; cases h) : s.joins i a q.op := by
  intro hadm
  have hd : (ownReq s q.op q.va).dom = s.thr.dom := congrArg Thread.dom (thr_tagged s)
  rw [join_room (by rw [hd]; exact hroom)] at hl
  rw [plain_next he hn ha hadm, hk, access_own s q h hr, localUnits_one _ _ _ _ hb]
  simp only [hl]
  refine ⟨_, ⟨a / 8, (poolOf a).1, src, ownReq s q.op q.va, src, false, false⟩, rfl, ?_⟩
  have e : ∀ (x u : State) f (us : List Access), us.all (fun (u : Access) => u.answer.isSome) = false → failedUnit us = none →
      x.await f (us, u) = u.parkMem f us := by
    intro x u f us hu hf
    unfold State.await State.settleWait
    have : ((u.parkMem f us).thread u.cur.1 u.cur.2).wait = .mem f us false := by
      unfold State.parkMem State.onThr
      rw [State.thread_onThread_same]; rfl
    simp only [hu, this, hf, Bool.false_eq_true, if_false]
  rw [e _ _ _ _ (by rfl) rfl]
  have hthr : ∀ (u : State) f us, (u.parkMem f us).thr = { u.thr with st := .parkedMem, from_ := u.thr.st, wait := .mem f us false, issue0 := some (u.thr.issue0.getD u.now), retry0 := none, parked := u.now, pipe := u.now } := by
    intro u f us; unfold State.parkMem; rw [State.thr_onThr]; rfl
  refine ⟨rfl, rfl, rfl, rfl, rfl, hd, rfl, ?_, ?_, ?_⟩
  · rw [hthr]
  · rw [hthr]
    show (tagged s).thr.pc = s.thr.pc
    rw [thr_tagged]
  · intro j
    unfold State.parkMem
    rw [State.g_onThr _ _ _ rfl]
    exact g_tagged s j

end Sys2Proof.Laws
end

