-- ==== Sys2Proof/Laws/PerInstr.lean ====
section
/-!
SUPPORT. Per instruction: each of its words fits the 32 bits of an instruction word (05 R101, R105).
-/
namespace Sys2Proof.Laws

theorem fits_encA {op d s t fn : Nat} (ho : op < 64) (hd : d < 128) (hs : s < 128) (ht : t < 128) (hf : fn < 32) :
    encA op d s t fn < 2 ^ 32 := by unfold encA; omega
theorem fits_encI {op d s imm : Nat} (ho : op < 64) (hd : d < 128) (hs : s < 128) (hi : imm < 4096) :
    encI op d s imm < 2 ^ 32 := by unfold encI; omega
theorem fits_encU {op d imm : Nat} (ho : op < 64) (hd : d < 128) (hi : imm < 524288) : encU op d imm < 2 ^ 32 := by
  unfold encU; omega
theorem fits_encM {op d s o z : Nat} (ho : op < 64) (hd : d < 128) (hs : s < 128) (hi : o < 512) (hz : z < 8) :
    encM op d s o z < 2 ^ 32 := by unfold encM; omega
theorem fits_encV {op d s t m y fn : Nat} (ho : op < 64) (hd : d < 16) (hs : s < 16) (ht : t < 16) (hm : m < 8) (hy : y < 8)
    (hf : fn < 256) : encV op d s t m y fn < 2 ^ 32 := by unfold encV; omega
theorem fits_encVM {op d s t m fn : Nat} (ho : op < 64) (hd : d < 16) (hs : s < 128) (ht : t < 128) (hm : m < 8)
    (hf : fn < 32) : encVM op d s t m fn < 2 ^ 32 := by unfold encVM; omega
theorem fits_zero : 0 < 2 ^ 32 := by decide
theorem fits_encQ {q f : Nat} (hq : q < 128) (hf : f < 512) : encQ q f < 2 ^ 32 := by unfold encQ; omega
@[simp] theorem Ty.code_lt (y : Ty) : y.code < 8 := by cases y <;> decide
@[simp] theorem Size.code_lt (z : Size) : z.code < 8 := by cases z <;> decide
@[simp] theorem Scope.code_lt (c : Scope) : c.code < 128 := by cases c <;> decide
@[simp] theorem BWidth.code_lt (w : BWidth) : w.code < 128 := by cases w <;> decide
@[simp] theorem Ty.code_lt_16 (y : Ty) : y.code < 16 := by cases y <;> decide
@[simp] theorem Width.atomMajor_lt (w : Width) : w.atomMajor < 64 := by cases w <;> decide
@[simp] theorem Width.floatMajor_lt (w : Width) : w.floatMajor < 64 := by cases w <;> decide
@[simp] theorem Bool.toNat_lt_128 (b : Bool) : b.toNat < 128 := by cases b <;> decide
@[simp] theorem Bool.toNat_lt_512 (b : Bool) : b.toNat < 512 := by cases b <;> decide

/-- Both words fit 32 bits (05 R101). -/
def Fits.Statement (i : Instr) : Prop := i.words.1 < 2 ^ 32 ∧ i.words.2 < 2 ^ 32

theorem Fits.add (d : Reg) (s : Reg) (t : Reg) : Fits.Statement (.add d s t) :=
  ⟨fits_encA (by decide) d.isLt s.isLt t.isLt (by decide), fits_zero⟩
theorem Fits.sub (d : Reg) (s : Reg) (t : Reg) : Fits.Statement (.sub d s t) :=
  ⟨fits_encA (by decide) d.isLt s.isLt t.isLt (by decide), fits_zero⟩
theorem Fits.mul (d : Reg) (s : Reg) (t : Reg) : Fits.Statement (.mul d s t) :=
  ⟨fits_encA (by decide) d.isLt s.isLt t.isLt (by decide), fits_zero⟩
theorem Fits.mulh (d : Reg) (s : Reg) (t : Reg) : Fits.Statement (.mulh d s t) :=
  ⟨fits_encA (by decide) d.isLt s.isLt t.isLt (by decide), fits_zero⟩
theorem Fits.mulhn (d : Reg) (s : Reg) (t : Reg) : Fits.Statement (.mulhn d s t) :=
  ⟨fits_encA (by decide) d.isLt s.isLt t.isLt (by decide), fits_zero⟩
theorem Fits.div (d : Reg) (s : Reg) (t : Reg) : Fits.Statement (.div d s t) :=
  ⟨fits_encA (by decide) d.isLt s.isLt t.isLt (by decide), fits_zero⟩
theorem Fits.divn (d : Reg) (s : Reg) (t : Reg) : Fits.Statement (.divn d s t) :=
  ⟨fits_encA (by decide) d.isLt s.isLt t.isLt (by decide), fits_zero⟩
theorem Fits.rem (d : Reg) (s : Reg) (t : Reg) : Fits.Statement (.rem d s t) :=
  ⟨fits_encA (by decide) d.isLt s.isLt t.isLt (by decide), fits_zero⟩
theorem Fits.remn (d : Reg) (s : Reg) (t : Reg) : Fits.Statement (.remn d s t) :=
  ⟨fits_encA (by decide) d.isLt s.isLt t.isLt (by decide), fits_zero⟩
theorem Fits.and (d : Reg) (s : Reg) (t : Reg) : Fits.Statement (.and d s t) :=
  ⟨fits_encA (by decide) d.isLt s.isLt t.isLt (by decide), fits_zero⟩
theorem Fits.or (d : Reg) (s : Reg) (t : Reg) : Fits.Statement (.or d s t) :=
  ⟨fits_encA (by decide) d.isLt s.isLt t.isLt (by decide), fits_zero⟩
theorem Fits.xor (d : Reg) (s : Reg) (t : Reg) : Fits.Statement (.xor d s t) :=
  ⟨fits_encA (by decide) d.isLt s.isLt t.isLt (by decide), fits_zero⟩
theorem Fits.andn (d : Reg) (s : Reg) (t : Reg) : Fits.Statement (.andn d s t) :=
  ⟨fits_encA (by decide) d.isLt s.isLt t.isLt (by decide), fits_zero⟩
theorem Fits.shl (d : Reg) (s : Reg) (t : Reg) : Fits.Statement (.shl d s t) :=
  ⟨fits_encA (by decide) d.isLt s.isLt t.isLt (by decide), fits_zero⟩
theorem Fits.shr (d : Reg) (s : Reg) (t : Reg) : Fits.Statement (.shr d s t) :=
  ⟨fits_encA (by decide) d.isLt s.isLt t.isLt (by decide), fits_zero⟩
theorem Fits.shra (d : Reg) (s : Reg) (t : Reg) : Fits.Statement (.shra d s t) :=
  ⟨fits_encA (by decide) d.isLt s.isLt t.isLt (by decide), fits_zero⟩
theorem Fits.rotl (d : Reg) (s : Reg) (t : Reg) : Fits.Statement (.rotl d s t) :=
  ⟨fits_encA (by decide) d.isLt s.isLt t.isLt (by decide), fits_zero⟩
theorem Fits.min (d : Reg) (s : Reg) (t : Reg) : Fits.Statement (.min d s t) :=
  ⟨fits_encA (by decide) d.isLt s.isLt t.isLt (by decide), fits_zero⟩
theorem Fits.max (d : Reg) (s : Reg) (t : Reg) : Fits.Statement (.max d s t) :=
  ⟨fits_encA (by decide) d.isLt s.isLt t.isLt (by decide), fits_zero⟩
theorem Fits.minn (d : Reg) (s : Reg) (t : Reg) : Fits.Statement (.minn d s t) :=
  ⟨fits_encA (by decide) d.isLt s.isLt t.isLt (by decide), fits_zero⟩
theorem Fits.maxn (d : Reg) (s : Reg) (t : Reg) : Fits.Statement (.maxn d s t) :=
  ⟨fits_encA (by decide) d.isLt s.isLt t.isLt (by decide), fits_zero⟩
theorem Fits.lea2 (d : Reg) (s : Reg) (t : Reg) : Fits.Statement (.lea2 d s t) :=
  ⟨fits_encA (by decide) d.isLt s.isLt t.isLt (by decide), fits_zero⟩
theorem Fits.lea4 (d : Reg) (s : Reg) (t : Reg) : Fits.Statement (.lea4 d s t) :=
  ⟨fits_encA (by decide) d.isLt s.isLt t.isLt (by decide), fits_zero⟩
theorem Fits.lea8 (d : Reg) (s : Reg) (t : Reg) : Fits.Statement (.lea8 d s t) :=
  ⟨fits_encA (by decide) d.isLt s.isLt t.isLt (by decide), fits_zero⟩
theorem Fits.addw (d : Reg) (s : Reg) (t : Reg) : Fits.Statement (.addw d s t) :=
  ⟨fits_encA (by decide) d.isLt s.isLt t.isLt (by decide), fits_zero⟩
theorem Fits.mulw (d : Reg) (s : Reg) (t : Reg) : Fits.Statement (.mulw d s t) :=
  ⟨fits_encA (by decide) d.isLt s.isLt t.isLt (by decide), fits_zero⟩
theorem Fits.clz (d : Reg) (s : Reg) : Fits.Statement (.clz d s) :=
  ⟨fits_encA (by decide) d.isLt s.isLt (by decide) (by decide), fits_zero⟩
theorem Fits.ctz (d : Reg) (s : Reg) : Fits.Statement (.ctz d s) :=
  ⟨fits_encA (by decide) d.isLt s.isLt (by decide) (by decide), fits_zero⟩
theorem Fits.popc (d : Reg) (s : Reg) : Fits.Statement (.popc d s) :=
  ⟨fits_encA (by decide) d.isLt s.isLt (by decide) (by decide), fits_zero⟩
theorem Fits.brev (d : Reg) (s : Reg) : Fits.Statement (.brev d s) :=
  ⟨fits_encA (by decide) d.isLt s.isLt (by decide) (by decide), fits_zero⟩
theorem Fits.bswap (d : Reg) (s : Reg) : Fits.Statement (.bswap d s) :=
  ⟨fits_encA (by decide) d.isLt s.isLt (by decide) (by decide), fits_zero⟩
theorem Fits.absd (d : Reg) (s : Reg) (t : Reg) : Fits.Statement (.absd d s t) :=
  ⟨fits_encA (by decide) d.isLt s.isLt t.isLt (by decide), fits_zero⟩
theorem Fits.addi (d : Reg) (s : Reg) (i : BitVec 12) : Fits.Statement (.addi d s i) :=
  ⟨fits_encI (by decide) d.isLt s.isLt (Nat.lt_of_lt_of_le i.isLt (by decide)), fits_zero⟩
theorem Fits.andi (d : Reg) (s : Reg) (i : BitVec 12) : Fits.Statement (.andi d s i) :=
  ⟨fits_encI (by decide) d.isLt s.isLt (Nat.lt_of_lt_of_le i.isLt (by decide)), fits_zero⟩
theorem Fits.ori (d : Reg) (s : Reg) (i : BitVec 12) : Fits.Statement (.ori d s i) :=
  ⟨fits_encI (by decide) d.isLt s.isLt (Nat.lt_of_lt_of_le i.isLt (by decide)), fits_zero⟩
theorem Fits.xori (d : Reg) (s : Reg) (i : BitVec 12) : Fits.Statement (.xori d s i) :=
  ⟨fits_encI (by decide) d.isLt s.isLt (Nat.lt_of_lt_of_le i.isLt (by decide)), fits_zero⟩
theorem Fits.shli (d : Reg) (s : Reg) (n : Fin 64) : Fits.Statement (.shli d s n) :=
  ⟨fits_encI (by decide) d.isLt s.isLt (by omega), fits_zero⟩
theorem Fits.shri (d : Reg) (s : Reg) (n : Fin 64) : Fits.Statement (.shri d s n) :=
  ⟨fits_encI (by decide) d.isLt s.isLt (by omega), fits_zero⟩
theorem Fits.shrai (d : Reg) (s : Reg) (n : Fin 64) : Fits.Statement (.shrai d s n) :=
  ⟨fits_encI (by decide) d.isLt s.isLt (by omega), fits_zero⟩
theorem Fits.rotli (d : Reg) (s : Reg) (n : Fin 64) : Fits.Statement (.rotli d s n) :=
  ⟨fits_encI (by decide) d.isLt s.isLt (by omega), fits_zero⟩
theorem Fits.movi (d : Reg) (i : BitVec 19) : Fits.Statement (.movi d i) :=
  ⟨fits_encU (by decide) d.isLt (Nat.lt_of_lt_of_le i.isLt (by decide)), fits_zero⟩
theorem Fits.movs (d : Reg) (i : BitVec 19) : Fits.Statement (.movs d i) :=
  ⟨fits_encU (by decide) d.isLt (Nat.lt_of_lt_of_le i.isLt (by decide)), fits_zero⟩
theorem Fits.bfx (d : Reg) (s : Reg) (p : Fin 64) (l : Fin 64) : Fits.Statement (.bfx d s p l) :=
  ⟨fits_encI (by decide) d.isLt s.isLt (by omega), fits_zero⟩
theorem Fits.bfxs (d : Reg) (s : Reg) (p : Fin 64) (l : Fin 64) : Fits.Statement (.bfxs d s p l) :=
  ⟨fits_encI (by decide) d.isLt s.isLt (by omega), fits_zero⟩
theorem Fits.bfi (d : Reg) (s : Reg) (p : Fin 64) (l : Fin 64) : Fits.Statement (.bfi d s p l) :=
  ⟨fits_encI (by decide) d.isLt s.isLt (by omega), fits_zero⟩
theorem Fits.cmpeq (p : Pred) (s : Reg) (t : Reg) : Fits.Statement (.cmpeq p s t) :=
  ⟨fits_encA (by decide) (by omega) s.isLt t.isLt (by decide), fits_zero⟩
theorem Fits.cmpne (p : Pred) (s : Reg) (t : Reg) : Fits.Statement (.cmpne p s t) :=
  ⟨fits_encA (by decide) (by omega) s.isLt t.isLt (by decide), fits_zero⟩
theorem Fits.cmplt (p : Pred) (s : Reg) (t : Reg) : Fits.Statement (.cmplt p s t) :=
  ⟨fits_encA (by decide) (by omega) s.isLt t.isLt (by decide), fits_zero⟩
theorem Fits.cmple (p : Pred) (s : Reg) (t : Reg) : Fits.Statement (.cmple p s t) :=
  ⟨fits_encA (by decide) (by omega) s.isLt t.isLt (by decide), fits_zero⟩
theorem Fits.cmpltn (p : Pred) (s : Reg) (t : Reg) : Fits.Statement (.cmpltn p s t) :=
  ⟨fits_encA (by decide) (by omega) s.isLt t.isLt (by decide), fits_zero⟩
theorem Fits.cmplen (p : Pred) (s : Reg) (t : Reg) : Fits.Statement (.cmplen p s t) :=
  ⟨fits_encA (by decide) (by omega) s.isLt t.isLt (by decide), fits_zero⟩
theorem Fits.tstnz (p : Pred) (s : Reg) (t : Reg) : Fits.Statement (.tstnz p s t) :=
  ⟨fits_encA (by decide) (by omega) s.isLt t.isLt (by decide), fits_zero⟩
theorem Fits.tstz (p : Pred) (s : Reg) (t : Reg) : Fits.Statement (.tstz p s t) :=
  ⟨fits_encA (by decide) (by omega) s.isLt t.isLt (by decide), fits_zero⟩
theorem Fits.cmpeqi (p : Pred) (s : Reg) (i : BitVec 12) : Fits.Statement (.cmpeqi p s i) :=
  ⟨fits_encI (by decide) (by omega) s.isLt (Nat.lt_of_lt_of_le i.isLt (by decide)), fits_zero⟩
theorem Fits.cmpnei (p : Pred) (s : Reg) (i : BitVec 12) : Fits.Statement (.cmpnei p s i) :=
  ⟨fits_encI (by decide) (by omega) s.isLt (Nat.lt_of_lt_of_le i.isLt (by decide)), fits_zero⟩
theorem Fits.cmplti (p : Pred) (s : Reg) (i : BitVec 12) : Fits.Statement (.cmplti p s i) :=
  ⟨fits_encI (by decide) (by omega) s.isLt (Nat.lt_of_lt_of_le i.isLt (by decide)), fits_zero⟩
theorem Fits.cmplei (p : Pred) (s : Reg) (i : BitVec 12) : Fits.Statement (.cmplei p s i) :=
  ⟨fits_encI (by decide) (by omega) s.isLt (Nat.lt_of_lt_of_le i.isLt (by decide)), fits_zero⟩
theorem Fits.cmpgti (p : Pred) (s : Reg) (i : BitVec 12) : Fits.Statement (.cmpgti p s i) :=
  ⟨fits_encI (by decide) (by omega) s.isLt (Nat.lt_of_lt_of_le i.isLt (by decide)), fits_zero⟩
theorem Fits.cmpgei (p : Pred) (s : Reg) (i : BitVec 12) : Fits.Statement (.cmpgei p s i) :=
  ⟨fits_encI (by decide) (by omega) s.isLt (Nat.lt_of_lt_of_le i.isLt (by decide)), fits_zero⟩
theorem Fits.cmpltni (p : Pred) (s : Reg) (i : BitVec 12) : Fits.Statement (.cmpltni p s i) :=
  ⟨fits_encI (by decide) (by omega) s.isLt (Nat.lt_of_lt_of_le i.isLt (by decide)), fits_zero⟩
theorem Fits.cmpleni (p : Pred) (s : Reg) (i : BitVec 12) : Fits.Statement (.cmpleni p s i) :=
  ⟨fits_encI (by decide) (by omega) s.isLt (Nat.lt_of_lt_of_le i.isLt (by decide)), fits_zero⟩
theorem Fits.cmpgtni (p : Pred) (s : Reg) (i : BitVec 12) : Fits.Statement (.cmpgtni p s i) :=
  ⟨fits_encI (by decide) (by omega) s.isLt (Nat.lt_of_lt_of_le i.isLt (by decide)), fits_zero⟩
theorem Fits.cmpgeni (p : Pred) (s : Reg) (i : BitVec 12) : Fits.Statement (.cmpgeni p s i) :=
  ⟨fits_encI (by decide) (by omega) s.isLt (Nat.lt_of_lt_of_le i.isLt (by decide)), fits_zero⟩
theorem Fits.pand (d : Pred) (s : Pred) (t : Pred) : Fits.Statement (.pand d s t) :=
  ⟨fits_encA (by decide) (by omega) (by omega) (by omega) (by decide), fits_zero⟩
theorem Fits.por (d : Pred) (s : Pred) (t : Pred) : Fits.Statement (.por d s t) :=
  ⟨fits_encA (by decide) (by omega) (by omega) (by omega) (by decide), fits_zero⟩
theorem Fits.pxor (d : Pred) (s : Pred) (t : Pred) : Fits.Statement (.pxor d s t) :=
  ⟨fits_encA (by decide) (by omega) (by omega) (by omega) (by decide), fits_zero⟩
theorem Fits.pandn (d : Pred) (s : Pred) (t : Pred) : Fits.Statement (.pandn d s t) :=
  ⟨fits_encA (by decide) (by omega) (by omega) (by omega) (by decide), fits_zero⟩
theorem Fits.pnot (d : Pred) (s : Pred) : Fits.Statement (.pnot d s) :=
  ⟨fits_encA (by decide) (by omega) (by omega) (by decide) (by decide), fits_zero⟩
theorem Fits.pmov (d : Pred) (s : Pred) : Fits.Statement (.pmov d s) :=
  ⟨fits_encA (by decide) (by omega) (by omega) (by decide) (by decide), fits_zero⟩
theorem Fits.pall (d : Pred) : Fits.Statement (.pall d) :=
  ⟨fits_encA (by decide) (by omega) (by decide) (by decide) (by decide), fits_zero⟩
theorem Fits.pnone (d : Pred) : Fits.Statement (.pnone d) :=
  ⟨fits_encA (by decide) (by omega) (by decide) (by decide) (by decide), fits_zero⟩
theorem Fits.sel (d : Reg) (s : Reg) (t : Reg) (f : Pred) : Fits.Statement (.sel d s t f) :=
  ⟨fits_encA (by decide) d.isLt s.isLt t.isLt (by omega), fits_zero⟩
theorem Fits.br (x : BitVec 26) : Fits.Statement (.br x) := by
  have hx := x.isLt; exact ⟨by simp only [Instr.words]; omega, fits_zero⟩
theorem Fits.call (x : BitVec 26) : Fits.Statement (.call x) := by
  have hx := x.isLt; exact ⟨by simp only [Instr.words]; omega, fits_zero⟩
theorem Fits.bp (p : Pred) (x : BitVec 22) : Fits.Statement (.bp p x) := by
  have hx := x.isLt; exact ⟨by simp only [Instr.words]; omega, fits_zero⟩
theorem Fits.bnp (p : Pred) (x : BitVec 22) : Fits.Statement (.bnp p x) := by
  have hx := x.isLt; exact ⟨by simp only [Instr.words]; omega, fits_zero⟩
theorem Fits.bz (s : Reg) (x : BitVec 18) : Fits.Statement (.bz s x) := by
  have hx := x.isLt; exact ⟨by simp only [Instr.words]; omega, fits_zero⟩
theorem Fits.bnz (s : Reg) (x : BitVec 18) : Fits.Statement (.bnz s x) := by
  have hx := x.isLt; exact ⟨by simp only [Instr.words]; omega, fits_zero⟩
theorem Fits.jr (s : Reg) : Fits.Statement (.jr s) :=
  ⟨fits_encA (by decide) (by decide) s.isLt (by decide) (by decide), fits_zero⟩
theorem Fits.jrl (s : Reg) : Fits.Statement (.jrl s) :=
  ⟨fits_encA (by decide) (by decide) s.isLt (by decide) (by decide), fits_zero⟩
theorem Fits.ret : Fits.Statement (.ret) :=
  ⟨fits_encA (by decide) (by decide) (by decide) (by decide) (by decide), fits_zero⟩
theorem Fits.nop : Fits.Statement (.nop) :=
  ⟨fits_encA (by decide) (by decide) (by decide) (by decide) (by decide), fits_zero⟩
theorem Fits.yield : Fits.Statement (.yield) :=
  ⟨fits_encA (by decide) (by decide) (by decide) (by decide) (by decide), fits_zero⟩
theorem Fits.brk : Fits.Statement (.brk) :=
  ⟨fits_encA (by decide) (by decide) (by decide) (by decide) (by decide), fits_zero⟩
theorem Fits.fmtp (a : Fmt) (b : Fmt) (c : Fmt) : Fits.Statement (.fmtp a b c) :=
  ⟨fits_encV (by decide) (by omega) (by omega) (by omega) (by decide) (by decide) (by decide), fits_zero⟩
theorem Fits.fdset (f : Fmt) (s : Reg) : Fits.Statement (.fdset f s) :=
  ⟨fits_encA (by decide) (by omega) s.isLt (by decide) (by decide), fits_zero⟩
theorem Fits.fdget (d : Reg) (f : Fmt) : Fits.Statement (.fdget d f) :=
  ⟨fits_encA (by decide) d.isLt (by omega) (by decide) (by decide), fits_zero⟩
theorem Fits.ld (d : Reg) (s : Reg) (o : BitVec 9) (z : Size) : Fits.Statement (.ld d s o z) :=
  ⟨fits_encM (by decide) d.isLt s.isLt (Nat.lt_of_lt_of_le o.isLt (by decide)) (by simp), fits_zero⟩
theorem Fits.st (d : Reg) (s : Reg) (o : BitVec 9) (z : Size) : Fits.Statement (.st d s o z) :=
  ⟨fits_encM (by decide) d.isLt s.isLt (Nat.lt_of_lt_of_le o.isLt (by decide)) (by simp), fits_zero⟩
theorem Fits.ldf (d : Reg) (s : Reg) (o : BitVec 9) : Fits.Statement (.ldf d s o) :=
  ⟨fits_encM (by decide) d.isLt s.isLt (Nat.lt_of_lt_of_le o.isLt (by decide)) (by decide), fits_zero⟩
theorem Fits.ldt (d : Reg) (s : Reg) (o : BitVec 9) : Fits.Statement (.ldt d s o) :=
  ⟨fits_encM (by decide) d.isLt s.isLt (Nat.lt_of_lt_of_le o.isLt (by decide)) (by decide), fits_zero⟩
theorem Fits.stp (d : Reg) (s : Reg) (o : BitVec 9) : Fits.Statement (.stp d s o) :=
  ⟨fits_encM (by decide) d.isLt s.isLt (Nat.lt_of_lt_of_le o.isLt (by decide)) (by decide), fits_zero⟩
theorem Fits.stf (d : Reg) (s : Reg) (o : BitVec 9) : Fits.Statement (.stf d s o) :=
  ⟨fits_encM (by decide) d.isLt s.isLt (Nat.lt_of_lt_of_le o.isLt (by decide)) (by decide), fits_zero⟩
theorem Fits.sete (s : Reg) : Fits.Statement (.sete s) :=
  ⟨fits_encA (by decide) (by decide) s.isLt (by decide) (by decide), fits_zero⟩
theorem Fits.setf (s : Reg) : Fits.Statement (.setf s) :=
  ⟨fits_encA (by decide) (by decide) s.isLt (by decide) (by decide), fits_zero⟩
theorem Fits.probe (d : Reg) (s : Reg) : Fits.Statement (.probe d s) :=
  ⟨fits_encA (by decide) d.isLt s.isLt (by decide) (by decide), fits_zero⟩
theorem Fits.waitf (s : Reg) : Fits.Statement (.waitf s) :=
  ⟨fits_encA (by decide) (by decide) s.isLt (by decide) (by decide), fits_zero⟩
theorem Fits.waite (s : Reg) : Fits.Statement (.waite s) :=
  ⟨fits_encA (by decide) (by decide) s.isLt (by decide) (by decide), fits_zero⟩
theorem Fits.fence (c : Scope) : Fits.Statement (.fence c) :=
  ⟨fits_encA (by decide) (by decide) (by decide) (by simp) (by decide), fits_zero⟩
theorem Fits.jsync : Fits.Statement (.jsync) :=
  ⟨fits_encA (by decide) (by decide) (by decide) (by decide) (by decide), fits_zero⟩
theorem Fits.rbegin (d : Reg) : Fits.Statement (.rbegin d) :=
  ⟨fits_encA (by decide) d.isLt (by decide) (by decide) (by decide), fits_zero⟩
theorem Fits.rcommit : Fits.Statement (.rcommit) :=
  ⟨fits_encA (by decide) (by decide) (by decide) (by decide) (by decide), fits_zero⟩
theorem Fits.pref (s : Reg) : Fits.Statement (.pref s) :=
  ⟨fits_encA (by decide) (by decide) s.isLt (by decide) (by decide), fits_zero⟩
theorem Fits.migr (s : Reg) : Fits.Statement (.migr s) :=
  ⟨fits_encA (by decide) (by decide) s.isLt (by decide) (by decide), fits_zero⟩
theorem Fits.livem (d : Reg) (s : Reg) (m : Bool) : Fits.Statement (.livem d s m) :=
  ⟨fits_encA (by decide) d.isLt s.isLt (Bool.toNat_lt_128 _) (by decide), fits_zero⟩
theorem Fits.touch (s : Reg) (w : Bool) : Fits.Statement (.touch s w) :=
  ⟨fits_encA (by decide) (by decide) s.isLt (Bool.toNat_lt_128 _) (by decide), fits_zero⟩
theorem Fits.rabort (s : Reg) : Fits.Statement (.rabort s) :=
  ⟨fits_encA (by decide) (by decide) s.isLt (by decide) (by decide), fits_zero⟩
theorem Fits.aadd (w : Width) (d : Reg) (s : Reg) (t : Reg) : Fits.Statement (.aadd w d s t) :=
  ⟨fits_encA (by simp) d.isLt s.isLt t.isLt (by decide), fits_zero⟩
theorem Fits.aand (w : Width) (d : Reg) (s : Reg) (t : Reg) : Fits.Statement (.aand w d s t) :=
  ⟨fits_encA (by simp) d.isLt s.isLt t.isLt (by decide), fits_zero⟩
theorem Fits.aor (w : Width) (d : Reg) (s : Reg) (t : Reg) : Fits.Statement (.aor w d s t) :=
  ⟨fits_encA (by simp) d.isLt s.isLt t.isLt (by decide), fits_zero⟩
theorem Fits.axor (w : Width) (d : Reg) (s : Reg) (t : Reg) : Fits.Statement (.axor w d s t) :=
  ⟨fits_encA (by simp) d.isLt s.isLt t.isLt (by decide), fits_zero⟩
theorem Fits.amin (w : Width) (d : Reg) (s : Reg) (t : Reg) : Fits.Statement (.amin w d s t) :=
  ⟨fits_encA (by simp) d.isLt s.isLt t.isLt (by decide), fits_zero⟩
theorem Fits.amax (w : Width) (d : Reg) (s : Reg) (t : Reg) : Fits.Statement (.amax w d s t) :=
  ⟨fits_encA (by simp) d.isLt s.isLt t.isLt (by decide), fits_zero⟩
theorem Fits.aminn (w : Width) (d : Reg) (s : Reg) (t : Reg) : Fits.Statement (.aminn w d s t) :=
  ⟨fits_encA (by simp) d.isLt s.isLt t.isLt (by decide), fits_zero⟩
theorem Fits.amaxn (w : Width) (d : Reg) (s : Reg) (t : Reg) : Fits.Statement (.amaxn w d s t) :=
  ⟨fits_encA (by simp) d.isLt s.isLt t.isLt (by decide), fits_zero⟩
theorem Fits.axchg (w : Width) (d : Reg) (s : Reg) (t : Reg) : Fits.Statement (.axchg w d s t) :=
  ⟨fits_encA (by simp) d.isLt s.isLt t.isLt (by decide), fits_zero⟩
theorem Fits.adecp (w : Width) (d : Reg) (s : Reg) : Fits.Statement (.adecp w d s) :=
  ⟨fits_encA (by simp) d.isLt s.isLt (by decide) (by decide), fits_zero⟩
theorem Fits.aincw (w : Width) (d : Reg) (s : Reg) (t : Reg) : Fits.Statement (.aincw w d s t) :=
  ⟨fits_encA (by simp) d.isLt s.isLt t.isLt (by decide), fits_zero⟩
theorem Fits.afadd (w : Width) (d : Reg) (s : Reg) (t : Reg) : Fits.Statement (.afadd w d s t) :=
  ⟨fits_encA (by simp) d.isLt s.isLt t.isLt (by decide), fits_zero⟩
theorem Fits.afmin (w : Width) (d : Reg) (s : Reg) (t : Reg) : Fits.Statement (.afmin w d s t) :=
  ⟨fits_encA (by simp) d.isLt s.isLt t.isLt (by decide), fits_zero⟩
theorem Fits.afmax (w : Width) (d : Reg) (s : Reg) (t : Reg) : Fits.Statement (.afmax w d s t) :=
  ⟨fits_encA (by simp) d.isLt s.isLt t.isLt (by decide), fits_zero⟩
theorem Fits.aaddP (w : Width) (s : Reg) (t : Reg) : Fits.Statement (.aaddP w s t) :=
  ⟨fits_encA (by simp) (by decide) s.isLt t.isLt (by decide), fits_zero⟩
theorem Fits.aandP (w : Width) (s : Reg) (t : Reg) : Fits.Statement (.aandP w s t) :=
  ⟨fits_encA (by simp) (by decide) s.isLt t.isLt (by decide), fits_zero⟩
theorem Fits.aorP (w : Width) (s : Reg) (t : Reg) : Fits.Statement (.aorP w s t) :=
  ⟨fits_encA (by simp) (by decide) s.isLt t.isLt (by decide), fits_zero⟩
theorem Fits.axorP (w : Width) (s : Reg) (t : Reg) : Fits.Statement (.axorP w s t) :=
  ⟨fits_encA (by simp) (by decide) s.isLt t.isLt (by decide), fits_zero⟩
theorem Fits.aminP (w : Width) (s : Reg) (t : Reg) : Fits.Statement (.aminP w s t) :=
  ⟨fits_encA (by simp) (by decide) s.isLt t.isLt (by decide), fits_zero⟩
theorem Fits.amaxP (w : Width) (s : Reg) (t : Reg) : Fits.Statement (.amaxP w s t) :=
  ⟨fits_encA (by simp) (by decide) s.isLt t.isLt (by decide), fits_zero⟩
theorem Fits.aminnP (w : Width) (s : Reg) (t : Reg) : Fits.Statement (.aminnP w s t) :=
  ⟨fits_encA (by simp) (by decide) s.isLt t.isLt (by decide), fits_zero⟩
theorem Fits.amaxnP (w : Width) (s : Reg) (t : Reg) : Fits.Statement (.amaxnP w s t) :=
  ⟨fits_encA (by simp) (by decide) s.isLt t.isLt (by decide), fits_zero⟩
theorem Fits.axchgP (w : Width) (s : Reg) (t : Reg) : Fits.Statement (.axchgP w s t) :=
  ⟨fits_encA (by simp) (by decide) s.isLt t.isLt (by decide), fits_zero⟩
theorem Fits.adecpP (w : Width) (s : Reg) : Fits.Statement (.adecpP w s) :=
  ⟨fits_encA (by simp) (by decide) s.isLt (by decide) (by decide), fits_zero⟩
theorem Fits.aincwP (w : Width) (s : Reg) (t : Reg) : Fits.Statement (.aincwP w s t) :=
  ⟨fits_encA (by simp) (by decide) s.isLt t.isLt (by decide), fits_zero⟩
theorem Fits.afaddP (w : Width) (s : Reg) (t : Reg) : Fits.Statement (.afaddP w s t) :=
  ⟨fits_encA (by simp) (by decide) s.isLt t.isLt (by decide), fits_zero⟩
theorem Fits.afminP (w : Width) (s : Reg) (t : Reg) : Fits.Statement (.afminP w s t) :=
  ⟨fits_encA (by simp) (by decide) s.isLt t.isLt (by decide), fits_zero⟩
theorem Fits.afmaxP (w : Width) (s : Reg) (t : Reg) : Fits.Statement (.afmaxP w s t) :=
  ⟨fits_encA (by simp) (by decide) s.isLt t.isLt (by decide), fits_zero⟩
theorem Fits.acas64 (d : Reg) (s : Reg) (t : Reg) : Fits.Statement (.acas64 d s t) :=
  ⟨fits_encA (by decide) d.isLt s.isLt t.isLt (by decide), fits_zero⟩
theorem Fits.acas32 (d : Reg) (s : Reg) (t : Reg) : Fits.Statement (.acas32 d s t) :=
  ⟨fits_encA (by decide) d.isLt s.isLt t.isLt (by decide), fits_zero⟩
theorem Fits.acas128 (d : Reg) (s : Reg) (t : Reg) : Fits.Statement (.acas128 d s t) :=
  ⟨fits_encA (by decide) d.isLt s.isLt t.isLt (by decide), fits_zero⟩
theorem Fits.lstat (d : Reg) (s : Reg) : Fits.Statement (.lstat d s) :=
  ⟨fits_encA (by decide) d.isLt s.isLt (by decide) (by decide), fits_zero⟩
theorem Fits.lresume (s : Reg) : Fits.Statement (.lresume s) :=
  ⟨fits_encA (by decide) (by decide) s.isLt (by decide) (by decide), fits_zero⟩
theorem Fits.lcancel (s : Reg) : Fits.Statement (.lcancel s) :=
  ⟨fits_encA (by decide) (by decide) s.isLt (by decide) (by decide), fits_zero⟩
theorem Fits.waitv (d : Reg) (s : Reg) (t : Reg) : Fits.Statement (.waitv d s t) :=
  ⟨fits_encA (by decide) d.isLt s.isLt t.isLt (by decide), fits_zero⟩
theorem Fits.wake1 (d : Reg) (s : Reg) : Fits.Statement (.wake1 d s) :=
  ⟨fits_encA (by decide) d.isLt s.isLt (by decide) (by decide), fits_zero⟩
theorem Fits.wakea (d : Reg) (s : Reg) : Fits.Statement (.wakea d s) :=
  ⟨fits_encA (by decide) d.isLt s.isLt (by decide) (by decide), fits_zero⟩
theorem Fits.waken (d : Reg) (s : Reg) (t : Reg) : Fits.Statement (.waken d s t) :=
  ⟨fits_encA (by decide) d.isLt s.isLt t.isLt (by decide), fits_zero⟩
theorem Fits.spawn (s : Reg) (t : Reg) : Fits.Statement (.spawn s t) :=
  ⟨fits_encA (by decide) (by decide) s.isLt t.isLt (by decide), fits_zero⟩
theorem Fits.spawnf (d : Reg) (s : Reg) (t : Reg) : Fits.Statement (.spawnf d s t) :=
  ⟨fits_encA (by decide) d.isLt s.isLt t.isLt (by decide), fits_zero⟩
theorem Fits.tend (s : Reg) : Fits.Statement (.tend s) :=
  ⟨fits_encA (by decide) (by decide) s.isLt (by decide) (by decide), fits_zero⟩
theorem Fits.send (n : Fin 9) (s : Reg) (t : Reg) : Fits.Statement (.send n s t) :=
  ⟨fits_encA (by decide) (by omega) s.isLt t.isLt (by decide), fits_zero⟩
theorem Fits.tself (d : Reg) : Fits.Statement (.tself d) :=
  ⟨fits_encA (by decide) d.isLt (by decide) (by decide) (by decide), fits_zero⟩
theorem Fits.srd (d : Reg) (r : BitVec 12) : Fits.Statement (.srd d r) :=
  ⟨fits_encI (by decide) d.isLt (by decide) (Nat.lt_of_lt_of_le r.isLt (by decide)), fits_zero⟩
theorem Fits.swr (s : Reg) (r : BitVec 12) : Fits.Statement (.swr s r) :=
  ⟨fits_encI (by decide) (by decide) s.isLt (Nat.lt_of_lt_of_le r.isLt (by decide)), fits_zero⟩
theorem Fits.vadd (d : Grp) (s : Grp) (t : Grp) (m : Pred) (y : Ty) : Fits.Statement (.vadd d s t m y) :=
  ⟨fits_encV (by decide) (by omega) (by omega) (by omega) (by omega) (by simp) (by decide), fits_zero⟩
theorem Fits.vsub (d : Grp) (s : Grp) (t : Grp) (m : Pred) (y : Ty) : Fits.Statement (.vsub d s t m y) :=
  ⟨fits_encV (by decide) (by omega) (by omega) (by omega) (by omega) (by simp) (by decide), fits_zero⟩
theorem Fits.vmul (d : Grp) (s : Grp) (t : Grp) (m : Pred) (y : Ty) : Fits.Statement (.vmul d s t m y) :=
  ⟨fits_encV (by decide) (by omega) (by omega) (by omega) (by omega) (by simp) (by decide), fits_zero⟩
theorem Fits.vmulh (d : Grp) (s : Grp) (t : Grp) (m : Pred) (y : Ty) : Fits.Statement (.vmulh d s t m y) :=
  ⟨fits_encV (by decide) (by omega) (by omega) (by omega) (by omega) (by simp) (by decide), fits_zero⟩
theorem Fits.vmin (d : Grp) (s : Grp) (t : Grp) (m : Pred) (y : Ty) : Fits.Statement (.vmin d s t m y) :=
  ⟨fits_encV (by decide) (by omega) (by omega) (by omega) (by omega) (by simp) (by decide), fits_zero⟩
theorem Fits.vmax (d : Grp) (s : Grp) (t : Grp) (m : Pred) (y : Ty) : Fits.Statement (.vmax d s t m y) :=
  ⟨fits_encV (by decide) (by omega) (by omega) (by omega) (by omega) (by simp) (by decide), fits_zero⟩
theorem Fits.vand (d : Grp) (s : Grp) (t : Grp) (m : Pred) (y : Ty) : Fits.Statement (.vand d s t m y) :=
  ⟨fits_encV (by decide) (by omega) (by omega) (by omega) (by omega) (by simp) (by decide), fits_zero⟩
theorem Fits.vor (d : Grp) (s : Grp) (t : Grp) (m : Pred) (y : Ty) : Fits.Statement (.vor d s t m y) :=
  ⟨fits_encV (by decide) (by omega) (by omega) (by omega) (by omega) (by simp) (by decide), fits_zero⟩
theorem Fits.vxor (d : Grp) (s : Grp) (t : Grp) (m : Pred) (y : Ty) : Fits.Statement (.vxor d s t m y) :=
  ⟨fits_encV (by decide) (by omega) (by omega) (by omega) (by omega) (by simp) (by decide), fits_zero⟩
theorem Fits.vshl (d : Grp) (s : Grp) (t : Grp) (m : Pred) (y : Ty) : Fits.Statement (.vshl d s t m y) :=
  ⟨fits_encV (by decide) (by omega) (by omega) (by omega) (by omega) (by simp) (by decide), fits_zero⟩
theorem Fits.vshr (d : Grp) (s : Grp) (t : Grp) (m : Pred) (y : Ty) : Fits.Statement (.vshr d s t m y) :=
  ⟨fits_encV (by decide) (by omega) (by omega) (by omega) (by omega) (by simp) (by decide), fits_zero⟩
theorem Fits.vshra (d : Grp) (s : Grp) (t : Grp) (m : Pred) (y : Ty) : Fits.Statement (.vshra d s t m y) :=
  ⟨fits_encV (by decide) (by omega) (by omega) (by omega) (by omega) (by simp) (by decide), fits_zero⟩
theorem Fits.vabs (d : Grp) (s : Grp) (m : Pred) (y : Ty) : Fits.Statement (.vabs d s m y) :=
  ⟨fits_encV (by decide) (by omega) (by omega) (by decide) (by omega) (by simp) (by decide), fits_zero⟩
theorem Fits.vneg (d : Grp) (s : Grp) (m : Pred) (y : Ty) : Fits.Statement (.vneg d s m y) :=
  ⟨fits_encV (by decide) (by omega) (by omega) (by decide) (by omega) (by simp) (by decide), fits_zero⟩
theorem Fits.vsadd (d : Grp) (s : Grp) (t : Grp) (m : Pred) (y : Ty) : Fits.Statement (.vsadd d s t m y) :=
  ⟨fits_encV (by decide) (by omega) (by omega) (by omega) (by omega) (by simp) (by decide), fits_zero⟩
theorem Fits.vssub (d : Grp) (s : Grp) (t : Grp) (m : Pred) (y : Ty) : Fits.Statement (.vssub d s t m y) :=
  ⟨fits_encV (by decide) (by omega) (by omega) (by omega) (by omega) (by simp) (by decide), fits_zero⟩
theorem Fits.vpopc (d : Grp) (s : Grp) (m : Pred) (y : Ty) : Fits.Statement (.vpopc d s m y) :=
  ⟨fits_encV (by decide) (by omega) (by omega) (by decide) (by omega) (by simp) (by decide), fits_zero⟩
theorem Fits.vclz (d : Grp) (s : Grp) (m : Pred) (y : Ty) : Fits.Statement (.vclz d s m y) :=
  ⟨fits_encV (by decide) (by omega) (by omega) (by decide) (by omega) (by simp) (by decide), fits_zero⟩
theorem Fits.vmadd (d : Grp) (s : Grp) (t : Grp) (m : Pred) (y : Ty) : Fits.Statement (.vmadd d s t m y) :=
  ⟨fits_encV (by decide) (by omega) (by omega) (by omega) (by omega) (by simp) (by decide), fits_zero⟩
theorem Fits.vsel (d : Grp) (s : Grp) (t : Grp) (m : Pred) (y : Ty) : Fits.Statement (.vsel d s t m y) :=
  ⟨fits_encV (by decide) (by omega) (by omega) (by omega) (by omega) (by simp) (by decide), fits_zero⟩
theorem Fits.vfadd (d : Grp) (s : Grp) (t : Grp) (m : Pred) (y : Ty) : Fits.Statement (.vfadd d s t m y) :=
  ⟨fits_encV (by decide) (by omega) (by omega) (by omega) (by omega) (by simp) (by decide), fits_zero⟩
theorem Fits.vfsub (d : Grp) (s : Grp) (t : Grp) (m : Pred) (y : Ty) : Fits.Statement (.vfsub d s t m y) :=
  ⟨fits_encV (by decide) (by omega) (by omega) (by omega) (by omega) (by simp) (by decide), fits_zero⟩
theorem Fits.vfmul (d : Grp) (s : Grp) (t : Grp) (m : Pred) (y : Ty) : Fits.Statement (.vfmul d s t m y) :=
  ⟨fits_encV (by decide) (by omega) (by omega) (by omega) (by omega) (by simp) (by decide), fits_zero⟩
theorem Fits.vfma (d : Grp) (s : Grp) (t : Grp) (m : Pred) (y : Ty) : Fits.Statement (.vfma d s t m y) :=
  ⟨fits_encV (by decide) (by omega) (by omega) (by omega) (by omega) (by simp) (by decide), fits_zero⟩
theorem Fits.vfdiv (d : Grp) (s : Grp) (t : Grp) (m : Pred) (y : Ty) : Fits.Statement (.vfdiv d s t m y) :=
  ⟨fits_encV (by decide) (by omega) (by omega) (by omega) (by omega) (by simp) (by decide), fits_zero⟩
theorem Fits.vfsqrt (d : Grp) (s : Grp) (m : Pred) (y : Ty) : Fits.Statement (.vfsqrt d s m y) :=
  ⟨fits_encV (by decide) (by omega) (by omega) (by decide) (by omega) (by simp) (by decide), fits_zero⟩
theorem Fits.vfmin (d : Grp) (s : Grp) (t : Grp) (m : Pred) (y : Ty) : Fits.Statement (.vfmin d s t m y) :=
  ⟨fits_encV (by decide) (by omega) (by omega) (by omega) (by omega) (by simp) (by decide), fits_zero⟩
theorem Fits.vfmax (d : Grp) (s : Grp) (t : Grp) (m : Pred) (y : Ty) : Fits.Statement (.vfmax d s t m y) :=
  ⟨fits_encV (by decide) (by omega) (by omega) (by omega) (by omega) (by simp) (by decide), fits_zero⟩
theorem Fits.vfabs (d : Grp) (s : Grp) (m : Pred) (y : Ty) : Fits.Statement (.vfabs d s m y) :=
  ⟨fits_encV (by decide) (by omega) (by omega) (by decide) (by omega) (by simp) (by decide), fits_zero⟩
theorem Fits.vfneg (d : Grp) (s : Grp) (m : Pred) (y : Ty) : Fits.Statement (.vfneg d s m y) :=
  ⟨fits_encV (by decide) (by omega) (by omega) (by decide) (by omega) (by simp) (by decide), fits_zero⟩
theorem Fits.vrcp (d : Grp) (s : Grp) (m : Pred) (y : Ty) : Fits.Statement (.vrcp d s m y) :=
  ⟨fits_encV (by decide) (by omega) (by omega) (by decide) (by omega) (by simp) (by decide), fits_zero⟩
theorem Fits.vrsq (d : Grp) (s : Grp) (m : Pred) (y : Ty) : Fits.Statement (.vrsq d s m y) :=
  ⟨fits_encV (by decide) (by omega) (by omega) (by decide) (by omega) (by simp) (by decide), fits_zero⟩
theorem Fits.vexp2 (d : Grp) (s : Grp) (m : Pred) (y : Ty) : Fits.Statement (.vexp2 d s m y) :=
  ⟨fits_encV (by decide) (by omega) (by omega) (by decide) (by omega) (by simp) (by decide), fits_zero⟩
theorem Fits.vlog2 (d : Grp) (s : Grp) (m : Pred) (y : Ty) : Fits.Statement (.vlog2 d s m y) :=
  ⟨fits_encV (by decide) (by omega) (by omega) (by decide) (by omega) (by simp) (by decide), fits_zero⟩
theorem Fits.vfrnd (d : Grp) (s : Grp) (m : Pred) (y : Ty) : Fits.Statement (.vfrnd d s m y) :=
  ⟨fits_encV (by decide) (by omega) (by omega) (by decide) (by omega) (by simp) (by decide), fits_zero⟩
theorem Fits.vceq (p : Pred) (s : Grp) (t : Grp) (m : Pred) (y : Ty) : Fits.Statement (.vceq p s t m y) :=
  ⟨fits_encV (by decide) (by omega) (by omega) (by omega) (by omega) (by simp) (by decide), fits_zero⟩
theorem Fits.vcne (p : Pred) (s : Grp) (t : Grp) (m : Pred) (y : Ty) : Fits.Statement (.vcne p s t m y) :=
  ⟨fits_encV (by decide) (by omega) (by omega) (by omega) (by omega) (by simp) (by decide), fits_zero⟩
theorem Fits.vclt (p : Pred) (s : Grp) (t : Grp) (m : Pred) (y : Ty) : Fits.Statement (.vclt p s t m y) :=
  ⟨fits_encV (by decide) (by omega) (by omega) (by omega) (by omega) (by simp) (by decide), fits_zero⟩
theorem Fits.vcle (p : Pred) (s : Grp) (t : Grp) (m : Pred) (y : Ty) : Fits.Statement (.vcle p s t m y) :=
  ⟨fits_encV (by decide) (by omega) (by omega) (by omega) (by omega) (by simp) (by decide), fits_zero⟩
theorem Fits.vcltn (p : Pred) (s : Grp) (t : Grp) (m : Pred) (y : Ty) : Fits.Statement (.vcltn p s t m y) :=
  ⟨fits_encV (by decide) (by omega) (by omega) (by omega) (by omega) (by simp) (by decide), fits_zero⟩
theorem Fits.vclen (p : Pred) (s : Grp) (t : Grp) (m : Pred) (y : Ty) : Fits.Statement (.vclen p s t m y) :=
  ⟨fits_encV (by decide) (by omega) (by omega) (by omega) (by omega) (by simp) (by decide), fits_zero⟩
theorem Fits.vfceq (p : Pred) (s : Grp) (t : Grp) (m : Pred) (y : Ty) : Fits.Statement (.vfceq p s t m y) :=
  ⟨fits_encV (by decide) (by omega) (by omega) (by omega) (by omega) (by simp) (by decide), fits_zero⟩
theorem Fits.vfclt (p : Pred) (s : Grp) (t : Grp) (m : Pred) (y : Ty) : Fits.Statement (.vfclt p s t m y) :=
  ⟨fits_encV (by decide) (by omega) (by omega) (by omega) (by omega) (by simp) (by decide), fits_zero⟩
theorem Fits.vfcle (p : Pred) (s : Grp) (t : Grp) (m : Pred) (y : Ty) : Fits.Statement (.vfcle p s t m y) :=
  ⟨fits_encV (by decide) (by omega) (by omega) (by omega) (by omega) (by simp) (by decide), fits_zero⟩
theorem Fits.vfcun (p : Pred) (s : Grp) (t : Grp) (m : Pred) (y : Ty) : Fits.Statement (.vfcun p s t m y) :=
  ⟨fits_encV (by decide) (by omega) (by omega) (by omega) (by omega) (by simp) (by decide), fits_zero⟩
theorem Fits.vld (d : Grp) (s : Reg) (m : Pred) : Fits.Statement (.vld d s m) :=
  ⟨fits_encVM (by decide) (by omega) s.isLt (by decide) (by omega) (by decide), fits_zero⟩
theorem Fits.vst (d : Grp) (s : Reg) (m : Pred) : Fits.Statement (.vst d s m) :=
  ⟨fits_encVM (by decide) (by omega) s.isLt (by decide) (by omega) (by decide), fits_zero⟩
theorem Fits.vlds (d : Grp) (s : Reg) (t : Reg) (m : Pred) : Fits.Statement (.vlds d s t m) :=
  ⟨fits_encVM (by decide) (by omega) s.isLt t.isLt (by omega) (by decide), fits_zero⟩
theorem Fits.vsts (d : Grp) (s : Reg) (t : Reg) (m : Pred) : Fits.Statement (.vsts d s t m) :=
  ⟨fits_encVM (by decide) (by omega) s.isLt t.isLt (by omega) (by decide), fits_zero⟩
theorem Fits.vgath (d : Grp) (s : Reg) (v : Grp) (z : Bool) (m : Pred) : Fits.Statement (.vgath d s v z m) :=
  ⟨fits_encVM (by decide) (by omega) s.isLt (by cases z <;> simp <;> omega) (by omega) (by decide), fits_zero⟩
theorem Fits.vscat (d : Grp) (s : Reg) (v : Grp) (z : Bool) (m : Pred) : Fits.Statement (.vscat d s v z m) :=
  ⟨fits_encVM (by decide) (by omega) s.isLt (by cases z <;> simp <;> omega) (by omega) (by decide), fits_zero⟩
theorem Fits.vldf (d : Grp) (s : Reg) (m : Pred) : Fits.Statement (.vldf d s m) :=
  ⟨fits_encVM (by decide) (by omega) s.isLt (by decide) (by omega) (by decide), fits_zero⟩
theorem Fits.vstp (d : Grp) (s : Reg) (m : Pred) : Fits.Statement (.vstp d s m) :=
  ⟨fits_encVM (by decide) (by omega) s.isLt (by decide) (by omega) (by decide), fits_zero⟩
theorem Fits.vldb (d : Grp) (s : Reg) (m : Pred) : Fits.Statement (.vldb d s m) :=
  ⟨fits_encVM (by decide) (by omega) s.isLt (by decide) (by omega) (by decide), fits_zero⟩
theorem Fits.vperm (d : Grp) (s : Grp) (t : Grp) (m : Pred) (y : Ty) : Fits.Statement (.vperm d s t m y) :=
  ⟨fits_encV (by decide) (by omega) (by omega) (by omega) (by omega) (by simp) (by decide), fits_zero⟩
theorem Fits.vredadd (d : Grp) (s : Grp) (m : Pred) (y : Ty) : Fits.Statement (.vredadd d s m y) :=
  ⟨fits_encV (by decide) (by omega) (by omega) (by decide) (by omega) (by simp) (by decide), fits_zero⟩
theorem Fits.vredmin (d : Grp) (s : Grp) (m : Pred) (y : Ty) : Fits.Statement (.vredmin d s m y) :=
  ⟨fits_encV (by decide) (by omega) (by omega) (by decide) (by omega) (by simp) (by decide), fits_zero⟩
theorem Fits.vredmax (d : Grp) (s : Grp) (m : Pred) (y : Ty) : Fits.Statement (.vredmax d s m y) :=
  ⟨fits_encV (by decide) (by omega) (by omega) (by decide) (by omega) (by simp) (by decide), fits_zero⟩
theorem Fits.vfredadd (d : Grp) (s : Grp) (m : Pred) (y : Ty) : Fits.Statement (.vfredadd d s m y) :=
  ⟨fits_encV (by decide) (by omega) (by omega) (by decide) (by omega) (by simp) (by decide), fits_zero⟩
theorem Fits.vscan (d : Grp) (s : Grp) (m : Pred) (y : Ty) : Fits.Statement (.vscan d s m y) :=
  ⟨fits_encV (by decide) (by omega) (by omega) (by decide) (by omega) (by simp) (by decide), fits_zero⟩
theorem Fits.vcompr (d : Grp) (s : Grp) (m : Pred) (y : Ty) : Fits.Statement (.vcompr d s m y) :=
  ⟨fits_encV (by decide) (by omega) (by omega) (by decide) (by omega) (by simp) (by decide), fits_zero⟩
theorem Fits.vexpd (d : Grp) (s : Grp) (m : Pred) (y : Ty) : Fits.Statement (.vexpd d s m y) :=
  ⟨fits_encV (by decide) (by omega) (by omega) (by decide) (by omega) (by simp) (by decide), fits_zero⟩
theorem Fits.vslide (d : Grp) (s : Grp) (t : Grp) (m : Pred) (y : Ty) : Fits.Statement (.vslide d s t m y) :=
  ⟨fits_encV (by decide) (by omega) (by omega) (by omega) (by omega) (by simp) (by decide), fits_zero⟩
theorem Fits.vbcast (d : Grp) (s : Reg) (w : BWidth) (m : Pred) : Fits.Statement (.vbcast d s w m) :=
  ⟨fits_encVM (by decide) (by omega) s.isLt (by simp) (by omega) (by decide), fits_zero⟩
theorem Fits.vins (d : Grp) (s : Reg) (t : Reg) : Fits.Statement (.vins d s t) :=
  ⟨fits_encVM (by decide) (by omega) s.isLt t.isLt (by decide) (by decide), fits_zero⟩
theorem Fits.vext (d : Grp) (s : Reg) (t : Reg) : Fits.Statement (.vext d s t) :=
  ⟨fits_encVM (by decide) (by omega) s.isLt t.isLt (by decide) (by decide), fits_zero⟩
theorem Fits.vmovp (s : Reg) (r : Bool) (p : Pred) : Fits.Statement (.vmovp s r p) :=
  ⟨fits_encVM (by decide) (by decide) s.isLt (Bool.toNat_lt_128 _) (by omega) (by decide), fits_zero⟩
theorem Fits.vcvt (d : Grp) (s : Grp) (x : Ty) (m : Pred) (y : Ty) : Fits.Statement (.vcvt d s x m y) :=
  ⟨fits_encV (by decide) (by omega) (by omega) (by simp) (by omega) (by simp) (by decide), fits_zero⟩
theorem Fits.vexpn (d : Grp) (s : Grp) (t : Grp) (m : Pred) (y : Ty) : Fits.Statement (.vexpn d s t m y) :=
  ⟨fits_encV (by decide) (by omega) (by omega) (by omega) (by omega) (by simp) (by decide), fits_zero⟩
theorem Fits.vqnt (d : Grp) (s : Grp) (t : Grp) (m : Pred) (y : Ty) : Fits.Statement (.vqnt d s t m y) :=
  ⟨fits_encV (by decide) (by omega) (by omega) (by omega) (by omega) (by simp) (by decide), fits_zero⟩
theorem Fits.vpack (d : Grp) (s : Grp) (t : Grp) (m : Pred) (y : Ty) : Fits.Statement (.vpack d s t m y) :=
  ⟨fits_encV (by decide) (by omega) (by omega) (by omega) (by omega) (by simp) (by decide), fits_zero⟩
theorem Fits.vunpk (d : Grp) (s : Grp) (h : Fin 2) (m : Pred) (y : Ty) : Fits.Statement (.vunpk d s h m y) :=
  ⟨fits_encV (by decide) (by omega) (by omega) (by omega) (by omega) (by simp) (by decide), fits_zero⟩
theorem Fits.visect (d : Grp) (s : Reg) (t : Reg) : Fits.Statement (.visect d s t) :=
  ⟨fits_encVM (by decide) (by omega) s.isLt t.isLt (by decide) (by decide), fits_zero⟩
theorem Fits.vunion (d : Grp) (s : Reg) (t : Reg) : Fits.Statement (.vunion d s t) :=
  ⟨fits_encVM (by decide) (by omega) s.isLt t.isLt (by decide) (by decide), fits_zero⟩
theorem Fits.vdiff (d : Grp) (s : Reg) (t : Reg) : Fits.Statement (.vdiff d s t) :=
  ⟨fits_encVM (by decide) (by omega) s.isLt t.isLt (by decide) (by decide), fits_zero⟩
theorem Fits.fadd (w : Width) (d : Reg) (s : Reg) (t : Reg) : Fits.Statement (.fadd w d s t) :=
  ⟨fits_encA (by simp) d.isLt s.isLt t.isLt (by decide), fits_zero⟩
theorem Fits.fsub (w : Width) (d : Reg) (s : Reg) (t : Reg) : Fits.Statement (.fsub w d s t) :=
  ⟨fits_encA (by simp) d.isLt s.isLt t.isLt (by decide), fits_zero⟩
theorem Fits.fmul (w : Width) (d : Reg) (s : Reg) (t : Reg) : Fits.Statement (.fmul w d s t) :=
  ⟨fits_encA (by simp) d.isLt s.isLt t.isLt (by decide), fits_zero⟩
theorem Fits.fdiv (w : Width) (d : Reg) (s : Reg) (t : Reg) : Fits.Statement (.fdiv w d s t) :=
  ⟨fits_encA (by simp) d.isLt s.isLt t.isLt (by decide), fits_zero⟩
theorem Fits.fsqrt (w : Width) (d : Reg) (s : Reg) : Fits.Statement (.fsqrt w d s) :=
  ⟨fits_encA (by simp) d.isLt s.isLt (by decide) (by decide), fits_zero⟩
theorem Fits.fmin (w : Width) (d : Reg) (s : Reg) (t : Reg) : Fits.Statement (.fmin w d s t) :=
  ⟨fits_encA (by simp) d.isLt s.isLt t.isLt (by decide), fits_zero⟩
theorem Fits.fmax (w : Width) (d : Reg) (s : Reg) (t : Reg) : Fits.Statement (.fmax w d s t) :=
  ⟨fits_encA (by simp) d.isLt s.isLt t.isLt (by decide), fits_zero⟩
theorem Fits.fabs (w : Width) (d : Reg) (s : Reg) : Fits.Statement (.fabs w d s) :=
  ⟨fits_encA (by simp) d.isLt s.isLt (by decide) (by decide), fits_zero⟩
theorem Fits.fneg (w : Width) (d : Reg) (s : Reg) : Fits.Statement (.fneg w d s) :=
  ⟨fits_encA (by simp) d.isLt s.isLt (by decide) (by decide), fits_zero⟩
theorem Fits.fma (w : Width) (d : Reg) (s : Reg) (t : Reg) : Fits.Statement (.fma w d s t) :=
  ⟨fits_encA (by simp) d.isLt s.isLt t.isLt (by decide), fits_zero⟩
theorem Fits.fcvti (w : Width) (d : Reg) (s : Reg) : Fits.Statement (.fcvti w d s) :=
  ⟨fits_encA (by simp) d.isLt s.isLt (by decide) (by decide), fits_zero⟩
theorem Fits.fcvtf (w : Width) (d : Reg) (s : Reg) : Fits.Statement (.fcvtf w d s) :=
  ⟨fits_encA (by simp) d.isLt s.isLt (by decide) (by decide), fits_zero⟩
theorem Fits.fceq32 (p : Pred) (s : Reg) (t : Reg) : Fits.Statement (.fceq32 p s t) :=
  ⟨fits_encA (by decide) (by omega) s.isLt t.isLt (by decide), fits_zero⟩
theorem Fits.fclt32 (p : Pred) (s : Reg) (t : Reg) : Fits.Statement (.fclt32 p s t) :=
  ⟨fits_encA (by decide) (by omega) s.isLt t.isLt (by decide), fits_zero⟩
theorem Fits.fcle32 (p : Pred) (s : Reg) (t : Reg) : Fits.Statement (.fcle32 p s t) :=
  ⟨fits_encA (by decide) (by omega) s.isLt t.isLt (by decide), fits_zero⟩
theorem Fits.fcun32 (p : Pred) (s : Reg) (t : Reg) : Fits.Statement (.fcun32 p s t) :=
  ⟨fits_encA (by decide) (by omega) s.isLt t.isLt (by decide), fits_zero⟩
theorem Fits.fceq64 (p : Pred) (s : Reg) (t : Reg) : Fits.Statement (.fceq64 p s t) :=
  ⟨fits_encA (by decide) (by omega) s.isLt t.isLt (by decide), fits_zero⟩
theorem Fits.fclt64 (p : Pred) (s : Reg) (t : Reg) : Fits.Statement (.fclt64 p s t) :=
  ⟨fits_encA (by decide) (by omega) s.isLt t.isLt (by decide), fits_zero⟩
theorem Fits.fcle64 (p : Pred) (s : Reg) (t : Reg) : Fits.Statement (.fcle64 p s t) :=
  ⟨fits_encA (by decide) (by omega) s.isLt t.isLt (by decide), fits_zero⟩
theorem Fits.fcun64 (p : Pred) (s : Reg) (t : Reg) : Fits.Statement (.fcun64 p s t) :=
  ⟨fits_encA (by decide) (by omega) s.isLt t.isLt (by decide), fits_zero⟩
theorem Fits.f32to64 (d : Reg) (s : Reg) : Fits.Statement (.f32to64 d s) :=
  ⟨fits_encA (by decide) d.isLt s.isLt (by decide) (by decide), fits_zero⟩
theorem Fits.f64to32 (d : Reg) (s : Reg) : Fits.Statement (.f64to32 d s) :=
  ⟨fits_encA (by decide) d.isLt s.isLt (by decide) (by decide), fits_zero⟩
theorem Fits.f32toh16 (d : Reg) (s : Reg) : Fits.Statement (.f32toh16 d s) :=
  ⟨fits_encA (by decide) d.isLt s.isLt (by decide) (by decide), fits_zero⟩
theorem Fits.h16tof32 (d : Reg) (s : Reg) : Fits.Statement (.h16tof32 d s) :=
  ⟨fits_encA (by decide) d.isLt s.isLt (by decide) (by decide), fits_zero⟩
theorem Fits.f32tobf (d : Reg) (s : Reg) : Fits.Statement (.f32tobf d s) :=
  ⟨fits_encA (by decide) d.isLt s.isLt (by decide) (by decide), fits_zero⟩
theorem Fits.bftof32 (d : Reg) (s : Reg) : Fits.Statement (.bftof32 d s) :=
  ⟨fits_encA (by decide) d.isLt s.isLt (by decide) (by decide), fits_zero⟩
theorem Fits.fclass32 (d : Reg) (s : Reg) : Fits.Statement (.fclass32 d s) :=
  ⟨fits_encA (by decide) d.isLt s.isLt (by decide) (by decide), fits_zero⟩
theorem Fits.fclass64 (d : Reg) (s : Reg) : Fits.Statement (.fclass64 d s) :=
  ⟨fits_encA (by decide) d.isLt s.isLt (by decide) (by decide), fits_zero⟩
theorem Fits.tret : Fits.Statement (.tret) :=
  ⟨fits_encA (by decide) (by decide) (by decide) (by decide) (by decide), fits_zero⟩
theorem Fits.evict (d : Reg) (s : Reg) : Fits.Statement (.evict d s) :=
  ⟨fits_encA (by decide) d.isLt s.isLt (by decide) (by decide), fits_zero⟩
theorem Fits.rstrResume (d : Reg) (s : Reg) : Fits.Statement (.rstrResume d s) :=
  ⟨fits_encA (by decide) d.isLt s.isLt (by decide) (by decide), fits_zero⟩
theorem Fits.rstrHandle (d : Reg) (s : Reg) : Fits.Statement (.rstrHandle d s) :=
  ⟨fits_encA (by decide) d.isLt s.isLt (by decide) (by decide), fits_zero⟩
theorem Fits.rstrKill (d : Reg) (s : Reg) : Fits.Statement (.rstrKill d s) :=
  ⟨fits_encA (by decide) d.isLt s.isLt (by decide) (by decide), fits_zero⟩
theorem Fits.halt : Fits.Statement (.halt) :=
  ⟨fits_encA (by decide) (by decide) (by decide) (by decide) (by decide), fits_zero⟩
theorem Fits.idle : Fits.Statement (.idle) :=
  ⟨fits_encA (by decide) (by decide) (by decide) (by decide) (by decide), fits_zero⟩
theorem Fits.invpg (s : Reg) : Fits.Statement (.invpg s) :=
  ⟨fits_encA (by decide) (by decide) s.isLt (by decide) (by decide), fits_zero⟩
theorem Fits.pmarkDead (s : Reg) : Fits.Statement (.pmarkDead s) :=
  ⟨fits_encA (by decide) (by decide) s.isLt (by decide) (by decide), fits_zero⟩
theorem Fits.pmarkLive (s : Reg) : Fits.Statement (.pmarkLive s) :=
  ⟨fits_encA (by decide) (by decide) s.isLt (by decide) (by decide), fits_zero⟩
theorem Fits.shutOff (s : Reg) : Fits.Statement (.shutOff s) :=
  ⟨fits_encA (by decide) (by decide) s.isLt (by decide) (by decide), fits_zero⟩
theorem Fits.shutOn (s : Reg) : Fits.Statement (.shutOn s) :=
  ⟨fits_encA (by decide) (by decide) s.isLt (by decide) (by decide), fits_zero⟩
theorem Fits.jdrop (d : Reg) (s : Reg) : Fits.Statement (.jdrop d s) :=
  ⟨fits_encA (by decide) d.isLt s.isLt (by decide) (by decide), fits_zero⟩
theorem Fits.cfgh (d : Reg) (s : Reg) (t : Reg) : Fits.Statement (.cfgh d s t) :=
  ⟨fits_encA (by decide) d.isLt s.isLt t.isLt (by decide), fits_zero⟩
theorem Fits.domsw : Fits.Statement (.domsw) :=
  ⟨fits_encA (by decide) (by decide) (by decide) (by decide) (by decide), fits_zero⟩
theorem Fits.fqpop (d : Reg) : Fits.Statement (.fqpop d) :=
  ⟨fits_encA (by decide) d.isLt (by decide) (by decide) (by decide), fits_zero⟩
theorem Fits.trap (n : Fin 16) : Fits.Statement (.trap n) :=
  ⟨fits_encI (by decide) (by decide) (by decide) (by omega), fits_zero⟩
theorem Fits.mzero (d : Reg) (s : Reg) : Fits.Statement (.mzero d s) :=
  ⟨fits_encA (by decide) d.isLt s.isLt (by decide) (by decide), fits_zero⟩
theorem Fits.mdrain (d : Reg) (s : Reg) (t : Reg) : Fits.Statement (.mdrain d s t) :=
  ⟨fits_encA (by decide) d.isLt s.isLt t.isLt (by decide), fits_zero⟩
theorem Fits.mwait (d : Reg) (s : Reg) : Fits.Statement (.mwait d s) :=
  ⟨fits_encA (by decide) d.isLt s.isLt (by decide) (by decide), fits_zero⟩
theorem Fits.mpoll (d : Reg) (s : Reg) : Fits.Statement (.mpoll d s) :=
  ⟨fits_encA (by decide) d.isLt s.isLt (by decide) (by decide), fits_zero⟩
theorem Fits.mring (d : Reg) (s : Reg) : Fits.Statement (.mring d s) :=
  ⟨fits_encA (by decide) d.isLt s.isLt (by decide) (by decide), fits_zero⟩
theorem Fits.mstat (d : Reg) : Fits.Statement (.mstat d) :=
  ⟨fits_encA (by decide) d.isLt (by decide) (by decide) (by decide), fits_zero⟩
theorem Fits.xjoin (d : Reg) (s : Reg) : Fits.Statement (.xjoin d s) :=
  ⟨fits_encA (by decide) d.isLt s.isLt (by decide) (by decide), fits_zero⟩
theorem Fits.xleave (x : Bool) : Fits.Statement (.xleave x) :=
  ⟨fits_encA (by decide) (by decide) (by decide) (Bool.toNat_lt_128 _) (by decide), fits_zero⟩
theorem Fits.xstat (d : Reg) (s : Reg) : Fits.Statement (.xstat d s) :=
  ⟨fits_encA (by decide) d.isLt s.isLt (by decide) (by decide), fits_zero⟩
theorem Fits.xwait (d : Reg) (s : Reg) : Fits.Statement (.xwait d s) :=
  ⟨fits_encA (by decide) d.isLt s.isLt (by decide) (by decide), fits_zero⟩
theorem Fits.mma (d : Reg) (s : Reg) (t : Reg) (q : Reg) (b : Bool) : Fits.Statement (.mma d s t q b) :=
  ⟨fits_encA (by decide) d.isLt s.isLt t.isLt (by decide), fits_encQ q.isLt (Bool.toNat_lt_512 _)⟩
theorem Fits.mmag (d : Reg) (s : Reg) (q : Reg) (b : Bool) : Fits.Statement (.mmag d s q b) :=
  ⟨fits_encA (by decide) d.isLt s.isLt (by decide) (by decide), fits_encQ q.isLt (Bool.toNat_lt_512 _)⟩
theorem Fits.mmat (d : Reg) (s : Reg) (t : Reg) (q : Reg) (b : Bool) : Fits.Statement (.mmat d s t q b) :=
  ⟨fits_encA (by decide) d.isLt s.isLt t.isLt (by decide), fits_encQ q.isLt (Bool.toNat_lt_512 _)⟩
theorem Fits.xmmaChain (d : Reg) (s : Reg) (t : Reg) (q : Reg) (b : Bool) : Fits.Statement (.xmmaChain d s t q b) :=
  ⟨fits_encA (by decide) d.isLt s.isLt t.isLt (by decide), fits_encQ q.isLt (Bool.toNat_lt_512 _)⟩
theorem Fits.xmmaRing (d : Reg) (s : Reg) (t : Reg) (q : Reg) (b : Bool) : Fits.Statement (.xmmaRing d s t q b) :=
  ⟨fits_encA (by decide) d.isLt s.isLt t.isLt (by decide), fits_encQ q.isLt (Bool.toNat_lt_512 _)⟩
theorem Fits.lcopyCopy (d : Reg) (s : Reg) (t : Reg) (q : Reg) (b : Bool) : Fits.Statement (.lcopyCopy d s t q b) :=
  ⟨fits_encA (by decide) d.isLt s.isLt t.isLt (by decide), fits_encQ q.isLt (Bool.toNat_lt_512 _)⟩
theorem Fits.lcopyFill (d : Reg) (s : Reg) (t : Reg) (q : Reg) (b : Bool) : Fits.Statement (.lcopyFill d s t q b) :=
  ⟨fits_encA (by decide) d.isLt s.isLt t.isLt (by decide), fits_encQ q.isLt (Bool.toNat_lt_512 _)⟩
theorem Fits.lcopyReduce (d : Reg) (s : Reg) (t : Reg) (q : Reg) (b : Bool) : Fits.Statement (.lcopyReduce d s t q b) :=
  ⟨fits_encA (by decide) d.isLt s.isLt t.isLt (by decide), fits_encQ q.isLt (Bool.toNat_lt_512 _)⟩
theorem Fits.lcopyGather (d : Reg) (s : Reg) (t : Reg) (q : Reg) (b : Bool) : Fits.Statement (.lcopyGather d s t q b) :=
  ⟨fits_encA (by decide) d.isLt s.isLt t.isLt (by decide), fits_encQ q.isLt (Bool.toNat_lt_512 _)⟩
theorem Fits.qtile (d : Reg) (s : Reg) (t : Reg) (q : Reg) (c : Bool) (r : Bool) : Fits.Statement (.qtile d s t q c r) :=
  ⟨fits_encA (by decide) d.isLt s.isLt t.isLt (by decide), fits_encQ q.isLt (by cases c <;> cases r <;> decide)⟩
theorem Fits.asyncTrapEntry (cid : Nat) (slot : Nat) : Fits.Statement (.asyncTrapEntry cid slot) := ⟨fits_zero, fits_zero⟩
theorem Fits.coreCycle (cid : Nat) : Fits.Statement (.coreCycle cid) := ⟨fits_zero, fits_zero⟩
theorem Fits.putWindowWrite (m : Nat) (q : Nat) (off : Nat) (data : List Byte) (poisoned : Bool) : Fits.Statement (.putWindowWrite m q off data poisoned) := ⟨fits_zero, fits_zero⟩
theorem Fits.deviceMemoryRead (m : Nat) (off : Nat) (len : Nat) : Fits.Statement (.deviceMemoryRead m off len) := ⟨fits_zero, fits_zero⟩
theorem Fits.deviceMemoryWrite (m : Nat) (off : Nat) (data : List Byte) (poisoned : Bool) : Fits.Statement (.deviceMemoryWrite m off data poisoned) := ⟨fits_zero, fits_zero⟩
theorem Fits.completerAtomicop (m : Nat) (off : Nat) (op : HostAtomic) : Fits.Statement (.completerAtomicop m off op) := ⟨fits_zero, fits_zero⟩
theorem Fits.qstatWrite (m : Nat) (q : Nat) (v : Word) : Fits.Statement (.qstatWrite m q v) := ⟨fits_zero, fits_zero⟩
theorem Fits.registerWrite (m : Nat) (off : Nat) (v : Word) : Fits.Statement (.registerWrite m off v) := ⟨fits_zero, fits_zero⟩
theorem Fits.queueSet (m : Nat) : Fits.Statement (.queueSet m) := ⟨fits_zero, fits_zero⟩
theorem Fits.domainBind (m : Nat) (u : Unit) : Fits.Statement (.domainBind m u) := ⟨fits_zero, fits_zero⟩
theorem Fits.domainUnbind (m : Nat) : Fits.Statement (.domainUnbind m) := ⟨fits_zero, fits_zero⟩
theorem Fits.gangAbort (m : Nat) : Fits.Statement (.gangAbort m) := ⟨fits_zero, fits_zero⟩
theorem Fits.svcControl (m : Nat) : Fits.Statement (.svcControl m) := ⟨fits_zero, fits_zero⟩
theorem Fits.svcAnswer (m : Nat) : Fits.Statement (.svcAnswer m) := ⟨fits_zero, fits_zero⟩
theorem Fits.svcPop (m : Nat) : Fits.Statement (.svcPop m) := ⟨fits_zero, fits_zero⟩
theorem Fits.logRead (m : Nat) : Fits.Statement (.logRead m) := ⟨fits_zero, fits_zero⟩
theorem Fits.powerCap (m : Nat) : Fits.Statement (.powerCap m) := ⟨fits_zero, fits_zero⟩
theorem Fits.attest (m : Nat) : Fits.Statement (.attest m) := ⟨fits_zero, fits_zero⟩
theorem Fits.identity (m : Nat) : Fits.Statement (.identity m) := ⟨fits_zero, fits_zero⟩
theorem Fits.fwStage (m : Nat) : Fits.Statement (.fwStage m) := ⟨fits_zero, fits_zero⟩
theorem Fits.fwCommit (m : Nat) (u v : Unit) : Fits.Statement (.fwCommit m u v) := ⟨fits_zero, fits_zero⟩
theorem Fits.lifecycle (m : Nat) (u : Unit) : Fits.Statement (.lifecycle m u) := ⟨fits_zero, fits_zero⟩
theorem Fits.mailboxCommandDone (m : Nat) : Fits.Statement (.mailboxCommandDone m) := ⟨fits_zero, fits_zero⟩
theorem Fits.d3hotEntry (m : Nat) : Fits.Statement (.d3hotEntry m) := ⟨fits_zero, fits_zero⟩
theorem Fits.d3hotExit (m : Nat) : Fits.Statement (.d3hotExit m) := ⟨fits_zero, fits_zero⟩
theorem Fits.functionLevelReset (m : Nat) : Fits.Statement (.functionLevelReset m) := ⟨fits_zero, fits_zero⟩
theorem Fits.hotReset (m : Nat) : Fits.Statement (.hotReset m) := ⟨fits_zero, fits_zero⟩
theorem Fits.fundamentalReset (m : Nat) : Fits.Statement (.fundamentalReset m) := ⟨fits_zero, fits_zero⟩
theorem Fits.moduleBoot (m : Nat) (b : BootImage) : Fits.Statement (.moduleBoot m b) := ⟨fits_zero, fits_zero⟩
theorem Fits.bootSeal (m : Nat) : Fits.Statement (.bootSeal m) := ⟨fits_zero, fits_zero⟩
theorem Fits.bootResult (m : Nat) : Fits.Statement (.bootResult m) := ⟨fits_zero, fits_zero⟩
theorem Fits.hostCompletion (m : Nat) (n : Nat) (c : HostStatus) (writes : List (Nat × Byte)) : Fits.Statement (.hostCompletion m n c writes) := ⟨fits_zero, fits_zero⟩
theorem Fits.hostCompletionTimeout (m : Nat) (n : Nat) (performed : Bool) : Fits.Statement (.hostCompletionTimeout m n performed) := ⟨fits_zero, fits_zero⟩
theorem Fits.launchSlotTake (m : Nat) (q : Nat) : Fits.Statement (.launchSlotTake m q) := ⟨fits_zero, fits_zero⟩
theorem Fits.launchRefusalPut (m : Nat) (q : Nat) : Fits.Statement (.launchRefusalPut m q) := ⟨fits_zero, fits_zero⟩
theorem Fits.launchQueueFault (m : Nat) (q : Nat) : Fits.Statement (.launchQueueFault m q) := ⟨fits_zero, fits_zero⟩
theorem Fits.dispatch (m : Nat) : Fits.Statement (.dispatch m) := ⟨fits_zero, fits_zero⟩
theorem Fits.launchComplete (m : Nat) (l : Nat) : Fits.Statement (.launchComplete m l) := ⟨fits_zero, fits_zero⟩
theorem Fits.spawnQueuePlace (cl : Nat) : Fits.Statement (.spawnQueuePlace cl) := ⟨fits_zero, fits_zero⟩
theorem Fits.schedulerEvict (cl : Nat) : Fits.Statement (.schedulerEvict cl) := ⟨fits_zero, fits_zero⟩
theorem Fits.contextRestore (cl : Nat) : Fits.Statement (.contextRestore cl) := ⟨fits_zero, fits_zero⟩
theorem Fits.messageArrival (n : Nat) : Fits.Statement (.messageArrival n) := ⟨fits_zero, fits_zero⟩
theorem Fits.migrationLanding (n : Nat) : Fits.Statement (.migrationLanding n) := ⟨fits_zero, fits_zero⟩
theorem Fits.migrationAck (n : Nat) : Fits.Statement (.migrationAck n) := ⟨fits_zero, fits_zero⟩
theorem Fits.serviceThreadStart (m : Nat) (slot : Nat) : Fits.Statement (.serviceThreadStart m slot) := ⟨fits_zero, fits_zero⟩
theorem Fits.homeAccessRequest (n : Nat) (hint : Nat) : Fits.Statement (.homeAccessRequest n hint) := ⟨fits_zero, fits_zero⟩
theorem Fits.memoryReply (n : Nat) : Fits.Statement (.memoryReply n) := ⟨fits_zero, fits_zero⟩
theorem Fits.journalEntrySettle (n : Nat) : Fits.Statement (.journalEntrySettle n) := ⟨fits_zero, fits_zero⟩
theorem Fits.refreshRetryResend (cid : Nat) (tag : Nat) : Fits.Statement (.refreshRetryResend cid tag) := ⟨fits_zero, fits_zero⟩
theorem Fits.noListResend (cid : Nat) (tag : Nat) : Fits.Statement (.noListResend cid tag) := ⟨fits_zero, fits_zero⟩
theorem Fits.scRetryResend (cid : Nat) (tag : Nat) : Fits.Statement (.scRetryResend cid tag) := ⟨fits_zero, fits_zero⟩
theorem Fits.shutterRetryResend (cid : Nat) (tag : Nat) : Fits.Statement (.shutterRetryResend cid tag) := ⟨fits_zero, fits_zero⟩
theorem Fits.wlimExpiry (cid : Nat) (slot : Nat) : Fits.Statement (.wlimExpiry cid slot) := ⟨fits_zero, fits_zero⟩
theorem Fits.waitCancel (n : Nat) : Fits.Statement (.waitCancel n) := ⟨fits_zero, fits_zero⟩
theorem Fits.translationWalkDone (n : Nat) : Fits.Statement (.translationWalkDone n) := ⟨fits_zero, fits_zero⟩
theorem Fits.dramRefresh (m : Nat) (stack : Nat) (ch : Nat) (bank : Option Nat) : Fits.Statement (.dramRefresh m stack ch bank) := ⟨fits_zero, fits_zero⟩
theorem Fits.refreshRateChange (m : Nat) (stack : Nat) (hot : Bool) : Fits.Statement (.refreshRateChange m stack hot) := ⟨fits_zero, fits_zero⟩
theorem Fits.scrubWord (m : Nat) (stack : Nat) (ch : Nat) (off : Nat) (e : EccFinding) : Fits.Statement (.scrubWord m stack ch off e) := ⟨fits_zero, fits_zero⟩
theorem Fits.linkPacketReceive (n : Nat) : Fits.Statement (.linkPacketReceive n) := ⟨fits_zero, fits_zero⟩
theorem Fits.linkPortClose (m : Nat) (port : Nat) : Fits.Statement (.linkPortClose m port) := ⟨fits_zero, fits_zero⟩
theorem Fits.gangTimerExpiry (m : Nat) (g : Nat) : Fits.Statement (.gangTimerExpiry m g) := ⟨fits_zero, fits_zero⟩
theorem Fits.gangPrepare (n : Nat) : Fits.Statement (.gangPrepare n) := ⟨fits_zero, fits_zero⟩
theorem Fits.gangPreparedReply (n : Nat) : Fits.Statement (.gangPreparedReply n) := ⟨fits_zero, fits_zero⟩
theorem Fits.gangCommit (m : Nat) (g : Nat) : Fits.Statement (.gangCommit m g) := ⟨fits_zero, fits_zero⟩
theorem Fits.gangSwitchAbort (n : Nat) : Fits.Statement (.gangSwitchAbort n) := ⟨fits_zero, fits_zero⟩
theorem Fits.gangDone (n : Nat) : Fits.Statement (.gangDone n) := ⟨fits_zero, fits_zero⟩
theorem Fits.flaskJoinRequest (n : Nat) : Fits.Statement (.flaskJoinRequest n) := ⟨fits_zero, fits_zero⟩
theorem Fits.flaskJoinReply (n : Nat) : Fits.Statement (.flaskJoinReply n) := ⟨fits_zero, fits_zero⟩
theorem Fits.flaskWithdraw (n : Nat) : Fits.Statement (.flaskWithdraw n) := ⟨fits_zero, fits_zero⟩
theorem Fits.flaskPourAccept (cl : Nat) : Fits.Statement (.flaskPourAccept cl) := ⟨fits_zero, fits_zero⟩
theorem Fits.flaskReadyReceipt (n : Nat) : Fits.Statement (.flaskReadyReceipt n) := ⟨fits_zero, fits_zero⟩
theorem Fits.flaskFaultReceipt (n : Nat) : Fits.Statement (.flaskFaultReceipt n) := ⟨fits_zero, fits_zero⟩
theorem Fits.flaskGoReceipt (n : Nat) : Fits.Statement (.flaskGoReceipt n) := ⟨fits_zero, fits_zero⟩
theorem Fits.flaskMismatchReceipt (n : Nat) : Fits.Statement (.flaskMismatchReceipt n) := ⟨fits_zero, fits_zero⟩
theorem Fits.flaskAbortReceipt (n : Nat) : Fits.Statement (.flaskAbortReceipt n) := ⟨fits_zero, fits_zero⟩
theorem Fits.flaskPartialReceipt (n : Nat) : Fits.Statement (.flaskPartialReceipt n) := ⟨fits_zero, fits_zero⟩
theorem Fits.flaskPanelReceipt (n : Nat) : Fits.Statement (.flaskPanelReceipt n) := ⟨fits_zero, fits_zero⟩
theorem Fits.flaskFinishedReceipt (n : Nat) : Fits.Statement (.flaskFinishedReceipt n) := ⟨fits_zero, fits_zero⟩
theorem Fits.flaskDecide (cl : Nat) : Fits.Statement (.flaskDecide cl) := ⟨fits_zero, fits_zero⟩
theorem Fits.flaskCommitReceipt (n : Nat) : Fits.Statement (.flaskCommitReceipt n) := ⟨fits_zero, fits_zero⟩
theorem Fits.flaskLinkLoss (n : Nat) : Fits.Statement (.flaskLinkLoss n) := ⟨fits_zero, fits_zero⟩
theorem Fits.flaskLeaveReceipt (n : Nat) : Fits.Statement (.flaskLeaveReceipt n) := ⟨fits_zero, fits_zero⟩
theorem Fits.flaskOutcomeQuery (n : Nat) : Fits.Statement (.flaskOutcomeQuery n) := ⟨fits_zero, fits_zero⟩
theorem Fits.ladleChunkIssue (cl : Nat) (e : Nat) : Fits.Statement (.ladleChunkIssue cl e) := ⟨fits_zero, fits_zero⟩
theorem Fits.ladleChunkComplete (cl : Nat) (e : Nat) (k : Nat) : Fits.Statement (.ladleChunkComplete cl e k) := ⟨fits_zero, fits_zero⟩
theorem Fits.ladleDataFault (cl : Nat) (e : Nat) : Fits.Statement (.ladleDataFault cl e) := ⟨fits_zero, fits_zero⟩
theorem Fits.ladleCompletionPut (cl : Nat) (e : Nat) : Fits.Statement (.ladleCompletionPut cl e) := ⟨fits_zero, fits_zero⟩
theorem Fits.ladleCtlRequest (n : Nat) : Fits.Statement (.ladleCtlRequest n) := ⟨fits_zero, fits_zero⟩
theorem Fits.matrixAccept (cl : Nat) : Fits.Statement (.matrixAccept cl) := ⟨fits_zero, fits_zero⟩
theorem Fits.matrixJobStart (cl : Nat) (e : Nat) : Fits.Statement (.matrixJobStart cl e) := ⟨fits_zero, fits_zero⟩
theorem Fits.ringSlotConsume (cl : Nat) (r : Nat) : Fits.Statement (.ringSlotConsume cl r) := ⟨fits_zero, fits_zero⟩
theorem Fits.matrixJobCommit (cl : Nat) (e : Nat) : Fits.Statement (.matrixJobCommit cl e) := ⟨fits_zero, fits_zero⟩
theorem Fits.matrixJobFault (cl : Nat) (e : Nat) : Fits.Statement (.matrixJobFault cl e) := ⟨fits_zero, fits_zero⟩
theorem Fits.mdrainMessageSend (cl : Nat) (e : Nat) : Fits.Statement (.mdrainMessageSend cl e) := ⟨fits_zero, fits_zero⟩
theorem Fits.allAsleepRise (m : Nat) (slot : Nat) : Fits.Statement (.allAsleepRise m slot) := ⟨fits_zero, fits_zero⟩
theorem Fits.asleepReceipt (n : Nat) : Fits.Statement (.asleepReceipt n) := ⟨fits_zero, fits_zero⟩
theorem Fits.allAsleepQuery (n : Nat) : Fits.Statement (.allAsleepQuery n) := ⟨fits_zero, fits_zero⟩
theorem Fits.allAsleepReply (n : Nat) : Fits.Statement (.allAsleepReply n) := ⟨fits_zero, fits_zero⟩
theorem Fits.allAsleepRaise (n : Nat) : Fits.Statement (.allAsleepRaise n) := ⟨fits_zero, fits_zero⟩
theorem Fits.junctionOver105 (m : Nat) : Fits.Statement (.junctionOver105 m) := ⟨fits_zero, fits_zero⟩
theorem Fits.junctionOver115 (m : Nat) : Fits.Statement (.junctionOver115 m) := ⟨fits_zero, fits_zero⟩
theorem Fits.powerCapClockStep (m : Nat) (up : Bool) : Fits.Statement (.powerCapClockStep m up) := ⟨fits_zero, fits_zero⟩
theorem Fits.linkPortDegrade (m : Nat) (port : Nat) (lanes : Nat) (rows : Nat) : Fits.Statement (.linkPortDegrade m port lanes rows) := ⟨fits_zero, fits_zero⟩
theorem Fits.qtileQuantiserDone (cid : Nat) (slot : Nat) : Fits.Statement (.qtileQuantiserDone cid slot) := ⟨fits_zero, fits_zero⟩
theorem Fits.configurationWrite (m : Nat) (control2 : BitVec 4 × Bool) (control : BitVec 3 × BitVec 3) :
    Fits.Statement (.configurationWrite m control2 control) := ⟨fits_zero, fits_zero⟩

end Sys2Proof.Laws
end

