-- ==== Sys2Proof/Tests/Slice0.lean ====
section
/-!
SUPPORT. Tests: words that the spec writes out and what they decode to; ill-formed terms; one-step results that the spec's worked
tables and examples give; and, for the statements with hypotheses, states that meet them.
-/
namespace Sys2Proof.Tests
set_option Elab.async false
open Sys2Proof Sys2Proof.Machine

/-! Words from the spec's tables of examples (06, 07, 08, 09, 10, 11, 12, 14, 16). -/

theorem test_decode_scalar :
    [0x04281044, 0x04181042, 0x04181045, 0x08387001, 0x10306004, 0x18306038, 0x1C37FFFF, 0x20284000, 0x34885000, 0x30804065,
      0x3C186061].map (fun w => decode w 0) =
    [Instr.mulhn 5 1 2, .mul 3 1 2, .div 3 1 2, .addi 7 7 1, .ori 6 6 4, .shli 6 6 56, .movi 6 0x7FFFF, .movs 5 0x4000, .cmpnei 1 5 0,
      .cmplen 1 4 3, .sel 3 6 3 1].map .ok := by decide

theorem test_decode_control :
    [0x44000040, 0x43FFFFFE, 0x4C1C0006, 0x48FFFFFC, 0x49000002, 0x50000002, 0x54000000, 0x54000001, 0x54000002, 0xD4000003].map
      (fun w => decode w 0) =
    [Instr.call 0x40, .br 0x3FFFFFE, .bnz 3 6, .bnp 1 0x3FFFFC, .bp 2 2, .ret, .nop, .yield, .brk, .trap 3].map .ok := by decide

theorem test_decode_special :
    [0x98080009, 0x98480106, 0x9C00200C, 0x9C009106, 0x5C409000, 0x5C108001, 0x584BC000, 0x7C187006].map (fun w => decode w 0) =
    [Instr.srd 1 0x009, .srd 9 0x106, .swr 2 0x00C, .swr 9 0x106, .fdset 1 9, .fdget 2 1, .fmtp 1 2 15, .livem 3 7 false].map .ok := by
  decide

theorem test_decode_memory :
    [0x60085003, 0x60286FFE, 0x640867F8, 0x68286003, 0x6C28600B, 0x70286003, 0x74286FFB, 0x78006000, 0x78086002, 0x7C000060,
      0x7C400002, 0x7C006027, 0x80586120, 0x80008130, 0x80180009].map (fun w => decode w 0) =
    [Instr.ld 1 5 0 .n64, .ld 5 6 0x1FF .i32, .st 1 6 0xFF .n8, .ldf 5 6 0, .ldt 5 6 1, .stp 5 6 0, .stf 5 6 0x1FF, .sete 6, .probe 1 6,
      .fence .module, .rbegin 8, .touch 6 true, .aadd .w64 11 6 9, .aaddP .w64 8 9, .adecp .w64 3 0].map .ok := by decide

theorem test_decode_tasks :
    [0x902050C0, 0x90205001, 0x90205002, 0x902050C3, 0x940050C0, 0x942050C1, 0x94003002, 0x941050C3, 0x94200004].map
      (fun w => decode w 0) =
    [Instr.waitv 4 5 6, .wake1 4 5, .wakea 4 5, .waken 4 5 6, .spawn 5 6, .spawnf 4 5 6, .tend 3, .send 2 5 6, .tself 4].map .ok := by
  decide

theorem test_decode_system :
    [0xD0000000, 0xD0205001, 0xD0205042, 0xD0000003, 0xD0000004, 0xD0005005, 0xD0005006, 0xD0005026, 0xD0005007, 0xD0005027, 0xD0205008,
      0xD02050C9, 0xD000000A, 0xD040000B].map (fun w => decode w 0) =
    [Instr.tret, .evict 4 5, .rstrKill 4 5, .halt, .idle, .invpg 5, .pmarkDead 5, .pmarkLive 5, .shutOff 5, .shutOn 5, .jdrop 4 5,
      .cfgh 4 5 6, .domsw, .fqpop 8].map .ok := by decide

theorem test_decode_vector :
    [0xA0048000, 0xA448D203, 0xAC428000, 0xBC840D00, 0xB1140204].map (fun w => decode w 0) =
    [Instr.vadd 0 1 2 0 .i32, .vfma 1 2 3 2 .f32, .vld 1 5 0, .visect 2 8 13, .vfredadd 4 5 0 .f32].map .ok := by decide

theorem test_decode_float :
    [0xC0181040, 0xC42050C9].map (fun w => decode w 0) = [Instr.fadd .w32 3 1 2, .fma .w64 4 5 6].map .ok := by decide

theorem test_decode_engines :
    [(0xE02050C0, 0x0E010000), (0xE0205001, 0x0E000000), (0xE02050C2, 0x0E000000)].map (fun w => decode w.1 w.2) =
      [Instr.mma 4 5 6 7 true, .mmag 4 5 7 false, .mmat 4 5 6 7 false].map .ok ∧
    [0xD8205000, 0xD8205101, 0xD8504002, 0xD8504003, 0xD8205004, 0xD8200005, 0xDC205000, 0xDC000001, 0xDC000021, 0xDC504002, 0xDC504003,
      0x8C509000, 0x8C004001, 0x8C004002].map (fun w => decode w 0) =
    [Instr.mzero 4 5, .mdrain 4 5 8, .mwait 10 4, .mpoll 10 4, .mring 4 5, .mstat 4, .xjoin 4 5, .xleave false, .xleave true, .xstat 10 4,
      .xwait 10 4, .lstat 10 9, .lresume 4, .lcancel 4].map .ok := by decide

/-! Ill-formed terms: one for each check of `Instr.wf` (05 R111). -/

theorem test_illFormed :
    ([.send 0 1 2, .livem 5 4 false, .acas128 1 2 4, .acas128 2 1 4, .acas128 2 4 1, .srd 1 0x00E, .swr 1 0x120, .vadd 0 1 2 0 .f32, .vfadd 0 1 2 0 .i32,
      .vrcp 0 1 0 .f64, .vfrnd 0 1 0 .x8, .vscan 0 1 0 .x8, .vqnt 0 1 2 0 .f32, .vpack 0 1 2 0 .i32, .visect 2 8 8, .vunion 2 8 12, .vdiff 2 8 10,
      .coreCycle 0, .dispatch 0] : List Instr).all (fun i => !i.wf) = true := by decide

theorem test_wellFormed :
    ([.send 0 1 0, .send 1 1 2, .livem 4 4 false, .acas128 2 4 6, .srd 1 0x00D, .swr 1 0x11F, .srd 1 0x14F, .vadd 0 1 2 0 .i16, .vfadd 0 1 2 0 .x8,
      .vrcp 0 1 0 .f32, .vfrnd 0 1 0 .h16, .vscan 0 1 0 .n32, .vqnt 0 1 2 0 .x8, .vpack 0 1 2 0 .bf16, .visect 2 8 13, .visect 2 8 7] : List Instr).all
      (fun i => i.wf) = true := by decide

/-! A small state: core 0 with a thread of domain 1 in slot 0, and what an instruction leaves. -/

/-- The local window's address of a byte of the core's own memory (04 R81). -/
def own (off : Nat) : Nat := 0xF * 2 ^ 60 + off

/-- A thread of domain 1 with a window of 128 at pc 0x200100 and a TSW. -/
def thread (tsw : Word) : Thread := { Thread.fresh with st := .ready, win := 128, dom := 1, pc := 0x200100, tsw := tsw }

/-- Core 0 with one thread in slot 0 and its registers from g0 up; a protection region that admits every local access of domain 1. -/
def one (t : Thread) (rs : List Word) (cells : List Host.Cell := []) (empties : List Nat := []) (poison : List Nat := []) : State :=
  { State.reset with
    mem := ⟨cells, empties, poison⟩
    cores := [(0, { Core.fresh with rf := rs.zipIdx.map fun p => (p.2, p.1), slots := [(0, t)], prgn := [(0, 0x000117001FFF0000)] })] }

/-- The same with TSW = 0. -/
def plain (rs : List Word) : State := one (thread 0) rs
/-- The same in supervisor mode. -/
def sup (rs : List Word) : State := one (thread 0x2000) rs

/-- The state that an instruction leads to. -/
def after (i : Instr) (s : State) : State :=
  match exec i s with
  | .next t => t
  | _ => State.reset
/-- Whether an instruction answers a next state. -/
def runs (i : Instr) (s : State) : Bool :=
  match exec i s with
  | .next _ => true
  | _ => false

/-- Every instruction whose registers stand in the window is admitted at the thread in supervisor mode. -/
theorem witness_admits (i : Instr) (rs : List Word) (h : ∀ r ∈ i.named, r < 128) : (sup rs).admits i := 
  ⟨fun _ => by show (0x2000#64).getLsbD 13 = true; decide, fun _ => by show (0x2000#64).getLsbD 0 = false; decide, h⟩

/-! Scalar results (06 R143 to R152). -/

theorem test_div_rem : (after (.div 3 1 2) (plain [0, -7, 2])).g 3 = -3 ∧ (after (.rem 3 1 2) (plain [0, -7, 2])).g 3 = -1 := by decide
theorem test_divn : (after (.divn 3 1 2) (plain [0, 0xFFFFFFFFFFFFFFF9, 2])).g 3 = 0x7FFFFFFFFFFFFFFC := by decide
theorem test_div_overflow : (after (.div 3 1 2) (plain [0, 0x8000000000000000, -1])).g 3 = 0x8000000000000000 ∧
    (after (.rem 3 1 2) (plain [0, 0x8000000000000000, -1])).g 3 = 0 := by decide
theorem test_shra_by_65 : (after (.shra 3 1 2) (plain [0, -7, 65])).g 3 = -4 := by decide
theorem test_rotl : (after (.rotl 3 1 2) (plain [0, 0x8000000000000001, 4])).g 3 = 0x18 := by decide
theorem test_addw : (after (.addw 3 1 2) (plain [0, 0x7FFFFFFF, 1])).g 3 = 0xFFFFFFFF80000000 := by decide
theorem test_absd : (after (.absd 3 1 2) (plain [0, 0x7FFFFFFFFFFFFFFF, 0x8000000000000000])).g 3 = 0xFFFFFFFFFFFFFFFF := by decide
theorem test_bfx : (after (.bfx 3 1 4 8) (plain [0, 0xF50])).g 3 = 0xF5 ∧ (after (.bfxs 3 1 4 8) (plain [0, 0xF50])).g 3 = 0xFFFFFFFFFFFFFFF5 ∧
    (after (.bfx 3 1 56 16) (plain [0, 0xABCD000000000000])).g 3 = 0xAB := by decide
theorem test_bfi : (after (.bfi 3 1 8 4) (plain [0, 0x1FF, 0, 0x1111111111111111])).g 3 = 0x1111111111111F11 := by decide
theorem test_movs : (after (.movs 5 0x4000) (plain [0, 0, 0, 0, 0, 2])).g 5 = 0x104000 := by decide
theorem test_call : (after (.call 0x40) (plain [])).thr.pc = 0x200200 ∧ (after (.call 0x40) (plain [])).thr.lk = 0x200104 := by decide
theorem test_predicate_zero : (after (.pnone 0) (plain [])).p 0 = 0xFFFFFFFFFFFFFFFF ∧ (after (.cmpeq 1 0 0) (plain [])).p 1 = 0xFFFFFFFFFFFFFFFF := by
  decide

/-! The worked trap of 14: DIV by zero, its entry and TRET. -/

/-- The thread of the worked trap, with TTBL1 as given. -/
def divider (e : Word) : State :=
  let s := plain [0, 0, 0, 0x1234, 0, 0, 0, 0, 0, 0xAA]
  s.onCore 0 fun c => { c with traps := [(1, [0, e])] }

theorem test_trap_entry : let t := (after (.div 3 1 2) (divider 0x200401)).thr
    t.pc = 0x200400 ∧ t.st = .trap ∧ t.tsw = 0x2000 ∧ t.trap = ⟨0x40, 0, 0x200100, 0, 1, 0, 0, 0, 0, 0⟩ ∧
      (after (.div 3 1 2) (divider 0x200401)).g 3 = 0x1234 := by decide
theorem test_trap_faults : let t := (after (.div 3 1 2) (divider 0x200400)).thr
    t.pc = 0x200100 ∧ t.st = .faulted ∧ t.tsw = 0x2000 ∧ t.trap.tepc = 0x200100 := by decide
theorem test_tret : let s := (after (.div 3 1 2) (divider 0x200401)).onThr fun t => { t with trap := { t.trap with tepc := 0x200104 } }
    let t := (after .tret s).thr
    t.pc = 0x200104 ∧ t.st = .ready ∧ t.tsw = 0 ∧ t.trap.tdepth = 0 := by decide

/-! Vector functions (08 R192 to R195) and the worked merge (08 R208). -/

/-- A state whose v1 holds an f32 in lane 0. -/
def laneOne (x : Word) : State := plain [0, 0, 0, 0, 0, 0, 0, 0, x]
theorem test_vrcp : (after (.vrcp 2 1 0 .f32) (laneOne 0x40800000)).grp 2 % 2 ^ 32 = 0x3E800000 ∧
    (after (.vrcp 2 1 0 .f32) (laneOne 0x80000000)).grp 2 % 2 ^ 32 = 0xFF800000 := by decide
theorem test_vrsq : (after (.vrsq 2 1 0 .f32) (laneOne 0x3E800000)).grp 2 % 2 ^ 32 = 0x40000000 ∧
    (after (.vrsq 2 1 0 .f32) (laneOne 0xBF800000)).grp 2 % 2 ^ 32 = 0x7FC00000 := by decide
theorem test_vexp2 : (after (.vexp2 2 1 0 .f32) (laneOne 0x40400000)).grp 2 % 2 ^ 32 = 0x41000000 ∧
    (after (.vexp2 2 1 0 .f32) (laneOne 0x43480000)).grp 2 % 2 ^ 32 = 0x7F800000 := by decide
theorem test_vlog2 : (after (.vlog2 2 1 0 .f32) (laneOne 0x3E000000)).grp 2 % 2 ^ 32 = 0xC0400000 := by decide
theorem test_rcp_flags : ((after (.vrcp 2 1 1 .f32) ((laneOne 0x80000000).onThr fun t => { t with preds := [0, 1, 0, 0, 0, 0, 0, 0] })).thr.tsw) =
    0x80000 := by decide

/-- Two lists in local memory, as 08 R208's example has them but on one page: A at 0x300 and B at 0x500. -/
def lists : State :=
  one (thread 0) [0, 0, 0, 0, 0, 0, 0, 0, BitVec.ofNat 64 (own 0x300), BitVec.ofNat 64 (own 0x310), BitVec.ofNat 64 (own 0x500), BitVec.ofNat 64 (own 0x510)]
    [(localAddr 0 0x300, 2), (localAddr 0 0x304, 5), (localAddr 0 0x308, 9), (localAddr 0 0x30C, 11), (localAddr 0 0x500, 5), (localAddr 0 0x504, 7),
      (localAddr 0 0x508, 11), (localAddr 0 0x50C, 20)]
theorem test_visect : let t := after (.visect 2 8 13) lists
    t.gn 8 = own 0x310 ∧ t.gn 10 = own 0x50C ∧ t.g 12 = 2 ∧ t.g 13 = 0x102 ∧ t.grp 2 = 5 + 11 * 2 ^ 32 := by decide

/-! Narrow formats and matrix sums (02 R33 to R42). -/

theorem test_narrow_decode :
    [0x00, 0x01, 0x2C, 0x30, 0x38, 0x7E, 0x7F, 0xFF, 0x80, 0xC4].map (narrowOf 0x11550798).decode =
      [.zero false, .fin false 1 (-9), .fin false 12 (-5), .fin false 8 (-4), .fin false 8 (-3), .fin false 14 5, .nan false, .nan false, .esc,
        .fin true 12 (-2)] ∧
    [0x0, 0x1, 0x3, 0x7, 0x8, 0xF].map (narrowOf 0x01400154).decode =
      [.zero false, .fin false 1 (-1), .fin false 3 (-1), .fin false 3 1, .zero true, .fin true 3 1] ∧
    [0x00, 0x1F, 0x20, 0x21].map (narrowOf 0x12040416).decode = [.zero false, .fin false 31 (-4), .esc, .fin true 1 (-4)] := by decide

/-- B: 1.25, 7.0; C: 2.5; A: 1000.0 and a NaN, of the table of 02 R39; 1.25 is 5 / 4. -/
theorem test_narrow_encode :
    (narrowOf 0x01400154).encode (.fin false 5 (-2)) = (0x2, 16) ∧ (narrowOf 0x01400154).encode (.fin false 7 0) = (0x7, 48) ∧
    (narrowOf 0x12040416).encode (.fin false 5 (-1)) = (0x1F, 48) ∧ (narrowOf 0x11550798).encode (.fin false 1000 0) = (0x7E, 48) ∧
    (narrowOf 0x11550798).encode (.nan false) = (0x7F, 0) := by decide

/-- The table of 02 R41: significand and exponent of the expanded values. -/
theorem test_expand :
    expand (narrowOf 0x11550798) 0xC4 (.fin false 1 (-3)) = .fin true 0xC0 (-9) ∧ expand (narrowOf 0x01400154) 0x7 (.fin false 4 0) = .fin false 0xC0 (-3) ∧
    expand (narrowOf 0x12040416) 0x1F (.fin false 171 (-7)) = .fin false 0xA5 (-6) := by decide

/-- The element worked through in 02: 374.75. -/
theorem test_matrix_element : let n := narrowOf 0x11550798; let x := fun (c : Nat) => expand n c (.fin false 1 0); let z := x 0
    matrixSum 32 0x3E800000 (⟨x 0x38, x 0x38, z, z⟩ :: ⟨x 0xC4, x 0x30, z, z⟩ :: ⟨x 0x01, x 0x01, z, z⟩ :: ⟨x 0x80, x 0x2C, .fin false 1000 0, z⟩ ::
      List.replicate 28 ⟨z, z, z, z⟩) = 0x43BB6000 := by decide +kernel

/-! Witnesses: issue, special registers, traps. -/

theorem witness_IssueChecksTrap_privilege : Instr.privileged .halt = true ∧ Instr.privileged (.srd 1 0x140) = true ∧ (plain []).thr.k = false := by decide
theorem test_srd_privilege : (after (.srd 1 0x140) (plain [])).thr.trap.tcause = 0x003 := by decide
theorem test_swr_tsw_keeps_k : (after (.swr 2 0) (plain [0, 0, 0x2000])).thr.k = false ∧ runs (.swr 2 0) (plain [0, 0, 0x2000]) = true := by decide
theorem witness_IssueChecksTrap : Instr.wf .nop = true ∧ Instr.afterPrefix .nop = false ∧ (one (thread 1) []).thr.pp = true ∧
    let s := one { thread 0 with win := 2 } []; let i := Instr.add 1 2 2
    i.wf = true ∧ i.afterPrefix = false ∧ s.thr.pp = false ∧ 2 ∈ i.named ∧ s.thr.win = 2 ∧ ∀ x ∈ i.named, s.thr.win ≤ x → 2 ≤ x := by decide
theorem witness_DivisionResults : (plain [0, 1, 0, 2]).g 2 = 0 ∧ (plain [0, 1, 0, 2]).g 3 ≠ 0 := by decide
/-- A branch taken and not taken, and targets at the edge of what can be fetched. -/
theorem witness_BranchesAndJumpsGo :
    (plain [0, 1, 0xFFFFFFFFFFFC, 0x1000000000000, 2]).g 0 = 0 ∧ (plain [0, 1]).g 1 ≠ 0 ∧ fetchable 0xFFFFFFFFFFFC = true ∧ 0xFFFFFFFFFFFC % 4 = 0 ∧
    fetchable 0x1000000000000 = false ∧ fetchable 2 = true ∧ 2 % 4 ≠ 0 ∧ ((plain []).p 0).getLsbD 0 = true ∧ ((plain []).p 1).getLsbD 0 = false := by
  decide
theorem test_branch_targets : (after (.jr 1) (plain [0, 0xFFFFFFFFFFFC])).thr.pc = 0xFFFFFFFFFFFC ∧
    (after (.jr 1) (plain [0, 0x1000000000000])).thr.trap = ⟨0x080, 0x1000000000000, 0x200100, 0, 1, 0, 0, 0, 0, 0⟩ ∧
    (after (.jr 1) (plain [0, 2])).thr.trap = ⟨0x080, 2, 0x200100, 0, 1, 0, 0, 0, 0, 0⟩ := by decide
theorem witness_SpecialRegisterReads : ((sup []).module 0).bootMode = false := by decide
theorem test_special_writes : (after (.swr 1 0x00C) (plain [0, 0x1FFFFFFFF])).thr.wlim = 0xFFFFFFFF ∧
    ((after (.swr 1 0x117) (sup [0, 5])).core 0).ttbl 1 7 = 5 ∧ (after (.srd 2 0x006) (plain [])).g 2 = 1 := by decide
theorem witness_FormatAndLiveRegisters : (plain []).thr.fds.length = 15 ∧ (7 : Reg) ≤ 7 := by decide
theorem test_fd15 : (after (.fdget 2 15) (plain [])).g 2 = 0x18 ∧ (after (.fdset 15 1) (plain [0, 9])).thr.fd 15 = 0x18 := by decide
theorem test_livem : (after (.livem 3 64 false) (plain [])).thr.live0 = 0xFFFFFFFFFFFFFFF8 ∧ (after (.livem 3 64 false) (plain [])).thr.live1 = 1 := by decide

/-- A thread at depth `n` of the trap registers, in supervisor mode, with a handler for class 1 only. -/
def trapped (n : Nat) : State := (divider 0x200401).onThr fun t => { t with tsw := 0x2000, trap := { t.trap with tdepth := n, tepc := 0x200104 } }
theorem witness_TrapEntersHandler : let s := trapped 1; let e := (s.core 0).ttbl s.thr.dom (causeClass Cause.intDivZero)
    s.thr.trap.tdepth ≤ 1 ∧ e.extractLsb' 0 2 = 1 ∧ e.extractLsb' 2 62 ≠ 0 := by decide

/-- The masks of 04 R84's example: IMASKi has MASK bits i and 31 + i and PIV 39 + i. -/
def masks : List Word := (List.range 9).map fun i => BitVec.ofNat 64 ((39 + i) * 2 ^ 40 + 2 ^ (31 + i) + 2 ^ i)
theorem test_masks : masks.head? = some 0x0000270080000001 ∧ masksBad masks = false := by decide

/-- The settings of a domain that owns clusters 0 and 1 and has no tables. -/
def settings : DomainSettings where
  partitioned := false
  gang := none
  gangModules := []
  gangPeers := []
  clusters := [(0, 0), (0, 1)]
  cacheShare := 0
  walkShare := 0
  interleavedRoots := []
  bankRoots := []
  hostRoot := none
  imasks := masks
  ttbl := []
  service := 0
  saveArea := 0
/-- Domain 1. -/
def domain1 : Domain := ⟨1, settings, [], [], 0, none, false, false, 0, [], false⟩
/-- A booted module 0 with domain 1 in domain slot 0. -/
def bound (s : State) (d : Domain := domain1) : State := s.onModule 0 fun x => { x with domains := [(0, d)], booted := true }

theorem witness_TrapWithoutHandlerFaults : let s := bound (divider 0x200400); let e := (s.core 0).ttbl s.thr.dom (causeClass Cause.intDivZero)
    s.thr.trap.tdepth ≤ 1 ∧ e.extractLsb' 0 2 ≠ 1 ∧ s.thr.svc = false ∧ s.thr.dom ≠ 0 ∧ (s.module (cidModule 0)).domains = [(0, domain1)] ∧
    domain1.tag = s.thr.dom ∧ domain1.fqWait = [] ∧ domain1.fq.length < 4096 ∧ (trapped 2).thr.trap.tdepth = 2 := by decide
/-- A service thread without a handler, and the empty host-service queue of its module. -/
theorem witness_TrapWithoutHandlerFaults_service : let s := (bound (divider 0x200400)).onThr fun t => { t with svc := true }
    s.thr.svc = true ∧ (s.module 0).hsWait = [] ∧ (s.module 0).hsq.length < 256 := by decide
/-- The record of the worked trap: KIND 1, CAUSE 0x040, and the name of slot 9 of the core 0x44. -/
theorem test_thread_record : let s := bound (divider 0x200400)
    ((after (.div 3 1 2) s).faultQueue 0 1).head? = some [0x0120000000000000, 0, 0x200100, 0, 0x40, 0, 0, 1] := by decide
/-- A checkpoint of a window of 128. -/
def checkpoint : Checkpoint := ⟨List.replicate 128 7, List.replicate 8 0, List.replicate 15 0, 0, 0, 8, 0x200100⟩
theorem witness_TretReturns : (trapped 0).thr.trap.tdepth = 0 ∧ (trapped 1).thr.trap.tdepth = 1 ∧ (trapped 1).thr.rollback = none ∧
    (trapped 2).thr.trap.tdepth = 2 ∧
    let s := (trapped 1).onThr fun t => { t with rollback := some 5, ckpt := some checkpoint }
    s.thr.trap.tdepth = 1 ∧ s.thr.rollback = some 5 ∧ s.thr.ckpt = some checkpoint := by decide
theorem witness_ScalarAndVectorFrames : (Instr.scalarWrites (.div 3 1 2)).isSome = true ∧ Instr.divisor (.div 3 1 2) = some 2 ∧ (plain [0, 5, 2]).g 2 ≠ 0 ∧
    (plain []).thr.fte = false := by decide
/-- A prefix that names fd15 thrice, and one that names fd15 and then fd0, which holds no legal descriptor. -/
theorem witness_ScalarAndVectorFrames_vector : Instr.wf (.vfadd 1 2 3 0 .x8) = true ∧ (Instr.vectorWrites (.vfadd 1 2 3 0 .x8)).isSome = true ∧
    (thread (1 + 15 * 2 + 15 * 32 + 15 * 512)).fte = false ∧
    ∀ d ∈ Instr.formats (thread (1 + 15 * 2 + 15 * 32 + 15 * 512)) (.vfadd 1 2 3 0 .x8), (narrowOf d).legal = true := by decide
theorem witness_IssueChecksTrap_formats : Instr.formats (thread (1 + 15 * 2)) (.vfadd 1 2 3 0 .x8) = [0x18] ++ 0 :: [0] ∧
    (narrowOf 0x18).legal = true ∧ (narrowOf 0).legal = false := by decide
theorem test_illegal_format : (after (.vfadd 1 2 3 0 .x8) (one (thread (1 + 15 * 2)) [])).thr.trap.tcause = 0x006 := by decide

/-! Witnesses: floats. The values are those of the codes of 02 R28. -/

theorem witness_FloatSignClassAndMinMaxResults : let u := fmtOf .w32
    (u.unpack 0x7F800001).isSnan = true ∧ (u.unpack 0x7FC00000).isNan = true ∧ (u.unpack 0x7FC00000).isSnan = false ∧ (u.unpack 0x3F800000).finite = true ∧
    (u.unpack 0x3F800000).isNan = false ∧ u.unpack 0x80000000 = .zero true ∧ u.unpack 0 = .zero false ∧ u.unpack 0xFF800000 = .inf true ∧
    u.unpack 0x7F800000 = .inf false ∧ u.unpack 0x3F800000 = .fin false (2 ^ 23) (-23) ∧ u.unpack 0x40000000 = .fin false (2 ^ 23) (-22) := by decide
theorem witness_floats_order : (FV.fin false (2 ^ 23) (-23)).rat < (FV.fin false (2 ^ 23) (-22)).rat := by norm_num [FV.rat]
/-- The operands of every clause of the compares and of the NaN results, at the f64 codes. -/
theorem witness_FloatCompareAndNaNResults : let u := fmtOf .w64
    (u.unpack 0x7FF0000000000001).isSnan = true ∧ (u.unpack 0x3FF0000000000000).finite = true ∧ u.unpack 0x7FF0000000000000 = .inf false ∧
    u.unpack 0xFFF0000000000000 = .inf true ∧ u.unpack 0 = .zero false ∧ u.unpack 0xBFF0000000000000 = .fin true (2 ^ 52) (-52) := by decide
theorem witness_FloatCompareAndNaNResults_nans : let x := fmtOf .w32
    (x.unpack 0x7FC00000).isNan = true ∧ x.unpack 0x7F800000 = .inf false ∧ x.unpack 0xFF800000 = .inf (!false) ∧ x.unpack 0 = .zero false ∧
    x.unpack 0x80000000 = .zero true ∧ x.unpack 0xBF800000 = .fin true (2 ^ 23) (-23) := by decide
theorem witness_ExactArithmeticBeforeRounding : (FV.fin true 3 (-1)).finite = true ∧ (FV.zero true).finite = true ∧ (FV.fin false 3 (-1)).isNan = false ∧
    (FV.nan true).isNan = true ∧ (FV.zero true).rat = 0 ∧ (FV.fin true 3 (-1)).rat ≠ 0 ∧ (FV.fin true 3 (-1)).rat + (FV.fin false 3 (-1)).rat = 0 := by
  refine ⟨rfl, rfl, rfl, rfl, rfl, ?_, ?_⟩ <;> norm_num [FV.rat]
theorem witness_RoundingAndRoundedResults : f32.unpack 0x3FC00000 = .fin false (3 * 2 ^ 22) (-23) ∧ (0x3FC00000 : Nat) < 2 ^ f32.width ∧ (f32.unpack 0x7FC00000).isNan = true ∧
    f32.unpack 0x80000000 = .zero true ∧ f32.unpack 0x7F800000 = .inf false := by decide
/-- A real between 1/2 and 1 that is nearer to the code's value than half a unit of the last place. -/
theorem rounds_below_one (z : ℝ) (n0 c : Nat) (h1 : 1 / 2 ≤ z) (h2 : z < 1) (hn : |(n0 : ℝ) - z * 2 ^ 24| < 1 / 2) (hz : (n0 : ℝ) ≠ z * 2 ^ 24) (hc : c < 2 ^ 32)
    (hu : (f32.unpack c).finite = true) (hr : (f32.unpack c).rat = n0 * (2 ^ 24)⁻¹) : roundsIn f32 0 z (c, 16) := by
  intro neg ex n k hs g1 g2
  have hz0 : 0 < z := by linarith
  have ha : |z| = z := abs_of_pos hz0
  have hneg : neg = false := by
    cases neg
    · rfl
    · exact absurd (hs.1 rfl) (by linarith)
  have hex : ex = -1 := by
    rw [ha] at g1 g2
    have e1 : ex < 0 := (zpow_lt_zpow_iff_right₀ (by norm_num : (1 : ℝ) < 2)).1 (by rw [zpow_zero]; linarith)
    have e2 : -1 < ex + 1 := (zpow_lt_zpow_iff_right₀ (by norm_num : (1 : ℝ) < 2)).1 (by norm_num; linarith)
    omega
  subst hex hneg
  have hq : max (-1 : Int) (1 - f32.bias) - f32.mbits = -24 := by decide
  have hk : (-1 : Int) - f32.mbits = -24 := by decide
  have hp : (2 : ℝ) ^ (-24 : Int) = (2 ^ 24)⁻¹ := by norm_num
  have key : ∀ m : Nat, roundsTo 0 false |z| (2 ^ (-24 : Int)) m → m = n0 := by
    intro m hm
    have hm := hm.1
    rw [ha, hp] at hm
    have := abs_le.1 hm
    have hn := abs_lt.1 hn
    have a1 : (m : ℝ) < n0 + 1 := by linarith
    have a2 : (n0 : ℝ) < m + 1 := by linarith
    have a3 : m < n0 + 1 := by exact_mod_cast a1
    have a4 : n0 < m + 1 := by exact_mod_cast a2
    omega
  rw [hq, hk]
  intro Q U q1 q2
  have en := key n q1
  have ek := key k q2
  rw [en, ek]
  show ((n0 : ℝ) * 2 ^ (-24 : Int) < _ → _) ∧ _
  have hb : f32.bias = 127 := by decide
  have hw : f32.width = 32 := by decide
  have hn := abs_lt.1 hn
  refine ⟨fun _ => ⟨hu, ?_, by rw [hw]; exact hc, fun h => absurd h ?_, fun _ => ⟨fun h => absurd h ?_, fun _ => rfl⟩⟩, fun h => absurd h ?_⟩
  · show (f32.unpack c).rat = _
    rw [hr, show Q = -24 from rfl]; norm_num
  · rw [ha, hp]; intro h; apply hz; rw [← h]; ring
  · rw [hb, show U = (2 ^ 24)⁻¹ from hp, not_lt]
    have : (2 : ℝ) ^ ((1 : Int) - 127) ≤ 1 / 4 := by norm_num
    linarith
  · rw [hb, hp, not_le]
    have : (1 : ℝ) ≤ 2 ^ ((127 : Int) + 1) := by norm_num
    linarith
/-- The lane 1.25, between powers of two: index 16 of the tables of VRCP and VLOG2, whose entries are those of 128/161 and 4/5, index 8 of
that of VRSQ, whose entry is that of 8/9 (08 R192 to R195). -/
theorem witness_FunctionProcedures : f32.unpack 0x3FA00000 = .fin false (5 * 2 ^ 21) (-23) ∧
    roundsIn f32 0 (128 / (129 + 2 * 16)) (0x3F4B8728, 16) ∧ roundsIn f32 0 (8 / 9) (0x3F638E39, 16) ∧ roundsIn f32 0 (64 / (64 + 16)) (0x3F4CCCCD, 16) := by
  refine ⟨by decide, rounds_below_one _ 13338408 _ ?_ ?_ ?_ ?_ ?_ ?_ ?_, rounds_below_one _ 14913081 _ ?_ ?_ ?_ ?_ ?_ ?_ ?_,
    rounds_below_one _ 13421773 _ ?_ ?_ ?_ ?_ ?_ ?_ ?_⟩
  all_goals first
    | decide
    | (norm_num [abs_lt]; done)
    | (norm_num [show f32.unpack 0x3F4B8728 = .fin false 13338408 (-24) by decide, show f32.unpack 0x3F638E39 = .fin false 14913081 (-24) by decide,
        show f32.unpack 0x3F4CCCCD = .fin false 13421773 (-24) by decide, FV.rat])
theorem witness_FunctionProcedures_ranges : (2 : ℝ) ^ (0 : Int) ≤ |1.25| ∧ |(1.25 : ℝ)| < 2 ^ ((0 : Int) + 1) ∧ (16 : ℝ) ≤ 64 * (1.25 - 1) ∧ 64 * (1.25 - 1) < (16 : ℝ) + 1 ∧
    (8 : ℝ) ≤ 32 * (1.25 - 1) ∧ 32 * (1.25 - 1) < (8 : ℝ) + 1 ∧ (1.25 : ℝ) = (1 : Int) + 0.25 ∧ 1 / Real.sqrt ((65 + 2 * 8) / 64) = 8 / 9 := by
  refine ⟨by norm_num, by norm_num, by norm_num, by norm_num, by norm_num, by norm_num, by norm_num, ?_⟩
  rw [show ((65 : ℝ) + 2 * 8) / 64 = (9 / 8) ^ 2 by norm_num, Real.sqrt_sq (by norm_num)]; norm_num
theorem test_float_flags : (after (.fadd .w32 3 1 2) (plain [0, 0x7F800001, 0])).g 3 = 0x7FC00000 ∧
    (after (.fadd .w32 3 1 2) (plain [0, 0x7F800001, 0])).thr.tsw = 0x40000 ∧
    (after (.fdiv .w32 3 1 2) (plain [0, 0x3F800000, 0x80000000])).g 3 = 0xFF800000 ∧
    (after (.fdiv .w32 3 1 2) (one (thread 0x2000000) [0, 0x3F800000, 0, 9])).g 3 = 9 := by decide
theorem witness_Vectors : Ty.isFloat .x8 = true ∧ Ty.isFloat .f64 = true ∧ Ty.isInt .n32 = true ∧ Ty.isWideFloat .bf16 = true ∧ Ty.isPacked .i16 = true ∧
    (narrowOf 0x18).legal = true := by decide
/-- A conversion between integers, to a float, from each kind of float value. -/
theorem witness_ConversionRule : (0x80000000 : Nat) < 2 ^ tyWidth .n32 ∧ (ffOf .f32).unpack 0x7FC00000 = .nan false ∧ (ffOf .f32).unpack 0xFF800000 = .inf true ∧
    (ffOf .f32).unpack 0x80000000 = .zero true ∧ (ffOf .f32).unpack 0x3FC00000 = .fin false (3 * 2 ^ 22) (-23) := by decide

/-- A legal format of four bits: its codes stand for 0, 1/2, 1, 3/2, 2, 3, 4 and 6, and 5/4 is rounded in units of 1/2 to two of them. -/
theorem witness_NarrowCodesAndEncoding : let n := narrowOf 0x01400154
    (0x01400154 : Nat) < 2 ^ 32 ∧ n.legal = true ∧ n.w = 4 ∧ n.s = 1 ∧ n.e = 2 ∧ n.bias = 1 ∧ n.decode 7 = .fin false 3 1 ∧
    (∀ c < 16, (n.decode c) ∈ [.zero false, .fin false 1 (-1), .fin false 2 (-1), .fin false 3 (-1), .fin false 2 0, .fin false 3 0, .fin false 2 1, .fin false 3 1,
      .zero true, .fin true 1 (-1), .fin true 2 (-1), .fin true 3 (-1), .fin true 2 0, .fin true 3 0, .fin true 2 1, .fin true 3 1]) := by decide
theorem witness_NarrowCodesAndEncoding_top : (FV.fin false 3 1).rat = 6 ∧ (∀ v ∈ ([.zero false, .fin false 1 (-1), .fin false 2 (-1), .fin false 3 (-1), .fin false 2 0,
      .fin false 3 0, .fin false 2 1, .fin false 3 1, .zero true, .fin true 1 (-1), .fin true 2 (-1), .fin true 3 (-1), .fin true 2 0, .fin true 3 0, .fin true 2 1,
      .fin true 3 1] : List FV), v.rat ≤ 6) ∧
    (2 : ℚ) ^ (0 : Int) ≤ 5 * 2 ^ (-2 : Int) ∧ (5 : ℚ) * 2 ^ (-2 : Int) < 2 ^ ((0 : Int) + 1) ∧ roundsTo 0 false (5 / 4) (2 ^ (-1 : Int)) 2 := by
  refine ⟨by norm_num [FV.rat], by norm_num [FV.rat], by norm_num, by norm_num, ?_⟩
  constructor
  · rw [abs_le]; constructor <;> norm_num
  · intro _; decide

/-! Witnesses: memory. -/

/-- A thread in supervisor mode with words in local memory: 5 at 0x100 (full), 0 at 0x108 (empty), poison at 0x110. -/
def mem (rs : List Word) : State := one (thread 0x2000) rs [(localAddr 0 0x100, 5)] [localAddr 0 0x108 / 8] [localAddr 0 0x110 / 8]
/-- The local address of an offset as a register value. -/
def at_ (off : Nat) : Word := BitVec.ofNat 64 (own off)

theorem witness_AccessChecks : Instr.access (plain [0, at_ 0]) (.ld 3 1 0 .n64) = some (own 0, 8, .read) ∧ Instr.returns (.ld 3 1 0 .n64) = false ∧
    ((plain []).module 0).bootMode = false := by decide
/-- One address for each clause, where its range begins or ends: BAD_ADDRESS, MISALIGNED, BAD_OFFSET, BAD_CID, PROTECTION, UNSUPPORTED_OP. -/
theorem test_access_checks : let cause := fun (i : Instr) (va : Nat) => (after i (plain [0, BitVec.ofNat 64 va])).thr.trap.tcause
    cause (.ld 3 1 0 .n64) (2 ^ 48) = 0x080 ∧ cause (.ld 3 1 0 .n64) (0xB * 2 ^ 60) = 0x080 ∧ cause (.ld 3 1 0 .n64) (2 ^ 60) = 0x080 ∧
    cause (.ld 3 1 0 .n64) (own 4) = 0x081 ∧ cause (.ld 3 1 0 .n64) (own 0x60000) = 0x082 ∧ cause (.ld 3 1 0 .n64) (0xE * 2 ^ 60 + 24 * 2 ^ 19 + 0x40000) = 0x082 ∧
    cause (.ld 3 1 0 .n64) (0xE * 2 ^ 60 + 30 * 2 ^ 19) = 0x082 ∧ cause (.ld 3 1 0 .n64) (0xD * 2 ^ 60 + 23 * 2 ^ 37) = 0x083 ∧
    cause (.ld 3 1 0 .n64) (0xD * 2 ^ 60 + 24 * 2 ^ 32) = 0x083 ∧ cause (.ld 3 1 0 .n64) (0xE * 2 ^ 60 + 1 * 2 ^ 19) = 0x084 ∧
    cause (.ld 3 1 0 .n64) (0xE * 2 ^ 60 + 28 * 2 ^ 19) = 0x084 ∧ cause (.st 3 1 0 .n64) (0xE * 2 ^ 60 + 29 * 2 ^ 19 + 0xFF8) = 0x084 ∧
    cause (.ldf 3 1 0) (0xC * 2 ^ 60) = 0x08B := by decide
/-- The last word of the local memory, and its first byte. -/
theorem witness_LocalLoadAndStore : (mem []).ownByte (own 0x5FFF8) 8 .read = some (localAddr 0 0x5FFF8) ∧ (mem []).ownByte (own 0) 1 .write = some (localAddr 0 0) ∧
    (mem []).mem.poisoned (localAddr 0 0x110 / 8) = true ∧ (mem []).mem.poisoned (localAddr 0 0x100 / 8) = false := by decide
theorem test_load_store : (after (.ld 3 1 0x1FF .i32) (one (thread 0) [0, at_ 0x104] [(localAddr 0 0x103, 0x80)])).g 3 = 0xFFFFFFFF80000000 ∧
    (after (.st 3 1 0 .n16) (plain [0, at_ 0x100, 0, 0x12345])).mem.read (localAddr 0 0x100) 8 = 0x2345 ∧
    (after (.ld 3 1 0 .n8) (mem [0, at_ 0x117])).thr.trap.tcause = 0x089 ∧ (after (.st 3 1 0 .n64) (mem [0, at_ 0x110, 0, 1])).mem.poisoned (localAddr 0 0x110 / 8) = false := by
  decide
theorem witness_LocalPresenceOperations : let s := mem [0, at_ 0x100, at_ 0x108, 5, at_ 0x110]
    s.ownByte (own 0x100) 8 .rmw = some (localAddr 0 0x100) ∧ s.ownByte (own 0x108) 8 .read = some (localAddr 0 0x108) ∧
    s.watched (localAddr 0 0x100 / 8) = false ∧ (s.core 0).pending 0 = [] ∧ s.mem.full (localAddr 0 0x100 / 8) = true ∧ s.mem.full (localAddr 0 0x108 / 8) = false ∧
    s.poolRoom (localAddr 0 0x108) 1 = true ∧ s.mem.poisoned (localAddr 0 0x110 / 8) = true ∧ s.mem.full (localAddr 0 0x110 / 8) = true ∧
    s.mem.read (localAddr 0 0x100) 8 = s.gn 3 ∧ s.mem.read (localAddr 0 0x108) 8 ≠ s.gn 3 := by decide
/-- A wait list with no room for the domain (12 R289). -/
theorem witness_poolFull : let s := { mem [] with limits := [((poolOf (localAddr 0 0x108)).1, 1, 0)] }
    s.poolRoom (localAddr 0 0x108) 1 = false ∧ s.watched (localAddr 0 0x108 / 8) = false := by decide
theorem test_presence : (after (.ldt 5 1 0) (mem [0, at_ 0x100])).g 5 = 5 ∧ (after (.ldt 5 1 0) (mem [0, at_ 0x100])).mem.full (localAddr 0 0x100 / 8) = false ∧
    (after (.stp 5 1 0) (mem [0, at_ 0x108, 0, 0, 0, 9])).mem.read (localAddr 0 0x108) 8 = 9 ∧ (after (.probe 5 1) (mem [0, at_ 0x108, 0, 0, 0, 9])).g 5 = 0 ∧
    (after (.ldf 5 1 0) (mem [0, at_ 0x108])).thr.st = .parkedMem ∧ (after (.waitv 4 1 2) (mem [0, at_ 0x100, 6])).g 4 = 3 := by decide
/-- Threads that wait at the word 0x108: an LDF, an LDT and a WAITV; and at the full word 0x100 an STP. -/
def listed (rs : List Word) : State :=
  let e := fun (off : Nat) (op : Op) (tag : Nat) => (⟨localAddr 0 off / 8, 0, 0, ⟨5, tag, 1, own off, op, false, false, false, false⟩, cidKey 0, false, false⟩ : WaitEntry)
  { mem rs with waitq := [e 0x108 .ldf 1, e 0x108 .ldt 2, e 0x108 (.waitv 0) 3, e 0x100 (.stp 6) 4] }
theorem witness_WaitersAreServed : let s := listed [0, at_ 0x108, at_ 0x100]; let w := localAddr 0 0x108 / 8
    w < 2 ^ 61 / 8 ∧ s.mem.wf = true ∧ s.mem.poisoned w = false ∧ (∀ e ∈ s.waitq, e.word = w → e.req.op.waits = true) ∧ s.ownByte (s.gn 1) 8 .rmw = some (8 * w) ∧
    (s.core 0).pending 0 = [] ∧ s.mem.full w = false ∧ s.mem.full (localAddr 0 0x100 / 8) = true ∧ s.ownByte (s.gn 2) 8 .rmw = some (8 * (localAddr 0 0x100 / 8)) := by decide
/-- STF of 9 gives the LDF and the LDT their value and leaves the word empty; SETF wakes no WAITV; WAKEA counts one; LDT of the full word lets the STP in. -/
theorem test_waiters : let t := after (.stf 3 1 0) (listed [0, at_ 0x108, at_ 0x100, 9])
    t.net.map (·.body) = [.ans 5 1 false (.data 9), .ans 5 2 false (.data 9)] ∧ t.mem.full (localAddr 0 0x108 / 8) = false ∧ t.waitq.length = 2 ∧
    (after (.wakea 3 1) (listed [0, at_ 0x108])).g 3 = 1 ∧ (after (.ldt 3 2 0) (listed [0, 0, at_ 0x100])).g 3 = 5 ∧
    (after (.ldt 3 2 0) (listed [0, 0, at_ 0x100])).mem.read (localAddr 0 0x100) 8 = 6 := by decide
theorem witness_LocalAtomics : let s := mem [0, at_ 0x104]
    s.thr.rg = false ∧ (s.core 0).pending 0 = [] ∧ s.ownByte (s.gn 1) 4 .rmw = some (localAddr 0 0x104) ∧ s.mem.poisoned (localAddr 0 0x104 / 8 + 0) = false ∧
    (one (thread 0x8000) [0, at_ 0x100]).thr.rg = true ∧ s.ownByte (own 0x110) 16 .rmw = some (localAddr 0 0x110) ∧
    s.mem.poisoned (localAddr 0 0x110 / 8 + 0) = true ∧ s.mem.poisoned (localAddr 0 0x100 / 8 + 1) = false := by decide
theorem test_atomics : (after (.adecp .w64 3 1) (mem [0, at_ 0x100])).g 3 = 5 ∧ (after (.adecp .w64 3 1) (mem [0, at_ 0x100])).mem.read (localAddr 0 0x100) 8 = 4 ∧
    (after (.aincw .w64 3 1 2) (mem [0, at_ 0x100, 5])).mem.read (localAddr 0 0x100) 8 = 0 ∧ (after (.acas64 3 1 2) (mem [0, at_ 0x100, 9, 5])).mem.read (localAddr 0 0x100) 8 = 9 ∧
    (after (.aadd .w32 3 1 2) (one (thread 0x8000) [0, at_ 0x100])).thr.trap.tcause = 0x091 := by decide
/-- A word of another core of the cluster, on a global path: the remote window names core 2. -/
theorem witness_GlobalAccessesEnterJournalOrWait : let s := plain [0, BitVec.ofNat 64 (0xD * 2 ^ 60 + 2 * 2 ^ 32)]
    s.checkAccess 0 1 (s.gn 1) 8 .rmw = .ok (.remote 2 0) ∧ Target.path (.remote 2 0) = .global ∧ Target.isHost (.remote 2 0) = false ∧ s.thr.mr = false ∧ s.thr.scdef = false ∧
    (s.core 0).pending 0 = [] ∧ (s.core 0).journal.length < 64 ∧ (s.core 0).jwait = [] ∧ s.scHeld 0 0 = false ∧
    (s.core 0).jwait.head? = none := by decide
theorem witness_GlobalAccessesEnterJournalOrWait_load : let s := plain [0, BitVec.ofNat 64 (0xD * 2 ^ 60 + 2 * 2 ^ 32)]
    Instr.access s (.ld 3 1 0 .n64) = some (s.gn 1, 8, .read) ∧ s.checkAccess 0 1 (s.gn 1) 8 (Op.load 8).kind = .ok (.remote 2 0) ∧ Target.isHost (.remote 2 0) = false ∧
    s.reaches 0 (s.targetKey 0 1 (.remote 2 0)) = true ∧ Instr.access s (.axchg .w64 3 1 2) = some (s.gn 1, 8, .rmw) ∧
    s.checkAccess 0 1 (s.gn 1) 8 (Op.atom .xchg 8 0).kind = .ok (.remote 2 0) := by decide
/-- A store whose thread has MR set and whose target has no home on another stack: the remote window is not migrated to. -/
theorem witness_GlobalAccessesEnterJournalOrWait_mr : let s := one (thread 0x4000) [0, BitVec.ofNat 64 (0xD * 2 ^ 60 + 2 * 2 ^ 32)]
    s.thr.mr = true ∧ s.migrationTarget (.remote 2 0) = none := by decide
theorem test_journal : let t := after (.st 3 1 0 .n64) (plain [0, BitVec.ofNat 64 (0xD * 2 ^ 60 + 2 * 2 ^ 32), 0, 7])
    (t.core 0).journal.map (fun e => (e.slot, e.kind, e.req.op)) = [(0, 0, .store 8 7)] ∧ t.thr.pc = 0x200104 := by decide
/-- A journal entry that has not settled, inside and outside a region. -/
def entry (r : Bool) : JEntry := ⟨0, 0, 0, ⟨0, 1, 1, 0xD * 2 ^ 60 + 2 * 2 ^ 32, .store 8 7, true, false, false, false⟩, .out, 0, r, false, false⟩
def stored (tsw : Word) (r : Bool) : State := (one (thread tsw) [0, at_ 0x100]).onCore 0 fun c => { c with journal := [entry r] }
theorem witness_FencesAndRegions : (plain []).pendingIn 0 0 .module = [] ∧ (stored 0 false).pendingIn 0 0 .module ≠ [] ∧ ((plain []).core 0).pending 0 = [] ∧
    ((stored 0 false).core 0).pending 0 ≠ [] ∧ (plain []).thr.rg = false ∧ (plain []).pendingIn 0 0 .system = [] ∧ ((plain []).core 0).checkpoints < 16 ∧
    ((plain []).core 0).ckwait = [] ∧ (stored 0x8000 true).thr.rg = true ∧ (stored 0x8000 true).regionPending 0 0 ≠ [] ∧ (stored 0x8000 false).regionPending 0 0 = [] ∧
    let s := (stored 0x8000 false).onThr fun t => { t with ckpt := some checkpoint }
    s.thr.trap.tdepth = 0 ∧ s.thr.rollback = none ∧ s.thr.ckpt = some checkpoint ∧ checkpoint.regs.length = s.thr.win := by decide +kernel
theorem witness_FencesAndRegions_rollback : let s := (stored 0x8000 false).onThr fun t => { t with rollback := some 5 }
    s.thr.rg = true ∧ s.thr.rollback ≠ none ∧ ((plain []).module 0).bootMode = false ∧ (plain []).cur.1 % 32 < 24 ∧ (own 0 % 2 ^ 60 / 2 ^ 19 = 0) := by decide
theorem witness_FencesAndRegions_scope : ¬outsideWindows (own 0x100) := by unfold outsideWindows own; decide
/-- Sixteen checkpoints are held by the other slots of the core. -/
theorem witness_checkpoints : 16 ≤ (((plain []).onCore 0 fun c => { c with slots := c.slots ++ (List.range 16).map fun k =>
    (k + 1, { Thread.fresh with ckpt := some ⟨[], [], [], 0, 0, 0, 0⟩ }) }).core 0).checkpoints := by decide +kernel
theorem test_rbegin : let t := after (.rbegin 8) (plain [0, 0, 0, 0, 0, 0, 0, 0, 9])
    t.thr.rg = true ∧ t.g 8 = 0 ∧ (t.thr.ckpt.map fun k => k.regs.getD 8 0) = some 9 := by decide
/-- A home that is the own cluster, another cluster, another core, and one on a module that is absent. -/
theorem witness_MigrationSendsContext : let s := bound (plain [0, at_ 0]); let far := s.placeOf 0 1 (0xD * 2 ^ 60 + 1 * 2 ^ 37)
    s.thr.rg = false ∧ s.placeOf 0 1 (own 0) = .bad Cause.badAddress ∧ s.placeOf 0 1 (0xD * 2 ^ 60) = .here ∧ far = .core 32 ∧ cidModule 32 ∈ s.present ∧ s.mayMove (cidCluster 32) = true ∧ (s.core 0).pending 0 = [] ∧
    s.placeOf 0 1 (0xD * 2 ^ 60 + 1 * 2 ^ 46) = .core (2 ^ 14) ∧ cidModule (2 ^ 14) ∉ s.present := by decide

/-- A thread with MR set and an address of stack 1's bank memory: the home is on another stack of the module. -/
theorem witness_MigrationSendsContext_home : let s := bound (one (thread 0x4000) [0, BitVec.ofNat 64 (2 ^ 63 + 2 ^ 42)]); let x := targetOf 0 (s.gn 1)
    s.thr.mr = true ∧ s.homeOf 0 1 x = some (0, 1, 0) ∧ s.migrationTarget x = some 32 ∧ s.clusterIn 32 1 = true ∧ s.placeOf 0 1 (s.gn 1) = .cluster 32 ∧
    s.reaches 0 (clusterKey 32) = true ∧ s.checkAccess 0 1 (s.gn 1) 8 .read = .ok x ∧ Target.isHost x = false ∧ Target.isStore x = false := by decide
theorem witness_MigrationSendsContext_there : let s := bound (one (thread 0x4000) [0, BitVec.ofNat 64 (2 ^ 63 + 2 ^ 42)])
    clusterModule 32 ∈ s.present ∧ s.holdsEngine s.thr.uid = false ∧ s.thr.rg = false ∧ (s.core 0).pending 0 = [] ∧ ¬outsideWindows (s.gn 1) :=
  ⟨by decide, by decide, by decide, by decide, by unfold outsideWindows; decide⟩

/-! Witnesses: vector accesses and merges. -/

/-- p1 holds lanes 0 and 1; the block at 0x140 holds nothing, that at 0x100 has an empty and a poisoned word. -/
def blocks (rs : List Word) : State := (mem rs).onThr fun t => { t with preds := [0, 3, 0, 0, 0, 0, 0, 0] }
theorem witness_LocalVectorAccesses : let s := blocks [0, at_ 0x140, 4]; let act := fun (n : Nat) => (List.range n).filter fun j => (s.p 1).getLsbD j
    addressBad (s.gn 1) = false ∧ s.gn 1 % 64 = 0 ∧ act 16 = [0, 1] ∧ (∀ j ∈ act 16, s.ownByte (s.gn 1 + 4 * j) 4 .read = some (localAddr 0 0x140 + 4 * j)) ∧
    (∀ j ∈ act 16, s.ownByte (s.gn 1 + 4 * j) 4 .write = some (localAddr 0 0x140 + 4 * j)) ∧
    (∀ j ∈ act 8, s.ownByte (s.gn 1 + 8 * j) 8 .rmw = some (localAddr 0 0x140 + 8 * j)) ∧
    (∀ j ∈ act 8, s.mem.full ((localAddr 0 0x140 + 8 * j) / 8) = true ∧ s.mem.poisoned ((localAddr 0 0x140 + 8 * j) / 8) = false) ∧
    (List.range 16).filter (fun j => (s.p 2).getLsbD j) = [] ∧ addressBad (2 ^ 48) = true ∧ own 0x104 % 64 ≠ 0 := by decide
/-- A block whose words are empty, for VSTP; a poisoned word of which a half is active, for VST; a failing second unit. -/
theorem witness_vectorCorners : let s := blocks [0, at_ 0x140]; let e := { s with mem := { s.mem with empties := [localAddr 0 0x140 / 8, localAddr 0 0x148 / 8] } }
    (∀ j < 2, e.mem.full ((localAddr 0 0x140 + 8 * j) / 8) = false ∧ e.watched ((localAddr 0 0x140 + 8 * j) / 8) = false) ∧
    s.mem.poisoned (localAddr 0 0x100 / 8 + 2) = true ∧ (1#64).getLsbD 0 ≠ (1#64).getLsbD 1 ∧
    s.checkAccess 0 1 (own 0x5FFFC + 4) 4 .read = .error Cause.badOffset ∧ s.ownByte (own 0x5FFFC) 4 .read = some (localAddr 0 0x5FFFC) := by decide
theorem test_vld : (after (.vld 1 1 1) (blocks [0, at_ 0x100])).grp 1 = 5 ∧ (after (.vst 1 1 1) (blocks [0, at_ 0x140, 0, 0, 0, 0, 0, 0, 0x200000001, 9])).mem.read (localAddr 0 0x140) 8 =
    0x200000001 ∧ (after (.vldf 1 1 0) (blocks [0, at_ 0x140])).thr.pc = 0x200104 := by decide
theorem witness_StreamSetOperations : let s := lists
    (s.g 8).toNat % 4 = 0 ∧ [2, 5, 9, 11].length = ((s.g 9).toNat + 3 - (s.g 8).toNat) / 4 ∧ (plain [0, 2]).gn 1 % 4 ≠ 0 ∧
    ∀ j < 4, s.ownByte ((s.g 8).toNat + 4 * j) 4 .read = some (localAddr 0 0x300 + 4 * j) ∧ s.mem.poisoned ((localAddr 0 0x300 + 4 * j) / 8) = false ∧
      s.mem.read (localAddr 0 0x300 + 4 * j) 4 = [2, 5, 9, 11].getD j 0 := by decide

/-! Witnesses: tasks. -/

/-- A task of future 0x108 that spawns the entry descriptor at 0x120: pc relative 0, window 8. -/
def spawner (rs : List Word) : State :=
  (one (thread 0) rs [(localAddr 0 0x124, 8)] [localAddr 0 0x108 / 8]).onThr fun t => { t with origin := 2, future := at_ 0x108 }
theorem witness_TaskInstructions : let s := spawner [0, at_ 0x120, at_ 0x108, BitVec.ofNat 64 (3 * 2 ^ 32)]; let e := s.gn 1 / 8 * 8
    s.thr.rg = false ∧ (s.core 0).pending 0 = [] ∧ s.gn 1 / 2 % 4 = 0 ∧ s.ownByte e 8 .read = some (localAddr 0 0x120) ∧ s.mem.poisoned (localAddr 0 0x120 / 8) = false ∧
    s.thr.gathered = [] ∧ s.mem.read (localAddr 0 0x120) 8 = 8 * 2 ^ 32 ∧ (s.cluster 0).spawn.length < 512 ∧ s.ownByte (s.gn 2) 8 .rmw = some (localAddr 0 0x108) ∧
    s.watched (localAddr 0 0x108 / 8) = false ∧ s.thr.origin = 2 ∧ s.ownByte s.thr.future.toNat 8 .rmw = some (localAddr 0 0x108) ∧ s.gn 3 < 2 ^ 36 ∧
    s.gn 3 / 2 ^ 32 % 16 = 3 ∧ s.gn 3 / 2 ^ 26 % 64 = 0 ∧ s.cidOk 0 (s.gn 3 % 2 ^ 26) = true ∧ (s.core (s.resolveCid 0 0)).held = [] ∧
    s.reaches (cidModule 0) (cidKey 0) = true ∧ s.checkAccess 0 1 (own 0x60000) 8 .read = .error Cause.badOffset ∧ (stored 0 false).core 0 ≠ Core.fresh ∧
    (plain []).thr.origin ≠ 2 := by decide
/-- Classes 0 and 15, a CID that is out of range, a destination word of more than 36 bits, a misaligned descriptor. -/
theorem test_send_checks : let cause := fun (v : Nat) => (after (.send 0 1 0) (spawner [0, BitVec.ofNat 64 v])).thr.trap.tcause
    cause 0 = 0x101 ∧ cause (15 * 2 ^ 32) = 0x101 ∧ cause (1 * 2 ^ 32 + 23 * 32) = 0x083 ∧ cause (2 ^ 36) = 0x083 ∧
    (after (.spawn 1 0) (spawner [0, at_ 0x122])).thr.trap.tcause = 0x081 := by decide
theorem test_spawn : ((after (.spawnf 2 1 3) (spawner [0, at_ 0x120, at_ 0x108, 7])).cluster 0).spawn = [⟨at_ 0x120, 0x800000000, 7, at_ 0x108, true, none, 1⟩] ∧
    (after (.tend 1) (spawner [0, 6])).mem.read (localAddr 0 0x108) 8 = 6 ∧ (after (.tend 1) (spawner [0, 6])).thr = Thread.fresh := by decide

/-! Witnesses: system instructions. A second thread, faulted, stands in slot 1. -/

/-- Slot 1 holds a faulted thread with the handler 0x200400 of class 1. -/
def beside (t : Thread) (rs : List Word) : State := (bound (sup rs)).onCore 0 fun c =>
  { c with slots := c.slots ++ [(1, t)], traps := [(1, [0, 0x200400])] }
def faulted : Thread := { thread 0x2000 with st := .faulted, win := 8, base := 128, trap := ⟨0x40, 0, 0x200100, 0, 1, 0, 0, 0, 0, 0⟩ }
/-- An evicted context of slot 2 with serial 3. -/
def context : Context := ⟨0, 3, 2, false, false, faulted, List.replicate 8 0⟩

theorem witness_SystemInstructions_thread : let s := beside faulted [0, 1]
    s.gn 1 = 0 * 256 + 1 ∧ s.thread 0 1 = faulted ∧ faulted.st = .faulted ∧ faulted.dom = s.thr.dom ∧ (0, 1) ≠ s.cur ∧ s.mayLeave 0 1 = true ∧ s.storeFull 0 1 = false ∧
    faulted.dbl = false ∧ s.handlerOf 0 faulted = 0x200400 ∧ (s.core 0).pending 1 = [] ∧
    ((stored 0 false).onCore 0 fun c => { c with slots := c.slots ++ [(1, faulted)] }).thread 0 1 = faulted := by decide
theorem witness_SystemInstructions_context : let s := { (beside faulted [0, BitVec.ofNat 64 (2 ^ 63 + 3)]) with ctxs := [context] }
    s.gn 1 = 2 ^ 63 + 0 * 2 ^ 16 + 3 ∧ s.ctxs.find? (fun x => x.cid == 0 && x.serial == 3) = some context ∧ context.th.dom = s.thr.dom ∧
    s.handlerOf 0 context.th ≠ 0 := by decide
theorem test_rstr : (after (.rstrHandle 5 1) (beside faulted [0, 1])).thread 0 1 = { faulted with pc := 0x200400, st := .trap } ∧
    (after (.rstrHandle 5 1) (beside faulted [0, 1])).g 5 = 1 ∧ (after (.rstrKill 5 1) (beside faulted [0, 1, 0, 0, 0, 9])).g 5 = 0 ∧
    ((after (.rstrKill 5 1) (beside faulted [0, 1])).thread 0 1) = Thread.fresh ∧ (after (.rstrResume 5 1) (beside { faulted with dbl := true } [0, 1])).thr.trap.tcause = 0x104 := by
  decide
theorem test_evict : let t := after (.evict 5 1) (beside faulted [0, 1])
    t.g 5 = 0x8000000000000000 ∧ t.ctxs.map (fun k => (k.cid, k.serial, k.slot)) = [(0, 0, 1)] ∧ t.thread 0 1 = Thread.fresh := by decide

/-- A fault queue with one record of eight words. -/
def queued : State := bound (sup []) { domain1 with fq := [[1, 2, 3, 4, 5, 6, 7, 8]] }
theorem witness_SystemInstructions_queue : (bound (sup [])).faultQueue 0 1 = [] ∧ queued.faultQueue 0 1 ≠ [] ∧ (queued.faultQueue 0 1).head!.length = 8 := by decide
theorem test_fqpop : (List.range 8).map (fun j => (after (.fqpop 8) queued).g (8 + j)) = [1, 2, 3, 4, 5, 6, 7, 8] ∧ (after (.fqpop 8) queued).faultQueue 0 1 = [] := by decide

/-- Tables of one 1 GiB page at the start of every stack: the root node at SPA 0x1000, the level-2 node at 0x2000 (04 R92, R93). -/
def tableCells (m : Nat) : List Host.Cell := (List.range 16).flatMap fun k =>
  let a := dramAddr m k 0 0x1000
  [(a + 1, 0x20), (a + 7, 0x80), (a + 0x1003, 0x40), (a + 0x1007, 0xC1)]
def tabled (rs : List Word) : State :=
  bound { sup rs with
      mem := ⟨tableCells 0, [], []⟩ }
    { domain1 with set := { settings with interleavedRoots := List.replicate 16 (some 0x1000), bankRoots := List.replicate 16 (some 0x1000) } }
theorem witness_SystemInstructions_pages : let s := tabled [0, 0x1000, BitVec.ofNat 64 (2 ^ 63 + 0x40)]
    addressBad (s.gn 1) = false ∧ s.gn 1 / 2 ^ 60 = 0 ∧ addressBad (s.gn 2) = false ∧ s.gn 2 / 2 ^ 60 = 8 ∧ s.reaches 0 (channelKey 0 0 0) = true ∧ addressBad (2 ^ 48) = true ∧
    own 0 / 2 ^ 60 ≠ 0 ∧ own 0 / 2 ^ 60 ≠ 8 ∧ own 0 / 2 ^ 60 ≠ 12 ∧ 0xC * 2 ^ 60 / 2 ^ 60 = 12 ∧ addressBad (0xC * 2 ^ 60) = false ∧ s.pagePending 0 1 (targetOf 0 (s.gn 1)) = (0, []) ∧
    s.markedLeaf 1 ⟨0, 0, 0, .bank, 0x40⟩ = .ok (dramAddr 0 0 0 0x2000, 2 ^ 63 + 2 ^ 62 + 2 ^ 56 + 2 ^ 30, 2) ∧
    (bound (sup [])).markedLeaf 1 ⟨0, 0, 0, .bank, 0x40⟩ = .error Cause.notPresent := by decide +kernel
/-- A host request of the same page is outstanding, and a page that PMARK can make live again. -/
theorem witness_SystemInstructions_pending : let a := 0xC * 2 ^ 60 + 0x40
    let s := (bound (sup [0, BitVec.ofNat 64 a])).onModule 0 fun x => { x with outstanding := [⟨.core, ⟨0, 1, 1, a, .load 8, false, false, false, false⟩, 0x40, false, false⟩] }
    s.pagePending 0 1 (targetOf 0 (s.gn 1)) = (0, [(0, 1)]) ∧ (after (.invpg 1) s).thr.wait = .core (.invpg 0 [(0, 1)]) := by decide +kernel
theorem witness_SystemInstructions_live : let s := { tabled [0, 0x1000, BitVec.ofNat 64 (2 ^ 63 + 0x40)] with
      mem := ⟨[(dramAddr 0 0 0 0x1001, 0x20), (dramAddr 0 0 0 0x1007, 0x80), (dramAddr 0 0 0 0x2003, 0x40), (dramAddr 0 0 0 0x2007, 0xC9)], [], []⟩, dead := [(dramAddr 0 0 0 (2 ^ 30), dramAddr 0 0 0 (2 ^ 31))] }
    s.markedLeaf 1 ⟨0, 0, 0, .bank, 0x40⟩ = .ok (dramAddr 0 0 0 0x2000, 2 ^ 63 + 2 ^ 62 + 2 ^ 59 + 2 ^ 56 + 2 ^ 30, 2) ∧ (2 ^ 63 + 2 ^ 62 + 2 ^ 59 + 2 ^ 56 + 2 ^ 30).testBit 59 = true ∧
    s.mem.wf = true ∧ (after (.pmarkLive 2) s).dead = [] ∧ (2 ^ 63 + 2 ^ 62 + 2 ^ 56 + 2 ^ 30).testBit 59 = false := by decide +kernel
theorem witness_SystemInstructions_leaves : (match (tabled []).markLeaves 1 ((List.range 16).map fun k => ⟨0, k, 0, .interleaved, 0x40⟩) with
    | .ok xs => xs.length == 16
    | .error _ => false) = true := by decide +kernel
theorem test_pmark : let t := after (.pmarkDead 2) (tabled [0, 0, BitVec.ofNat 64 (2 ^ 63 + 0x40)])
    t.mem.read (dramAddr 0 0 0 0x2000) 8 = 2 ^ 63 + 2 ^ 62 + 2 ^ 59 + 2 ^ 56 + 2 ^ 30 ∧ t.isDead (dramAddr 0 0 0 (2 ^ 30)) = true ∧ t.isDead (dramAddr 0 0 0 0) = false := by
  decide +kernel
theorem witness_SystemInstructions_rest : let s := bound (sup [0, 5, BitVec.ofNat 64 (2 ^ 56 + 9), at_ 0x100, BitVec.ofNat 64 (2 ^ 57)])
    s.cidOk 0 (s.gn 1 % 2 ^ 26) = true ∧ cidModule (s.resolveCid 0 5) = 0 ∧ s.othersOn 5 1 = false ∧ s.gn 2 / 2 ^ 56 = 1 ∧ s.gn 2 / 2 ^ 32 % 2 ^ 24 = 0 ∧ s.gn 2 % 2 ^ 32 ≠ 0 ∧
    s.ownByte (s.gn 3) 8 .read = some (localAddr 0 0x100) ∧ s.gn 4 / 2 ^ 56 = 2 ∧ (s.module 0).hsq.length < 256 ∧ (s.module 0).hsWait = [] ∧
    (∀ j < 8, s.ownByte (s.gn 3 + 8 * j) 8 .read = some (localAddr 0 0x100 + 8 * j) ∧ s.mem.poisoned ((localAddr 0 0x100 + 8 * j) / 8) = false) ∧
    ((beside { faulted with dom := 2 } []).othersOn 0 1) = true ∧ (s.domain? 0 1).map (fun x => x.2.set.gang) = some none ∧
    ((bound (sup []) { domain1 with set := { settings with gang := some 0, gangModules := [0] } }).domain? 0 1).map (fun x => x.2.set.gang) = some (some 0) := by decide
theorem test_cfgh : let s := sup [0, 0, BitVec.ofNat 64 (2 ^ 56 + 9), at_ 0x100, BitVec.ofNat 64 (2 ^ 57)]
    (after (.cfgh 5 3 2) s).poolLimit (poolOf (localAddr 0 0x100)).1 (poolOf (localAddr 0 0x100)).2 1 = min 9 (poolOf (localAddr 0 0x100)).2 ∧
    ((after (.cfgh 5 3 4) s).module 0).hsq = [List.replicate 8 0] ∧ ((after (.cfgh 5 3 4) s).module 0).msix = [2] ∧
    (after (.cfgh 5 3 1) s).thr.trap.tcause = 0x001 := by decide
theorem test_shut : ((after (.shutOn 1) (sup [0, 5])).core 5).softShut = true ∧ (after (.shutOn 1) (sup [0, 24])).thr.trap.tcause = 0x083 ∧
    (after .halt (sup [])).thr = Thread.fresh := by decide

/-! Witnesses: engines. -/

/-- A copy of 64 bytes from 0x200 to 0x300 with the completion word 0x108: RANK 1, ESIZE 64, DOMAIN 1, COUNT 1, as 09's example lays words out. -/
def copyWords : List Word := [0x10401, at_ 0x300, at_ 0x200, 0, 1, 64, 64]
def copier (rs : List Word) : State :=
  one (thread 0) ([0, at_ 0x120, at_ 0x108, 77] ++ rs)
    ((copyWords.zipIdx.flatMap fun p => (List.range 8).map fun k => (localAddr 0 (0x120 + 8 * p.2 + k), BitVec.ofNat 8 (p.1.toNat / 256 ^ k))).filter (·.2 ≠ 0))
theorem witness_EngineInstructions_copy : let s := copier []
    s.thr.rg = false ∧ (s.core 0).pending 0 = [] ∧ s.ownByte (s.gn 2) 8 .rmw = some (localAddr 0 0x108) ∧ s.watched (localAddr 0 0x108 / 8) = false ∧
    copyWords.length = 4 + 3 * 1 ∧ (∀ j < 7, s.ownByte (s.gn 1 + 8 * j) 8 .read = some (localAddr 0 0x120 + 8 * j) ∧
      BitVec.ofNat 64 (s.mem.read (localAddr 0 0x120 + 8 * j) 8) = copyWords.getD j 0) ∧
    copyBad 1 0 copyWords [] = none ∧ copyBad 2 0 copyWords [] = some Cause.domainMismatch ∧ copyBad 1 0 (0x10501 :: copyWords.drop 1) [] = some Cause.badDescriptor ∧
    (s.cluster 0).eng.lwait = [] ∧ Tab.find (s.cluster 0).eng.ladle 0 = none := by decide +kernel
theorem test_lcopy : let t := after (.lcopyCopy 4 1 2 3 false) (copier [])
    t.g 4 = 0x100 ∧ t.mem.full (localAddr 0 0x108 / 8) = false ∧ t.thr.pc = 0x200108 ∧ (t.cluster 0).eng.ladle.map (fun p => (p.1, p.2.value)) = [(0, 77)] := by
  decide +kernel
theorem witness_EngineInstructions_handle : let s := plain [0, 0x100, BitVec.ofNat 64 (2 ^ 45), BitVec.ofNat 64 (23 * 2 ^ 24)]
    ¬(s.gn 1 / 2 ^ 45 ≠ 0 ∨ s.gn 1 / 2 ^ 5 % 8 ≠ 0) ∧ s.cidOk 0 (s.gn 1 / 2 ^ 24 % 2 ^ 21 * 32) = true ∧ s.reaches 0 (clusterKey 0) = true ∧ s.gn 2 / 2 ^ 45 ≠ 0 ∧
    s.cidOk 0 (s.gn 3 / 2 ^ 24 % 2 ^ 21 * 32) = false := by decide

/-- A job of the domain in entry 1 with sequence number 2. -/
def job (st : Nat) : Job := ⟨st, 2, 1, 0, 0, 0, none, 0, 3, none, [], [], 0, false, 0, 0, 0, [], false, [], [], 0, 0, false, Cause.poison, 64⟩
def jobbing (st : Nat) (rs : List Word) : State := (sup rs).onEng 0 fun e => { e with jobs := [(1, job st)] }
theorem witness_EngineInstructions_job : let s := jobbing 3 [0, 65, 66]
    Tab.find (s.cluster 0).eng.jobs (s.gn 1 % 32) = some (job 3) ∧ s.gn 1 = (job 3).seq % 2 ^ 16 * 32 + s.gn 1 % 32 ∧ (job 3).dom = s.thr.dom ∧ (job 3).kind < 8 ∧ (job 1).st = 1 ∧
    Tab.find (s.cluster 0).eng.jobs (s.gn 2 % 32) = none := by decide
theorem test_mpoll : (after (.mpoll 10 1) (jobbing 3 [0, 65])).g 10 = BitVec.ofNat 64 (3 * 2 ^ 56 + 0x089 * 2 ^ 47 + 3 * 2 ^ 37 + 65) ∧
    (after (.mpoll 10 1) (jobbing 3 [0, 65])).g 11 = 64 ∧ ((after (.mpoll 10 1) (jobbing 3 [0, 65])).cluster 0).eng.jobs = [] ∧
    (after (.mwait 10 1) (jobbing 1 [0, 65])).thr.st = .parkedEngine ∧ (after (.mstat 4) (jobbing 1 [])).g 4 = 0x101 := by decide
/-- A ring of two slots of 512 bytes at the start of unit 0, bound and unbound; a ring word of one slot is malformed. -/
theorem witness_EngineInstructions_ring : let w := 9 * 2 ^ 32 + 2 * 2 ^ 24
    w / 2 ^ 36 % 2 ^ 27 = 0 ∧ fitsUnit (0xE * 2 ^ 60) (2 * 2 ^ 9) = true ∧ (∀ x ∈ wordsFrom (0xE * 2 ^ 60) (2 * 2 ^ 9 / 8), (sup []).engineAdmits 0 1 x .rmw = true) ∧
    ((sup []).cluster 0).eng.rings.find? (fun r => r.2.dom == 1 && r.2.desc % 2 ^ 24 == 0) = none ∧ Tab.find ((sup []).cluster 0).eng.rings 0 = none ∧
    (let s := (sup []).onEng 0 fun e => { e with rings := [(0, ⟨w, 1, 5⟩)] };
      s.ringBusy 0 1 0 = false ∧ (s.cluster 0).eng.rings.find? (fun r => r.2.dom == 1 && r.2.desc % 2 ^ 24 == 0) = some (0, ⟨w, 1, 5⟩)) := by decide +kernel
theorem test_mring : (after (.mring 4 5) (sup [0, 0, 0, 0, 0, BitVec.ofNat 64 (9 * 2 ^ 32 + 1 * 2 ^ 24)])).thr.trap.tcause = 0x142 ∧
    ((after (.mring 4 5) (sup [0, 0, 0, 0, 0, BitVec.ofNat 64 (9 * 2 ^ 32 + 2 * 2 ^ 24)])).cluster 0).eng.rings = [(0, ⟨9 * 2 ^ 32 + 2 * 2 ^ 24, 1, 0⟩)] := by decide +kernel
theorem witness_EngineInstructions_qtile : (narrowOf (one (thread (1 + 15 * 2)) []).thr.fmtA).legal = true ∧ (narrowOf (plain []).thr.fmtA).legal = false ∧
    recordVaBad (0xE * 2 ^ 60) = none ∧ recordVaBad (0xE * 2 ^ 60 + 4) = some Cause.misaligned ∧ (plain []).thr.rg = false ∧
    recordVaBad (own 0) = some Cause.badOperand := by decide

/-! Witnesses: the flask's instructions. Clusters 0 and 1 are its members. -/

/-- A flask of id 7 of domain 1 with the members 0 and 1. -/
def flaskWords : List Word := [BitVec.ofNat 64 (2 * 2 ^ 32 + 7), 1, BitVec.ofNat 64 (2 ^ 32)]
/-- The flask state of cluster 0, ordinal 0, in a state code, with the pour of sequence number 1 or none. -/
def member0 (st : Nat) (p : Option Pour) : Flask :=
  ⟨st, 1, 7, 2, 0, flaskWords, 2, [(1, 2, 0, 0)], 0, [], 0, [], [], [], [], none, 0, p, false, false⟩
def flasked (f : Flask) (rs : List Word) : State :=
  (one (thread 0) rs ((flaskWords.zipIdx.flatMap fun p => (List.range 8).map fun k => (localAddr 0 (0x120 + 8 * p.2 + k), BitVec.ofNat 8 (p.1.toNat / 256 ^ k))).filter
    (·.2 ≠ 0))).onFlask 0 fun _ => f
/-- A pour of sequence number 2 that has not given its part. -/
def pour2 : Pour := ⟨2, ⟨false, false, 4, 0, 0, 0⟩, 0, 0, ⟨[], [], []⟩, ⟨[], [], []⟩, false, [], 0, false, 0, [], [], [], [], false, [], [], none, none⟩
theorem witness_FlaskInstructions_join : let s := flasked Flask.fresh [0, at_ 0x120]
    (s.cluster 0).eng.flask.st = 0 ∧ flaskWords.length = 2 + (2 + 1) / 2 ∧ (∀ j < 3, s.ownByte (s.gn 1 + 8 * j) 8 .read = some (localAddr 0 0x120 + 8 * j) ∧
      BitVec.ofNat 64 (s.mem.read (localAddr 0 0x120 + 8 * j) 8) = flaskWords.getD j 0) ∧ flaskBad 1 0 flaskWords = none ∧
    flaskBad 2 0 flaskWords = some Cause.domainMismatch ∧ flaskBad 1 5 flaskWords = some Cause.badDescriptor ∧ s.reaches 0 (clusterKey (memberOf flaskWords 0)) = true := by
  decide +kernel
theorem test_xjoin : let t := after (.xjoin 4 1) (flasked Flask.fresh [0, at_ 0x120])
    (t.cluster 0).eng.flask.st = 1 ∧ (t.cluster 0).eng.flask.k = 0 ∧ t.thr.st = .parkedMem ∧ t.net.length = 1 := by decide +kernel
theorem witness_FlaskInstructions_states : let s := flasked (member0 2 none) [0, 1, 2, 3, 0]
    (s.cluster 0).eng.flask.dom = s.thr.dom ∧ s.thr.rg = false ∧ plainVaBad (s.gn 4) = none ∧ plainVaBad 4 = some Cause.misaligned ∧ (member0 2 none).queue = [] ∧
    s.xwaiters 0 = [] ∧ (s.flaskFor 0 1).st = 2 ∧ (s.flaskFor 0 1).remembered (s.gn 1) = some (2, 0) ∧ (s.flaskFor 0 1).remembered (s.gn 2) = none ∧
    s.gn 2 = (s.flaskFor 0 1).next ∧ s.gn 3 ≠ (s.flaskFor 0 1).next ∧ s.reaches 0 (clusterKey ((s.flaskFor 0 1).deciderOf 3).2) = true ∧
    (member0 3 (some pour2)).pour = some pour2 ∧ pour2.seq = 2 := by decide
theorem test_flask : (after (.xstat 10 1) (flasked (member0 2 none) [0, 1])).g 10 = BitVec.ofNat 64 (2 * 2 ^ 56 + 2 * 2 ^ 48 + 2 * 2 ^ 40 + 1) ∧
    (after (.xwait 10 1) (flasked (member0 2 none) [0, 2])).thr.st = .parkedEngine ∧ (after (.xwait 10 1) (flasked (member0 5 (some pour2)) [0, 2])).g 10 =
      BitVec.ofNat 64 (5 * 2 ^ 56 + 5 * 2 ^ 48 + 2 * 2 ^ 40 + 2) ∧ (after (.xleave false) (flasked (member0 5 none) [])).thr.trap.tcause = 0x183 ∧
    ((after (.xleave false) (flasked (member0 2 none) [])).cluster 0).eng.flask.st = 0 ∧ (after (.xmmaChain 4 1 2 3 true) (flasked (member0 1 none) [])).thr.trap.tcause = 0x183 := by
  decide

/-! Witnesses: homes, answers, core cycles. Core 2 is the home; its region register admits domain 1 on the remote path. -/

/-- A request of core 0 at a byte of core 2, and a state with packets in flight. -/
def ask (op : Op) (posted : Bool := false) : Req := ⟨0, 1, 1, 0xD * 2 ^ 60 + 2 * 2 ^ 32 + 0x100, op, posted, false, false, false⟩
def away (t : Thread) (net : List Packet) : State :=
  let s := bound (one t [])
  { s with cores := s.cores ++ [(2, { Core.fresh with prgn := [(0, 0x00011F001FFF0000)] })], net := net, mem := ⟨[(localAddr 2 0x100, 9)], [], []⟩ }
def toHome (op : Op) : Packet := ⟨coreSource 0, cidKey 2, 0, none, false, .req (ask op)⟩
def answer (posted : Bool) (a : Ans) : Packet := ⟨cidKey 2, cidKey 0, 1, none, false, .ans 0 1 posted a⟩
/-- A thread that waits for the word of that request in g5. -/
def waiting : Thread := { thread 0 with st := .parkedMem, wait := .mem (.word 5) [⟨0, ask .ldf, .out, 64⟩] false }

theorem witness_HomesAndCores_home : let s := away (thread 0) [toHome (.load 8)]; let r := ask (.load 8)
    s.deliverable 0 = some (toHome (.load 8)) ∧ targetOf r.cid r.va = .remote 2 0x100 ∧ s.resolveCid 0 2 = 2 ∧ s.fused 2 = false ∧ (s.module 0).d3hot = false ∧
    s.reaches (keyModule (cidKey 2)) (cidKey 0) = true ∧ s.shuttered 2 = false ∧ admitted (s.core 2).prgn 1 .remote none 0x100 .read = true ∧
    admitted (s.core 2).prgn 1 .remote none 0x100 .write = true ∧ s.mem.poisoned (localAddr 2 0x100 / 8) = false ∧
    admitted ((plain []).core 2).prgn 1 .remote none 0x100 .read = false ∧ (s.onCore 2 fun c => { c with softShut := true }).shuttered 2 = true := by decide
theorem test_home : (after (.homeAccessRequest 0 0) (away (thread 0) [toHome (.load 8)])).net.map (·.body) = [.ans 0 1 false (.data 9)] ∧
    (after (.homeAccessRequest 0 0) (away (thread 0) [toHome (.store 8 77)])).mem.read (localAddr 2 0x100) 8 = 77 ∧
    (after (.homeAccessRequest 0 0) ((away (thread 0) [toHome (.load 8)]).onCore 2 fun c => { c with softShut := true })).net.map (·.body) = [.ans 0 1 false .shutter] := by
  decide
/-- A walk that the domain's share of the walker admits. -/
theorem witness_HomesAndCores_share : let w : Walk := ⟨0, 1, 1, 0, channelKey 0 0 0, { ask (.load 8) with va := 2 ^ 63 + 0x40 }⟩
    0 < (({ bound (plain []) with walks := [w] } : State).unitShare w.unit w.dom 128 DomainSettings.walkShare).1 := by decide
theorem witness_HomesAndCores_walk : let r : Req := { ask (.load 8) with va := 2 ^ 63 + 0x40 }; let w : Walk := ⟨0, 1, 1, 0, channelKey 0 0 0, r⟩
    let s := { bound (plain []) with walks := [w] }
    s.lookup 0 1 (targetOf 0 r.va) = some ⟨0, 0, 0, .bank, 0x40⟩ ∧ s.homeRoot 1 ⟨0, 0, 0, .bank, 0x40⟩ = .error Cause.notPresent ∧
    s.reaches (keyModule w.src) (cidKey 0) = true ∧ (s.module (keyModule w.src)).d3hot = false ∧
    (after (.translationWalkDone 0) s).net.map (·.body) = [.ans 0 1 false (.fault Cause.notPresent)] := by decide
/-- A request of the word at 0x40 of the bank page of `tableCells`, which waits for a walk; the leaf's upper byte, and empty and poisoned words. -/
def dramAsk (op : Op) : Req := { ask op with va := 2 ^ 63 + 0x40 }
def dramLookup : Lookup := ⟨0, 0, 0, .bank, 0x40⟩
def walking (op : Op) (upper : Byte) (empties poison : List Nat) : State :=
  let s := tabled []
  { s with walks := [walkOf 1 dramLookup (channelKey 0 0 0) (dramAsk op)], mem := ⟨(tableCells 0).map fun c => if c.1 = dramAddr 0 0 0 0x2007 then (c.1, upper) else c, empties, poison⟩ }
/-- The entries of a walk: a node and its leaf, one that is not present, one that is poisoned, and one with a reserved bit. -/
theorem witness_DramHomeAccesses_walk : let s := tabled []; let m := fun (upper : Byte) => (walking (.load 8) upper [] []).mem; let w := fun (x : Memory) => walk x 0 0 false 0x40 4 0x1000
    let e : Word := BitVec.ofNat 64 (s.mem.read (dramAddr 0 0 0 0x1000) 8); let f : Word := BitVec.ofNat 64 (s.mem.read (dramAddr 0 0 0 0x2000) 8)
    e.getLsbD 63 = true ∧ e.getLsbD 56 = false ∧ e.extractLsb' 52 4 = 0 ∧ e.extractLsb' 57 4 = 0 ∧ e.getLsbD 61 = false ∧ (e.extractLsb' 0 52).toNat = 0x2000 ∧
    f.getLsbD 63 = true ∧ f.getLsbD 56 = true ∧ (f.extractLsb' 0 52).toNat = 2 ^ 30 ∧ f.getLsbD 59 = false ∧ s.mem.poisoned (dramAddr 0 0 0 0x1000 / 8) = false ∧
    w s.mem = .ok ⟨f.toNat, 2 ^ 30⟩ ∧ w (m 0x41) = .error Cause.notPresent ∧ w (m 0xD1) = .ok ⟨2 ^ 63 + 2 ^ 62 + 2 ^ 60 + 2 ^ 56 + 2 ^ 30, 2 ^ 30⟩ ∧
    w (m 0xE9) = .error Cause.badPte ∧ w (m 0xC2) = .error Cause.badPte ∧ w (m 0xC0) = .error Cause.notPresent ∧ w ⟨s.mem.cells, [], [dramAddr 0 0 0 0x1000 / 8]⟩ = .error Cause.poison := by decide +kernel
/-- The roots, and a request whose page no unit has cached. -/
theorem witness_DramHomeAccesses_root : let s := tabled []; let p : Packet := { toHome (.load 8) with dst := channelKey 0 0 0, body := .req (dramAsk (.load 8)) }
    let q := { s with net := [p] }
    s.homeRoot 1 dramLookup = .ok 0x1000 ∧ s.domain? 0 2 = none ∧ s.admitsChannel 0 settings 0 0 = true ∧ (bound (sup [])).homeRoot 1 dramLookup = .error Cause.notPresent ∧
    q.deliverable 0 = some p ∧ q.lookup 0 1 (targetOf 0 (2 ^ 63 + 0x40)) = some dramLookup ∧ (q.module (keyModule p.dst)).d3hot = false ∧ q.homeRoot 1 dramLookup = .ok 0x1000 ∧
    (Op.load 8).supported (q.module 0).code = true ∧ (q.takePacket 0).tlb = [] := by decide +kernel
theorem witness_DramHomeAccesses_cached : (tabled []).cached 0 1 1 0x40 = none := by
  have h : (tabled []).tlb = [] := by decide
  unfold State.cached; split <;> simp [h]
/-- The walk's end for every operation: the leaf it finds, and the word's presence and poison that its answer turns on. -/
theorem witness_DramHomeAccesses_ends : let a := dramAddr 0 0 0 (2 ^ 30 + 0x40)
    (∀ x ∈ [(Op.load 8, (0xC1 : Byte), ([] : List Nat), ([] : List Nat)), (.store 8 5, 0xC1, [], []), (.store 4 5, 0xC1, [], []), (.atom .add 8 1, 0xC1, [], []), (.cas 8 0 1, 0xC1, [], []),
        (.ldf, 0xC1, [], []), (.waite, 0xC1, [a / 8], []), (.stp 5, 0xC1, [a / 8], []), (.touch true, 0xC1, [], []), (.load 8, 0xC9, [], []), (.store 8 5, 0x81, [], []),
        (.load 8, 0xD1, [], []), (.load 8, 0xC1, [], [a / 8]), (.load 8, 0xC7, [], [a / 8]), (.ldf, 0xC1, [a / 8], [])],
      let s := walking x.1 x.2.1 x.2.2.1 x.2.2.2; let w := walkOf 1 dramLookup (channelKey 0 0 0) (dramAsk x.1)
      s.walks = [w] ∧ (s.module (keyModule w.src)).d3hot = false ∧ 0 < (s.unitShare w.unit w.dom 128 DomainSettings.walkShare).1 ∧ s.reaches (keyModule w.src) (cidKey 0) = true ∧
      s.lookup 0 1 (targetOf 0 (2 ^ 63 + 0x40)) = some dramLookup ∧ s.homeRoot 1 dramLookup = .ok 0x1000 ∧ s.refreshing = [] ∧ s.waitq = [] ∧ s.poolRoom a 1 = true ∧
      (match s.walkFrom dramLookup 0x1000 with
        | .ok lf => lf.pte.testBit 61 == false && dramAddr 0 0 0 (lf.pte % 2 ^ 31 + 0x40 % lf.size) == a && lf.pte.testBit 59 == (x.2.1 == 0xC9) && lf.pte.testBit 62 == (x.2.1 != 0x81) &&
          lf.pte.testBit 60 == (x.2.1 == 0xD1) && lf.pte.testBit 58 == (x.2.1 == 0xC7)
        | _ => false) = true) := by decide +kernel
theorem witness_DramHomeAccesses_waits : let a := dramAddr 0 0 0 (2 ^ 30 + 0x40); let s := walking .ldf 0xC1 [a / 8] []
    s.mem.full (a / 8) = false ∧ (walking .ldf 0xC1 [] []).mem.full (a / 8) = true ∧ s.mem.poisoned (a / 8) = false ∧ a % 8 = 0 ∧ a < 2 ^ 60 ∧ (dramAsk .ldf).ordered = false ∧
    (dramAsk .ldf).sc = false := by decide +kernel
theorem witness_HomesAndCores_reply : let s := away waiting [answer false (.data 9)]
    s.deliverable 0 = some (answer false (.data 9)) ∧ s.slotFetching 0 1 = none ∧ s.slotAwaiting 0 1 = some (0, ⟨0, ask .ldf, .out, 64⟩) ∧
    (s.thread 0 0).wait = .mem (.word 5) [⟨0, ask .ldf, .out, 64⟩] false ∧ (after (.memoryReply 0) s).gOf 0 0 5 = 9 ∧ (after (.memoryReply 0) s).thr.pc = 0x200104 ∧
    (away (thread 0) []).slotAwaiting 0 1 = none ∧ (away (thread 0) []).contextAwaiting 0 1 = none := by decide
theorem witness_HomesAndCores_journal : let s := (away (thread 0) [answer true (.fault Cause.protection)]).onCore 0 fun c => { c with journal := [entry false] }
    s.deliverable 0 = some (answer true (.fault Cause.protection)) ∧ (s.core 0).journal = [entry false] ∧ (entry false).req.tag = 1 ∧ (entry false).discard = false ∧
    ((after (.journalEntrySettle 0) s).thread 0 0).held = [⟨Cause.storeRefused, (entry false).req.va, some (0, 0)⟩] ∧ ((after (.journalEntrySettle 0) s).core 0).journal = [] := by
  decide
/-- An entry whose resend is due, for each of the four resends. -/
theorem witness_HomesAndCores_resends : ∀ x ∈ [(Retry.refresh, Instr.refreshRetryResend 0 1), (.noList, .noListResend 0 1), (.sc, .scRetryResend 0 1),
    (.shutter, .shutterRetryResend 0 1)],
    let s := (plain []).onCore 0 fun c => { c with journal := [{ entry false with st := .again x.1 0 }] }
    s.reaches (cidModule 0) (s.reqKey (entry false).req) = true ∧ (after x.2 s).net.length = 1 := by decide
theorem witness_HomesAndCores_cancel : let e : WaitEntry := ⟨localAddr 2 0x100 / 8, 0, 0, ask .ldf, cidKey 2, false, false⟩
    let p : Packet := ⟨coreSource 0, cidKey 2, 0, none, false, .cancel 0 1 1 (ask .ldf).va⟩; let s := { away waiting [p] with waitq := [e] }
    s.deliverable 0 = some p ∧ e.req.hasTag 0 1 = true ∧ e.req.posted = false ∧ s.reaches (keyModule e.replyTo) (cidKey 0) = true ∧ (after (.waitCancel 0) s).waitq = [] ∧
    (away waiting [p]).waitq = [] ∧ (away waiting [p]).walks = [] := by decide
theorem witness_HomesAndCores_dram : let s := plain []; let a := dramAddr 0 15 31 (2 ^ 31 - 8)
    s.present.contains 0 = true ∧ s.isDead a = false ∧ s.mem.poisoned (a / 8) = false ∧ s.hotStacks.contains 15 = !true ∧
    Tab.get 0 ({ s with corrected := [(15 * 32 + 31, 1023)] }).corrected (15 * 32 + 31) = 1023 ∧
    (after (.scrubWord 0 15 31 (2 ^ 31 - 1) .uncorrectable) s).mem.poisoned (a / 8) = true ∧ (after (.dramRefresh 0 0 3 (some 2)) s).refreshing = [(3, 2)] ∧
    ((after (.scrubWord 0 15 31 0 .correctable) { s with corrected := [(15 * 32 + 31, 1023)] }).module 0).log =
      [[BitVec.ofNat 64 (2 ^ 56 + 1024), BitVec.ofNat 64 (dramAddr 0 15 31 0), 0, 0]] := by decide +kernel
/-- A core with a thread whose sector is in its buffers, one without threads, and one whose module is in D3hot. -/
def ready : State := bound (one { thread 0 with cur := some ⟨0x200100, [], [], none⟩, nxt := some ⟨0x200140, [], [], none⟩ } [])
theorem witness_HomesAndCores_cycle : let s := ready; let w := ((s.onCore 0 fun c => { c with cyc := c.cyc + 1 }).tidy 0).wakeCore 0; let v := w.serveHeld 0
    s.coreRuns 0 = true ∧ w.choose 0 = some (0, none) ∧ (v.thread 0 0).st.runs = true ∧ (v.thread 0 0).due = false ∧ (match (v.thread 0 0).shift.fetch with
      | .need _ => false
      | _ => true) = true ∧ (bound (plain [])).coreRuns 3 = true ∧ ((bound (plain [])).core 3).slots = [] ∧
    ((bound (plain [])).onModule 0 fun x => { x with d3hot := true }).coreRuns 0 = false := by decide
theorem test_cycle : (after (.coreCycle 0) ready).issuing = true ∧ (after (.coreCycle 0) ready).cur = (0, 0) ∧ ((after (.coreCycle 0) ready).core 0).cyc = 1 := by decide
theorem witness_HomesAndCores_async : let a : Async := ⟨Cause.storeRefused, 5, some (0, 7)⟩
    let s := (bound (one { thread 0 with held := [a] } [])).onCore 0 fun c => { c with traps := [(1, [0, 0, 0x200401])] }; let t := (after (.asyncTrapEntry 0 0) s).thr
    s.coreRuns 0 = true ∧ s.mayStep 0 0 = true ∧ s.thr.st.runs = true ∧ s.thr.held = [a] ∧ s.thr.trap.tdepth ≤ 1 ∧ (s.core 0).ttbl 1 (causeClass a.cause) = 0x200401 ∧
    t.pc = 0x200400 ∧ t.trap.tcause = 0x28A ∧ t.trap.tfaddr = 5 ∧ t.jentry = 7 ∧ t.held = [] := by decide
theorem witness_HomesAndCores_limit : let s := (bound (one { thread 0 with st := .parkedMem, wlim := 5, issue0 := some 3, wait := .core .idle } [])).onCore 0 fun c =>
      { c with cyc := 8 }
    s.coreRuns 0 = true ∧ s.thr.limitPassed (s.core 0).cyc = true ∧ s.contextsOf 0 0 = [] ∧ (after (.wlimExpiry 0 0) s).thr.pc = 0x200104 := by decide
theorem witness_HomesAndCores_link : let p : Packet := { answer false .ok with port := some 0 }; let s := away (thread 0) [p, { p with vc := 6 }]
    s.net[0]? = some p ∧ p.onLink = true ∧ p.vc < 6 ∧ s.net[1]? = some { p with vc := 6 } ∧ ((after (.linkPacketReceive 0) s).net.map (·.crossed)) = [true, false] := by decide

/-! Witnesses: the host and launches. -/

/-- The launch record of 01's worked example, and the same for domain 1 with its entry descriptor and completion word in core 2. -/
def exampleRecord : List Word := [0x100040, 0x101000, 0x102000, 1, 0x0004000800020003, 0x4000, 0x7FFFFF0001, 0, 0, 0, 0, 0, 0, 0, 0, 1]
/-- The remote window of core 2 (04 R81), where the launch unit reads the slots of queue 0. -/
def far (off : Nat) : Nat := 0xD * 2 ^ 60 + 2 * 2 ^ 32 + off
def record1 : List Word := [BitVec.ofNat 64 (far 0x400), 0, BitVec.ofNat 64 (far 0x408), 1, 0x0001000100000001, 0, 0x00010001, 0, 0, 0, 0, 0, 0, 0, 0, 1]
def queue0 : Queue := { Queue.fresh with base := BitVec.ofNat 64 (far 0), dom := 1, en := true, sizelog := 1 }
/-- Module 0 with queue 0; the bytes of some words from an address up, and some empty words, in core 2. -/
def wordCells (a : Nat) (ws : List Word) : List Host.Cell :=
  (ws.zipIdx.flatMap fun p => (List.range 8).map fun k => (a + 8 * p.2 + k, BitVec.ofNat 8 (p.1.toNat / 256 ^ k))).filter (·.2 ≠ 0)
def hosted (q : Queue) (cells : List Host.Cell) (empties : List Nat) : State :=
  let s := (away (thread 0) []).onModule 0 fun x => { x with queues := [(0, q)] }
  { s with mem := ⟨cells, empties, []⟩ }
theorem test_record : recordRefusal { domain1 with tag := 3 } 3 exampleRecord (some 0x2000000030) true = none ∧ descWin 0x2000000030 = 32 ∧
    descPc 0x100040 0x2000000030 = 0x100100 ∧ recordRefusal domain1 1 exampleRecord (some 0x2000000030) true = some 2 ∧
    recordRefusal { domain1 with tag := 3 } 3 (exampleRecord.take 15 ++ [2]) (some 0x2000000030) true = some 5 := by decide +kernel

theorem witness_HostAndLaunches_device : let s := bound (sup [])
    s.present.contains 0 = true ∧ (s.module 0).turnedAway = none ∧ (s.module 0).booted = true ∧ ((sup []).module 0).booted = false ∧ s.meetsDead 0x100 8 = false ∧
    s.mem.poison = [] ∧ ((s.onModule 0 fun x => { x with d3hot := true }).module 0).turnedAway.isSome = true ∧
    (0 * 2 ^ 40 + 0x110) / 8 ∈ ({ s with mem := ⟨[], [], [0x110 / 8]⟩ }).mem.poison ∧ ({ s with dead := [(0x100, 0x108)] }).meetsDead 0x100 8 = true := by decide
theorem test_device : let s := bound (sup []); let w := after (.deviceMemoryWrite 0 0x108 [1, 2, 3, 4, 5, 6, 7, 8] false) s
    w.mem.read 0x108 8 = 0x0807060504030201 ∧ ((after (.deviceMemoryRead 0 0x108 4) w).module 0).reply = ⟨.ok, [1, 2, 3, 4]⟩ ∧
    (after (.deviceMemoryWrite 0 0x108 [1, 2, 3, 4, 5, 6, 7, 8] true) s).mem.poisoned (0x108 / 8) = true ∧
    (after (.completerAtomicop 0 0x108 (.fetchAdd 8 1)) w).mem.read 0x108 8 = 0x0807060504030202 ∧
    ((after (.completerAtomicop 0 0x108 (.fetchAdd 8 1)) w).module 0).reply = ⟨.ok, [1, 2, 3, 4, 5, 6, 7, 8]⟩ := by decide
theorem witness_HostAndLaunches_put : let s := hosted queue0 [] [localAddr 2 0 / 8]; let y := (s.module 0).queue 0
    (s.module 0).turnedAway = none ∧ y.en = true ∧ 0 + 8 ≤ 128 * 2 ^ y.sizelog ∧ 128 * 2 ^ y.sizelog < 256 + 8 ∧
    (s.unitAct 0 1 (far 0) (.touch true) none).1 = .ok 0 ∧ ((s.unitAct 0 1 (far 0) (.touch true) none).2.unitAct 0 1 (far 0) .probe none).1 = .ok 0 ∧
    ((s.unitAct 0 1 (far 8) (.touch true) none).2.unitAct 0 1 (far 8) .probe none).1 = .ok 1 := by decide +kernel
theorem test_put_window : let s := hosted queue0 [] [localAddr 2 0 / 8]; let t := after (.putWindowWrite 0 0 0 [7, 0, 0, 0, 0, 0, 0, 0] false) s
    t.mem.read (localAddr 2 0) 8 = 7 ∧ t.mem.full (localAddr 2 0 / 8) = true ∧ (((after (.putWindowWrite 0 0 8 [7, 0, 0, 0, 0, 0, 0, 0] false) s).module 0).queue 0).coll = 1 ∧
    (((after (.putWindowWrite 0 0 256 [7, 0, 0, 0, 0, 0, 0, 0] false) s).module 0).queue 0).badw = true := by decide +kernel
/-- An outstanding read of host memory of core 0. -/
def hostRead : HostReq := ⟨.core, ask (.load 8), 0x40, false, false⟩
theorem witness_HostAndLaunches_completion : let s := (away waiting []).onModule 0 fun x => { x with outstanding := [hostRead] }
    (s.module 0).outstanding[0]? = some hostRead ∧ (s.module 0).outstanding[1]? = none ∧ s.reaches 0 (cidKey 0) = true ∧ hostRead.req.op = .load 8 ∧
    (after (.hostCompletion 0 0 .ok [(0x40, 3)]) s).net.map (·.body) = [.ans 0 1 false (.data 3)] ∧
    (after (.hostCompletionTimeout 0 0 true) s).net.map (·.body) = [.ans 0 1 false (.fault Cause.hostTimeout)] ∧ ((after (.hostCompletion 0 1 .ok []) s).module 0).aer = [2] := by
  decide +kernel
/-- A full slot with a record, one with a record of another version, and a queue whose base is no address of the launch unit. -/
theorem witness_HostAndLaunches_take : let s := hosted queue0 (wordCells (localAddr 2 0) record1 ++ wordCells (localAddr 2 0x400) [0x800000000]) []
    let x := s.module 0; let t := s.unitWords 0 0 1 ((List.range 16).map fun k => far (8 * k)); let e := s.unitWords 0 0 1 [far 0x400]; let w := s.unitEmpty 0 1 ((List.range 16).map fun k => far (8 * k))
    x.takes 0 = true ∧ s.domain? 0 1 = some (0, domain1) ∧ (s.unitAct 0 1 (far 120) .waitf none).1 = .ok 0 ∧ t.1 = .words record1 ∧ e.1 = .words [0x800000000] ∧ (match w.1 with
      | .words _ => true
      | _ => false) = true ∧
    record1.getD 8 0 = 0 ∧ recordRefusal domain1 1 record1 (some 0x800000000) true = none ∧
    (((after (.launchSlotTake 0 0) s).module 0).queue 0).latch = some ⟨record1, 0x800000000, 0⟩ ∧ (((after (.launchSlotTake 0 0) s).module 0).queue 0).cons = 1 ∧
    (after (.launchSlotTake 0 0) s).mem.full (localAddr 2 0x78 / 8) = false ∧ recordRefusal domain1 1 (record1.take 15 ++ [2]) (some 0x800000000) true = some 5 ∧
    ((hosted { queue0 with base := BitVec.ofNat 64 (2 ^ 60) } [] []).unitAct 0 1 (2 ^ 60 + 120) .waitf none).1 = .fail Cause.badAddress := by decide +kernel
theorem witness_HostAndLaunches_refusal : let s := hosted { queue0 with refusal := some ⟨0, 5, BitVec.ofNat 64 (far 0x408)⟩ } [] [localAddr 2 0x408 / 8]
    (s.unitAct 0 1 (far 0x408) (.stf (0xFF * 2 ^ 56 + 5)) none).1 = .ok 0 ∧ (s.unitAct 0 1 (2 ^ 60) (.stf 0) none).1 = .fail Cause.badAddress ∧
    (after (.launchRefusalPut 0 0) s).mem.read (localAddr 2 0x408) 8 = 0xFF * 2 ^ 56 + 5 ∧ (after (.launchRefusalPut 0 0) s).mem.full (localAddr 2 0x408 / 8) = true := by decide +kernel
theorem witness_HostAndLaunches_fault : let s := hosted { queue0 with faulted := [(Cause.badAddress, 120), (Cause.badOffset, 128)] } [] []
    ((s.module 0).queue 0).faulted = [(Cause.badAddress, 120), (Cause.badOffset, 128)] ∧ (((after (.launchQueueFault 0 0) s).module 0).queue 0).flt = true ∧
    (((after (.launchQueueFault 0 0) s).module 0).queue 0).faulted = [(Cause.badOffset, 128)] := by decide +kernel
/-- A latched record: the one core asked for of cluster 0 of die 0 is placed; and one that is refused since its entry descriptor has changed. -/
theorem witness_HostAndLaunches_dispatch : let l : Latched := ⟨record1, 0x800000000, 7⟩
    let at_ := fun (d : Word) => hosted { queue0 with latch := some l } (wordCells (localAddr 2 0x400) [d]) []; let s := at_ 0x800000000; let t := after (.dispatch 0) s
    s.claimed 0 = [] ∧ (s.selectLatch 0).map (fun x => x.1) = some 0 ∧ l.word 8 = 0 ∧ (s.unitWords 0 0 1 [l.word 0]).1 = .words [0x800000000] ∧
    recordRefusal domain1 1 l.rec_ (some 0x800000000) true = none ∧ (s.place 0 { l with rec_ := l.rec_.take 16 }).isSome = true ∧ ((hosted queue0 [] []).selectLatch 0).isNone = true ∧
    (t.module 0).launches.map (fun l => (l.id, l.queue, l.cores.length)) = [(0, 0, 1)] ∧ recordRefusal domain1 1 l.rec_ (some 0x100000000) true = some 3 ∧
    (((after (.dispatch 0) (at_ 0x100000000)).module 0).queue 0).refusal.map (fun r => (r.seq, r.code)) = some (7, 3) := by decide +kernel
def launched (pending : Bool) : State :=
  (hosted queue0 [] [localAddr 2 0x408 / 8]).onModule 0 fun x => { x with launches := [⟨0, 0, 1, record1, [5], true, pending⟩], nextLaunch := 1 }
theorem witness_HostAndLaunches_complete : let s := launched false; let z : Launch := ⟨0, 0, 1, record1, [5], true, false⟩
    (s.module 0).launches.find? (fun y => y.id == 0) = some z ∧ s.hasTask 0 0 = false ∧ s.hasWork 0 0 = false ∧
    ((s.retireLaunch 0 z).unitAct 0 1 (far 0x408) (.stf 1) none).1 = .ok 0 ∧ ((launched true).unitAct 0 1 (far 0x408) (.stf 1) none).1 = .ok 0 ∧ s.unbinding 0 1 = false ∧ (s.module 0).recordWaits 0 = false ∧
    ((s.module 0).queue 0).faulted = [] ∧ ((s.module 0).queue 0).flt = false ∧
    (after (.launchComplete 0 0) s).mem.read (localAddr 2 0x408) 8 = 1 ∧ ((after (.launchComplete 0 0) s).module 0).launches = [] := by decide +kernel

/-- A task of domain 1 in cluster 0's spawn queue that enters at far 0x400 with a window of 8. -/
def task : QTask := ⟨BitVec.ofNat 64 (far 0x400), 0x800000000, 7, 8, true, none, 1⟩
def spawned : State := (bound (plain [])).onCluster 0 fun c => { c with spawn := [task] }
theorem witness_HostAndLaunches_place : let s := spawned
    (s.cluster 0).spawn = [task] ∧ s.coreFor 0 task = some 1 ∧ (s.core 1).room 4 8 = some (0, 0) ∧
    ((after (.spawnQueuePlace 0) s).thread 1 0).pc = BitVec.ofNat 64 (far 0x400) ∧ (after (.spawnQueuePlace 0) s).gOf 1 0 0 = 7 ∧ (after (.spawnQueuePlace 0) s).gOf 1 0 1 = 8 := by
  decide +kernel
/-- Every other core of the cluster is held for another domain's gang; core 0 has a full file and one thread that waits at a word. -/
def crowded : State :=
  let w : Thread := { waiting with win := 128 }
  let s := (bound (plain [])).onCore 0 fun c => { c with slots := (0, w) :: (List.range 31).map fun k => (k + 1, { thread 0 with base := 128 * (k + 1) }) }
  { (s.onCluster 0 fun c => { c with spawn := [task] }) with
    waitq := [⟨localAddr 2 0x100 / 8, 0, 0, ask .ldf, cidKey 2, false, false⟩]
    modules := [(0, { (s.module 0) with gangs := [(0, { Gang.fresh with current := 2, cores := (List.range 23).map (· + 1) })] })] }
theorem witness_HostAndLaunches_evict : let s := crowded
    (∀ c ∈ clusterCores 0, (s.core c).held = []) ∧ s.taskCores 0 task = [0] ∧ (s.core 0).room 4 8 = none ∧ s.evictionFor [0] 4 8 = some (0, 0) ∧
    ((s.evict 0 0 true).2.core 0).room 4 8 = some (0, 0) ∧ (after (.schedulerEvict 0) s).ctxs.map (fun c => (c.cid, c.slot, c.sched)) = [(0, 0, true)] ∧
    ((after (.schedulerEvict 0) s).thread 0 0).win = 8 := by decide +kernel
def readyContext : Context := ⟨0, 3, 2, true, false, { thread 0 with win := 8 }, [5]⟩
theorem witness_HostAndLaunches_restore : let s := { bound (plain []) with ctxs := [readyContext] }
    (clusterCores 0).findSome? s.restorable = some readyContext ∧ s.restoreRoom readyContext = some (2, 128) ∧ readyContext.th.ckpt = none ∧ readyContext.th.wait = .none ∧
    (after (.contextRestore 0) s).gOf 0 2 0 = 5 ∧ (after (.contextRestore 0) s).ctxs = [] := by decide +kernel
/-- A message of class 3 for core 0, which has a handler for it at far 0x400. -/
def note : Message := ⟨0, 0, 1, 3, [9], 0x200, 0⟩
def mailed (b : Body) : State :=
  let s := away (thread 0) [⟨coreSource 2, cidKey 0, 4, none, false, b⟩]
  let s := s.onModule 0 fun x => { x with launches := [⟨0, 0, 1, record1, [0], false, false⟩] }
  { (s.onCore 0 fun c => { c with classes := [(1, ⟨[0, 0, BitVec.ofNat 64 (far 0x400)], (0, 0)⟩)] }) with mem := ⟨wordCells (localAddr 2 0x400) [0x800000000], [], []⟩ }
theorem witness_HostAndLaunches_message : let s := mailed (.message note); let u := s.takePacket 0
    s.deliverable 0 = some ⟨coreSource 2, cidKey 0, 4, none, false, .message note⟩ ∧ s.shuttered 0 = false ∧ (s.core 0).held = [] ∧ s.fused 0 = false ∧
    s.clusterAvailable 0 1 = true ∧ s.coreForeign 0 1 = false ∧ (∃ l, u.served note = .entry (far 0x400) 0x800000000 l) ∧ (u.restorable 0).isSome = false ∧
    (u.core 0).room 0 8 = some (1, 128) ∧ u.served { note with cls := 4 } = .unserved ∧ (after (.messageArrival 0) s).gOf 0 1 0 = 9 ∧
    ((after (.messageArrival 0) s).thread 0 1).cls = 3 := by
  refine ⟨by decide +kernel, by decide +kernel, by decide +kernel, by decide +kernel, by decide +kernel, by decide +kernel, ⟨(0, 0), by decide +kernel⟩, by decide +kernel,
    by decide +kernel, by decide +kernel, by decide +kernel, by decide +kernel⟩
def migrant : Migrant := ⟨2, 0, 0, false, { thread 0 with win := 8 }, [4]⟩
theorem witness_HostAndLaunches_migrate : let s := mailed (.migrate migrant)
    s.deliverable 0 = some ⟨coreSource 2, cidKey 0, 4, none, false, .migrate migrant⟩ ∧ s.coreOpen 0 1 = true ∧ ((s.takePacket 0).core 0).room 0 8 = some (1, 128) ∧
    (after (.migrationLanding 0) s).gOf 0 1 0 = 4 ∧ (after (.migrationLanding 0) s).net.map (·.body) = [.migAck 2 0] ∧
    (let w := (mailed (.migAck 0 0)).onThr fun t => { t with st := .parkedMem, wait := .core (.migrate 2) };
      (w.thread 0 0).wait = .core (.migrate 2) ∧ (after (.migrationAck 0) w).thr = Thread.fresh) := by decide +kernel
/-- A service entry descriptor at far 0x400 of a domain that wants its service thread. -/
def serving : State := bound { (away (thread 0) []) with mem := ⟨wordCells (localAddr 2 0x400) [0x800000000], [], []⟩ }
  { domain1 with set := { settings with service := BitVec.ofNat 64 (far 0x400) }, wantService := true }
theorem witness_HostAndLaunches_service : let s := serving
    (s.readWhole 0 1 (far 0x400) 8).1 = .ok 0x800000000 ∧ descBad 0x800000000 = false ∧ ((s.readWhole 0 1 (far 0x400) 8).2.serviceCores 0 1 8).isEmpty = false := by
  decide +kernel

/-- One record for each check of 01 R14 to R16 and 03 R59, in their order, that it fails first. -/
theorem witness_LaunchChecks_refusals : let z := fun (l : List (Nat × Word)) => l.foldl (fun r p => listSet r p.1 p.2) record1
    let p := { domain1 with set := { domain1.set with gang := some 0 } }; let d : Option Nat := some 0x800000000
    let code := fun (r : List Word) => recordRefusal domain1 1 r d true
    code record1 = none ∧ recordRefusal domain1 1 record1 (some 0x700000000) true = some 3 ∧ recordRefusal domain1 1 record1 d false = some 3 ∧ recordRefusal p 1 record1 d true = some 7 ∧
    [code (z [(2, 4)]), code (z [(4, 0x0201000100000001)]), code (z [(4, 0x0000000100000001)]), code (z [(4, 0x00FD000100000001)]), code (z [(4, 0x0001000000000001)])] =
      [some 6, some 1, some 4, some 4, some 4] ∧
    [code (z [(4, 0x0001228100000001)]), code (z [(4, 0x0001000110000001)]), code (z [(4, 0x0001000100080001)]), code (z [(4, 0x0001000100000002)]), code (z [(5, 0x40000)])] =
      [some 4, some 1, some 1, some 2, some 1] ∧
    [code (z [(5, 0x18100)]), code (z [(5, 0x9)]), code (z [(5, 0x88)]), code (z [(6, 0x8000010001)]), code (z [(6, 1)]), code (z [(6, 0x10000)]), code (z [(9, 1)]), code (z [(15, 0x101)])] =
      [some 4, some 4, some 4, some 1, some 4, some 4, some 1, some 1] ∧
    [code (z [(15, 2)]), code (z [(4, 0x0041000100000001), (5, 0x40)]), code (z [(4, 0x0001001900000001)]), code (z [(4, 0x0001000104000001)]), code (z [(4, 0x0001000101000001)])] =
      [some 5, some 4, some 4, some 7, some 7] := by decide +kernel
/-- With no cached translation a lookup is the table's walk, whatever the cache forgets. -/
theorem placeInDram_walk (s : State) (m dom va : Nat) (l : Lookup) (root : Nat) (f : Leaf) (a : Nat) (t u v : Bool) (h : s.tlb = [])
    (hl : s.lookup (m * 2 ^ 14) dom (targetOf (m * 2 ^ 14) va) = some l) (hr : s.homeRoot dom l = .ok root) (hw : s.walkFrom l root = .ok f)
    (hc : leafCheck f .read = none) (hd : f.locate l.m l.stack l.ch l.input = .dram a t u v) : s.placeInDram m dom va = some a := by
  have hn : s.cached (unitOf l.m l.stack l.tb) dom l.tb.code l.input = none := by
    unfold State.cached; split <;> simp [h]
  simp only [State.placeInDram, hl, State.translate, hr, hn, hw, hc, hd]
/-- A queue in bank memory, whose put window is read. -/
def putQueue : State := (tabled []).onModule 0 fun x => { x with queues := [(0, { queue0 with base := BitVec.ofNat 64 (2 ^ 63 + 0x100) })] }
theorem witness_LaunchChecks_window : ((putQueue.module 0).queue 0).dom = 1 ∧ (putQueue.module 0).turnedAway = none ∧
    putQueue.placeInDram 0 1 ((((putQueue.module 0).queue 0).base.toNat + 8) % 2 ^ 64) = some (dramAddr 0 0 0 (2 ^ 30 + 0x108)) :=
  ⟨by decide, by decide, placeInDram_walk _ 0 1 (2 ^ 63 + 0x108) ⟨0, 0, 0, .bank, 0x108⟩ 0x1000 ⟨2 ^ 63 + 2 ^ 62 + 2 ^ 56 + 2 ^ 30, 2 ^ 30⟩ _ false false false (by decide)
    (by decide +kernel) (by decide +kernel) (by decide +kernel) (by decide) (by decide)⟩
/-- Two latched records of level 0, and the one after queue 0. -/
theorem witness_LaunchChecks_select : let l : Latched := ⟨record1, 0x800000000, 7⟩; let q := { queue0 with latch := some l }
    let s := (hosted q [] []).onModule 0 fun x => { x with queues := [(0, q), (1, q)], lastL := [(0, 0)] }
    (l.rec_.getD 4 0).getLsbD 24 = false ∧ s.unbinding 0 l.dom = false ∧ Tab.get 0 (s.module 0).streak 0 = 0 ∧ (s.selectLatch 0).map (fun x => (x.1, x.2.2)) = some (1, 0) ∧
    Tab.get 63 (s.module 0).lastL 0 ≤ 63 ∧ (1 + 63 - 0) % 64 ≤ (0 + 63 - 0) % 64 ∧ Tab.get 0 ((s.module 0).dispatched 1 0 [0]).streak 0 = 0 ∧ Tab.get 63 ((s.module 0).dispatched 1 0 [0]).lastL 0 = 1 := by
  decide +kernel
theorem witness_LaunchChecks_cores : let l : Latched := ⟨record1, 0x800000000, 7⟩; let s := bound (plain []); let win := l.win
    s.feasible 1 l = true ∧ win % 8 = 0 ∧ (s.core 1).fits win l.threads = true ∧ l.threads = 1 ∧ ((s.startRoots 1 0 l 5).thread 1 0).win = 8 ∧ (s.startRoots 1 0 l 5).gOf 1 0 2 = 1 := by decide +kernel
/-- Core 0 of cluster 0 of die 0 is the one feasible core that the record's masks name. -/
theorem witness_LaunchChecks_choose : let l : Latched := ⟨record1, 0x800000000, 7⟩; let ok := fun c => c == 0; let cores := fun d c => (clusterCores ((0 * 16 + d) * 32 + c)).filter ok
    let cls := fun d => if d = 0 then [0] else []
    (∀ d, d ∈ [0] ↔ d < 16 ∧ (l.rec_.getD 6 0).getLsbD d = true ∧ cls d ≠ []) ∧ (∀ d c, c ∈ cls d ↔ c < 23 ∧ (l.rec_.getD 6 0).getLsbD (16 + c) = true ∧ cores d c ≠ []) ∧
      l.choose ok 0 = some [0] := by
  refine ⟨fun d => ?_, fun d c => ?_, by decide⟩
  · by_cases h : d = 0
    · subst h; decide
    · simp [h]
  · by_cases h : d = 0
    · subst h
      by_cases k : c = 0
      · subst k; decide
      · have : 0 ∉ clusterCores c := by simp only [clusterCores, List.mem_map]; rintro ⟨j, _, h⟩; omega
        simp [k, this]
    · have : 0 ∉ clusterCores (d * 32 + c) := by simp only [clusterCores, List.mem_map]; rintro ⟨j, _, h⟩; omega
      simp [h, this]

/-! Witnesses: management and reset. -/

/-- The words of the mailbox buffer with the interleave masks of a domain that shares the clusters (15 R359). -/
def bindBuffer (ms : List Word) : Tab Byte :=
  (ms.zipIdx.flatMap fun p => (List.range 8).map fun k => (8 * (p.2 + 1) + k, BitVec.ofNat 8 (p.1.toNat / 256 ^ k)))
/-- A provisioned module 0 that serves a command with its arguments; its images hold no signed part and their version in their first byte. -/
def commanded (code : Nat) (args : List Word) : State := (bound (plain [])).onModule 0 fun x =>
  { x with
    mbox := { x.mbox with code := code, busy := true, args := args ++ List.replicate (8 - args.length) 0, buffer := bindBuffer masks }
    fuses := { x.fuses with lifecycle := 1, keyEpoch := some 0, image := ⟨(0, 0), (0, 1), []⟩, command := ⟨(0, 0), (0, 0), []⟩, rootHash := 0 } }
/-- The same with one signed part, which no key verifies. -/
def unsigned (code : Nat) (args : List Word) : State := (commanded code args).onModule 0 fun x =>
  { x with fuses := { x.fuses with lifecycle := 3, image := ⟨(0, 0), (0, 1), [((0, 0), (0, 0))]⟩, command := ⟨(0, 0), (0, 0), [((0, 0), (0, 0))]⟩ } }
theorem witness_serves : ∀ c ∈ (List.range 14).map (· + 1), let s := commanded c []; let b := (s.module 0).mbox
    s.present.contains 0 = true ∧ (s.module 0).d3hot = false ∧ b.busy = true ∧ b.finished = false ∧ b.code = c := by decide
/-- MBCMD codes at the ends of their range, a reserved bit, and a command while BUSY. -/
theorem test_mailbox : let s := bound (plain []); let r := fun (v : Word) => ((after (.registerWrite 0 0x2000 v) s).module 0).mbox
    (r 0).result = 1 ∧ (r 0).finished = true ∧ (r 0x0F).result = 1 ∧ (r 0x0F).finished = true ∧ (r 0x0E).finished = false ∧ (r 0x0E).busy = true ∧ (r 0x0100000001).result = 2 ∧
    ((after (.registerWrite 0 0x2000 1) (commanded 9 [])).module 0).mbox.ovr = true ∧
    ((after (.mailboxCommandDone 0) ((commanded 9 []).onModule 0 fun x => { x with mbox := { x.mbox with finished := true } })).module 0).mbox.busy = false := by decide
/-- QUEUE_SET: the arguments of queue 63 enabled for domain 1, a 14-bit size, a misaligned base, a queue that is enabled already. -/
theorem test_queue_set : let r := fun (a : List Word) => (after (.queueSet 0) (commanded 1 a)).module 0
    (r [63, 128, 0x1001D]).mbox.result = 0 ∧ ((r [63, 128, 0x1001D]).queue 63).en = true ∧ ((r [63, 128, 0x1001D]).queue 63).sizelog = 13 ∧ (r [63, 128, 0x1001E]).mbox.result = 2 ∧
    (r [63, 64, 0x1001D]).mbox.result = 2 ∧ (r [64, 128, 0x1001D]).mbox.result = 2 ∧
    ((after (.queueSet 0) ((commanded 1 [0, 128, 0x10011]).onModule 0 fun x => { x with queues := [(0, queue0)] })).module 0).mbox.result = 3 := by decide
theorem witness_queue_set : (63 : Nat) < 64 ∧ 0x1001D / 2 ^ 32 = 0 ∧ 0x1001D / 32 % 2 ^ 11 = 0 ∧ 128 % 128 = 0 ∧ 0x1001D / 16 % 2 = 1 ∧ 0x1001D % 16 = 13 ∧
    ((commanded 1 []).domain? 0 1).isSome = true ∧ ((commanded 1 []).domain? 0 2).isSome = false := by decide
theorem test_domain_bind : let r := fun (a : List Word) => (after (.domainBind 0 ()) (commanded 2 a)).module 0
    (r [63, 0xFFFE]).mbox.result = 0 ∧ (r [63, 0xFFFE]).domains.length = 2 ∧ (r [64, 2]).mbox.result = 2 ∧ (r [1, 0xFFFF]).mbox.result = 2 ∧
    (r [1, 1]).mbox.result = 2 ∧ (r [0, 2]).mbox.result = 2 ∧
    ((after (.domainBind 0 ()) ((commanded 2 [1, 2]).onModule 0 fun x => { x with mbox := { x.mbox with buffer := [] } })).module 0).mbox.result = 2 ∧
    ((after (.domainBind 0 ()) ((commanded 2 [1, 2]).onModule 0 fun x => { x with fuses := { x.fuses with lifecycle := 0 } })).module 0).mbox.result = 3 ∧
    ((after (.domainBind 0 ()) ((commanded 2 [1, 0xFFFF]).onModule 0 fun x => { x with fuses := { x.fuses with lifecycle := 0 } })).module 0).mbox.result = 2 := by decide +kernel
theorem witness_domain_bind : let s := commanded 2 [63, 2]; let d := settingsOf (s.bufferWord 0)
    d.imasks = masks ∧ masksBad d.imasks = false ∧ d.partitioned = false ∧ s.domain? 0 2 = none ∧ Tab.find (s.module 0).domains 63 = none := by decide +kernel
theorem witness_domain_unbind : let s := commanded 3 [0, 0]; let idle := { s with cores := [] }
    Tab.find (s.module 0).domains 0 = some domain1 ∧ s.unbindRefused 1 (s.domModules 1) = false ∧ (s.domModules 1).any (fun k => (idle.endWork (idle.domModules 1) 1).stillRuns k 1) = false ∧
    Tab.find ((commanded 3 [1, 0]).module 0).domains 1 = none ∧ (s.onModule 0 fun x => { x with queues := [(0, queue0)] }).unbindRefused 1 (s.domModules 1) = true := by decide +kernel
theorem test_domain_unbind : ((after (.domainUnbind 0) { commanded 3 [0, 0] with cores := [] }).module 0).domains = [] ∧
    ((after (.domainUnbind 0) ((commanded 3 [0, 0]).onModule 0 fun x => { x with queues := [(0, queue0)] })).module 0).mbox.result = 3 := by decide +kernel
/-- A faulted service thread in slot 0 of core 0, with a handler of class 1. -/
def servant (a : List Word) : State := let s := commanded 5 a
  (s.onThr fun _ => { faulted with svc := true }).onCore 0 fun c => { c with traps := [(1, [0, 0x200400])] }
theorem witness_service : let s := servant [0, 1]
    s.thr.svc = true ∧ s.thr.st = .faulted ∧ s.thr.dbl = false ∧ s.handlerOf 0 s.thr = 0x200400 ∧ (s.core 0).pending 0 = [] ∧
    (after (.svcControl 0) s).thr.pc = 0x200400 ∧ (after (.svcControl 0) (servant [0, 2])).thr = Thread.fresh ∧ ((after (.svcControl 0) (commanded 5 [0, 1])).module 0).mbox.result = 2 := by
  decide
theorem witness_SVC : let s := (away (thread 0) []).onModule 0 fun x => { x with mbox := { x.mbox with code := 6, busy := true, args := [BitVec.ofNat 64 (far 0x100), 7, 1, 0, 0, 0, 0, 0] } }
    (s.domain? 0 1).isSome = true ∧ (s.unitAct 0 1 (far 0x100) (.stf 7) none).1 = .ok 0 ∧ (after (.svcAnswer 0) s).mem.read (localAddr 2 0x100) 8 = 7 ∧
    ((after (.svcPop 0) ((commanded 7 []).onModule 0 fun x => { x with hsq := [[1, 2, 3, 4, 5, 6, 7, 8]] })).module 0).mbox.args = [1, 2, 3, 4, 5, 6, 7, 8] ∧
    ((after (.svcPop 0) (commanded 7 [9])).module 0).mbox.args.head? = some 0 := by decide +kernel
theorem test_other_commands : ((after (.powerCap 0) (commanded 9 [2800])).module 0).cap = 2800 ∧ ((after (.powerCap 0) (commanded 9 [2799])).module 0).mbox.result = 2 ∧
    ((after (.gangAbort 0) (commanded 4 [0, 0])).module 0).mbox.result = 3 ∧
    ((after (.logRead 0) ((commanded 8 [5]).onModule 0 fun x => { x with log := [[0, 0, 0, 4], [0, 0, 0, 5]] })).module 0).mbox.args.head? = some 1 := by decide +kernel
theorem test_fw_stage : ((after (.fwStage 0) (commanded 12 [BitVec.ofNat 64 (2 ^ 26 - 3839)])).module 0).mbox.result = 2 ∧
    ¬ 2 ^ 26 < (commanded 12 [BitVec.ofNat 64 (2 ^ 26 - 3840)]).arg 0 0 + 3840 := by decide +kernel
theorem test_fw_commit : ((after (.fwCommit 0 () ()) (commanded 13 [])).module 0).mbox.result = 0 ∧
    ((after (.fwCommit 0 () ()) ((commanded 13 []).onModule 0 fun x => { x with fuses := { x.fuses with version := 1 } })).module 0).mbox.result = 4 := by decide +kernel
theorem test_fw_commit_unsigned : ((after (.fwCommit 0 () ()) (unsigned 13 [])).module 0).mbox.result = 4 := by decide +kernel
theorem test_lifecycle : ((after (.lifecycle 0 ()) (commanded 14 [4])).module 0).mbox.result = 2 ∧
    lifecycleListed ((commanded 14 [0]).module 0).fuses.lifecycle 0 = false := by decide +kernel
theorem test_lifecycle_reset : ((after (.lifecycle 0 ()) (commanded 14 [2])).module 0).fuses.lifecycle = 2 := by decide +kernel
/-- A move to life cycle 0 whose signed part no key verifies. -/
theorem witness_lifecycle_refused : let f := ((unsigned 14 [0]).module 0).fuses
    lifecycleListed f.lifecycle 0 = true ∧ f.command.sound f.rootHash [] = false := by decide +kernel
theorem witness_gang_abort : let s := (commanded 4 [0, 3]).onModule 0 fun x => { x with gangs := [(0, { Gang.fresh with phase1 := some (3, 1, 2, []), expect := 3 })] }
    (s.gang 0 0).phase1 = some (3, 1, 2, []) ∧ (s.gang 0 0).sending = none ∧ ((after (.gangAbort 0) s).gang 0 0).expect = 4 := by decide
/-- Commands of a module that is not provisioned, of one with keys, and of one whose leaves are used up. -/
theorem witness_attest : let s := commanded 10 []; let x := s.module 0
    x.fuses.keyEpoch = some 0 ∧ x.fuses.lifecycle = 1 ∧ x.fuses.leaf < 32768 ∧
    ((after (.attest 0) (s.onModule 0 fun x => { x with fuses := { x.fuses with leaf := 32768 } })).module 0).mbox.result = 6 ∧
    ((after (.attest 0) (s.onModule 0 fun x => { x with fuses := { x.fuses with keyEpoch := none } })).module 0).mbox.result = 3 ∧
    ((after (.identity 0) (s.onModule 0 fun x => { x with fuses := { x.fuses with lifecycle := 3 }, mbox := { x.mbox with code := 11 } })).module 0).mbox.result = 3 := by decide +kernel
theorem test_resets : let s := commanded 9 []; let x := fun (i : Instr) => (after i s).module 0
    (x (.functionLevelReset 0)).domains = [] ∧ (x (.functionLevelReset 0)).fuses.lifecycle = 1 ∧ (x (.functionLevelReset 0)).booted = false ∧ ((after (.hotReset 0) s).core 0) = Core.fresh ∧
    (x (.d3hotEntry 0)).d3hot = true ∧ ((after (.d3hotExit 0) (after (.d3hotEntry 0) s)).module 0).d3hot = false ∧ (x (.configurationWrite 0 (5, true) (2, 5))).timeout = 5 ∧
    (x (.configurationWrite 0 (5, true) (2, 5))).mrrs = 5 ∧ (x (.configurationWrite 0 (5, true) (3, 6))).mps = (s.module 0).mps ∧
    ((after (.functionLevelReset 0) (s.onModule 0 fun x => { x with over115 := true })).module 0).reply = ⟨.abort, []⟩ := by decide +kernel

/-! Boot. -/

/-- The map words in bank memory from 0x10000 on, and `seal` at 0x40, for a module with no fuses blown; the boot domain's page is `tableCells`'. -/
def image : BootImage where
  program := true
  settings := { settings with bankRoots := List.replicate 16 (some 0x1000) }
  sections := []
  classes := []
  root := BitVec.ofNat 64 (far 0x400)
  sealVa := 2 ^ 63 + 0x40
  sealedVa := 2 ^ 63 + 0x48
  resultVa := 2 ^ 63 + 0x50
  mapVa := 2 ^ 63 + 0x10000
def bootLeaf : Leaf := ⟨2 ^ 63 + 2 ^ 62 + 2 ^ 56 + 2 ^ 30, 2 ^ 30⟩
def booting (mode : Bool) (maps : List Word) : State :=
  let s := (sup []).onModule 0 fun x => { x with
    boot := some image, bootMode := mode, fuses := { x.fuses with fuseMap := List.replicate 16 [] }, domains := [(0, { domain1 with tag := 0xFFFF, set := image.settings })] }
  { s with cores := [], mem := ⟨(tableCells 0).take 4 ++ wordCells (dramAddr 0 0 0 (2 ^ 30 + 0x10000)) maps ++ (tableCells 0).drop 4, [], []⟩ }
theorem booting_place (mode : Bool) (maps : List Word) (off : Nat) (h : (booting mode maps).lookup 0 0xFFFF (targetOf 0 (2 ^ 63 + off)) = some ⟨0, 0, 0, .bank, off⟩)
    (hw : (booting mode maps).walkFrom ⟨0, 0, 0, .bank, off⟩ 0x1000 = .ok bootLeaf) (a : Nat) (hd : bootLeaf.locate 0 0 0 off = .dram a false false false) :
    (booting mode maps).placeInDram 0 0xFFFF (2 ^ 63 + off) = some a :=
  placeInDram_walk _ 0 0xFFFF _ ⟨0, 0, 0, .bank, off⟩ 0x1000 bootLeaf a false false false rfl (by simpa using h)
    (by cases mode <;> rfl) hw (by decide) hd
theorem witness_boot_seal : (booting true [24]).placeInDram 0 0xFFFF image.sealVa = some (dramAddr 0 0 0 (2 ^ 30 + 0x40)) :=
  booting_place _ _ 0x40 (by decide +kernel) (by decide +kernel) _ (by decide)
/-- The map word of logical cluster 0 that the memory holds: 24 where no core is fused (17 R379), or another. -/
theorem witness_boot_agrees : (mapWords (List.replicate 16 [])).getD 0 0 = 24 ∧ (booting true [24]).mem.read (dramAddr 0 0 0 (2 ^ 30 + 0x10000)) 8 = 24 ∧
    (booting true [1]).mem.read (dramAddr 0 0 0 (2 ^ 30 + 0x10000)) 8 ≠ 24 ∧
    (booting true [1]).placeInDram 0 0xFFFF image.mapVa = some (dramAddr 0 0 0 (2 ^ 30 + 0x10000)) :=
  ⟨by decide +kernel, by decide +kernel, by decide +kernel, booting_place _ _ 0x10000 (by decide +kernel) (by decide +kernel) _ (by decide)⟩
theorem witness_boot_quiet : (booting true [24]).bootQuiet 0 = true ∧ (booting true [24]).mem.full (dramAddr 0 0 0 (2 ^ 30 + 0x40) / 8) = true ∧
    ((booting true [24]).module 0).boot = some image ∧ ((booting true [24]).module 0).bootHalted = false ∧ ((booting true [24]).module 0).bootMode = true := by decide +kernel
theorem witness_boot_result : (booting false []).placeInDram 0 0xFFFF image.resultVa = some (dramAddr 0 0 0 (2 ^ 30 + 0x50)) :=
  booting_place _ _ 0x50 (by decide +kernel) (by decide +kernel) _ (by decide)
theorem witness_boot_result_rest : let s := booting false []
    (s.module 0).booted = false ∧ s.faultQueue 0 0xFFFF = [] ∧ s.bootTasks 0 none = 0 ∧ s.mem.read (dramAddr 0 0 0 (2 ^ 30 + 0x50)) 8 = 0 ∧ (s.module 0).bootMode = false := by decide +kernel
/-- A module before its boot, whose flash holds no signed part or one that no key verifies; a boot without a program, and one with a program. -/
def offline (good : Bool) : State := State.reset.onModule 0 fun x =>
  { x with fuses := { x.fuses with rootHash := 0, image := ⟨(0, 0), (0, 0), if good then [] else [((0, 0), (0, 0))]⟩, flash := [], fuseMap := [] } }
theorem witness_boot : let s := offline true; let f := (s.module 0).fuses; let g := ((offline false).module 0).fuses
    (measure (f.image.verified f.rootHash f.flash) 0).2 = true ∧ (measure (g.image.verified g.rootHash g.flash) 0).2 = false ∧
    (s.module 0).booted = false ∧ (s.module 0).bootHalted = false ∧ (s.module 0).bootMode = false ∧ (s.module 0).d3hot = false ∧ s.present.contains 0 = true ∧
    ((after (.moduleBoot 0 image) (offline false)).module 0).bootHalted = true := by decide +kernel

/-! Witnesses: gangs, detection, links. Domains 1 and 2 of module 0 share gang 0, and domain 1 is switched in. -/

def peer (tag : Nat) : Domain := { domain1 with tag := tag, set := { settings with gang := some 0, gangModules := [0], gangPeers := [1, 2] } }
def ganged (q : Gang) (net : List Packet) : State :=
  let s := (plain []).onModule 0 fun x => { x with booted := true, domains := [(0, peer 1), (1, peer 2)], gangs := [(0, q)] }
  { s with net := net, cores := [] }
def gang1 : Gang := { Gang.fresh with current := 1, expect := 4 }
def mgmt (k : Mgmt) : Packet := ⟨mgmtKey 0, mgmtKey 0, 4, none, false, .mgmt k⟩
theorem witness_Gangs_timer : let s := ganged gang1 []
    (s.gangSet 0 0).map (fun d => (d.gangModules, d.gangPeers)) = some ([0], [1, 2]) ∧ (s.module 0).d3hot = false ∧ s.present.contains 0 = true ∧ leastOf [0] = some 0 ∧
    (s.gang 0 0).sending = none ∧ s.startRequest 0 0 = none ∧ nextPeer [1, 2] 1 = 2 ∧ nextPeer [1] 1 = 1 ∧ s.reaches 0 (mgmtKey 0) = true ∧
    ((after (.gangTimerExpiry 0 0) s).gang 0 0).sending = some (4, 1, 2) ∧ (after (.gangTimerExpiry 0 0) s).net.length = 1 := by decide +kernel
theorem witness_Gangs_prepare : let s := ganged gang1 [mgmt (.prepare 0 4 1 2 [5])]
    s.deliverable 0 = some (mgmt (.prepare 0 4 1 2 [5])) ∧ (s.gang 0 0).expect = 4 ∧ (s.gang 0 0).phase1 = none ∧ (s.gang 0 0).running = none ∧
    (s.domain? 0 2).map (fun d => d.2.set.gang) = some (some 0) ∧ s.domain? 0 3 = none ∧ ((after (.gangPrepare 0) s).gang 0 0).phase1 = some (4, 1, 2, [5]) ∧
    (after (.gangPrepare 0) s).net.map (·.body) = [.mgmt (.prepared 0 4 0)] ∧
    (after (.gangPrepare 0) (ganged gang1 [mgmt (.prepare 0 4 1 3 [5])])).net.map (·.body) = [.mgmt (.refused 0 4 0 .notBound)] ∧
    (after (.gangPrepare 0) ((ganged gang1 [mgmt (.prepare 0 4 1 2 [5])]).onModule 0 fun x => { x with domains := [(1, { domain1 with tag := 2 })] })).net.map (·.body) =
      [.mgmt (.refused 0 4 0 .notInGang)] ∧ ((after (.gangPrepare 0) (ganged gang1 [mgmt (.prepare 0 3 1 2 [5])])).gang 0 0) = gang1 := by decide +kernel
theorem witness_Gangs_prepared : let q : Gang := { gang1 with sending := some (4, 1, 2) }; let s := ganged q [mgmt (.prepared 0 4 0)]
    (s.gang 0 0).sending = some (4, 1, 2) ∧ 0 ∉ (s.gang 0 0).prepared ∧ (∀ k ∈ [0], k ∈ 0 :: (s.gang 0 0).prepared) ∧ s.reaches 0 (mgmtKey 0) = true ∧
    (after (.gangPreparedReply 0) s).net.map (·.body) = [.mgmt (.commit 0 4)] ∧ (after (.gangPreparedReply 0) (ganged q [mgmt (.refused 0 4 0 .notBound)])).net.map (·.body) =
      [.mgmt (.abort 0 4)] ∧ ((after (.gangSwitchAbort 0) (ganged gang1 [mgmt (.abort 0 4)])).gang 0 0).expect = 5 ∧
    ((after (.gangDone 0) (ganged q [mgmt (.done 0 4 0)])).gang 0 0).sending = none := by decide +kernel
/-- A commit of the prepared switch, of another number, and the cores of a switch that runs. -/
theorem witness_Gangs_commit : let q : Gang := { gang1 with phase1 := some (4, 1, 2, [5]) }; let s := ganged q [mgmt (.commit 0 4)]
    (s.gang 0 0).running = none ∧ (s.commitPacket 0 0).map (fun x => x.1) = some 4 ∧ ((ganged q [mgmt (.commit 0 3)]).commitPacket 0 0).map (fun x => x.1) = some 3 ∧
    ((after (.gangCommit 0 0) s).gang 0 0).running = some (4, 1, 2, [5]) ∧ ((after (.gangCommit 0 0) s).core 5).gangShut = true ∧
    (let r := after (.gangCommit 0 0) s; let u := r.preemptPours [5]
      (switchUnit [5] 5).all (fun x => u.coreQuiet x 1) = true ∧ (after (.gangCommit 0 0) r).net.map (·.body) = [.mgmt (.done 0 4 0)] ∧
      ((after (.gangCommit 0 0) r).gang 0 0).running = none) := by decide +kernel
theorem witness_Gangs_asleep : let s := ganged gang1 [mgmt (.asleep 1 0)]; let r : Round := ⟨1, 1, 1, [], []⟩
    let status := fun (c : Bool) (n : Nat) (y : Round) => (ganged gang1 [mgmt (.status 1 1 c 0 true n)]).onModule 0 fun x => { x with rounds := [y] }
    s.deliverable 0 = some (mgmt (.asleep 1 0)) ∧ (s.module 0).rounds = [] ∧ s.domModules 1 = [0] ∧ (after (.asleepReceipt 0) s).net.map (·.body) = [.mgmt (.query 1 1 false)] ∧
    (after (.allAsleepQuery 0) (ganged gang1 [mgmt (.query 1 1 false)])).net.length = 1 ∧
    ((after (.allAsleepReply 0) (status false 0 r)).module 0).rounds = [⟨1, 1, 2, [], [(0, 0)]⟩] ∧
    ((after (.allAsleepReply 0) (status true 0 ⟨1, 1, 2, [], [(0, 0)]⟩)).module 0).rounds = [] ∧
    (after (.allAsleepReply 0) (status true 0 ⟨1, 1, 2, [], [(0, 0)]⟩)).net.map (·.body) = [.mgmt (.raise 1 1)] ∧
    ((after (.allAsleepReply 0) (status true 1 ⟨1, 1, 2, [], [(0, 0)]⟩)).net) = [] := by decide +kernel
/-- A domain whose one thread waits, and one that runs. -/
theorem witness_Gangs_rise : let s := bound (one { waiting with uid := 1 } []); let r := bound (plain [])
    let w : State := { s with waitq := [⟨localAddr 2 0x100 / 8, 0, 0, ask .ldf, cidKey 2, false, false⟩] }
    let u := w.watchAsleep
    w.asleepNow 0 1 = true ∧ r.asleepNow 0 1 = false ∧ (Tab.find (u.module 0).domains 0).map (fun d => (d.tag, d.asleep, d.rises)) = some (1, true, [0]) ∧
    (Tab.find (r.watchAsleep.module 0).domains 0).map (fun d => (d.asleep, d.rises)) = some (false, []) ∧ (u.domModules 1).length ≤ 1 ∧ (u.module 0).d3hot = false ∧
    ((after (.allAsleepRise 0 0) u).faultQueue 0 1).length = 1 := by decide +kernel
theorem witness_junction_cools : let s := after (.junctionOver105 0) (bound (plain [])); (s.module 0).over105 = true ∧ ((after (.junctionOver105 0) s).module 0).over105 = false ∧
    ((after (.junctionOver105 0) (after (.junctionOver115 0) s)).module 0).over105 = true := by decide +kernel
theorem witness_Gangs_links : let s := bound (plain []); let p := Tab.get Port.fresh (s.module 0).ports 35
    s.present.contains 0 = true ∧ p.closed = false ∧ 4 ≤ p.lanes ∧ (Tab.get Port.fresh ((after (.linkPortClose 0 35) s).module 0).ports 35).closed = true ∧
    (Tab.get Port.fresh ((after (.linkPortDegrade 0 35 3 2) s).module 0).ports 35) = p ∧ ((after (.junctionOver105 0) s).module 0).clock = 800 ∧
    ((after (.powerCapClockStep 0 false) s).module 0).clock = 1575 ∧ ((after (.powerCapClockStep 0 true) s).module 0).clock = 1600 ∧
    ((after (.junctionOver115 0) s).module 0).livePorts = [] := by decide +kernel

/-! Witnesses: copies and jobs. -/

/-- A fill of one word of 8 bytes at 0x300 of core 0, whose completion word is 0x108. -/
def fillAsk : CopyAsk := ⟨1, 4, [0x10081, at_ 0x300, 77, 0, 1, 0, 8], [], at_ 0x108, 5, false⟩
def fillOp (pref : Nat) (flight : List Nat) : LadleOp := { (plain []).newLadleOp 0 0 fillAsk 1 with
  st := 1, pref := pref, flight := flight }
def filling (o : LadleOp) : State := (bound { (plain []) with mem := ⟨[], [localAddr 0 0x108 / 8], []⟩ }).onEng 0 fun e => { e with ladle := [(0, o)] }
/-- Every entry of the ladle's table is taken. -/
theorem witness_EngineInstructions_full : let o := { fillOp 0 [] with slot := 1 }; let l := (List.range 32).map fun k => (k, o)
    (∀ k < 32, Tab.find l k ≠ none) ∧ ∀ q ∈ l, q.2.heldFor 0 0 = false := by decide +kernel
theorem witness_Copies_issue : let o := fillOp 0 []; let s := filling o
    ((s.module 0).d3hot = false ∧ Tab.find (s.cluster 0).eng.ladle 0 = some o ∧ o.st = 1 ∧ o.faults = [] ∧ o.cancel = none ∧ 0 < o.chunks ∧ o.esize = 8 ∧ o.form = 1 ∧
      o.dims = [(1, 0, 8)]) ∧ ((after (.ladleChunkIssue 0 0) s).cluster 0).eng.ladle.map (fun p => p.2.flight) = [[0]] := by decide +kernel
theorem witness_Copies_complete : let o := fillOp 0 [0]; let s := filling o
    0 ∈ o.flight ∧ 0 ∉ o.hostWait ∧ o.desc.getD 1 0 = BitVec.ofNat 64 (own 0x300) ∧ own 0x300 < 2 ^ 64 ∧ own 0x300 % 8 = 0 ∧ (o.desc.getD 0 0).getLsbD 11 = false ∧ o.cid < 2 ^ 26 ∧
    s.checkAccess 0 1 (own 0x300) 1 .write = .ok (.loc 0 0x300) := by decide +kernel
theorem witness_Copies_put : let o := fillOp 1 []; let s := filling o
    o.flight = [] ∧ o.pref = o.chunks ∧ s.checkAccess 0 1 o.compl.toNat 1 .rmw = .ok (.loc 0 0x108) ∧ s.watched (localAddr 0 0x108 / 8) = false ∧
    (after (.ladleCompletionPut 0 0) s).mem.read (localAddr 0 0x108) 8 = 5 ∧ (after (.ladleCompletionPut 0 0) s).mem.full (localAddr 0 0x108 / 8) = true ∧
    ((after (.ladleCompletionPut 0 0) s).cluster 0).eng.ladle = [] ∧ s.checkAccess 0 1 (own 0x60000) 1 .rmw = .error Cause.badOffset := by decide +kernel
/-- A chunk that faulted, and an operation that a cancel of core 2 waits for. -/
theorem witness_Copies_fault : let o := { fillOp 0 [] with faults := [(0, Cause.notPresent, 64)] }; let r := ask (.lctl 2 0x100); let c := { fillOp 0 [] with cancel := some r }
    o.flight = [] ∧ o.st = 1 ∧ o.faults = [(0, Cause.notPresent, 64)] ∧ c.cancel = some r ∧
    (after (.ladleDataFault 0 0) (filling o)).mem.read (localAddr 0 0x108) 8 / 2 ^ 56 = 0xFD ∧
    ((after (.ladleDataFault 0 0) (filling o)).cluster 0).eng.ladle.map (fun p => (p.2.st, p.2.cause, p.2.va)) = [(2, Cause.notPresent, 64)] ∧
    ((after (.ladleCompletionPut 0 0) (filling c)).cluster 0).eng.ladle = [] ∧ (after (.ladleCompletionPut 0 0) (filling c)).net.length = 1 := by decide +kernel
/-- A fault whose put found no place, with room in the fault queue and without, and one whose records are still due. -/
theorem witness_Copies_due : let o := { fillOp 0 [] with faults := [(0, Cause.notPresent, 64)], compl := BitVec.ofNat 64 (own 0x60000) }; let d := { fillOp 0 [] with due := [(Cause.poison, 64)], after := 2 }
    let full := (filling o).onDomain 0 1 fun d => { d with fqWait := [[]] }; let st := fun (s : State) (o : LadleOp) => ((after (.ladleDataFault 0 0) s).cluster 0).eng.ladle.map fun p => (p.2.st, p.2.due.length, o.after)
    (filling o).checkAccess 0 1 o.compl.toNat 1 .rmw = .error Cause.badOffset ∧ (filling o).recordRoom 0 1 = true ∧ full.recordRoom 0 1 = false ∧ d.flight = [] ∧ d.st = 1 ∧
    st (filling o) o = [(3, 0, 0)] ∧ st full o = [(1, 2, 0)] ∧ st (filling d) d = [(2, 0, 2)] := by decide +kernel
theorem witness_Copies_control : let o := { fillOp 0 [] with st := 2, cause := 0x085, va := 64 }
    let p := fun (f h : Nat) => ({ toHome (.lctl f h) with dst := clusterKey 0 } : Packet); let s := { filling o with net := [p 0 0x100] }
    s.deliverable 0 = some (p 0 0x100) ∧ 0x100 / 2 ^ 24 % 2 ^ 21 = 0 ∧ 0x100 % 32 = 0 ∧ Tab.find (s.cluster 0).eng.ladle 0 = some o ∧ o.seq = 0x100 / 2 ^ 8 % 2 ^ 16 ∧
    o.dom = (ask (.lctl 0 0x100)).dom ∧ (after (.ladleCtlRequest 0) s).net.map (·.body) = [.ans 0 1 false (.two (2 * 2 ^ 56 + 0x085 * 2 ^ 47) 64)] ∧
    (after (.ladleCtlRequest 0) { filling o with net := [p 0 0x200] }).net.map (·.body) = [.ans 0 1 false (.two 0 0)] ∧
    ((after (.ladleCtlRequest 0) { filling o with net := [p 1 0x100] }).cluster 0).eng.ladle.map (fun q => q.2.st) = [1] := by decide +kernel
/-- A region of one row of two columns at the start of the accumulator store (10 R233): one word. -/
def region : Word := BitVec.ofNat 64 (2 * 2 ^ 42 + 1 * 2 ^ 31 + 2 * 2 ^ 20)
/-- MZERO of a region; the store's region register admits domain 1. -/
def zeroing (q : Word) : State :=
  (bound (one { thread 0 with st := .parkedMem, wait := .core (.submitted ⟨3, 4, 0, 0, q, 0, false⟩) } [])).onCluster 0 fun c => { c with cprgn := [(0, 0x000117181FFF0000)] }
theorem witness_Jobs_accept : let s := zeroing region; let j : Submission := ⟨3, 4, 0, 0, region, 0, false⟩
    s.nextSubmitter 0 = some 0 ∧ leastBy (fun q => (s.thread 0 q.1).parked) (s.core 0).submissions = some (0, j) ∧ Tab.find (s.cluster 0).eng.jobs 0 = none ∧
    s.thr.rg = false ∧ regionBad region 0x100000 = false ∧ s.regionDenied 0 1 region .rmw = none ∧ regionBad (BitVec.ofNat 64 (2 ^ 63)) 0x100000 = true ∧
    (after (.matrixAccept 0) (zeroing (BitVec.ofNat 64 (2 ^ 63)))).thr.trap.tcause = 0x142 ∧ (after (.matrixAccept 0) s).g 4 = 32 ∧
    ((after (.matrixAccept 0) s).cluster 0).eng.jobs.map (fun p => (p.1, p.2.st)) = [(0, 1)] := by decide +kernel
/-- The job of that MZERO in entry 0, and one behind it. -/
def zero (st taken : Nat) (old : List Nat) (all : Bool) : Job := ⟨st, 1, 1, 0, 0, 0, none, 0, 3, none, [], [], region, false, 0, 0, taken, old, all, [], [], 0, 0, false, 0, 0⟩
def jobs (l : List Job) (empties : List Nat := []) : State :=
  { zeroing region with
    mem := ⟨[], empties, []⟩
    clusters := [(0, { (zeroing region).cluster 0 with eng := { Engines.fresh with jobs := l.zipIdx.map fun p => (p.2, p.1) } })] }
theorem witness_Jobs_start : let s := jobs [zero 1 0 [] false]; let x := accPlace 0 0 / 8
    Tab.find (s.cluster 0).eng.jobs 0 = some (zero 1 0 [] false) ∧ (zero 1 0 [] false).untaken = [0] ∧ s.mem.full x = true ∧ s.mem.poisoned x = false ∧ s.watched x = false ∧
    (jobs [zero 1 0 [] false] [x]).mem.full x = false ∧ (after (.matrixJobStart 0 0) s).mem.full x = false ∧
    ((after (.matrixJobStart 0 0) s).cluster 0).eng.jobs.map (fun p => (p.2.st, p.2.taken, p.2.ownedAll)) = [(2, 1, true)] ∧
    (let two := jobs [zero 2 1 [0] true, { zero 1 0 [] false with order := 1 }];
      (∃ p ∈ (two.cluster 0).eng.jobs, p.2.st = 2) ∧ ((after (.matrixJobStart 0 1) two).cluster 0).eng.jobs = (two.cluster 0).eng.jobs) := by decide +kernel
theorem witness_Jobs_commit : let j := zero 2 1 [9] true; let x := accPlace 0 0 / 8; let s := jobs [j] [x]
    j.st = 2 ∧ j.ownedAll = true ∧ j.allFed = true ∧ j.cause = 0 ∧ j.kind ≠ 4 ∧ j.a = none ∧ j.written = false ∧ (after (.matrixJobCommit 0 0) s).mem.full x = true ∧
    ((after (.matrixJobCommit 0 0) s).cluster 0).eng.jobs = [] ∧ ((after (.matrixJobFault 0 0) (jobs [{ j with cause := Cause.poison }] [x])).cluster 0).eng.jobs.map
      (fun p => (p.2.st, p.2.cause)) = [(3, Cause.poison)] := by decide +kernel
/-- An MDRAIN of the region to 0x300 of core 0, and the message after it to core 2. -/
def draining (written : Bool) : Job := { zero 2 1 [9] true with kind := 4, dst := BitVec.ofNat 64 (far 0x200), written := written, msg := 3 }
theorem witness_Jobs_drain : let s := (jobs [draining false]).onCore 2 fun c => { c with prgn := [(0, 0x00011F001FFF0000)] }; let d := jobs [draining true]
    (∀ x ∈ regionWords region, s.mem.full (accPlace 0 x / 8) = true ∧ s.mem.poisoned (accPlace 0 x / 8) = false) ∧
    (s.drainTo (draining false) (s.drainWords 0 (draining false))).1 = .ok 0 ∧ ((after (.matrixJobCommit 0 0) s).cluster 0).eng.jobs.map (fun p => p.2.written) = [true] ∧
    ((jobs [draining false]).drainTo (draining false) (s.drainWords 0 (draining false))).1 = .fail Cause.protection ∧
    d.resolveCid 0 (far 0x200 / 2 ^ 32 % 2 ^ 26) = 2 ∧ d.reaches 0 (cidKey 2) = true ∧ (d.core 2).held = [] ∧ d.mwaiters 0 = [] ∧
    (after (.mdrainMessageSend 0 0) d).net.length = 1 ∧ ((after (.mdrainMessageSend 0 0) d).cluster 0).eng.jobs = [] := by decide +kernel
/-- A job whose A operand comes from a ring of two 512-byte slots in unit 0. -/
def ringJob : Job := { zero 2 1 [0] true with
  kind := 0
  a := some ⟨[0, BitVec.ofNat 64 (512 * 2 ^ 32 + 256 * 2 ^ 16 + 2), BitVec.ofNat 64 (2 * 2 ^ 32), 0, 0, 0, BitVec.ofNat 64 (2 ^ 16 + 1), BitVec.ofNat 64 (9 * 2 ^ 32 + 2 * 2 ^ 24)], [], []⟩ }
def ring0 : Ring := ⟨9 * 2 ^ 32 + 2 * 2 ^ 24, 1, 0⟩
def ringed (empties : List Nat) : State := (jobs [ringJob] empties).onEng 0 fun e => { e with rings := [(0, ring0)] }
theorem witness_Jobs_ring : let s := ringed []; let vas := wordsFrom (0xE * 2 ^ 60) (512 / 8)
    Tab.find (s.cluster 0).eng.rings 0 = some ring0 ∧ (s.cluster 0).eng.jobs.find? (fun p => p.2.st == 2) = some (0, ringJob) ∧ ringJob.wants false ring0 = true ∧
    s.engineHeld 0 (0xE * 2 ^ 60) = false ∧ (∀ x ∈ vas, s.mem.full (enginePlace 0 x / 8) = true ∧ s.enginePoison 0 x = false ∧ s.watched (enginePlace 0 x / 8) = false) ∧
    ((after (.ringSlotConsume 0 0) s).cluster 0).eng.rings.map (fun p => p.2.pos) = [1] ∧
    ((after (.ringSlotConsume 0 0) s).cluster 0).eng.jobs.map (fun p => p.2.feedA.length) = [512] := by decide +kernel
/-- A QTILE whose records cannot be read: the tile's address lies in a unit that admits nothing. -/
def quantiser : State :=
  bound (one { thread 0 with st := .parkedMem, wait := .engine (.quantise ⟨4, 0, BitVec.ofNat 64 (0xE * 2 ^ 60 + 1 * 2 ^ 19), BitVec.ofNat 64 (0xE * 2 ^ 60), 0, 0x18, false, false⟩) } [])
theorem witness_Jobs_quantise : let s := quantiser
    cidModule 0 = clusterModule 0 ∧ (after (.qtileQuantiserDone 0 0) s).thr.trap.tcause = 0x084 := by decide +kernel

/-! Witnesses: what copies, sums, acceptance and the quantiser give. -/

/-- Copies of one element of 8 bytes at 0x100 to 0x300: each form, and a FILL with PSET. -/
def copyOf (form w0 : Nat) (src w3 : Word) (srcs : List Word) (dims : List Word := []) : LadleOp :=
  { fillOp 0 [] with form := form, desc := [BitVec.ofNat 64 w0, at_ 0x300, src, w3, 1, 8, 8] ++ dims, srcs := srcs }
theorem witness_CopyContents : let s := mem []; let f := fillOp 0 []; let c := copyOf 0 0x10081 (at_ 0x100) 0 []
    0 < f.esize ∧ 4096 * 0 < f.length ∧ f.form = 1 ∧ f.cid < 2 ^ 26 ∧ c.form = 0 ∧ c.dims = [(1, 8, 8)] ∧ indicesOf c.dims 0 = [0] ∧
    address64 ((c.desc.getD 2 0).toNat + 8 * 0 + 0) = own 0x100 ∧ own 0x100 + 8 ≤ 2 ^ 64 ∧
    (∀ k < 8, s.checkAccess c.cid c.dom (own 0x100 + k) 1 .read = .ok (.loc c.cid (0x100 + k)) ∧ s.mem.poisoned ((localAddr c.cid 0x100 + k) / 8) = false) ∧
    (s.elementValue c 0 [0] 0 8).1 = .ok 5 ∧ (f.dstOf 0 + 0) % 2 ^ 64 = own 0x300 ∧ s.checkAccess f.cid f.dom (own 0x300) 1 .write = .ok (.loc f.cid 0x300) ∧
    s.mem.poisoned (localAddr f.cid 0x300 / 8) = false ∧ (f.desc.getD 0 0).getLsbD 11 = false ∧ f.chunkItems 0 = [⟨0, 0, 0, 8, some 77⟩] := by decide +kernel
/-- A REDUCE of f32 elements with one source, a GATHER with its index, a destination word that is poisoned, and one with PSET. -/
theorem witness_CopyContents_forms : let s := mem []; let d := copyOf 2 0x100001081 (at_ 0x200) 0 [at_ 0x100]; let g := copyOf 3 0x10082 (at_ 0x200) (at_ 0x100) [] [1, 8, 8]
    let p := copyOf 1 0x10881 77 0 [];
    d.form = 2 ∧ d.srcs.length = 1 ∧ (∀ k < 8, s.checkAccess d.cid d.dom (own 0x100 + k) 1 .read = .ok (.loc d.cid (0x100 + k))) ∧
    address64 ((d.srcs.getD 0 0).toNat : Int) = own 0x100 ∧ (s.elementValue d 0 [0] 0 d.esize).1 = .ok 5 ∧
    g.form = 3 ∧ g.dims.length = 2 ∧ address64 ((g.desc.getD 2 0).toNat : Int) = own 0x200 ∧ s.mem.read (localAddr 0 0x200) 4 = 0 ∧
    (s.elementValue g 0 [0, 0] 0 8).1 = .ok 5 ∧ (p.desc.getD 0 0).getLsbD 11 = true ∧ s.checkAccess p.cid p.dom (own 0x300) 1 .rmw = .ok (.loc p.cid 0x300) ∧
    s.watched (localAddr p.cid 0x300 / 8) = false ∧ s.mem.poisoned (localAddr 0 0x110 / 8) = true := by decide +kernel
/-- A chunk's step that answers, and one that fails. -/
theorem witness_CopyContents_chunk : let s := mem []; let f := fillOp 0 []; let x : CopyItem := ⟨0, 0, 0, 8, some 77⟩
    Tab.find f.work 0 = none ∧ ([x] : List CopyItem) ≠ [] ∧ (s.copyItem f 0 x).1 = .ok 0 ∧ (s.copyItem f 0 { x with element := 0, lo := 0x5FD00, len := 8 }).1 = .fail Cause.badOffset (own 0x60000) := by
  decide +kernel
/-- Values of every kind in a block, one block that adds to 1/2, and the elements and rows of an operand of KIND 3 in unit 0. -/
def wordOperand : Operand := ⟨[BitVec.ofNat 64 (0xE * 2 ^ 60), BitVec.ofNat 64 (8 * 2 ^ 32 + 1 * 2 ^ 16 + 1), BitVec.ofNat 64 (3 * 2 ^ 32), 0, 0, 0, 1, 0], [], []⟩
theorem witness_MatrixSums : let v := FV.fin false 1 (-1); let s := jobs [zero 2 1 [0] true]; let j : Job := { zero 2 1 [0] true with kind := 0, a := some wordOperand, bs := [wordOperand] }
    exponentOf (.zero false) = none ∧ blockSum [v, .zero true] = 0x3F000000 ∧ blockSum [.inf false, .inf true] = 0x7FC00000 ∧ blockSum [.inf true, v] = 0xFF800000 ∧
    (wordOperand.rec_.getD 6 0).getLsbD 16 = false ∧ s.engineHeld 0 (wordOperand.rec_.getD 0 0).toNat = false ∧ s.mem.poisoned (enginePlace 0 (0xE * 2 ^ 60) / 8) = false ∧
    (s.runRows 0 wordOperand []).toOption = some [0] ∧ (({ s with mem := ⟨[], [], [enginePlace 0 (0xE * 2 ^ 60) / 8]⟩ } : State).runRows 0 wordOperand []).toOption = none ∧
    j.kind ≠ 1 ∧ j.a = some wordOperand ∧ j.bs = [wordOperand] ∧ j.cid = 0 := by decide +kernel
theorem witness_MatrixSums_exponents : (2 : ℚ) ^ (-1 : Int) ≤ |(FV.fin false 1 (-1)).rat| ∧ |(FV.fin false 1 (-1)).rat| < 2 ^ ((-1 : Int) + 1) ∧ (FV.zero true).rat = 0 ∧
    (2 : ℚ) ^ (0 : Int) ≤ |(FV.fin true 3 0).rat * (FV.fin false 1 (-1)).rat| ∧ |(FV.fin true 3 0).rat * (FV.fin false 1 (-1)).rat| < 2 ^ ((0 : Int) + 1) := by
  norm_num [FV.rat, abs_of_neg, abs_of_pos]

/-- The 32-bit operand's record at 0x1000 of unit 0, and an MMA of it with itself into a region of one column. -/
def recordVa (off : Nat) : Word := BitVec.ofNat 64 (0xE * 2 ^ 60 + off)
def oneColumn : Word := BitVec.ofNat 64 (2 * 2 ^ 42 + 1 * 2 ^ 31 + 1 * 2 ^ 20)
def product (a b q : Word) : Submission := ⟨0, 4, a, b, q, 0, false⟩
def multiplying (rec_ : List Word) (empties poison : List Nat) : State := { zeroing region with mem := ⟨wordCells (localAddr 0 0x1000) rec_, empties, poison⟩ }
theorem witness_Acceptance_record : let s := multiplying wordOperand.rec_ [] []; let role : Role := ⟨false, false, true, true⟩; let va := (recordVa 0x1000).toNat
    recordBad 2 wordOperand.rec_ role = some Cause.domainMismatch ∧ recordBad 1 (listSet wordOperand.rec_ 0 0x61) role = some Cause.badOperand ∧
    recordBad 1 (listSet wordOperand.rec_ 2 0xF) role = some Cause.illegalFormat ∧ recordBad 1 (listSet wordOperand.rec_ 5 8) role = some Cause.badOperand ∧
    recordBad 1 wordOperand.rec_ role = none ∧ (s.readRecord 0 1 va role false).toOption = some wordOperand.rec_ ∧
    (s.readRecord 0 1 (va + 4) role false).toOption = none ∧ s.protects 1 (targetOf 0 va) .read = true ∧ s.engineHeld 0 va = false ∧ s.mem.poisoned (enginePlace 0 va / 8) = false ∧
    s.protects 2 (targetOf 0 va) .read = false ∧ ((multiplying [] [] [localAddr 0 0x1000 / 8]).readRecord 0 1 va role false).toOption = none := by decide +kernel
theorem witness_Acceptance_region : regionBad oneColumn 0x100000 = false ∧ regionBad oneColumn 4 = false ∧ regionBad oneColumn 3 = true := by decide
theorem witness_Acceptance_lists : let s := mem []; let t := { s with mem := ⟨wordCells (localAddr 0 0x1000) [0x101, BitVec.ofNat 64 (5 * 2 ^ 48 + 7)], [], []⟩ }; let d := (recordVa 0x1000).toNat
    (t.entriesOf 0 1 d [5]).1.sprue = none ∧ (t.entriesOf 0 1 d [5]).2 = [(5, 7)] ∧ (t.entriesOf 0 1 d [6]).1.sprue = some (Cause.sprueMismatch, d) ∧
    (t.entriesOf 0 1 d []).1.sprue = some (Cause.sprueMismatch, d) := by decide +kernel
/-- The acceptance that passes, and one for each check that fails. -/
theorem witness_Acceptance_checks : let r := recordVa 0x1000; let s := multiplying wordOperand.rec_ [] []; let far1 := multiplying (listSet wordOperand.rec_ 0 (recordVa (2 ^ 19))) [] []
    let bare := { s with clusters := [] }; let ok := fun (s : State) (j : Submission) => (s.acceptChecks 0 0 Engines.fresh j).toOption.isSome
    let first := fun (va : Word) => addressBad va.toNat || va.toNat % 8 != 0 || offsetBad va.toNat || !fitsUnit va.toNat 64
    ok s (product r r oneColumn) = true ∧ s.thr.rg = false ∧ first r = false ∧ (wordOperand.rec_.getD 6 0).getLsbD 16 = false ∧
    ok s (product 0xB000000000000000 r oneColumn) = false ∧ ok s (product (recordVa 0x1004) r oneColumn) = false ∧ ok s (product (recordVa 0x60000) r oneColumn) = false ∧
    ok s (product (recordVa 0x5FFF8) r oneColumn) = false ∧ ok s (product r r 0) = false ∧ ok s (product r r region) = false ∧ ok far1 (product r r oneColumn) = false ∧
    (far1.readRecord 0 1 r.toNat ⟨false, false, true, true⟩ false).toOption.isSome = true ∧ far1.protects 1 (targetOf 0 (recordVa (2 ^ 19)).toNat) .read = false ∧
    ok bare (product r r oneColumn) = false ∧ ok (s.onThr fun t => { t with tsw := t.tsw ||| 0x8000 }) (product r r oneColumn) = false := by
  decide +kernel
/-- A tile of one row and two columns whose first element is elected at THETA = 8 (10 R250). -/
def tileJob : TileJob := ⟨0, 1, ⟨4, 0, 0, 0, 0x41000000, 0x01440154, false, false⟩, [], [0, BitVec.ofNat 64 (2 * 2 ^ 16 + 1)], 0, 1, 0, 2⟩
def tileValues (_ c : Nat) : FV := if c = 0 then .fin false 3 2 else .fin false 1 0
def tileList : List (Nat × Nat × FV) := [(0, 0, tileValues 0 0), (0, 1, tileValues 0 1)]
theorem witness_Quantiser : let f := narrowOf tileJob.q.fmt; let r := fun cap => quantise tileJob tileList cap true (fun _ => 0)
    f.legal = true ∧ 4 ≤ f.blk ∧ f.zc = 1 ∧ f.decode 8 = .esc ∧ f.decode 7 = .fin false 3 1 ∧ (f32.unpack (tileJob.q.theta.toNat % 2 ^ 32)).isNan = false ∧
    FV.lt (tileValues 0 0) (f32.unpack 0x41000000) = false ∧ FV.lt (tileValues 0 1) (f32.unpack 0x41000000) = true ∧ (r 0).isNone = true ∧
    (r 1).map (fun t => (t.entries, t.result, t.scales)) = some ([(0x000041400000)], 0x10001, [(0, 125)]) ∧
    (∀ c < 16, f.decode c = .esc ∨ f.decode c ∈ [.zero false, .fin false 1 (-1), .fin false 2 (-1), .fin false 3 (-1), .fin false 2 0, .fin false 3 0, .fin false 2 1,
      .fin false 3 1, .fin true 1 (-1), .fin true 2 (-1), .fin true 3 (-1), .fin true 2 0, .fin true 3 0, .fin true 2 1, .fin true 3 1]) := by decide +kernel
theorem witness_Quantiser_values : (∀ i c, tileValues i c ≠ .esc ∧ ∀ n e, tileValues i c ≠ .fin n 0 e) ∧ (tileValues 0 1).rat = 1 ∧ (6 : ℚ) * 2 ^ ((-2 : Int) - 1) < 1 ∧
    (1 : ℚ) ≤ 6 * 2 ^ (-2 : Int) := by
  refine ⟨fun i c => ?_, ?_, ?_, ?_⟩
  · unfold tileValues; split <;> exact ⟨by decide, fun n e => by simp⟩
  · norm_num [tileValues, FV.rat]
  · norm_num
  · norm_num

/-! Witnesses: flasks. Clusters 0 and 1 are the members of flask 7. -/

/-- A packet of member `a` to member `b`. -/
def flaskPacket (a b : Nat) (k : FlaskKind) : Packet := ⟨clusterKey a, clusterKey b, 5, none, false, .flask ⟨1, 7, a, k⟩⟩
/-- Ordinal 0 in a state with joins held, or with READYs. -/
def head (f : Flask) (net : List Packet) : State := { (bound (plain [])).onFlask 0 fun _ => f with
  net := net }
def other (f : Flask) (net : List Packet) : State := { (bound (plain [])).onFlask 1 fun _ => { f with k := 1 } with
  net := net }
theorem witness_Flask_join : let f := { member0 1 none with joins := [(0, 9)], joinFrom := [(0, 0)], holdId := 7, joinDom := 1 }; let s := head f [flaskPacket 1 0 (.join 1 9)]
    s.deliverable 0 = some (flaskPacket 1 0 (.join 1 9)) ∧ keyCluster (clusterKey 0) = 0 ∧ (s.module 0).d3hot = false ∧ (s.flask 0).out = false ∧ (s.flask 0).st = 1 ∧
    s.reaches 0 (clusterKey 1) = true ∧ (after (.flaskJoinRequest 0) s).net.map (·.body) = [.flask ⟨1, 7, 0, .joined⟩, .flask ⟨1, 7, 0, .joined⟩] ∧
    (after (.flaskJoinRequest 0) (head f [flaskPacket 1 0 (.join 1 8)])).net.map (·.body) =
      [.flask ⟨1, 7, 0, .refuse Cause.flaskMismatch⟩, .flask ⟨1, 7, 0, .refuse Cause.flaskMismatch⟩] ∧
    (after (.flaskJoinRequest 0) (head (member0 3 none) [flaskPacket 1 0 (.join 1 9)])).net.map (·.body) = [.flask ⟨1, 7, 0, .refuse Cause.flaskState⟩] ∧
    ((after (.flaskJoinRequest 0) (head (member0 1 none) [flaskPacket 1 0 (.join 1 9)])).flask 0).joins = [(1, 9)] ∧
    (after (.flaskWithdraw 0) (head { f with joins := [(1, 9)], joinFrom := [(1, 1)] } [flaskPacket 1 0 (.withdraw 1)])).net.map (·.body) = [.flask ⟨1, 7, 0, .withdrawn⟩] := by
  decide +kernel
/-- The thread of cluster 1 that joins, in slot 0 of core 32. -/
def joiner (k : FlaskKind) : State :=
  let f : Flask := { member0 1 none with joiner := some 5, joinVa := 64 }
  (other f [flaskPacket 0 1 k]).onCore 32 fun c => { c with slots := [(0, { thread 0 with st := .parkedMem, uid := 5, wait := .engine (.join 4 0) })] }
theorem witness_Flask_reply : let s := joiner .joined
    s.deliverable 0 = some (flaskPacket 0 1 .joined) ∧ (s.flask 1).st = 1 ∧ s.slotOf 5 = some (32, 0) ∧ (s.thread 32 0).wait = .engine (.join 4 0) ∧
    ((after (.flaskJoinReply 0) s).flask 1).st = 2 ∧ (after (.flaskJoinReply 0) s).gOf 32 0 4 = 1 ∧ ((after (.flaskJoinReply 0) s).thread 32 0).pc = 0x200104 ∧
    ((after (.flaskJoinReply 0) (joiner (.refuse Cause.flaskState))).thread 32 0).trap.tcause = 0x183 := by decide +kernel
theorem witness_Flask_ready : let f := { member0 2 none with ready := [(2, 0, 9)] }; let s := head f [flaskPacket 1 0 (.ready 2 1 9)]
    s.deliverable 0 = some (flaskPacket 1 0 (.ready 2 1 9)) ∧ (s.flask 0).next = 2 ∧ (s.flask 0).k = 0 ∧ 2 ∉ (s.flask 0).decided ∧ (∀ j < 2, s.reaches 0 (clusterKey (f.member j)) = true) ∧
    (after (.flaskReadyReceipt 0) s).net.map (·.body) = [.flask ⟨1, 7, 0, .go 2⟩, .flask ⟨1, 7, 0, .go 2⟩] ∧
    (after (.flaskReadyReceipt 0) (head f [flaskPacket 1 0 (.ready 2 1 8)])).net.map (·.body) = [.flask ⟨1, 7, 0, .mismatch 2 1⟩, .flask ⟨1, 7, 0, .mismatch 2 1⟩] ∧
    ((after (.flaskReadyReceipt 0) (head (member0 2 none) [flaskPacket 1 0 (.ready 2 1 8)])).flask 0).ready = [(2, 1, 8)] ∧
    (after (.flaskFaultReceipt 0) (head f [flaskPacket 1 0 (.fault 2 1 Cause.poison)])).net.map (·.body) = [.flask ⟨1, 7, 0, .abort 2 1 Cause.poison⟩, .flask ⟨1, 7, 0, .abort 2 1 Cause.poison⟩] := by
  decide +kernel
/-- Member 1 without a pour, and with pour 2 agreeing: an abort and a mismatch settle the sequence number. -/
theorem witness_Flask_abort : let s := other (member0 2 none) [flaskPacket 0 1 (.abort 2 0 Cause.poison)]; let p := other (member0 3 (some { pour2 with cid := 32 })) [flaskPacket 0 1 (.abort 2 0 Cause.poison)]
    (s.flask 1).k ≠ 0 ∧ (s.flask 1).pour = none ∧ (s.flask 1).dissolved = false ∧ (p.flask 1).pour = some { pour2 with cid := 32 } ∧ (p.flask 1).st = 3 ∧
    ((after (.flaskAbortReceipt 0) s).flask 1).outcomes.getLast? = some (2, 3, 0, Cause.poison) ∧ ((after (.flaskAbortReceipt 0) s).flask 1).next = 3 ∧
    ((after (.flaskAbortReceipt 0) p).flask 1).st = 2 ∧
    ((after (.flaskMismatchReceipt 0) (other (member0 2 none) [flaskPacket 0 1 (.mismatch 2 0)])).flask 1).outcomes.getLast? = some (2, 4, 0, Cause.flaskMismatch) := by decide +kernel
/-- A pour of member 1 in slot 0 of core 32, with a state code and what it holds. -/
def pouring (st : Nat) (p : Pour) (k : FlaskKind) : State :=
  (other (member0 st (some { p with cid := 32 })) [flaskPacket 0 1 k]).onCore 32 fun c => { c with slots := [(0, { thread 0 with st := .parkedEngine, wait := .engine (.pour p.ask) })] }
theorem witness_Flask_pour : let s := pouring 4 pour2 (.partials 2 0 false [1]); let p := { pour2 with cid := 32 }
    (s.flask 1).pour = some p ∧ p.seq = 2 ∧ s.pourHeld p = false ∧
    ((after (.flaskFinishedReceipt 0) (pouring 4 pour2 (.finished 2 0))).flask 1).pour.map (·.finished) = some [0] ∧
    ((after (.flaskCommitReceipt 0) (pouring 4 pour2 (.commit 2))).flask 1).outcomes.getLast? = some (2, 2, 0, 0) ∧
    ((after (.flaskPartialReceipt 0) (pouring 3 pour2 (.partials 2 0 false [1]))).flask 1).pour.map (·.partials) = some [(0, [1])] ∧
    ((after (.flaskPanelReceipt 0) (pouring 3 pour2 (.panel 2 ⟨0, 0, [], ⟨[], [], []⟩⟩))).flask 1).pour.map (·.panels.length) = some 1 ∧
    ((after (.flaskLinkLoss 0) (pouring 3 pour2 (.lost 2 0 false false))).flask 1).outcomes.getLast? = some (2, 3, 1, Cause.linkUnreachable) ∧
    (after (.flaskLinkLoss 0) (pouring 3 pour2 (.lost 2 0 false false))).net.map (·.body) = [.flask ⟨1, 7, 1, .abort 2 1 Cause.linkUnreachable⟩] := by decide +kernel
theorem witness_Flask_leave : let r := { ask .leave with cid := 0 }; let s := other (member0 2 none) [flaskPacket 0 1 (.leave r)]
    s.deliverable 0 = some (flaskPacket 0 1 (.leave r)) ∧ ((after (.flaskLeaveReceipt 0) s).flask 1).st = 0 ∧ (after (.flaskLeaveReceipt 0) s).net.map (·.body) = [.ans 0 1 false .ok] ∧
    (let q := { ask (.query 1) with cid := 0 }; let v := other (member0 2 none) [flaskPacket 0 1 (.query q)];
      (v.flask 1).remembered 1 = some (2, 0) ∧ (v.flask 1).remembered 2 = none ∧ (after (.flaskOutcomeQuery 0) v).net.map (·.body) = [.ans 0 1 false (.data 2)]) := by decide +kernel
/-- An XMMA at the head of cluster 0's queue whose checks fail: its operand lies where nothing is admitted. -/
def asking : State :=
  let x : PourAsk := ⟨false, false, 4, BitVec.ofNat 64 (0xE * 2 ^ 60 + 1 * 2 ^ 19), BitVec.ofNat 64 (0xE * 2 ^ 60), region⟩
  (head { member0 2 none with queue := [(0, 0)] } []).onThr fun t => { t with st := .parkedEngine, wait := .engine (.pour x) }
theorem witness_Flask_accept : let s := asking
    (s.flask 0).st = 2 ∧ (s.flask 0).queue = [(0, 0)] ∧ (after (.flaskPourAccept 0) s).net.map (·.body) = [.flask ⟨1, 7, 0, .fault 2 0 Cause.protection⟩] ∧
    ((after (.flaskPourAccept 0) s).flask 0).st = 3 := by decide +kernel
/-- The last member of a chain of two in cluster 0, whose operand is `wordOperand`'s record, and its flask buffer, which admits domain 1. -/
def pourAsk (ring acc : Bool) (a q : Word) : PourAsk := ⟨ring, acc, 4, a, recordVa 0x1000, q⟩
def poured (k : Nat) (rec_ : List Word) (empties poison : List Nat) (rights : Word := 0x0001171C1FFF0000) : State :=
  ((multiplying rec_ empties poison).onCluster 0 fun c => { c with cprgn := [(0, rights)] }).onFlask 0 fun _ => { member0 2 none with k := k }
/-- The checks of a pour that pass, and one for each check that fails, in the order of 11 R260. -/
theorem witness_FlaskChecks : let r := recordVa 0x1000; let w := wordOperand.rec_; let ok := fun (s : State) (x : PourAsk) => (s.pourChecks 0 0 0 x).toOption.map fun y => y.2.2
    let cause := fun (s : State) (x : PourAsk) => match s.pourChecks 0 0 0 x with
      | .error e => some e
      | .ok _ => none
    let a := pourAsk false false r oneColumn; let buffer := storeAddr 0 28 0 / 8
    ok (poured 1 w [] []) a = some true ∧ ok (poured 0 w [] []) { a with q := 0 } = some false ∧ cause (poured 0 w [] []) a = some (Cause.badOperand, oneColumn.toNat) ∧
    cause (poured 1 w [] []) { a with a := recordVa 0x1004 } = some (Cause.badOperand, (recordVa 0x1004).toNat) ∧
    cause (poured 1 (listSet w 2 0xF) [] []) a = some (Cause.illegalFormat, r.toNat) ∧
    cause (poured 1 (listSet w 0 (recordVa (28 * 2 ^ 19))) [] []) a = some (Cause.badOperand, r.toNat) ∧
    cause (poured 1 (listSet w 0 (recordVa (2 ^ 19))) [] []) a = some (Cause.protection, (recordVa (2 ^ 19)).toNat) ∧
    cause (poured 1 w [] [] 0) a = some (Cause.protection, bufferVa 0) ∧ cause (poured 1 w [] [localAddr 0 0x1000 / 8]) a = some (Cause.poison, r.toNat) ∧
    cause (poured 1 w [buffer] []) a = some (Cause.accumBusy, bufferVa 0) ∧ cause (poured 1 w [] [buffer]) a = some (Cause.poison, bufferVa 0) := by decide +kernel
/-- A member of a chain with one tile to sum, one that has summed it, and one that waits for it; operands that a shutter holds back or that are poisoned. -/
theorem witness_FlaskDataFlow : let s := poured 1 wordOperand.rec_ [] []; let p : Pour := { pour2 with a := wordOperand, b := wordOperand, ask := pourAsk false true 0 oneColumn, committer := true }
    (recordVa 0).toNat = 0xE * 2 ^ 60 ∧ (s.runRows 0 p.a []).toOption = some [0] ∧ ((poured 1 [] [] [localAddr 0 0 / 8]).runRows 0 p.a []).toOption = none ∧
    p.tiles < 1 ∧ p.tileCount = 1 ∧ (s.chainTiles 0 [0] [0] 2 p).1.tiles = 0 ∧ (s.chainTiles 0 [0] [0] 2 { p with partials := [(0, [0])] }).1.tiles = 1 ∧
    (s.chainTiles 0 [0] [0] 2 { p with tiles := 1 }).1.tiles = 1 ∧ ((poured 0 wordOperand.rec_ [] []).chainTiles 0 [0] [0] 2 { p with committer := false }).2.net.length = 1 ∧
    (s.ringPanel 0 { p with ask := pourAsk true true 0 oneColumn } [0] ⟨1, 0, [0], wordOperand⟩).2.net.length = 1 ∧
    (s.ringPanel 0 { p with ask := pourAsk true true 0 oneColumn } [0] ⟨0, 1, [0], wordOperand⟩).2.net.length = 0 := by decide +kernel
theorem witness_FlaskAgreement : let f := member0 2 none; f.m ≤ 64 ∧ f.id < 2 ^ 32 ∧ f.next < 2 ^ 32 ∧ (agreement f (pourAsk true false 0 0) wordOperand.rec_ wordOperand.rec_ 1).getD 4 0 = 0x100010002 ∧
    crc64 [1] = 0x6e4d3e593561ee88 := by decide +kernel
/-- The decider of a chain of two is ordinal 1, which has summed its tiles. -/
theorem witness_Flask_decide : let p := { pour2 with cid := 32, tiles := { pour2 with cid := 32 }.tileCount }; let s := other (member0 4 (some p)) []
    (s.flask 1).pour = some p ∧ (s.flask 1).k = (s.flask 1).decider p.ask.ring ∧ (s.flask 1).dissolved = false ∧ p.tiles = p.tileCount ∧
    ((after (.flaskDecide 1) s).flask 1).outcomes.getLast? = some (2, 2, 0, 0) ∧ (after (.flaskDecide 1) s).net.map (·.body) = [.flask ⟨1, 7, 1, .commit 2⟩] := by decide +kernel

/-! The step. -/

/-- The words of an instruction placed for the next step are fetched, decoded and executed (05 R112). -/
theorem witness_StepRunsDecodedInstruction : let s := (plain [0, 5]).withFetchWord 32 0x08387001
    s.issuing = true ∧ s.thr.st.runs = true ∧ fetchable s.thr.pc.toNat = true ∧ (s.thr.sectorOf s.thr.pc.toNat).isSome = true ∧
    (s.thr.sectorOf s.thr.pc.toNat).all (fun x => x.fault.isNone && x.words.getD (s.thr.pc.toNat % 64 / 4) 0 == 0x08387001) = true ∧ decode 0x08387001 0 = .ok (.addi 7 7 1) := by
  decide +kernel
theorem test_step : (match step ((plain [0, 5]).withFetchWord 32 0x08387001) with
    | .next t => t.g 7 == 1
    | _ => false) = true := by decide +kernel
theorem test_step_mma : (match step ((plain [0, 5]).withFetchWord 64 0x0E010000E02050C0) with
    | .next t => t.thr.wait == .core (.submitted ⟨0, 4, 0, 0, 0, 0, true⟩)
    | _ => false) = true := by decide +kernel
theorem witness_StepKeepsBounds : Bounds State.reset := by
  refine ⟨?_, ?_, ?_, ?_, ?_⟩ <;> simp [State.reset]
theorem witness_StepKeepsMemoryWf : MemoryWf State.reset := by unfold MemoryWf; decide
theorem test_reset : (State.reset.module 0).busy = true ∧ (State.reset.module 0).cap = 3200 ∧ State.reset.mem.full 0 = true := by decide

end Sys2Proof.Tests
end

section
/-!
PROOFS. What the host reads, the refusal codes of a record, selection, placement and the root threads of a core (00 R6; 01 R14 to R16;
03 R48, R51, R54, R59, R63; 04 R96, R97; 15 R358): one lemma for each function that answers, then the obligation O46.
-/
namespace Sys2Proof.LaunchProofs
open Sys2Proof Sys2Proof.Machine

/-! Words as numbers and as bytes. -/

theorem field_toNat (v : Word) (lo len : Nat) : field v.toNat lo len = (v.extractLsb' lo len).toNat := by
  rw [BitVec.extractLsb'_toNat, Nat.shiftRight_eq_div_pow, field]

theorem bit_toNat (v : Word) (k : Nat) : bit v.toNat k = v.getLsbD k := by
  simp [bit, BitVec.getLsbD, Nat.testBit_eq_decide_div_mod_eq, beq_eq_decide]

theorem toBytes_eq_map (n v : Nat) : toBytes n v = (List.range n).map fun i => BitVec.ofNat 8 (v / 256 ^ i) := by
  induction n generalizing v with
  | zero => rfl
  | succ n ih => simp [toBytes, ih, List.range_succ_eq_map, Nat.div_div_eq_div_mul, Nat.pow_succ']

theorem toBytes_word (v : Word) : toBytes 8 v.toNat = (List.range 8).map fun i => v.extractLsb' (8 * i) 8 := by
  rw [toBytes_eq_map]
  refine List.map_congr_left fun i _ => BitVec.eq_of_toNat_eq ?_
  rw [BitVec.extractLsb'_toNat, Nat.shiftRight_eq_div_pow, Nat.pow_mul, BitVec.toNat_ofNat]

theorem toBytes_read (m : Memory) (a n : Nat) : toBytes n (m.read a n) = (List.range n).map fun i => m.byte (a + i) := by
  induction n generalizing a with
  | zero => rfl
  | succ n ih =>
    have hb := (m.byte a).isLt
    have hdiv : m.read a (n + 1) / 256 = m.read (a + 1) n := by simp only [Memory.read]; omega
    have hmod : BitVec.ofNat 8 (m.read a (n + 1)) = m.byte a :=
      BitVec.eq_of_toNat_eq (by simp only [Memory.read, BitVec.toNat_ofNat]; omega)
    simp only [toBytes, hdiv, hmod, ih, List.range_succ_eq_map, List.map_cons, List.map_map, Nat.add_zero]
    congr 2
    funext i
    simp only [Function.comp]
    congr 1; omega

theorem toNat_append {v w : Nat} (a : BitVec v) (b : BitVec w) : (a ++ b).toNat = a.toNat * 2 ^ w + b.toNat := by
  rw [BitVec.toNat_append, ← Nat.shiftLeft_add_eq_or_of_lt b.isLt, Nat.shiftLeft_eq]

/-- A word with its seven low bits cleared. -/
theorem toNat_clear7 (v : Word) : (v &&& ~~~(0x7F : Word)).toNat = v.toNat / 2 ^ 7 * 2 ^ 7 := by
  have hmask : ~~~(0x7F : Word) = BitVec.allOnes 64 <<< 7 := by decide
  have hshift : v &&& ~~~(0x7F : Word) = (v >>> 7) <<< 7 := by
    rw [hmask]
    refine BitVec.eq_of_getLsbD_eq fun i hi => ?_
    simp only [BitVec.getLsbD_and, BitVec.getLsbD_shiftLeft, BitVec.getLsbD_allOnes, BitVec.getLsbD_ushiftRight]
    by_cases h7 : i < 7
    · simp [h7]
    · simp [h7, hi, show i - 7 < 64 by omega, show 7 + (i - 7) = i by omega]
  have hv := v.isLt
  rw [hshift]
  simp only [BitVec.toNat_shiftLeft, BitVec.toNat_ushiftRight, Nat.shiftLeft_eq, Nat.shiftRight_eq_div_pow]
  omega

/-! What the host reads from the control BAR. -/

theorem controlRead_of_registerRead {x : Machine.Module} {off : Nat} {v : Word} (h : x.registerRead off = v.toNat) (ht : x.turnedAway = none) :
    x.controlRead off = ⟨.ok, (List.range 8).map fun i => v.extractLsb' (8 * i) 8⟩ := by
  rw [Module.controlRead, ht, h, toBytes_word]

theorem registerRead_queue (x : Machine.Module) {q k : Nat} (hq : q < 64) (hk : k < 4) :
    x.registerRead (0x1000 + 32 * q + 8 * k) = (x.queue q).registerRead k := by
  rw [Module.registerRead, if_pos (by simp; omega), show (0x1000 + 32 * q + 8 * k - 0x1000) / 32 = q by omega,
    show (0x1000 + 32 * q + 8 * k) / 8 % 4 = k by omega]

theorem registerRead_mailbox (x : Machine.Module) {k : Nat} (hk : k < 0x1000) : x.registerRead (0x2000 + k) = x.mailboxRead k := by
  rw [Module.registerRead, if_neg (by simp; omega), if_pos (by simp; omega), Nat.add_sub_cancel_left]

theorem registerRead_outside (x : Machine.Module) {off : Nat} (h : off < 0x1000 ∨ 0x1800 ≤ off ∧ off < 0x2000 ∨ 0x3000 ≤ off) :
    x.registerRead off = 0 := by
  rw [Module.registerRead, if_neg (by simp; omega), if_neg (by simp; omega)]

theorem mailboxRead_reserved (x : Machine.Module) {k : Nat} (h : k = 0 ∨ 0x50 ≤ k ∧ k < 0x100) : x.mailboxRead k = 0 := by
  rw [Module.mailboxRead, if_neg (by omega)]
  rcases h with rfl | ⟨h1, h2⟩
  · rw [if_pos (by omega)]
  · rw [if_neg (by omega), if_neg (by omega), if_pos h2]

theorem mailboxRead_arg (x : Machine.Module) {k : Nat} (hk : k < 8) : x.mailboxRead (0x10 + 8 * k) = (x.mbox.args.getD k 0).toNat := by
  rw [Module.mailboxRead, if_neg (by omega), if_neg (by omega), if_pos (by omega), show (0x10 + 8 * k - 0x10) / 8 = k by omega]

theorem registerRead_reserved (x : Machine.Module) {off : Nat}
    (h : off < 0x1000 ∨ 0x1800 ≤ off ∧ off ≤ 0x2000 ∨ 0x2050 ≤ off ∧ off < 0x2100 ∨ 0x3000 ≤ off) : x.registerRead off = 0 := by
  by_cases hm : 0x2000 ≤ off ∧ off < 0x3000
  · obtain ⟨k, rfl⟩ := Nat.exists_eq_add_of_le hm.1
    rw [registerRead_mailbox x (by omega), mailboxRead_reserved x (by omega)]
  · exact registerRead_outside x (by omega)

/-- The registers of a launch queue as words of their fields (03 R51). -/
theorem queue_registerRead (y : Queue) : let num := fun (w n : Nat) => BitVec.ofNat w n; let flag := fun (b : Bool) => BitVec.ofBool b
    y.registerRead 0 = (y.base &&& ~~~(0x7F : Word)).toNat ∧
    y.registerRead 1 = (num 32 0 ++ num 16 y.dom ++ num 11 0 ++ flag y.en ++ num 4 y.sizelog).toNat ∧
    y.registerRead 2 = (num 32 0 ++ num 32 y.cons).toNat ∧
    y.registerRead 3 = (num 16 y.coll ++ num 16 y.refd ++ num 14 0 ++ flag y.badw ++ flag y.flt ++ num 8 y.lastref ++ num 7 0 ++ flag y.latch.isSome).toNat := by
  simp only [toNat_append, toNat_clear7, BitVec.toNat_ofNat, BitVec.toNat_ofBool]
  refine ⟨rfl, ?_, ?_, ?_⟩
  · rw [Queue.registerRead, if_neg (by decide), if_pos rfl]; omega
  · rw [Queue.registerRead, if_neg (by decide), if_neg (by decide), if_pos rfl]; omega
  · rw [Queue.registerRead, if_neg (by decide), if_neg (by decide), if_neg (by decide)]; omega

/-- MBSTAT as a word of its fields (15 R358). -/
theorem mailboxRead_status (x : Machine.Module) : let num := fun (w n : Nat) => BitVec.ofNat w n; let flag := fun (b : Bool) => BitVec.ofBool b
    x.mailboxRead 8 = (num 16 0 ++ num 16 x.mbox.tag ++ num 8 0 ++ num 8 x.mbox.result ++ num 14 0 ++ flag x.mbox.ovr ++ flag x.busy).toNat := by
  simp only [toNat_append, BitVec.toNat_ofNat, BitVec.toNat_ofBool]
  rw [Module.mailboxRead, if_pos rfl]; omega

/-! What the host reads from the put window. -/

theorem hostReads_turnedAway {s : State} {m : Nat} {st : HostStatus} (h : (s.module m).turnedAway = some st) (q n : Nat) :
    (s.module m).controlRead n = ⟨st, []⟩ ∧ s.putWindowRead m q n 1 = ⟨st, []⟩ := by
  simp [Module.controlRead, State.putWindowRead, h]

theorem putWindowRead_one {s : State} {m : Nat} (h : (s.module m).turnedAway = none) (q off : Nat) :
    s.putWindowRead m q off 1 = ⟨if (s.putWindowReadWord m q off).2 then .poisoned else .ok, toBytes 8 (s.putWindowReadWord m q off).1⟩ := by
  simp [State.putWindowRead, h]

theorem putWindowRead_beyond {s : State} {m q off : Nat} (h : (s.module m).turnedAway = none)
    (hoff : 128 * 2 ^ ((s.module m).queue q).sizelog ≤ off) : s.putWindowRead m q off 1 = ⟨.ok, List.replicate 8 0⟩ := by
  rw [putWindowRead_one h, State.putWindowReadWord, if_pos hoff]
  rfl

theorem putWindowRead_within {s : State} {m q off a : Nat} (h : (s.module m).turnedAway = none)
    (hoff : off < 128 * 2 ^ ((s.module m).queue q).sizelog)
    (ha : s.placeInDram m ((s.module m).queue q).dom ((((s.module m).queue q).base.toNat + off) % 2 ^ 64) = some a) :
    s.putWindowRead m q off 1 = ⟨if s.mem.poisoned (a / 8) then .poisoned else .ok, (List.range 8).map fun i => s.mem.byte (a + i)⟩ := by
  have hword : s.putWindowReadWord m q off = (s.mem.read a 8, s.mem.poisoned (a / 8)) := by
    simp only [State.putWindowReadWord, if_neg (not_le.mpr hoff), ha, wordOf]
  rw [putWindowRead_one h, hword, toBytes_read]

/-! The refusal code of a record. -/

/-- Whether a row of a checked table states a row of a table of conditions: the test decides the condition, and the code is the same. -/
def Decides (b : Bool × Nat) (p : Prop × Nat) : Prop := (b.1 = true ↔ p.1) ∧ b.2 = p.2

theorem find_none_of_decides {bs : List (Bool × Nat)} {ps : List (Prop × Nat)} (h : List.Forall₂ Decides bs ps) (hp : ∀ p ∈ ps, ¬p.1) :
    (bs.find? fun r => r.1).map Prod.snd = none := by
  induction h with
  | nil => rfl
  | @cons b p bs ps hb _ ih =>
    obtain ⟨hhead, htail⟩ := List.forall_mem_cons.mp hp
    rw [List.find?_cons_of_neg (fun hb1 => hhead (hb.1.mp hb1)), ih htail]

theorem find_first_of_decides {bs : List (Bool × Nat)} {before after : List (Prop × Nat)} {r : Prop × Nat}
    (h : List.Forall₂ Decides bs (before ++ r :: after)) (hr : r.1) (hb : ∀ z ∈ before, ¬z.1) :
    (bs.find? fun r => r.1).map Prod.snd = some r.2 := by
  induction before generalizing bs with
  | nil =>
    obtain ⟨b, bs, hd, _, rfl⟩ := List.forall₂_cons_right_iff.mp h
    rw [List.find?_cons_of_pos (hd.1.mpr hr), Option.map_some, hd.2]
  | cons p ps ih =>
    obtain ⟨b, bs, hd, ht, rfl⟩ := List.forall₂_cons_right_iff.mp h
    obtain ⟨hhead, htail⟩ := List.forall_mem_cons.mp hb
    rw [List.find?_cons_of_neg (fun hb1 => hhead (hd.1.mp hb1)), ih ht htail]

theorem bit_field (n lo len k : Nat) (hk : k < len) : bit (field n lo len) k = bit n (lo + k) := by
  simp only [bit, field, beq_eq_decide, ← Nat.testBit_eq_decide_div_mod_eq, Nat.testBit_mod_two_pow, Nat.testBit_div_two_pow, hk,
    decide_true, Bool.true_and, Nat.add_comm]

theorem popCount_field (v : Word) (lo len : Nat) :
    popCount len (field v.toNat lo len) = (List.range len).countP fun k => v.getLsbD (lo + k) := by
  rw [popCount, ← List.countP_eq_length_filter]
  refine List.countP_congr fun k hk => ?_
  rw [bit_field _ _ _ _ (List.mem_range.mp hk), bit_toNat]

/-- The sixteen values that WIN of an entry descriptor may have (01 R14). -/
theorem win_bad_iff (x : Nat) : (x < 8 ∨ 128 < x ∨ x % 8 ≠ 0) ↔
    ∀ n ∈ [8, 16, 24, 32, 40, 48, 56, 64, 72, 80, 88, 96, 104, 112, 120, 128], x ≠ n := by
  have hmultiples : [8, 16, 24, 32, 40, 48, 56, 64, 72, 80, 88, 96, 104, 112, 120, 128] = (List.range 16).map fun k => 8 * (k + 1) := rfl
  rw [hmultiples, List.forall_mem_map]
  constructor
  · intro h k hk
    have := List.mem_range.mp hk
    omega
  · intro h
    by_contra hx
    exact h (x / 8 - 1) (List.mem_range.mpr (by omega)) (by omega)

theorem field_ofNat (e lo len : Nat) (h : lo + len ≤ 64) : ((BitVec.ofNat 64 e).extractLsb' lo len).toNat = field e lo len := by
  rw [← field_toNat, BitVec.toNat_ofNat, field, field, show 64 = lo + (64 - lo) by omega, Nat.pow_add, Nat.mod_mul_right_div_self,
    Nat.mod_mod_of_dvd _ (Nat.pow_dvd_pow 2 (by omega))]

theorem descBad_iff (e : Nat) : descBad e = true ↔ (BitVec.ofNat 64 e).extractLsb' 44 20 ≠ 0 ∨
    ∀ n ∈ [8, 16, 24, 32, 40, 48, 56, 64, 72, 80, 88, 96, 104, 112, 120, 128], ((BitVec.ofNat 64 e).extractLsb' 32 8).toNat ≠ n := by
  have hzero : (BitVec.ofNat 64 e).extractLsb' 44 20 ≠ 0 ↔ field e 44 20 ≠ 0 := by
    rw [← field_ofNat e 44 20 (by decide), Ne, BitVec.toNat_eq]; rfl
  rw [hzero, field_ofNat e 32 8 (by decide), ← win_bad_iff]
  simp [descBad, or_assoc]

/-- Words 9 to 14 of a record are reserved (01 R15). -/
theorem reservedWords_iff (ws : List Word) :
    ((List.range 6).any fun k => (ws.getD (9 + k) 0).toNat != 0) = true ↔ ∃ k, 9 ≤ k ∧ k ≤ 14 ∧ ws.getD k 0 ≠ 0 := by
  rw [List.any_eq_true]
  constructor
  · rintro ⟨k, hk, hne⟩
    refine ⟨9 + k, by omega, by have := List.mem_range.mp hk; omega, fun h0 => ?_⟩
    rw [h0] at hne
    exact absurd hne (by decide)
  · rintro ⟨k, h9, h14, hne⟩
    refine ⟨k - 9, List.mem_range.mpr (by omega), ?_⟩
    rw [Nat.add_sub_cancel' h9, bne_iff_ne]
    exact fun h0 => hne (BitVec.eq_of_toNat_eq h0)

/-- The rules of 01 R15, 01 R16 and 03 R59 with their codes, in the order of log entry 25. -/
def recordRules (d : Domain) (tag : Nat) (ws : List Word) (desc : Option Nat) (table : Bool) : List (Prop × Nat) :=
  let b := fun (k lo len : Nat) => ((ws.getD k 0).extractLsb' lo len).toNat
  let entryBad := fun (e : Word) => e.extractLsb' 44 20 ≠ 0 ∨ ∀ n ∈ [8, 16, 24, 32, 40, 48, 56, 64, 72, 80, 88, 96, 104, 112, 120, 128], (e.extractLsb' 32 8).toNat ≠ n
  let window := if b 5 0 8 = 0 then (desc.getD 0) / 2 ^ 32 % 2 ^ 8 else b 5 0 8
  let clusters := (List.range 23).countP fun k => (ws.getD 6 0).getLsbD (16 + k)
  let dies := (List.range 16).countP fun k => (ws.getD 6 0).getLsbD k
  [(∀ e, desc = some e → entryBad (BitVec.ofNat 64 e), 3), (b 2 0 3 ≠ 0, 6), (b 4 57 7 ≠ 0, 1), (¬(1 ≤ b 4 48 9 ∧ b 4 48 9 ≤ 252), 4),
    (¬(1 ≤ b 4 32 16 ∧ b 4 32 16 ≤ 8832), 4), (b 4 28 4 ≠ 0, 1), (b 4 19 5 ≠ 0, 1), (b 4 0 16 = 0 ∨ b 4 0 16 ≠ tag, 2), (b 5 18 46 ≠ 0, 1),
    (384 < b 5 8 10, 4), (b 5 0 8 ≠ 0 ∧ ¬(8 ≤ b 5 0 8 ∧ b 5 0 8 ≤ 128 ∧ 8 ∣ b 5 0 8), 4), (b 6 39 25 ≠ 0, 1), (b 6 16 23 = 0, 4),
    (b 6 0 16 = 0, 4), (table = false, 3), (∃ k, 9 ≤ k ∧ k ≤ 14 ∧ ws.getD k 0 ≠ 0, 1), (b 15 8 56 ≠ 0, 1), (b 15 0 8 ≠ 1, 5),
    (4096 < b 4 48 9 * window, 4), (24 * (dies * clusters) < b 4 32 16, 4),
    (¬((ws.getD 4 0).getLsbD 26 = true ↔ d.set.partitioned = true), 7), (¬((ws.getD 4 0).getLsbD 24 = true ↔ d.set.gang ≠ none), 7)]

/-- The model's checks decide the rules, row by row. -/
theorem recordRefusal_decides (d : Domain) (tag : Nat) (ws : List Word) (desc : Option Nat) (table : Bool) :
    ∃ bs, recordRefusal d tag ws desc table = (bs.find? fun r => r.1).map Prod.snd ∧ List.Forall₂ Decides bs (recordRules d tag ws desc table) := by
  refine ⟨_, rfl, ?_⟩
  have hwords := reservedWords_iff ws
  have hclusters := popCount_field (ws.getD 6 0) 16 23
  have hdies := popCount_field (ws.getD 6 0) 0 16
  simp only [Nat.zero_add] at hdies
  simp only [recordRules, List.forall₂_cons, Decides, hclusters, hdies, ← field_toNat, and_true, bit_toNat]
  -- Most rows test one field as the rule states it; the named ones say it in other words.
  refine ⟨?entry, by simp [field], by simp, ?threads, ?cores, by simp, by simp, by simp, by simp, by simp, ?win, by simp, by simp, by simp,
    by simp, hwords, by simp, by simp, ?registers, ?places, ?partition, ?gang, .nil⟩
  case entry =>
    cases desc with
    | none => simp
    | some e => simp only [field_toNat, Option.some.injEq, forall_eq', descBad_iff]
  case threads => simp; omega
  case cores => simp; omega
  case win => simp [Nat.dvd_iff_mod_eq_zero]; omega
  case registers => simp [descWin, field]
  case places => simp [Nat.mul_comm 24]
  case partition => simp
  case gang => rw [bne_iff_ne, Ne, Bool.eq_iff_iff, Option.isSome_iff_ne_none]

/-! Selection (03 R63). -/

theorem greatest_eq_none_iff (l : List Nat) : greatest l = none ↔ l = [] := by
  cases l with
  | nil => simp [greatest]
  | cons a r => simp only [greatest]; split <;> simp

theorem greatest_eq_some_iff (l : List Nat) (a : Nat) : greatest l = some a ↔ a ∈ l ∧ ∀ b ∈ l, b ≤ a := by
  induction l generalizing a with
  | nil => simp [greatest]
  | cons c r ih =>
    simp only [greatest]
    cases hr : greatest r with
    | none => simp +contextual [(greatest_eq_none_iff r).mp hr, eq_comm]
    | some b =>
      obtain ⟨hmem, hmax⟩ := (ih b).mp hr
      simp only [Option.some.injEq, List.mem_cons, forall_eq_or_imp]
      constructor
      · rintro rfl
        refine ⟨?_, le_max_left c b, fun x hx => (hmax x hx).trans (le_max_right c b)⟩
        rcases max_choice c b with h | h
        · exact .inl h
        · exact .inr (h.symm ▸ hmem)
      · rintro ⟨hac, hca, hra⟩
        refine le_antisymm (max_le hca (hra b hmem)) ?_
        rcases hac with rfl | har
        · exact le_max_left a b
        · exact (hmax a har).trans (le_max_right c b)

theorem leastBy_eq_none_iff {α : Type} (f : α → Nat) (l : List α) : leastBy f l = none ↔ l = [] := by
  cases l with
  | nil => simp [leastBy]
  | cons a r =>
    simp only [leastBy]
    split
    · simp
    · split <;> simp

theorem leastBy_eq_some {α : Type} {f : α → Nat} {l : List α} {a : α} (h : leastBy f l = some a) : a ∈ l ∧ ∀ b ∈ l, f a ≤ f b := by
  induction l generalizing a with
  | nil => simp [leastBy] at h
  | cons c r ih =>
    simp only [leastBy] at h
    cases hr : leastBy f r with
    | none =>
      simp only [hr, Option.some.injEq] at h
      simp [(leastBy_eq_none_iff f r).mp hr, h]
    | some b =>
      obtain ⟨hmem, hmin⟩ := ih hr
      simp only [hr] at h
      split at h
      · cases h
        exact ⟨.tail _ hmem, List.forall_mem_cons.mpr ⟨by omega, hmin⟩⟩
      · cases h
        exact ⟨.head _, List.forall_mem_cons.mpr ⟨le_refl _, fun x hx => by have := hmin x hx; omega⟩⟩

/-- Queue `q` holds the latched launch `l`, and it may be selected (03 R63, 15 R360). -/
def Held (s : State) (m q : Nat) (l : Latched) : Prop :=
  q < 64 ∧ ((s.module m).queue q).latch = some l ∧ ((l.rec_.getD 4 0).getLsbD 24 = true → s.switchedIn m l.dom = true) ∧ s.unbinding m l.dom = false

theorem mem_eligibleLatches (s : State) (m q : Nat) (l : Latched) : (q, l) ∈ s.eligibleLatches m ↔ Held s m q l := by
  simp only [State.eligibleLatches, List.mem_filterMap, List.mem_range, Held]
  constructor
  · rintro ⟨k, hk, h⟩
    split at h
    · cases h
    · rename_i hl
      split at h
      · cases h
      · rename_i hgo
        cases h
        refine ⟨hk, hl, ?_⟩
        simpa [Latched.word, bit_toNat] using hgo
  · rintro ⟨hq, hl, hgo⟩
    refine ⟨q, hq, ?_⟩
    simp only [hl]
    rw [if_neg (by simpa [Latched.word, bit_toNat] using hgo)]

theorem prio_eq (l : Latched) : l.prio = ((l.rec_.getD 4 0).extractLsb' 16 3).toNat := field_toNat _ _ _

theorem mem_levels (s : State) (m k : Nat) : k ∈ (s.eligibleLatches m).map (fun e => e.2.prio) ↔ ∃ q l, Held s m q l ∧ l.prio = k := by
  simp [← mem_eligibleLatches]

/-- The level of select() (03 R63): the greatest starved level below the greatest level `h`, else `h`. -/
def selectLevel (x : Machine.Module) (levels : List Nat) (h : Nat) : Nat :=
  (greatest (levels.filter fun l => decide (l < h) && decide (16 ≤ Tab.get 0 x.streak l))).getD h

/-- The distance of a queue from the pointer of a level, upwards around the ring (03 R63). -/
def ringDistance (x : Machine.Module) (lv : Nat) (e : Nat × Latched) : Nat := (e.1 + 63 - Tab.get 63 x.lastL lv) % 64

theorem selectLatch_of_greatest {s : State} {m h : Nat} (hg : greatest ((s.eligibleLatches m).map fun e => e.2.prio) = some h) :
    let lv := selectLevel (s.module m) ((s.eligibleLatches m).map fun e => e.2.prio) h
    s.selectLatch m = (leastBy (ringDistance (s.module m) lv) ((s.eligibleLatches m).filter fun e => e.2.prio == lv)).map fun e => (e.1, e.2, lv) := by
  simp only [State.selectLatch, hg]; rfl

theorem selectLevel_mem {x : Machine.Module} {levels : List Nat} {h : Nat} (hh : h ∈ levels) : selectLevel x levels h ∈ levels := by
  unfold selectLevel
  cases hw : greatest (levels.filter fun l => decide (l < h) && decide (16 ≤ Tab.get 0 x.streak l)) with
  | none => exact hh
  | some k => exact (List.mem_filter.mp ((greatest_eq_some_iff _ _).mp hw).1).1

theorem selectLevel_eq {x : Machine.Module} {levels : List Nat} {h lv : Nat}
    (hlv : let starved := fun k => k < h ∧ 16 ≤ Tab.get 0 x.streak k ∧ k ∈ levels
      starved lv ∧ (∀ k, starved k → k ≤ lv) ∨ lv = h ∧ ∀ k, ¬starved k) : selectLevel x levels h = lv := by
  have hmem : ∀ k, k ∈ levels.filter (fun l => decide (l < h) && decide (16 ≤ Tab.get 0 x.streak l)) ↔ k < h ∧ 16 ≤ Tab.get 0 x.streak k ∧ k ∈ levels := by
    intro k; simp only [List.mem_filter, Bool.and_eq_true, decide_eq_true_eq]; tauto
  unfold selectLevel
  rcases hlv with ⟨hs, hmax⟩ | ⟨rfl, hnone⟩
  · rw [(greatest_eq_some_iff _ lv).mpr ⟨(hmem lv).mpr hs, fun k hk => hmax k ((hmem k).mp hk)⟩, Option.getD_some]
  · rw [(greatest_eq_none_iff _).mpr (List.eq_nil_iff_forall_not_mem.mpr fun k hk => hnone k ((hmem k).mp hk)), Option.getD_none]

theorem selectLatch_eq_none_iff (s : State) (m : Nat) : s.selectLatch m = none ↔ ∀ q l, ¬Held s m q l := by
  have hempty : (∀ q l, ¬Held s m q l) ↔ s.eligibleLatches m = [] := by
    simp only [List.eq_nil_iff_forall_not_mem, Prod.forall, mem_eligibleLatches]
  rw [hempty]
  cases hg : greatest ((s.eligibleLatches m).map fun e => e.2.prio) with
  | none =>
    have hnil := List.map_eq_nil_iff.mp ((greatest_eq_none_iff _).mp hg)
    simp [State.selectLatch, hnil, greatest]
  | some h =>
    obtain ⟨hh, -⟩ := (greatest_eq_some_iff _ _).mp hg
    obtain ⟨e, he, hlv⟩ := List.mem_map.mp (selectLevel_mem (x := s.module m) hh)
    have hsome : e ∈ (s.eligibleLatches m).filter fun e => e.2.prio == selectLevel (s.module m) ((s.eligibleLatches m).map fun e => e.2.prio) h :=
      List.mem_filter.mpr ⟨he, by simpa using hlv⟩
    simp only [selectLatch_of_greatest hg, Option.map_eq_none_iff, leastBy_eq_none_iff, List.ne_nil_of_mem hsome, List.ne_nil_of_mem he]

/-- Two queues of one module at the same distance from a pointer are one queue. -/
theorem ringDistance_inj {x : Machine.Module} {lv : Nat} {a b : Nat × Latched} (hlast : Tab.get 63 x.lastL lv ≤ 63) (ha : a.1 < 64) (hb : b.1 < 64)
    (h : ringDistance x lv a = ringDistance x lv b) : a.1 = b.1 := by
  unfold ringDistance at h; omega

theorem selectLatch_eq_some {s : State} {m q h lv : Nat} {l : Latched} (hheld : Held s m q l) (hl : l.prio = lv)
    (hh : ∃ q l, Held s m q l ∧ l.prio = h) (hmax : ∀ q l, Held s m q l → l.prio ≤ h)
    (hlv : let starved := fun k => k < h ∧ 16 ≤ Tab.get 0 (s.module m).streak k ∧ ∃ q l, Held s m q l ∧ l.prio = k
      starved lv ∧ (∀ k, starved k → k ≤ lv) ∨ lv = h ∧ ∀ k, ¬starved k)
    (hlast : Tab.get 63 (s.module m).lastL lv ≤ 63)
    (hnext : ∀ r l', Held s m r l' → l'.prio = lv → ringDistance (s.module m) lv (q, l) ≤ ringDistance (s.module m) lv (r, l')) :
    s.selectLatch m = some (q, l, lv) := by
  have hg : greatest ((s.eligibleLatches m).map fun e => e.2.prio) = some h :=
    (greatest_eq_some_iff _ _).mpr ⟨(mem_levels s m h).mpr hh, fun k hk => by
      obtain ⟨r, l', hr, rfl⟩ := (mem_levels s m k).mp hk
      exact hmax r l' hr⟩
  have hlevel : selectLevel (s.module m) ((s.eligibleLatches m).map fun e => e.2.prio) h = lv :=
    selectLevel_eq (by simpa only [mem_levels] using hlv)
  have hmem : ∀ e, e ∈ (s.eligibleLatches m).filter (fun e => e.2.prio == lv) ↔ Held s m e.1 e.2 ∧ e.2.prio = lv := by
    intro e; simp [← mem_eligibleLatches]
  rw [selectLatch_of_greatest hg, hlevel]
  cases hleast : leastBy (ringDistance (s.module m) lv) ((s.eligibleLatches m).filter fun e => e.2.prio == lv) with
  | none => exact absurd ((hmem (q, l)).mpr ⟨hheld, hl⟩) (by simp [(leastBy_eq_none_iff _ _).mp hleast])
  | some e =>
    obtain ⟨he, hmin⟩ := leastBy_eq_some hleast
    obtain ⟨heheld, hel⟩ := (hmem e).mp he
    have hdist := le_antisymm (hmin (q, l) ((hmem _).mpr ⟨hheld, hl⟩)) (hnext e.1 e.2 heheld hel)
    have hq : e.1 = q := ringDistance_inj hlast heheld.1 hheld.1 hdist
    have hlatch := heheld.2.1
    rw [hq, hheld.2.1, Option.some.injEq] at hlatch
    rw [Option.map_some, hq, hlatch]

theorem get_map_pair {α : Type} (d : α) (f : Nat → α) (ks : List Nat) (k : Nat) :
    Tab.get d (ks.map fun i => (i, f i)) k = if k ∈ ks then f k else d := by
  induction ks with
  | nil => rfl
  | cons j r ih =>
    simp only [List.map_cons, Tab.get, ih, List.mem_cons]
    by_cases hj : j = k
    · simp [hj]
    · simp [hj, Ne.symm hj]

theorem lastL_dispatched (x : Machine.Module) (q lv : Nat) (ls : List Nat) : Tab.get 63 (x.dispatched q lv ls).lastL lv = q := Tab.get_set_same ..

theorem streak_dispatched (x : Machine.Module) (q lv : Nat) (ls : List Nat) {k : Nat} (hk : k < 8) :
    Tab.get 0 (x.dispatched q lv ls).streak k =
      if k = lv then 0 else if k ∉ ls then 0 else if k < lv then Tab.get 0 x.streak k + 1 else Tab.get 0 x.streak k := by
  simp only [Module.dispatched, get_map_pair, List.mem_range, if_pos hk]
  by_cases h1 : k = lv <;> by_cases h2 : k ∈ ls <;> simp [h1, h2]

/-! Feasible cores (04 R97). -/

theorem feasible_iff (s : State) (cid : Nat) (l : Latched) : let kib := fun (r : List Word) => ((r.getD 5 0).extractLsb' 8 10).toNat
    s.feasible cid l = true ↔ s.clusterAvailable (cidCluster cid) l.dom = true ∧ s.coreOpen cid l.dom = true ∧
      s.placementStopped cid l.dom = false ∧ (s.module (cidModule cid)).over115 = false ∧ (s.module (cidModule cid)).d3hot = false ∧
      (s.core cid).fits l.win l.threads = true ∧
      (kib l.rec_ = 0 ∨ ∀ z ∈ (s.module (cidModule cid)).launches, cid ∈ z.cores → kib z.rec_ ≠ 0 → s.switchedIn (cidModule cid) z.dom = false) ∧
      ((l.rec_.getD 4 0).getLsbD 27 = false ∨ ∀ k < 5, let r := Tab.get 0 (s.cluster (cidCluster cid)).cprgn k; r = 0 ∨ (r.extractLsb' 48 16).toNat = l.dom) := by
  have hlocal : l.localK = ((l.rec_.getD 5 0).extractLsb' 8 10).toNat := field_toNat _ _ _
  have heng : l.eng = (l.rec_.getD 4 0).getLsbD 27 := bit_toNat _ _
  have hclaim : (s.cluster (cidCluster cid)).claimable l.dom = true ↔ ∀ k < 5, let r := Tab.get 0 (s.cluster (cidCluster cid)).cprgn k; r = 0 ∨ (r.extractLsb' 48 16).toNat = l.dom := by
    simp [Cluster.claimable, field_toNat]
  simp only [State.feasible, State.mayPlace, hlocal, heng, field_toNat, Bool.and_eq_true, Bool.or_eq_true, hclaim]
  simp [and_assoc]

/-! Placement (04 R97): lists in falling order of a key. -/

theorem insertBy_perm {α : Type} (f : α → Nat) (a : α) (l : List α) : (insertBy f a l).Perm (a :: l) := by
  induction l with
  | nil => exact .refl _
  | cons b r ih =>
    simp only [insertBy]
    split
    · exact .refl _
    · exact (ih.cons b).trans (.swap a b r)

theorem foldl_insertBy_perm {α : Type} (f : α → Nat) (l acc : List α) : (l.foldl (fun acc a => insertBy f a acc) acc).Perm (acc ++ l) := by
  induction l generalizing acc with
  | nil => simp
  | cons a r ih => exact (ih _).trans (((insertBy_perm f a acc).append_right r).trans List.perm_middle.symm)

theorem sortBy_perm {α : Type} (f : α → Nat) (l : List α) : (sortBy f l).Perm l := foldl_insertBy_perm f l []

theorem insertBy_map {α β : Type} (f : β → Nat) (g : α → β) (a : α) (l : List α) :
    insertBy f (g a) (l.map g) = (insertBy (fun x => f (g x)) a l).map g := by
  induction l with
  | nil => rfl
  | cons b r ih =>
    simp only [insertBy, List.map_cons]
    split
    · rfl
    · rw [ih, List.map_cons]

theorem sortBy_map {α β : Type} (f : β → Nat) (g : α → β) (l : List α) : sortBy f (l.map g) = (sortBy (fun x => f (g x)) l).map g := by
  unfold sortBy
  rw [List.foldl_map]
  exact List.foldl_hom (List.map g) (g₂ := fun acc a => insertBy f (g a) acc) (init := []) fun acc a => insertBy_map f g a acc

/-- The order of placement (04 R97): the greater key first, of equals the lower number. -/
def Falling (f : Nat → Nat) (l : List Nat) : Prop := l.Pairwise fun a b => f b < f a ∨ f a = f b ∧ a < b

theorem Falling.insertBy {f : Nat → Nat} {a : Nat} {l : List Nat} (h : Falling f l) (ha : ∀ b ∈ l, b < a) : Falling f (insertBy f a l) := by
  induction l with
  | nil => exact List.pairwise_singleton ..
  | cons b r ih =>
    obtain ⟨hb, hr⟩ := List.pairwise_cons.mp h
    obtain ⟨hba, hra⟩ := List.forall_mem_cons.mp ha
    simp only [Machine.insertBy]
    split
    · rename_i hlt
      refine List.pairwise_cons.mpr ⟨fun x hx => ?_, h⟩
      rcases List.mem_cons.mp hx with rfl | hx
      · exact .inl hlt
      · rcases hb x hx with h1 | ⟨h1, -⟩
        · exact .inl (h1.trans hlt)
        · exact .inl (h1 ▸ hlt)
    · rename_i hge
      refine List.pairwise_cons.mpr ⟨fun x hx => ?_, ih hr hra⟩
      rcases List.mem_cons.mp ((insertBy_perm f a r).mem_iff.mp hx) with rfl | hx
      · omega
      · exact hb x hx

theorem falling_foldl_insertBy {f : Nat → Nat} {l acc : List Nat} (hl : l.Pairwise (· < ·)) (hacc : Falling f acc) (h : ∀ a ∈ l, ∀ b ∈ acc, b < a) :
    Falling f (l.foldl (fun acc a => Machine.insertBy f a acc) acc) := by
  induction l generalizing acc with
  | nil => exact hacc
  | cons a r ih =>
    obtain ⟨har, hr⟩ := List.pairwise_cons.mp hl
    refine ih hr (hacc.insertBy (h a (.head _))) fun c hc b hb => ?_
    rcases List.mem_cons.mp ((insertBy_perm f a acc).mem_iff.mp hb) with rfl | hb
    · exact har c hc
    · exact h c (.tail _ hc) b hb

theorem falling_sortBy (f : Nat → Nat) {l : List Nat} (hl : l.Pairwise (· < ·)) : Falling f (sortBy f l) :=
  falling_foldl_insertBy hl .nil (by simp)

/-- A list in falling order is determined by its members. -/
theorem Falling.ext {f : Nat → Nat} {u v : List Nat} (hu : Falling f u) (hv : Falling f v) (h : ∀ a, a ∈ u ↔ a ∈ v) : u = v := by
  have hnodup : ∀ {w}, Falling f w → w.Nodup := fun hw => hw.imp fun hab => by rintro rfl; omega
  refine List.Perm.eq_of_pairwise (fun a b _ _ hab hba => ?_) hu hv ((List.perm_ext_iff_of_nodup (hnodup hu) (hnodup hv)).mpr h)
  omega

/-- A list in falling order is the sorted selection of its members. -/
theorem sortBy_filter_range {f : Nat → Nat} {p : Nat → Bool} {n : Nat} {u : List Nat} (hu : Falling f u) (h : ∀ a, a ∈ u ↔ a < n ∧ p a = true) :
    sortBy f ((List.range n).filter p) = u :=
  (falling_sortBy f (List.pairwise_lt_range.filter p)).ext hu fun a => by
    rw [(sortBy_perm _ _).mem_iff, List.mem_filter, List.mem_range, h]

/-- The cores of cluster `c` of die `d` that a test admits, in ascending order. -/
def admitted (ok : Nat → Bool) (m d c : Nat) : List Nat := (clusterCores ((m * 16 + d) * 32 + c)).filter ok

theorem coreCount_eq_sum (cls : List (List Nat)) : coreCount cls = (cls.map List.length).sum := by
  have hfold : ∀ n, cls.foldl (fun n c => n + c.length) n = n + (cls.map List.length).sum := by
    induction cls with
    | nil => simp
    | cons c r ih => intro n; rw [List.foldl_cons, ih, List.map_cons, List.sum_cons, Nat.add_assoc]
  rw [coreCount, hfold, Nat.zero_add]

/-- The clusters of a die that can take part, in ascending order. -/
def openClusters (l : Latched) (ok : Nat → Bool) (m d : Nat) : List Nat :=
  (List.range 23).filter fun c => bit (l.word 6) (16 + c) && !(admitted ok m d c).isEmpty

theorem coresOn_eq (l : Latched) (ok : Nat → Bool) (m d : Nat) : l.coresOn ok m d = (openClusters l ok m d).map (admitted ok m d) := by
  rw [Latched.coresOn, List.filter_map, List.filter_filter, openClusters]
  refine congrArg _ (List.filter_congr fun c _ => Bool.and_comm ..)

section
variable {l : Latched} {ok : Nat → Bool} {m d : Nat} {cls : List Nat}
  (hcls : ∀ c, c ∈ cls ↔ c < 23 ∧ (l.rec_.getD 6 0).getLsbD (16 + c) = true ∧ admitted ok m d c ≠ [])
  (hfall : Falling (fun c => (admitted ok m d c).length) cls)
include hcls hfall

theorem sortBy_openClusters : sortBy (fun c => (admitted ok m d c).length) (openClusters l ok m d) = cls :=
  sortBy_filter_range hfall fun c => by simp [hcls, Latched.word, bit_toNat]

theorem sortBy_coresOn : sortBy (fun c => c.length) (l.coresOn ok m d) = cls.map (admitted ok m d) := by
  rw [coresOn_eq, sortBy_map, sortBy_openClusters hcls hfall]

theorem coresOn_perm : (l.coresOn ok m d).Perm (cls.map (admitted ok m d)) := by
  rw [← sortBy_coresOn hcls hfall]
  exact (sortBy_perm _ _).symm

theorem coreCount_coresOn : coreCount (l.coresOn ok m d) = (cls.map fun c => (admitted ok m d c).length).sum := by
  rw [coreCount_eq_sum, ((coresOn_perm hcls hfall).map _).sum_eq, List.map_map]
  rfl

theorem coresOn_isEmpty : (l.coresOn ok m d).isEmpty = true ↔ cls = [] := by
  rw [List.isEmpty_iff, ← List.length_eq_zero_iff, (coresOn_perm hcls hfall).length_eq, List.length_map, List.length_eq_zero_iff]
end

/-- The dies that take part, of those in falling order of their numbers of cores: the first if it can take the launch alone, else all. -/
def chosenDies (cores : Nat) (number : Nat → Nat) : List Nat → List Nat
  | [] => []
  | d :: r => if cores ≤ number d then [d] else d :: r

theorem choose_eq (l : Latched) (ok : Nat → Bool) (m : Nat) (dies : List Nat) (cls : Nat → List Nat) (number : Nat → Nat)
    (hnumber : number = fun d => ((cls d).map fun c => (admitted ok m d c).length).sum)
    (hdies : ∀ d, d ∈ dies ↔ d < 16 ∧ (l.rec_.getD 6 0).getLsbD d = true ∧ cls d ≠ []) (hfall : Falling number dies)
    (hcls : ∀ d c, c ∈ cls d ↔ c < 23 ∧ (l.rec_.getD 6 0).getLsbD (16 + c) = true ∧ admitted ok m d c ≠ [])
    (hcfall : ∀ d, Falling (fun c => (admitted ok m d c).length) (cls d)) :
    let order := (chosenDies l.cores number dies).flatMap fun d => (cls d).flatMap (admitted ok m d)
    l.choose ok m = if order.length < l.cores then none else some (order.take l.cores) := by
  have hcount : ∀ d, coreCount (l.coresOn ok m d) = number d := fun d => hnumber ▸ coreCount_coresOn (hcls d) (hcfall d)
  have hempty : ∀ d, (l.coresOn ok m d).isEmpty = (cls d).isEmpty := fun d => by
    rw [Bool.eq_iff_iff, coresOn_isEmpty (hcls d) (hcfall d), List.isEmpty_iff]
  have hby : sortBy (fun d => coreCount d) ((((List.range 16).filter fun d => bit (l.word 6) d).map (l.coresOn ok m)).filter fun d => !d.isEmpty) =
      dies.map (l.coresOn ok m) := by
    rw [List.filter_map, List.filter_filter, sortBy_map, funext hcount]
    refine congrArg _ (sortBy_filter_range hfall fun d => ?_)
    simp [hdies, hempty, Latched.word, bit_toNat, and_comm]
  have hplace : ∀ d, (sortBy (fun c => c.length) (l.coresOn ok m d)).flatMap id = (cls d).flatMap (admitted ok m d) := fun d => by
    rw [sortBy_coresOn (hcls d) (hcfall d), List.flatMap_map]
    rfl
  simp only [Latched.choose, hby]
  cases dies with
  | nil => rfl
  | cons d r =>
    by_cases hd : l.cores ≤ number d
    · simp only [List.map_cons, hcount, chosenDies, if_pos hd, List.flatMap_cons, List.flatMap_nil, hplace]
    · simp only [List.map_cons, hcount, chosenDies, if_neg hd, List.flatMap_cons, List.flatMap_map, hplace]

/-! Room on a core (04 R96): it depends on the occupancy of the slots and on the windows alone. -/

/-- What placement sees of a thread: whether its slot is free, its base and its window. -/
def occupancy (t : Thread) : Bool × Nat × Nat := (t.st == .free, t.base, t.win)

/-- What placement sees of a core. -/
def occupied (c : Core) : Tab (Bool × Nat × Nat) := c.slots.map fun p => (p.1, occupancy p.2)

/-- A read of a table with a function applied to its values. -/
theorem get_map_snd {α β : Type} (f : α → β) (d : α) (t : Tab α) (k : Nat) : Tab.get (f d) (t.map fun p => (p.1, f p.2)) k = f (Tab.get d t k) := by
  induction t with
  | nil => rfl
  | cons p r ih =>
    simp only [List.map_cons, Tab.get, ih]
    split <;> rfl

/-- A write of a table with a function applied to its values. -/
theorem set_map_snd {α β : Type} (f : α → β) (t : Tab α) (k : Nat) (v : α) :
    (Tab.set t k v).map (fun p => (p.1, f p.2)) = Tab.set (t.map fun p => (p.1, f p.2)) k (f v) := by
  induction t with
  | nil => rfl
  | cons p r ih =>
    simp only [List.map_cons, Tab.set]
    split
    · rfl
    · rw [List.map_cons, ih]

/-- What a table gives, if not the default, it lists. -/
theorem mem_of_get_ne {α : Type} {d : α} {t : Tab α} {k : Nat} (h : Tab.get d t k ≠ d) : (k, Tab.get d t k) ∈ t := by
  induction t with
  | nil => exact absurd rfl h
  | cons p r ih =>
    obtain ⟨j, v⟩ := p
    simp only [Tab.get] at h ⊢
    split at h
    · rename_i hj; simp [hj]
    · rename_i hj; simp only [if_neg hj]; exact .tail _ (ih h)

theorem freeSlots_eq (c : Core) : c.freeSlots = (List.range 256).filter fun k => (Tab.get (occupancy Thread.fresh) (occupied c) k).1 := by
  simp only [Core.freeSlots, occupied, get_map_snd]; rfl

theorem runs_eq (c : Core) : c.runs = ((occupied c).filter fun p => !p.2.1).map fun p => (p.2.2.1 / 8, p.2.2.2 / 8) := by
  simp only [Core.runs, occupied, List.filter_map, List.map_map]; rfl

theorem room_congr {c c' : Core} (h : occupied c = occupied c') (spare win : Nat) : c.room spare win = c'.room spare win := by
  simp only [Core.room, freeSlots_eq, runs_eq, h]

theorem occupied_set (c : Core) (k : Nat) (t : Thread) : occupied { c with slots := Tab.set c.slots k t } = Tab.set (occupied c) k (occupancy t) :=
  set_map_snd occupancy c.slots k t

theorem fits_congr {c c' : Core} (h : occupied c = occupied c') (win n : Nat) : c.fits win n = c'.fits win n := by
  induction n generalizing c c' with
  | zero => rfl
  | succ n ih =>
    simp only [Core.fits, room_congr h]
    cases c'.room 4 win with
    | none => rfl
    | some p => exact ih (by rw [occupied_set, occupied_set, h])

/-- What a core has room for (04 R96): a free slot and a run of granules that meets no window of a thread. -/
theorem room_spec {c : Core} {spare win slot base : Nat} (h : c.room spare win = some (slot, base)) :
    (c.slot slot).st = .free ∧ base % 8 = 0 ∧
      ∀ k, (c.slot k).st ≠ .free → base / 8 + win / 8 ≤ (c.slot k).base / 8 ∨ (c.slot k).base / 8 + (c.slot k).win / 8 ≤ base / 8 := by
  simp only [Core.room] at h
  split at h
  · cases h
  · rename_i k r hfree
    split at h
    · cases h
    · obtain ⟨g, hg, heq⟩ := Option.map_eq_some_iff.mp h
      obtain ⟨rfl, rfl⟩ := Prod.mk.inj heq
      have hk : k ∈ c.freeSlots := hfree ▸ List.mem_cons_self ..
      refine ⟨by simpa using (List.mem_filter.mp hk).2, Nat.mul_mod_right 8 g, fun j hj => ?_⟩
      have hmem : (j, c.slot j) ∈ c.slots := mem_of_get_ne fun heq => hj (by rw [Core.slot, heq]; rfl)
      have hrun : ((c.slot j).base / 8, (c.slot j).win / 8) ∈ c.runs :=
        List.mem_map.mpr ⟨(j, c.slot j), List.mem_filter.mpr ⟨hmem, by simpa using hj⟩, rfl⟩
      unfold firstRun at hg
      have hall := List.find?_some hg
      have hclear := List.all_eq_true.mp hall _ hrun
      simpa [Nat.mul_div_cancel_left g (show 0 < 8 by decide)] using hclear

/-! Starting a task in a slot. -/

theorem setRegs_thread (s : State) (cid slot : Nat) (vs : List Word) (k c j : Nat) : (s.setRegs cid slot vs k).thread c j = s.thread c j := by
  induction vs generalizing s k with
  | nil => rfl
  | cons v r ih => rw [State.setRegs, ih, State.thread_setGOf]

theorem setRegs_mem (s : State) (cid slot : Nat) (vs : List Word) (k : Nat) : (s.setRegs cid slot vs k).mem = s.mem := by
  induction vs generalizing s k with
  | nil => rfl
  | cons v r ih => rw [State.setRegs, ih, State.setGOf_mem]

theorem setRegs_slots (s : State) (cid slot : Nat) (vs : List Word) (k : Nat) : ((s.setRegs cid slot vs k).core cid).slots = (s.core cid).slots := by
  induction vs generalizing s k with
  | nil => rfl
  | cons v r ih => rw [State.setRegs, ih, State.setGOf, State.core_onCore_same]

/-- The register file of a core after consecutive registers of a window are written. -/
theorem setRegs_rf (s : State) (cid slot : Nat) (vs : List Word) (k n : Nat) : let b := (s.thread cid slot).base + k
    Tab.get 0 ((s.setRegs cid slot vs k).core cid).rf n = if b ≤ n ∧ n < b + vs.length then vs.getD (n - b) 0 else Tab.get 0 (s.core cid).rf n := by
  induction vs generalizing s k with
  | nil => simp [State.setRegs]
  | cons v r ih =>
    simp only [State.setRegs, ih, State.thread_setGOf, State.rf_setGOf, Tab.get_set, List.length_cons]
    rw [← Nat.add_assoc]
    generalize (s.thread cid slot).base + k = b
    rcases Nat.lt_trichotomy n b with hlt | rfl | hgt
    · rw [if_neg (by omega), if_neg (by omega), if_neg (by omega)]
    · simp
    · obtain ⟨d, rfl⟩ := Nat.exists_eq_add_of_lt hgt
      by_cases hd : d < r.length
      · rw [if_pos (by omega), if_pos (by omega), show b + d + 1 - (b + 1) = d by omega, show b + d + 1 - b = d + 1 by omega, List.getD_cons_succ]
      · rw [if_neg (by omega), if_neg (by omega), if_neg (by omega)]

section
variable (s : State) (cid slot base : Nat) (t : Thread) (regs : List Word)

theorem startTask_mem : (s.startTask cid slot base t regs).mem = s.mem := by
  rw [State.startTask, State.putThread, setRegs_mem]; rfl

theorem startTask_thread (k : Nat) :
    (s.startTask cid slot base t regs).thread cid k = if k = slot then { t with uid := s.uids + 1, base := base } else s.thread cid k := by
  rw [State.startTask, State.putThread, setRegs_thread, State.thread_onThread, State.holdCore]
  simp only [true_and]
  split
  · rfl
  · simp only [State.thread, State.core_onCore_same]; rfl

theorem startTask_slots : ((s.startTask cid slot base t regs).core cid).slots = Tab.set (s.core cid).slots slot { t with uid := s.uids + 1, base := base } := by
  rw [State.startTask, State.putThread, setRegs_slots, State.core_onThread, if_pos rfl]
  simp only [State.holdCore, State.core_onCore_same]; rfl

/-- The register file of a core after a task is started: its window holds the given registers, then zeros (06 R133). -/
theorem startTask_rf (n : Nat) : Tab.get 0 ((s.startTask cid slot base t regs).core cid).rf n =
    if base ≤ n ∧ n < base + t.win then (regs ++ List.replicate t.win 0).getD (n - base) 0 else Tab.get 0 (s.core cid).rf n := by
  have hlen : ((regs ++ List.replicate t.win 0).take t.win).length = t.win := by simp
  rw [State.startTask, State.putThread, setRegs_rf, State.thread_onThread_same, State.rf_onThread, hlen]
  simp only [State.holdCore, State.core_onCore_same, Nat.add_zero]
  split
  · rw [List.getD_eq_getElem?_getD, List.getD_eq_getElem?_getD, List.getElem?_take_of_lt (by omega)]
  · rfl
end

/-! The root threads of a core (01 R16, 04 R96). -/

/-- The start of root `i` of a core, as `State.startRoots` makes it. -/
def startRoot (cid c : Nat) (l : Latched) (id : Nat) (s : State) (i : Nat) : State :=
  match (s.core cid).room 4 l.win with
  | none => s
  | some (slot, base) =>
    s.startTask cid slot base (newTask l.dom (some (cidModule cid, id)) (bit (l.word 4) 25) (l.word 0) l.desc.toNat l.win)
      [l.rec_.getD 1 0, BitVec.ofNat 64 (c * l.threads + i), BitVec.ofNat 64 (l.cores * l.threads)]

theorem startRoots_eq (s : State) (cid c : Nat) (l : Latched) (id : Nat) :
    s.startRoots cid c l id = (List.range' 0 l.threads).foldl (startRoot cid c l id) s := by
  rw [← List.range_eq_range']; rfl

/-- Slot `k` of a core holds root `i` of a launch. -/
structure IsRoot (t : State) (cid c : Nat) (l : Latched) (id i k : Nat) : Prop where
  st : (t.thread cid k).st = .ready
  win : (t.thread cid k).win = l.win
  dom : (t.thread cid k).dom = l.dom
  launch : (t.thread cid k).launch = some (cidModule cid, id)
  pc : (t.thread cid k).pc = descPc (l.word 0) l.desc.toNat
  tsw : (t.thread cid k).tsw = descTsw l.desc.toNat
  preds : (t.thread cid k).preds = List.replicate 8 0
  fds : (t.thread cid k).fds = List.replicate 15 0
  regs : ∀ j < l.win, t.gOf cid k j =
    if j = 0 then l.rec_.getD 1 0 else if j = 1 then BitVec.ofNat 64 (c * l.threads + i) else if j = 2 then BitVec.ofNat 64 (l.cores * l.threads) else 0
  aligned : (t.thread cid k).base % 8 = 0

/-- The thread of a slot and the registers of its window are in `t` as they are in `s`. -/
def Stays (s t : State) (cid k : Nat) : Prop :=
  t.thread cid k = s.thread cid k ∧ ∀ j < (s.thread cid k).win, t.gOf cid k j = s.gOf cid k j

theorem IsRoot.stays {s t : State} {cid c : Nat} {l : Latched} {id i k : Nat} (h : IsRoot s cid c l id i k) (hs : Stays s t cid k) :
    IsRoot t cid c l id i k := by
  obtain ⟨hth, hregs⟩ := hs
  rw [h.win] at hregs
  exact {
    st := hth ▸ h.st
    win := hth ▸ h.win
    dom := hth ▸ h.dom
    launch := hth ▸ h.launch
    pc := hth ▸ h.pc
    tsw := hth ▸ h.tsw
    preds := hth ▸ h.preds
    fds := hth ▸ h.fds
    regs := fun j hj => (hregs j hj).trans (h.regs j hj)
    aligned := hth ▸ h.aligned }

section
variable {s : State} {cid c id i : Nat} {l : Latched} {slot base : Nat} (hroom : (s.core cid).room 4 l.win = some (slot, base)) (hwin : l.win % 8 = 0)
include hroom

theorem startRoot_eq : startRoot cid c l id s i =
    s.startTask cid slot base (newTask l.dom (some (cidModule cid, id)) (bit (l.word 4) 25) (l.word 0) l.desc.toNat l.win)
      [l.rec_.getD 1 0, BitVec.ofNat 64 (c * l.threads + i), BitVec.ofNat 64 (l.cores * l.threads)] := by
  rw [startRoot, hroom]

theorem startRoot_isRoot : IsRoot (startRoot cid c l id s i) cid c l id i slot := by
  obtain ⟨-, haligned, -⟩ := room_spec hroom
  rw [startRoot_eq hroom]
  constructor
  case regs =>
    intro j hj
    rw [State.gOf, startTask_thread, if_pos rfl, startTask_rf, if_pos ⟨Nat.le_add_right .., Nat.add_lt_add_left hj _⟩, Nat.add_sub_cancel_left]
    match j with
    | 0 => rfl
    | 1 => rfl
    | 2 => rfl
    | j + 3 => simp
  all_goals rw [startTask_thread, if_pos rfl]
  case aligned => exact haligned
  all_goals rfl

include hwin in
theorem startRoot_stays {k : Nat} (hk : (s.thread cid k).st ≠ .free) (hbase : (s.thread cid k).base % 8 = 0) (hw : (s.thread cid k).win % 8 = 0) :
    Stays s (startRoot cid c l id s i) cid k := by
  obtain ⟨hfree, haligned, hclear⟩ := room_spec hroom
  have hne : k ≠ slot := fun h => hk (h ▸ hfree)
  have hth : (startRoot cid c l id s i).thread cid k = s.thread cid k := by rw [startRoot_eq hroom, startTask_thread, if_neg hne]
  refine ⟨hth, fun j hj => ?_⟩
  have hapart : base + l.win ≤ (s.thread cid k).base ∨ (s.thread cid k).base + (s.thread cid k).win ≤ base := by
    have : base / 8 + l.win / 8 ≤ (s.thread cid k).base / 8 ∨ (s.thread cid k).base / 8 + (s.thread cid k).win / 8 ≤ base / 8 := hclear k hk
    omega
  rw [State.gOf, hth, startRoot_eq hroom, startTask_rf, if_neg, State.gOf]
  rintro ⟨h1, h2⟩
  have h2 : (s.thread cid k).base + j < base + l.win := h2
  omega

theorem startRoot_mem : (startRoot cid c l id s i).mem = s.mem := by rw [startRoot_eq hroom, startTask_mem]

theorem startRoot_fits (n : Nat) (h : (s.core cid).fits l.win (n + 1) = true) : ((startRoot cid c l id s i).core cid).fits l.win n = true := by
  simp only [Core.fits, hroom] at h
  rw [← h]
  refine fits_congr ?_ _ _
  rw [occupied_set, startRoot_eq hroom, occupied, startTask_slots, set_map_snd]
  rfl

theorem startRoot_free {k : Nat} (h : ((startRoot cid c l id s i).thread cid k).st = .free) : (s.thread cid k).st = .free := by
  by_cases hk : k = slot
  · exact hk ▸ (room_spec hroom).1
  · rwa [startRoot_eq hroom, startTask_thread, if_neg hk] at h
end

/-- The roots that a core has room for start one after another, and the threads that are there stay. -/
theorem foldl_startRoot {s : State} {cid c id : Nat} {l : Latched} (hwin : l.win % 8 = 0) (a n : Nat) (hfits : (s.core cid).fits l.win n = true) :
    let t := (List.range' a n).foldl (startRoot cid c l id) s
    t.mem = s.mem ∧
    (∀ k, (s.thread cid k).st ≠ .free → (s.thread cid k).base % 8 = 0 → (s.thread cid k).win % 8 = 0 → Stays s t cid k) ∧
    ∀ i, a ≤ i → i < a + n → ∃ k, (s.thread cid k).st = .free ∧ IsRoot t cid c l id i k := by
  induction n generalizing a s with
  | zero => exact ⟨rfl, fun k _ _ _ => ⟨rfl, fun _ _ => rfl⟩, fun i h1 h2 => absurd h2 (by omega)⟩
  | succ n ih =>
    obtain ⟨slot, base, hroom⟩ : ∃ slot base, (s.core cid).room 4 l.win = some (slot, base) := by
      cases hr : (s.core cid).room 4 l.win with
      | none => simp [Core.fits, hr] at hfits
      | some p => exact ⟨p.1, p.2, rfl⟩
    have hroot : IsRoot (startRoot cid c l id s a) cid c l id a slot := startRoot_isRoot hroom
    obtain ⟨hmem, hstay, hroots⟩ := ih (a + 1) (startRoot_fits (c := c) (id := id) (i := a) hroom n hfits)
    rw [List.range'_succ, List.foldl_cons]
    refine ⟨hmem.trans (startRoot_mem hroom), fun k hk hb hw => ?_, fun i hai hi => ?_⟩
    · obtain ⟨hth, hregs⟩ := startRoot_stays (c := c) (id := id) (i := a) hroom hwin hk hb hw
      obtain ⟨hth', hregs'⟩ := hstay k (by rwa [hth]) (by rwa [hth]) (by rwa [hth])
      exact ⟨hth'.trans hth, fun j hj => (hregs' j (by rwa [hth])).trans (hregs j hj)⟩
    · rcases Nat.eq_or_lt_of_le hai with rfl | hlt
      · refine ⟨slot, (room_spec hroom).1, hroot.stays (hstay slot ?_ hroot.aligned ?_)⟩
        · rw [hroot.st]; decide
        · rw [hroot.win]; exact hwin
      · obtain ⟨k, hfree, hk⟩ := hroots i hlt (by omega)
        exact ⟨k, startRoot_free hroom hfree, hk⟩

/-! The obligation, from one lemma for each of its parts. -/

theorem startRoots_spec {s : State} {cid c id : Nat} {l : Latched} (hwin : l.win % 8 = 0) (hfits : (s.core cid).fits l.win l.threads = true) {i : Nat}
    (hi : i < l.threads) : ∃ k, (s.thread cid k).st = .free ∧ IsRoot (s.startRoots cid c l id) cid c l id i k ∧ (s.startRoots cid c l id).mem = s.mem := by
  obtain ⟨hmem, -, hroots⟩ := foldl_startRoot (c := c) (id := id) hwin 0 l.threads hfits
  rw [← startRoots_eq] at hmem hroots
  obtain ⟨k, hfree, hroot⟩ := hroots i (Nat.zero_le i) (by omega)
  exact ⟨k, hfree, hroot, hmem⟩

/-- Settles O46: each read, refusal, selection and placement by the lemma on the function that answers it. -/
theorem launchChecksSelectionAndPlacement : Obligations.LaunchChecksSelectionAndPlacement := by
  intro m q c cid id s x y reads num flag
  refine ⟨?reserved, ?queue, ?status, ?args, ?turnedAway, ?putWindow, ?refusal, ?select, ?feasible, ?place, ?roots⟩
  case reserved => exact fun off h => controlRead_of_registerRead (registerRead_reserved x h)
  case queue =>
    intro hq r
    have hreg : ∀ k < 4, x.registerRead (r + 8 * k) = y.registerRead k := fun k hk => registerRead_queue x hq hk
    obtain ⟨h0, h1, h2, h3⟩ := queue_registerRead y
    exact ⟨controlRead_of_registerRead ((hreg 0 (by decide)).trans h0), controlRead_of_registerRead ((hreg 1 (by decide)).trans h1),
      controlRead_of_registerRead ((hreg 2 (by decide)).trans h2), controlRead_of_registerRead ((hreg 3 (by decide)).trans h3)⟩
  case status => exact controlRead_of_registerRead ((registerRead_mailbox x (k := 8) (by decide)).trans (mailboxRead_status x))
  case args =>
    intro k hk
    refine controlRead_of_registerRead ?_
    rw [Nat.add_assoc 0x2000 0x10, registerRead_mailbox x (by omega), mailboxRead_arg x hk]
  case turnedAway => exact fun n st h => hostReads_turnedAway h q n
  case putWindow => exact fun off h => ⟨putWindowRead_beyond h, fun a hoff ha => putWindowRead_within h hoff ha⟩
  case refusal =>
    intro d tag ws desc table
    obtain ⟨bs, heq, hrows⟩ := recordRefusal_decides d tag ws desc table
    refine ⟨fun hnone => heq.trans (find_none_of_decides hrows hnone), fun before r after hsplit hr hb => ?_⟩
    have hrules : recordRules d tag ws desc table = before ++ r :: after := hsplit
    exact heq.trans (find_first_of_decides (hrules ▸ hrows) hr hb)
  case select =>
    intro held level streak
    refine ⟨selectLatch_eq_none_iff s m, fun q l h lv hheld hl hh hmax hlv hnext => ?_, fun lv ls => ⟨lastL_dispatched x q lv ls, fun k hk => streak_dispatched x q lv ls hk⟩⟩
    simp only [level, ← prio_eq] at hl hh hmax hlv hnext
    exact selectLatch_eq_some hheld hl hh hmax hlv hnext.1 hnext.2
  case feasible => exact fun l => feasible_iff s cid l
  case place => exact fun l ok dies cls hdies hfall hcls hcfall => choose_eq l ok m dies cls _ rfl hdies hfall hcls hcfall
  case roots =>
    intro l hwin hfits i hi
    obtain ⟨k, hfree, hroot, hmem⟩ := startRoots_spec (c := c) (id := id) hwin hfits hi
    exact ⟨k, hfree, hroot.st, hroot.win, hroot.dom, hroot.launch, hroot.pc, hroot.tsw, hroot.preds, hroot.fds, hmem, hroot.regs⟩

end Sys2Proof.LaunchProofs
end

section
/-!
PROOFS. O52: the clause about the quantiser speaks of every `TileJob`, also of one whose destination record holds another format than F. The
scales of such a tile go where the record's format says and not where F says, so the clause fails. It lacks the premise that the record's FORMAT
is F: QTILE itself refuses any other record before it quantises (10 R249 step 3, `recFormat_of_tileRecords`).
-/
namespace Sys2Proof.QuantiserProofs
open Sys2Proof Sys2Proof.Machine

/-- F of the counterexample: codes of two bits with the values 0, 1, -0 and -1, in blocks of 16 with e8m0 scales (02 R33). -/
def signedUnits : Nat := 0x01400012

/-- A tile of two rows and one column under F, whose destination record has FORMAT 0 and so no blocks (01 R18, R19). -/
def mixedTile : TileJob := ⟨0, 1, ⟨4, 0, 0, 0, 0, signedUnits, false, false⟩, [], [0, BitVec.ofNat 64 (1 * 2 ^ 16 + 2)], 0, 2, 0, 1⟩

/-- QTILE quantises only a tile whose destination record holds F (10 R249 step 3), so `mixedTile` is none that it makes. -/
theorem recFormat_of_tileRecords {s : State} {cid dom : Nat} {q : QuantAsk} {j : TileJob} (h : s.tileRecords cid dom q = .ok j) : recFormat j.dst = j.q.fmt := by
  unfold State.tileRecords at h
  cases hsrc : s.tileRecord cid dom q.src.toNat false with
  | error e => rw [hsrc] at h; cases h
  | ok src =>
    rw [hsrc] at h
    change (if _ then _ else _) = _ at h
    split at h
    · cases h
    · cases hdst : s.tileRecord cid dom q.dst.toNat q.brole with
      | error e => rw [hdst] at h; cases h
      | ok dst =>
        rw [hdst] at h
        change (if _ then _ else _) = _ at h
        split at h
        · cases h
        · next hagree =>
          change (if _ then _ else _) = _ at h
          split at h
          · cases h
          · cases h
            simp only [Bool.or_eq_true, decide_eq_true_eq, not_or, not_not] at hagree
            obtain ⟨⟨⟨⟨⟨⟨-, hformat⟩, -⟩, -⟩, -⟩, -⟩, -⟩ := hagree
            exact hformat

/-- Under F the rows are two blocks with scales of their own; the record's format gives both the index 0. -/
theorem scales_mixedTile : ((quantise mixedTile [(0, 0, .zero false), (1, 0, .zero false)] 0 false fun _ => 0).map TileResult.scales) = some [(0, 127), (0, 127)] := by
  decide

theorem signedUnits_values : ∀ c < 4, (narrowOf signedUnits).decode c ∈ [FV.zero false, .fin false 1 0, .zero true, .fin true 1 0] := by decide

theorem rat_signedUnits_le {c : Nat} (hc : c < 4) : ((narrowOf signedUnits).decode c).rat ≤ 1 := by
  have hval := signedUnits_values c hc
  simp only [List.mem_cons, List.not_mem_nil, or_false] at hval
  rcases hval with h | h | h | h <;> rw [h] <;> norm_num [FV.rat]

theorem signedUnits_reaches_one : ∃ c < 4, ((narrowOf signedUnits).decode c).finite = true ∧ ((narrowOf signedUnits).decode c).neg = false ∧
    ((narrowOf signedUnits).decode c).rat = 1 := by
  have hone : (narrowOf signedUnits).decode 1 = .fin false 1 0 := by decide
  exact ⟨1, by decide, by rw [hone]; rfl, by rw [hone]; rfl, by rw [hone]; norm_num [FV.rat]⟩

/-- Refutes O52: the two blocks of `mixedTile`, whose destination record does not hold F, are given one scale index, where the statement has an
index for each. -/
theorem not_acceptanceAndQuantiser : ¬ Obligations.AcceptanceAndQuantiser := by
  unfold Obligations.AcceptanceAndQuantiser
  rintro ⟨-, -, -, -, -, hquantiser⟩
  obtain ⟨-, hsome⟩ := hquantiser mixedTile (fun _ _ => .zero false) 0 false (fun _ => 0) 1 (by decide) (by decide) (by decide) (by decide) (by decide)
    (by decide) (by decide) (by decide) (fun _ _ => ⟨by simp, fun _ _ => by simp⟩) signedUnits_reaches_one (fun _ hc _ => rat_signedUnits_le hc) one_pos
  obtain ⟨t, keep, ex, hr, -, -, -, -, -, -, -, hnodup, -⟩ := hsome (.inl (by decide))
  have hscales : t.scales = [(0, 127), (0, 127)] :=
    (Option.some.inj (scales_mixedTile.symm.trans (congrArg (Option.map TileResult.scales) hr))).symm
  rw [hscales] at hnodup
  exact absurd hnodup (by decide)

end Sys2Proof.QuantiserProofs
end

section
/-!
PROOFS. What a copy makes of its elements (01 R22 to R24; 09 R215, R216): indices and offsets, the items of a chunk as ranges that follow one
another, the accesses in the submitting core's own memory, the value of an element for each form, and a chunk's accesses in turn; then the
obligation O50.
-/
namespace Sys2Proof.CopyProofs
open Sys2Proof Sys2Proof.Machine

/-! Indices and offsets (01 R23). -/

theorem length_indicesOf (dims : List (Nat × Int × Int)) (n : Nat) : (indicesOf dims n).length = dims.length := by
  induction dims generalizing n with
  | nil => rfl
  | cons d r ih => simp [indicesOf, ih]

theorem getD_indicesOf (dims : List (Nat × Int × Int)) (n k : Nat) (hk : k < dims.length) :
    (indicesOf dims n).getD k 0 = n / ((dims.take k).map fun d => d.1).prod % (dims.getD k (0, 0, 0)).1 := by
  induction dims generalizing n k with
  | nil => simp at hk
  | cons d r ih =>
    cases k with
    | zero => simp [indicesOf]
    | succ k =>
      have hr := ih (n / d.1) k (by simpa using hk)
      simpa [indicesOf, Nat.div_div_eq_div_mul] using hr

/-- A sum over two lists side by side, by position. -/
theorem foldl_zip_eq_sum {α : Type} (g : α → Int) (d : α) (l : List α) (ix : List Nat) (hlen : ix.length = l.length) :
    (l.zip ix).foldl (fun v p => v + g p.1 * (p.2 : Int)) 0 = ((List.range l.length).map fun k => g (l.getD k d) * (ix.getD k 0 : Int)).sum := by
  have hfold : ∀ (z : List (α × Nat)) (a : Int), z.foldl (fun v p => v + g p.1 * (p.2 : Int)) a = a + (z.map fun p => g p.1 * (p.2 : Int)).sum := by
    intro z
    induction z with
    | nil => simp
    | cons p z ih => intro a; simp [ih, add_assoc]
  rw [hfold, zero_add]
  congr 1
  refine List.ext_getElem (by simp [hlen]) fun k hk _ => ?_
  have hl : k < l.length := by simp [hlen] at hk; exact hk
  simp [List.getD_eq_getElem?_getD, hl, hlen]

theorem srcOffset_eq (dims : List (Nat × Int × Int)) (ix : List Nat) (hlen : ix.length = dims.length) :
    srcOffset dims ix = ((List.range dims.length).map fun k => (dims.getD k (0, 0, 0)).2.1 * (ix.getD k 0 : Int)).sum :=
  foldl_zip_eq_sum (fun d : Nat × Int × Int => d.2.1) _ dims ix hlen

theorem dstOffset_eq (dims : List (Nat × Int × Int)) (ix : List Nat) (hlen : ix.length = dims.length) :
    dstOffset dims ix = ((List.range dims.length).map fun k => (dims.getD k (0, 0, 0)).2.2 * (ix.getD k 0 : Int)).sum :=
  foldl_zip_eq_sum (fun d : Nat × Int × Int => d.2.2) _ dims ix hlen

theorem streamLength_eq (es : Nat) (dims : List (Nat × Int × Int)) : streamLength es dims = es * (dims.map fun d => d.1).prod := by
  unfold streamLength
  induction dims generalizing es with
  | nil => simp
  | cons d r ih => simp [ih, mul_assoc]

/-! Byte ranges cut into parts. -/

/-- The ranges (start, length) of a list follow one another from `a` to `b`, none of them empty. -/
def Spans (a b : Nat) : List (Nat × Nat) → Prop
  | [] => a = b
  | (x, n) :: r => x = a ∧ 0 < n ∧ Spans (a + n) b r

theorem Spans.le {a b : Nat} {l : List (Nat × Nat)} (h : Spans a b l) : a ≤ b := by
  induction l generalizing a with
  | nil => exact Nat.le_of_eq h
  | cons p r ih =>
    obtain ⟨-, -, hr⟩ := h
    exact (Nat.le_add_right _ _).trans (ih hr)

theorem Spans.append {a b c : Nat} {l r : List (Nat × Nat)} (hl : Spans a b l) (hr : Spans b c r) : Spans a c (l ++ r) := by
  induction l generalizing a with
  | nil => exact (show a = b from hl) ▸ hr
  | cons p l ih =>
    obtain ⟨hx, hn, hl⟩ := hl
    exact ⟨hx, hn, ih hl⟩

/-- Each range of the list lies within the whole. -/
theorem Spans.mem {a b : Nat} {l : List (Nat × Nat)} (h : Spans a b l) {p : Nat × Nat} (hp : p ∈ l) : a ≤ p.1 ∧ 0 < p.2 ∧ p.1 + p.2 ≤ b := by
  induction l generalizing a with
  | nil => cases hp
  | cons q r ih =>
    obtain ⟨hx, hn, hr⟩ := h
    rcases List.mem_cons.mp hp with rfl | hp
    · exact ⟨hx.ge, hn, hx ▸ hr.le⟩
    · obtain ⟨ha, hpos, hb⟩ := ih hr hp
      exact ⟨by omega, hpos, hb⟩

/-- Each place of the whole lies in one range of the list. -/
theorem Spans.count {a b : Nat} {l : List (Nat × Nat)} (h : Spans a b l) (x : Nat) :
    (l.filter fun p => decide (p.1 ≤ x ∧ x < p.1 + p.2)).length = if a ≤ x ∧ x < b then 1 else 0 := by
  induction l generalizing a with
  | nil =>
    have hab : a = b := h
    simp only [List.filter_nil, List.length_nil]
    rw [if_neg (by omega)]
  | cons p r ih =>
    obtain ⟨hx, hn, hr⟩ := h
    have hle := hr.le
    rw [List.filter_cons]
    by_cases hin : p.1 ≤ x ∧ x < p.1 + p.2
    · rw [if_pos (by simpa using hin), List.length_cons, ih hr, if_neg (by omega), if_pos (by omega)]
    · rw [if_neg (by simpa using hin), ih hr]
      congr 1
      exact propext (by omega)

theorem Spans.shift {a b base to_ : Nat} {l : List (Nat × Nat)} (h : Spans a b l) (hb : base ≤ a) :
    Spans (to_ + (a - base)) (to_ + (b - base)) (l.map fun p => (to_ + (p.1 - base), p.2)) := by
  induction l generalizing a with
  | nil => exact congrArg (fun v => to_ + (v - base)) (show a = b from h)
  | cons p r ih =>
    obtain ⟨hx, hn, hr⟩ := h
    refine ⟨by rw [hx], hn, ?_⟩
    have hnext := ih hr (by omega)
    rwa [show to_ + (a + p.2 - base) = to_ + (a - base) + p.2 by omega] at hnext

/-- Part `k` of a range in words counted from its first. -/
def wordPart (va n k : Nat) : Option (Nat × Nat) :=
  if max va (va / 8 * 8 + 8 * k) < min (va + n) (va / 8 * 8 + 8 * k + 8) then
    some (max va (va / 8 * 8 + 8 * k), min (va + n) (va / 8 * 8 + 8 * k + 8) - max va (va / 8 * 8 + 8 * k)) else none

theorem wordParts_eq (va n : Nat) : wordParts va n = (List.range (n / 8 + 2)).filterMap (wordPart va n) := rfl

/-- The words from `j` on give the part of the range that lies in them. -/
theorem spans_wordPart (va n m j : Nat) : Spans (max va (min (va / 8 * 8 + 8 * j) (va + n))) (max va (min (va / 8 * 8 + 8 * (j + m)) (va + n)))
    ((List.range' j m).filterMap (wordPart va n)) := by
  induction m generalizing j with
  | zero => exact rfl
  | succ m ih =>
    have hnext := ih (j + 1)
    rw [show j + 1 + m = j + (m + 1) by omega] at hnext
    rw [List.range'_succ, List.filterMap_cons]
    by_cases hpart : max va (va / 8 * 8 + 8 * j) < min (va + n) (va / 8 * 8 + 8 * j + 8)
    · rw [show wordPart va n j = some (max va (va / 8 * 8 + 8 * j), min (va + n) (va / 8 * 8 + 8 * j + 8) - max va (va / 8 * 8 + 8 * j)) from if_pos hpart]
      refine ⟨by omega, by omega, ?_⟩
      rwa [show max va (min (va / 8 * 8 + 8 * j) (va + n)) + (min (va + n) (va / 8 * 8 + 8 * j + 8) - max va (va / 8 * 8 + 8 * j)) =
        max va (min (va / 8 * 8 + 8 * (j + 1)) (va + n)) by omega]
    · rw [show wordPart va n j = none from if_neg hpart]
      rwa [show max va (min (va / 8 * 8 + 8 * j) (va + n)) = max va (min (va / 8 * 8 + 8 * (j + 1)) (va + n)) by omega]

theorem spans_wordParts (va n : Nat) : Spans va (va + n) (wordParts va n) := by
  have h := spans_wordPart va n (n / 8 + 2) 0
  rw [wordParts_eq, List.range_eq_range']
  rwa [show max va (min (va / 8 * 8 + 8 * 0) (va + n)) = va by omega,
    show max va (min (va / 8 * 8 + 8 * (0 + (n / 8 + 2))) (va + n)) = va + n by omega] at h

/-- Each part of a range lies in one word (log entry 53). -/
theorem wordParts_within {va n : Nat} {p : Nat × Nat} (hp : p ∈ wordParts va n) : p.1 / 8 = (p.1 + p.2 - 1) / 8 := by
  rw [wordParts_eq, List.mem_filterMap] at hp
  obtain ⟨k, -, hk⟩ := hp
  unfold wordPart at hk
  split at hk
  · obtain rfl := Option.some.inj hk
    simp only
    omega
  · cases hk

/-! The items of a chunk (09 R215). -/

/-- The value that an item of a FILL has from the start (09 R216). -/
def filled (o : LadleOp) (lo len : Nat) : Option Nat := if o.form = 1 then some ((o.desc.getD 2 0).toNat / 256 ^ lo % 256 ^ len) else none

/-- Where the bytes of element `n` lie in chunk `c`: the first, and past the last. -/
def elementLo (o : LadleOp) (c n : Nat) : Nat := 4096 * c - n * o.esize
def elementHi (o : LadleOp) (c n : Nat) : Nat := min o.esize (min (4096 * c + 4096) o.length - n * o.esize)

theorem elementItems_eq (o : LadleOp) (c n : Nat) : o.elementItems c n =
    (wordParts (o.dstOf n + elementLo o c n) (elementHi o c n - elementLo o c n)).map fun p =>
      ⟨n * o.esize + (p.1 - o.dstOf n), n, p.1 - o.dstOf n, p.2, filled o (p.1 - o.dstOf n) p.2⟩ := rfl

/-- What an item of element `n` is: bytes of the element within one word of its destination. -/
theorem mem_elementItems {o : LadleOp} {c n : Nat} {x : CopyItem} (hx : x ∈ o.elementItems c n) :
    0 < x.len ∧ x.element = n ∧ x.at_ = n * o.esize + x.lo ∧ elementLo o c n ≤ x.lo ∧ x.lo + x.len ≤ elementHi o c n ∧
      (o.dstOf n + x.lo) / 8 = (o.dstOf n + x.lo + x.len - 1) / 8 ∧ x.got = filled o x.lo x.len := by
  rw [elementItems_eq, List.mem_map] at hx
  obtain ⟨p, hp, rfl⟩ := hx
  obtain ⟨hlo, hpos, hhi⟩ := (spans_wordParts _ _).mem hp
  have hbase : o.dstOf n + (p.1 - o.dstOf n) = p.1 := by omega
  refine ⟨hpos, rfl, rfl, by simp only; omega, by simp only; omega, ?_, rfl⟩
  simp only [hbase]
  exact wordParts_within hp

/-- The place of an item in the stream, and its bytes. -/
def itemSpan (x : CopyItem) : Nat × Nat := (x.at_, x.len)

theorem spans_elementItems {o : LadleOp} {c n : Nat} (hlo : elementLo o c n ≤ elementHi o c n) :
    Spans (n * o.esize + elementLo o c n) (n * o.esize + elementHi o c n) ((o.elementItems c n).map itemSpan) := by
  have h := (spans_wordParts (o.dstOf n + elementLo o c n) (elementHi o c n - elementLo o c n)).shift (to_ := n * o.esize) (Nat.le_add_right (o.dstOf n) _)
  rw [Nat.add_sub_cancel_left, show o.dstOf n + elementLo o c n + (elementHi o c n - elementLo o c n) - o.dstOf n = elementHi o c n by omega] at h
  rw [elementItems_eq, List.map_map]
  exact h

/-- The place in the stream where element `n` starts, cut to the bytes of chunk `c`. -/
def cutAt (o : LadleOp) (c n : Nat) : Nat := max (4096 * c) (min (n * o.esize) (min (4096 * c + 4096) o.length))

/-- An element that has bytes in a chunk. -/
def Meets (o : LadleOp) (c n : Nat) : Prop := n * o.esize < min (4096 * c + 4096) o.length ∧ 4096 * c < (n + 1) * o.esize

theorem meets_of_chunk {o : LadleOp} {c n : Nat} (hes : 0 < o.esize) (hc : 4096 * c < o.length) (hfirst : 4096 * c / o.esize ≤ n)
    (hlast : n ≤ (min (4096 * c + 4096) o.length - 1) / o.esize) : Meets o c n := by
  have hle := (Nat.le_div_iff_mul_le hes).mp hlast
  exact ⟨by omega, (Nat.div_lt_iff_lt_mul hes).mp (Nat.lt_succ_of_le hfirst)⟩

theorem spans_element {o : LadleOp} {c n : Nat} (hc : 4096 * c < o.length) (hn : Meets o c n) :
    Spans (cutAt o c n) (cutAt o c (n + 1)) ((o.elementItems c n).map itemSpan) := by
  obtain ⟨hlt, hgt⟩ := hn
  rw [Nat.add_mul, Nat.one_mul] at hgt
  have hcut : cutAt o c n = n * o.esize + elementLo o c n := by unfold cutAt elementLo; omega
  have hnext : cutAt o c (n + 1) = n * o.esize + elementHi o c n := by unfold cutAt elementHi; rw [Nat.add_mul, Nat.one_mul]; omega
  rw [hcut, hnext]
  exact spans_elementItems (by unfold elementLo elementHi; omega)

theorem spans_elements {o : LadleOp} {c : Nat} (hc : 4096 * c < o.length) (m n : Nat) (hmeets : ∀ k, n ≤ k → k < n + m → Meets o c k) :
    Spans (cutAt o c n) (cutAt o c (n + m)) (((List.range' n m).flatMap (o.elementItems c)).map itemSpan) := by
  induction m generalizing n with
  | zero => exact rfl
  | succ m ih =>
    rw [List.range'_succ, List.flatMap_cons, List.map_append]
    have hrest := ih (n + 1) fun k hk hlt => hmeets k (by omega) (by omega)
    rw [show n + 1 + m = n + (m + 1) by omega] at hrest
    exact (spans_element hc (hmeets n le_rfl (by omega))).append hrest

/-- The first element of a chunk, and how many elements have bytes in it. -/
def firstElement (o : LadleOp) (c : Nat) : Nat := 4096 * c / o.esize
def elementCount (o : LadleOp) (c : Nat) : Nat := (min (4096 * c + 4096) o.length - 1) / o.esize + 1 - firstElement o c

theorem chunkItems_eq (o : LadleOp) (c : Nat) : o.chunkItems c = (List.range' (firstElement o c) (elementCount o c)).flatMap (o.elementItems c) := by
  rw [List.range'_eq_map_range, List.flatMap_map]
  rfl

theorem meets_of_mem {o : LadleOp} {c n : Nat} (hes : 0 < o.esize) (hc : 4096 * c < o.length) (hfirst : firstElement o c ≤ n)
    (hlast : n < firstElement o c + elementCount o c) : Meets o c n :=
  meets_of_chunk hes hc hfirst (by unfold elementCount at hlast; omega)

/-- A chunk's items hold its bytes of the stream, one after the other. -/
theorem spans_chunkItems {o : LadleOp} {c : Nat} (hes : 0 < o.esize) (hc : 4096 * c < o.length) :
    Spans (4096 * c) (min (4096 * c + 4096) o.length) ((o.chunkItems c).map itemSpan) := by
  have h := spans_elements hc (elementCount o c) (firstElement o c) fun _ hk hlt => meets_of_mem hes hc hk hlt
  have hfirst : firstElement o c * o.esize ≤ 4096 * c := Nat.div_mul_le_self _ _
  have hle : firstElement o c ≤ (min (4096 * c + 4096) o.length - 1) / o.esize := Nat.div_le_div_right (by omega)
  have hlast : min (4096 * c + 4096) o.length - 1 < (firstElement o c + elementCount o c) * o.esize := by
    rw [show firstElement o c + elementCount o c = (min (4096 * c + 4096) o.length - 1) / o.esize + 1 by unfold elementCount; omega]
    exact Nat.lt_mul_of_div_lt (Nat.lt_succ_self _) hes
  rw [← chunkItems_eq, show cutAt o c (firstElement o c) = 4096 * c by unfold cutAt; omega,
    show cutAt o c (firstElement o c + elementCount o c) = min (4096 * c + 4096) o.length by unfold cutAt; omega] at h
  exact h

theorem mem_chunkItems {o : LadleOp} {c : Nat} (hes : 0 < o.esize) (hc : 4096 * c < o.length) {x : CopyItem} (hx : x ∈ o.chunkItems c) :
    0 < x.len ∧ 4096 * c ≤ x.at_ ∧ x.at_ + x.len ≤ min (4096 * c + 4096) o.length ∧ x.element = x.at_ / o.esize ∧ x.lo = x.at_ % o.esize ∧
      x.lo + x.len ≤ o.esize ∧ (o.dstOf x.element + x.lo) / 8 = (o.dstOf x.element + x.lo + x.len - 1) / 8 ∧ x.got = filled o x.lo x.len := by
  have hspan : 4096 * c ≤ x.at_ ∧ 0 < x.len ∧ x.at_ + x.len ≤ min (4096 * c + 4096) o.length := (spans_chunkItems hes hc).mem (List.mem_map_of_mem hx)
  obtain ⟨hlow, hpos, hhigh⟩ := hspan
  rw [chunkItems_eq, List.mem_flatMap] at hx
  obtain ⟨n, -, hx⟩ := hx
  obtain ⟨-, rfl, hat, -, hhi, hword, hgot⟩ := mem_elementItems hx
  have hes' : x.lo + x.len ≤ o.esize := hhi.trans (min_le_left _ _)
  have hmod : x.at_ = x.lo + o.esize * x.element := by rw [hat, Nat.mul_comm, Nat.add_comm]
  refine ⟨hpos, hlow, hhigh, ?_, ?_, hes', hword, hgot⟩
  · rw [hmod, Nat.add_mul_div_left _ _ hes, Nat.div_eq_of_lt (by omega), Nat.zero_add]
  · rw [hmod, Nat.add_mul_mod_self_left, Nat.mod_eq_of_lt (by omega)]

/-- Each byte of a chunk is held by one of its items. -/
theorem chunkItems_hold_once {o : LadleOp} {c : Nat} (hes : 0 < o.esize) (hc : 4096 * c < o.length) {b : Nat} (hlow : 4096 * c ≤ b)
    (hhigh : b < min (4096 * c + 4096) o.length) : ((o.chunkItems c).filter fun x => decide (x.at_ ≤ b ∧ b < x.at_ + x.len)).length = 1 := by
  have h := (spans_chunkItems hes hc).count b
  rw [if_pos ⟨hlow, hhigh⟩, List.filter_map, List.length_map] at h
  exact h

/-! Accesses to the submitting core's own memory (07 R154, 09 R218). -/

theorem read_append (m : Memory) (a n k : Nat) : m.read a (n + k) = m.read a n + 256 ^ n * m.read (a + n) k := by
  induction n generalizing a with
  | zero => simp [Memory.read]
  | succ n ih =>
    rw [Nat.succ_add_eq_add_succ, Nat.add_succ, Memory.read, ih, Memory.read, pow_succ, show a + 1 + n = a + (n + 1) by omega]
    ring

theorem offset_lt_of_targetOf {cid va c off : Nat} (h : targetOf cid va = .loc c off) : off < 2 ^ 19 := by
  have hoff : off = field va 0 19 := by
    unfold targetOf at h
    split at h
    case h_4 =>
      simp only at h
      split at h
      · split at h
        · cases h; rfl
        · cases h
      · split at h <;> cases h
    case h_5 => cases h; rfl
    all_goals cases h
  rw [hoff]
  exact Nat.mod_lt _ (by norm_num)

theorem targetOf_of_checkAccess {s : State} {cid dom va size c off : Nat} {kind : AccessKind} (h : s.checkAccess cid dom va size kind = .ok (.loc c off)) :
    targetOf cid va = .loc c off := by
  unfold State.checkAccess at h
  split at h; · cases h
  split at h; · cases h
  split at h; · cases h
  split at h
  · split at h <;> cases h
  · split at h
    · exact Except.ok.inj h
    · cases h

/-- An access of the ladle that the checks find in the submitting core's own memory is made there. -/
theorem ladleAct_own {s : State} {o : LadleOp} {va off : Nat} {op : Op} (h : s.checkAccess o.cid o.dom va 1 op.kind = .ok (.loc o.cid off))
    (htouch : ∀ w, op ≠ .touch w) : s.ladleAct o va op =
      s.settled va (s.homePerform (localAddr o.cid off) (cidKey o.cid) false false (insideReq o.cid o.dom va op)) := by
  have hat : s.atLocal o.cid off false (insideReq o.cid o.dom va op) =
      s.homePerform (localAddr o.cid off) (cidKey o.cid) false false (insideReq o.cid o.dom va op) := by
    unfold State.atLocal insideReq
    cases op with
    | touch w => exact absurd rfl (htouch w)
    | _ => simp
  unfold State.ladleAct State.act
  rw [h]
  simp only [State.actAt, Target.isStore, Bool.false_and, Bool.false_eq_true, if_false, Target.path, State.lookup, State.atCluster, hat]
  rfl

theorem isStoreAddr_own {cid off : Nat} (hcid : cid < 2 ^ 26) (hoff : off < 2 ^ 19) : isStoreAddr (localAddr cid off) = false := by
  unfold isStoreAddr localAddr
  simp only [Bool.and_eq_false_iff, decide_eq_false_iff_not]
  left
  omega

theorem homePerform_load {s : State} {a src n : Nat} {r : Req} (hop : r.op = .load n) (hstore : isStoreAddr a = false) (hsound : s.mem.poisoned (a / 8) = false) :
    s.homePerform a src false false r = (some (.data (s.mem.read a n)), s) := by
  simp [State.homePerform, hop, condition, hstore, State.performOp, State.consume, wordOf, hsound, Op.changesP]

theorem homePerform_store {s : State} {a src n v : Nat} {r : Req} (hop : r.op = .store n v) (hstore : isStoreAddr a = false) :
    s.homePerform a src false false r = if s.mem.poisoned (a / 8) = true ∧ n ≠ 8 then (some (.fault Cause.poison), s)
      else (some .ok, s.withMem ((s.mem.write a n v).setPoison (a / 8) false)) := by
  by_cases hrefused : s.mem.poisoned (a / 8) = true ∧ n ≠ 8
  · simp [State.homePerform, hop, condition, hstore, State.performOp, State.storeBytes, wordOf, Op.changesP, hrefused]
  · rw [if_neg hrefused]
    simp [State.homePerform, hop, condition, hstore, State.performOp, State.storeBytes, wordOf, Op.changesP, hrefused]

theorem homePerform_stf {s : State} {a src v : Nat} {r : Req} (hop : r.op = .stf v) (hw : s.watched (a / 8) = false) :
    s.homePerform a src false false r = (some .ok, s.withMem (((s.mem.write a 8 v).setPoison (a / 8) false).setFull (a / 8) true)) := by
  have hserve : ∀ m, (s.withMem m).serveAll (a / 8) = s.withMem m := fun m => Laws.serve_none ((Laws.watched_withMem s m _).trans hw) _
  simp [State.homePerform, hop, condition, State.performOp, wordOf, Op.changesP, hserve]

theorem ladleLoad_own {s : State} {o : LadleOp} (c : Nat) {va off n : Nat} (hcid : o.cid < 2 ^ 26)
    (h : s.checkAccess o.cid o.dom va 1 .read = .ok (.loc o.cid off)) (hsound : s.mem.poisoned (localAddr o.cid off / 8) = false) :
    s.ladleLoad o c va n = (.ok (s.mem.read (localAddr o.cid off) n), s) := by
  have hstore := isStoreAddr_own hcid (offset_lt_of_targetOf (targetOf_of_checkAccess h))
  unfold State.ladleLoad
  rw [ladleAct_own (op := .load n) h (by simp), homePerform_load rfl hstore hsound]
  rfl

theorem push_store_own {s : State} {o : LadleOp} {va off n v : Nat} (hcid : o.cid < 2 ^ 26) (hpset : (o.desc.getD 0 0).getLsbD 11 = false)
    (h : s.checkAccess o.cid o.dom va 1 .write = .ok (.loc o.cid off)) : s.push o va n v =
      if s.mem.poisoned (localAddr o.cid off / 8) = true ∧ n ≠ 8 then (.fail Cause.poison va, s)
      else (.ok 0, s.withMem ((s.mem.write (localAddr o.cid off) n v).setPoison (localAddr o.cid off / 8) false)) := by
  have hstore := isStoreAddr_own hcid (offset_lt_of_targetOf (targetOf_of_checkAccess h))
  unfold State.push
  rw [LaunchProofs.bit_toNat, hpset, if_neg (by decide), ladleAct_own (op := .store n v) h (by simp), homePerform_store rfl hstore]
  by_cases hrefused : s.mem.poisoned (localAddr o.cid off / 8) = true ∧ n ≠ 8
  · rw [if_pos hrefused, if_pos hrefused]
    rfl
  · rw [if_neg hrefused, if_neg hrefused]
    rfl

theorem push_stf_own {s : State} {o : LadleOp} {va off n v : Nat} (hpset : (o.desc.getD 0 0).getLsbD 11 = true)
    (h : s.checkAccess o.cid o.dom va 1 .rmw = .ok (.loc o.cid off)) (hw : s.watched (localAddr o.cid off / 8) = false) : s.push o va n v =
      (.ok 0, s.withMem (((s.mem.write (localAddr o.cid off) 8 v).setPoison (localAddr o.cid off / 8) false).setFull (localAddr o.cid off / 8) true)) := by
  unfold State.push
  rw [LaunchProofs.bit_toNat, hpset, if_pos rfl, ladleAct_own (op := .stf v) h (by simp), homePerform_stf rfl hw]
  rfl

/-! The value of an element whose source bytes lie in the submitting core's own memory (09 R216). -/

/-- The submitting core's own memory holds `n` bytes for the ladle at `va`, from offset `off` on. -/
def HoldsOwn (s : State) (o : LadleOp) (va n off : Nat) : Prop :=
  va + n ≤ 2 ^ 64 ∧ ∀ k < n, s.checkAccess o.cid o.dom (va + k) 1 .read = .ok (.loc o.cid (off + k)) ∧ s.mem.poisoned ((localAddr o.cid off + k) / 8) = false

theorem pull_spans {s : State} {o : LadleOp} (c : Nat) {va n off : Nat} (hcid : o.cid < 2 ^ 26) (h : HoldsOwn s o va n off) (l : List (Nat × Nat)) (k : Nat)
    (hl : Spans (va + k) (va + n) l) : s.pull o c va l = (.ok (s.mem.read (localAddr o.cid off + k) (n - k) * 256 ^ k), s) := by
  induction l generalizing k with
  | nil =>
    have hk : va + k = va + n := hl
    rw [show n - k = 0 by omega]
    simp [State.pull, Memory.read]
  | cons p r ih =>
    obtain ⟨a, m⟩ := p
    obtain ⟨rfl, hm, hr⟩ := hl
    have hle := hr.le
    obtain ⟨hfits, hbytes⟩ := h
    obtain ⟨hcheck, hsound⟩ := hbytes k (by omega)
    have haddr : localAddr o.cid (off + k) = localAddr o.cid off + k := by unfold localAddr; omega
    have hload := ladleLoad_own c (n := m) hcid hcheck (by rwa [haddr])
    have hrest := ih (k + m) (by rwa [← Nat.add_assoc])
    have hsplit : s.mem.read (localAddr o.cid off + k) (n - k) = s.mem.read (localAddr o.cid off + k) m +
        256 ^ m * s.mem.read (localAddr o.cid off + (k + m)) (n - (k + m)) := by
      rw [← Nat.add_assoc, ← read_append, show m + (n - (k + m)) = n - k by omega]
    have hvalue : s.mem.read (localAddr o.cid off + k) m * 256 ^ k + s.mem.read (localAddr o.cid off + (k + m)) (n - (k + m)) * 256 ^ (k + m) =
        s.mem.read (localAddr o.cid off + k) (n - k) * 256 ^ k := by
      rw [hsplit]; ring
    unfold State.pull
    rw [Nat.mod_eq_of_lt (by omega), hload]
    simp only [hrest, haddr, Nat.add_sub_cancel_left, hvalue]

theorem pull_own {s : State} {o : LadleOp} (c : Nat) {va n off : Nat} (hcid : o.cid < 2 ^ 26) (h : HoldsOwn s o va n off) :
    s.pull o c va (wordParts va n) = (.ok (s.mem.read (localAddr o.cid off) n), s) := by
  simpa using pull_spans c hcid h _ 0 (spans_wordParts va n)

theorem elementValue_copy {s : State} {o : LadleOp} (c : Nat) {ix : List Nat} {lo hi off : Nat} (hcid : o.cid < 2 ^ 26) (hform : o.form = 0)
    (h : HoldsOwn s o (address64 ((o.desc.getD 2 0).toNat + srcOffset o.dims ix + lo)) (hi - lo) off) :
    s.elementValue o c ix lo hi = (.ok (s.mem.read (localAddr o.cid off) (hi - lo)), s) := by
  unfold State.elementValue
  rw [hform]
  exact pull_own c hcid h

theorem elementValue_fill {s : State} {o : LadleOp} (c : Nat) (ix : List Nat) (lo hi : Nat) (hform : o.form = 1) :
    s.elementValue o c ix lo hi = (.ok ((o.desc.getD 2 0).toNat / 256 ^ lo % 256 ^ (hi - lo)), s) := by
  simp only [State.elementValue, hform]

/-- The format of a REDUCE, and its sum of two elements, rounded once. -/
def reduceFormat (o : LadleOp) : FFormat := if (o.desc.getD 0 0).toNat / 2 ^ 32 % 4 = 0 then f32 else bf16
def reduceAdd (f : FFormat) (v w : Nat) : Nat := (f.result 0 (FV.add 0 (f.unpack v) (f.unpack w))).1

theorem reduceFrom_own {s : State} {o : LadleOp} (c : Nat) {d : Int} (hcid : o.cid < 2 ^ 26) (f : FFormat) (srcs : List Word) (offs : List Nat) (acc : Nat)
    (hlen : offs.length = srcs.length) (h : ∀ k < offs.length, HoldsOwn s o (address64 ((srcs.getD k 0).toNat + d)) o.esize (offs.getD k 0)) :
    s.reduceFrom o c d f acc srcs = (.ok ((offs.map fun off => s.mem.read (localAddr o.cid off) o.esize).foldl (reduceAdd f) acc), s) := by
  induction srcs generalizing offs acc with
  | nil =>
    obtain rfl := List.length_eq_zero_iff.mp hlen
    rfl
  | cons b r ih =>
    obtain ⟨off, rest, rfl⟩ := List.exists_cons_of_length_eq_add_one hlen
    have hhead := pull_own c hcid (h 0 (by simp))
    simp only [List.getD_cons_zero] at hhead
    have hrest := ih rest (reduceAdd f acc (s.mem.read (localAddr o.cid off) o.esize)) (by simpa using hlen) fun k hk => by
      simpa using h (k + 1) (by simpa using hk)
    unfold State.reduceFrom
    simp only [hhead]
    exact hrest

theorem elementValue_reduce {s : State} {o : LadleOp} (c : Nat) {ix : List Nat} (lo hi : Nat) {v : Nat} {r offs : List Nat} (hcid : o.cid < 2 ^ 26)
    (hform : o.form = 2) (hlen : offs.length = o.srcs.length)
    (h : ∀ k < offs.length, HoldsOwn s o (address64 ((o.srcs.getD k 0).toNat + srcOffset o.dims ix)) o.esize (offs.getD k 0))
    (hvalues : (offs.map fun off => s.mem.read (localAddr o.cid off) o.esize) = v :: r) :
    s.elementValue o c ix lo hi = (.ok (r.foldl (reduceAdd (reduceFormat o)) v), s) := by
  obtain ⟨off, rest, rfl, rfl, rfl⟩ := List.map_eq_cons_iff.mp hvalues
  obtain ⟨b, srcs, hsrcs⟩ := List.exists_cons_of_length_eq_add_one hlen.symm
  rw [hsrcs] at hlen h
  have hhead := pull_own c hcid (h 0 (by simp))
  simp only [List.getD_cons_zero] at hhead
  have hrest := reduceFrom_own c hcid (reduceFormat o) srcs rest (s.mem.read (localAddr o.cid off) o.esize) (by simpa using hlen) fun k hk => by
    simpa using h (k + 1) (by simpa using hk)
  unfold State.elementValue
  rw [hform, hsrcs]
  simp only [hhead]
  exact hrest

theorem elementValue_gather {s : State} {o : LadleOp} (c : Nat) {ix : List Nat} {lo hi at_ off : Nat} (hcid : o.cid < 2 ^ 26) (hform : o.form = 3)
    (hindex : HoldsOwn s o (address64 ((o.desc.getD 2 0).toNat + 4 * (ix.getD 1 0 : Int))) 4 at_)
    (h : HoldsOwn s o (address64 ((o.desc.getD 3 0).toNat + srcOffset o.dims ix +
      (o.dims.getD 1 (0, 0, 0)).2.1 * ((s.mem.read (localAddr o.cid at_) 4 : Int) - ix.getD 1 0) + lo)) (hi - lo) off) :
    s.elementValue o c ix lo hi = (.ok (s.mem.read (localAddr o.cid off) (hi - lo)), s) := by
  unfold State.elementValue
  rw [hform]
  simp only [pull_own c hcid hindex]
  exact pull_own c hcid h

/-- Another index in one dimension moves a sum of strides by the difference. -/
theorem sum_replace (g : Nat → Int) (f : Nat → Nat) (n j v : Nat) (hj : j < n) :
    ((List.range n).map fun k => g k * ((if k = j then v else f k : Nat) : Int)).sum = ((List.range n).map fun k => g k * (f k : Int)).sum + g j * ((v : Int) - f j) := by
  have hterm : ∀ k, g k * ((if k = j then v else f k : Nat) : Int) = g k * (f k : Int) + if k = j then g j * ((v : Int) - f j) else 0 := by
    intro k
    split
    · next h => subst h; ring
    · ring
  simp only [hterm, List.sum_map_add]
  congr 1
  have hsingle := Finset.sum_ite_eq' (Finset.range n) j fun _ => g j * ((v : Int) - f j)
  rwa [if_pos (Finset.mem_range.mpr hj)] at hsingle

/-! The write of an element in the submitting core's own memory (09 R216). -/

theorem copyItem_got {o : LadleOp} {x : CopyItem} {v : Nat} (s : State) (c : Nat) (hgot : x.got = some v) :
    s.copyItem o c x = s.push o ((o.dstOf x.element + x.lo) % 2 ^ 64) x.len v := by
  unfold State.copyItem
  rw [hgot]

/-! The accesses of a chunk, one after the other (09 R216, R220). -/

theorem listSet_eq_set {α : Type} (l : List α) (k : Nat) (v : α) : listSet l k v = l.set k v := by
  induction l generalizing k with
  | nil => rfl
  | cons a r ih => cases k <;> simp [listSet, ih]

theorem listDel_eq_eraseIdx {α : Type} (l : List α) (k : Nat) : listDel l k = l.eraseIdx k := by
  induction l generalizing k with
  | nil => rfl
  | cons a r ih => cases k <;> simp [listDel, ih]

/-- The state after a free value was drawn. -/
def drawn (s : State) : State := { s with tick := s.tick + 1 }

/-- The item whose access is made next: it is free which (01 R24). -/
def picked (s : State) (w : ChunkWork) : Nat := (Config.freeWord 24 s.tick).toNat % w.items.length

theorem copySome_succ {s : State} (o : LadleOp) (c : Nat) {w : ChunkWork} (n : Nat) {x : CopyItem} (hx : w.items[picked s w]? = some x) :
    s.copySome o c w (n + 1) = match (drawn s).copyItem o c x with
      | (.blocked, _) => (.yes, w, drawn s)
      | (.ask va, _) => (.ask va, w, drawn s)
      | (p, t) => t.copySome o c (w.after (picked s w) x p) n := by
  unfold picked at hx
  simp only [State.copySome, State.free, hx]
  rfl

/-- What a chunk's step comes to by the answer of its access: `s` if it has none yet, else `t` with the item done. -/
def stepEnd (w : ChunkWork) (i : Nat) (x : CopyItem) (s t : State) : Pull → Held × ChunkWork × State
  | .blocked => (.yes, w, s)
  | .ask va => (.ask va, w, s)
  | .ok v => (.no, w.after i x (.ok v), t)
  | .fail k va => (.no, w.after i x (.fail k va), t)

theorem copySome_one {s : State} (o : LadleOp) (c : Nat) {w : ChunkWork} {x : CopyItem} (hx : w.items[picked s w]? = some x) {p : Pull}
    (hp : ((drawn s).copyItem o c x).1 = p) : s.copySome o c w 1 = stepEnd w (picked s w) x (drawn s) ((drawn s).copyItem o c x).2 p := by
  rw [copySome_succ o c 0 hx]
  subst hp
  rcases (drawn s).copyItem o c x with ⟨p, t⟩
  cases p <;> rfl

theorem copySome_none {s : State} (o : LadleOp) (c : Nat) {w : ChunkWork} (n : Nat) (hw : w.items = []) : s.copySome o c w n = (.no, w, s) := by
  cases n with
  | zero => rfl
  | succ n => simp [State.copySome, State.free, hw]

theorem exists_picked (s : State) {w : ChunkWork} (hw : w.items ≠ []) : ∃ x, w.items[picked s w]? = some x :=
  ⟨_, List.getElem?_eq_getElem (Nat.mod_lt _ (List.length_pos_iff.mpr hw))⟩

theorem copySome_chain (s : State) (o : LadleOp) (c : Nat) (w : ChunkWork) (n : Nat) :
    s.copySome o c w (n + 1) = if (s.copySome o c w 1).1 = .no then (s.copySome o c w 1).2.2.copySome o c (s.copySome o c w 1).2.1 n else s.copySome o c w 1 := by
  by_cases hw : w.items = []
  · simp only [copySome_none o c _ hw, if_true]
  · obtain ⟨x, hx⟩ := exists_picked s hw
    rw [copySome_succ o c n hx, copySome_succ o c 0 hx]
    rcases (drawn s).copyItem o c x with ⟨p, t⟩
    cases p <;> simp [State.copySome]

theorem after_ok (w : ChunkWork) (i : Nat) (x : CopyItem) (v : Nat) :
    w.after i x (.ok v) = { w with items := if x.got = none then w.items.set i { x with got := some v } else w.items.eraseIdx i } := by
  simp only [ChunkWork.after, listSet_eq_set, listDel_eq_eraseIdx, Option.isNone_iff_eq_none]
  split <;> rfl

theorem after_fail (w : ChunkWork) (i : Nat) (x : CopyItem) (k va : Nat) : w.after i x (.fail k va) = ⟨w.items.eraseIdx i, earlier w.fault (x.at_, k, va)⟩ := by
  rw [ChunkWork.after, listDel_eq_eraseIdx]

theorem earlier_eq_some (a : Option (Nat × Nat × Nat)) (b : Nat × Nat × Nat) :
    ∃ q, earlier a b = some q ∧ (∀ e, a = some e → e.1 ≤ b.1 → q = e) ∧ ((∀ e, a = some e → b.1 < e.1) → q = b) := by
  cases a with
  | none => exact ⟨b, rfl, by simp, fun _ => rfl⟩
  | some e =>
    by_cases h : e.1 ≤ b.1
    · exact ⟨e, by simp [earlier, h], by simp, fun hlt => absurd (hlt e rfl) (by omega)⟩
    · exact ⟨b, by simp [earlier, h], by simp only [Option.some.injEq, forall_eq']; omega, fun _ => rfl⟩

theorem left_pos {w : ChunkWork} (hw : w.items ≠ []) : 0 < w.left := by
  unfold ChunkWork.left
  cases h : w.items with
  | nil => exact absurd h hw
  | cons x r =>
    rw [List.map_cons, List.sum_cons]
    split <;> omega

theorem left_eq (w : ChunkWork) : w.left = (w.items.map fun x => if x.got = none then 2 else 1).sum := by
  simp only [ChunkWork.left, Option.isNone_iff_eq_none]

theorem get_eq_find {α : Type} (d : α) (t : Tab α) (k : Nat) : Tab.get d t k = (Tab.find t k).getD d := by
  induction t with
  | nil => rfl
  | cons p r ih =>
    simp only [Tab.get, Tab.find, ih]
    split <;> rfl

theorem copyChunk_eq (s : State) (o : LadleOp) (c : Nat) : s.copyChunk o c =
    (drawn s).copySome o c (o.workOf c) ((Config.freeWord 24 s.tick).toNat % (o.workOf c).left + 1) := rfl

/-- Settles O50, by one lemma for each form of a copy and for each step of a chunk. -/
theorem copyContents : Obligations.CopyContents := by
  refine ⟨?indices, ?items, ?values, ?writes, ?accesses⟩
  case indices =>
    intro dims n ix at_
    have hlen := length_indicesOf dims n
    exact ⟨hlen, fun k hk => getD_indicesOf dims n k hk, srcOffset_eq dims _ hlen, dstOffset_eq dims _ hlen⟩
  case items =>
    intro o c hes hc items fin
    refine ⟨streamLength_eq _ _, fun b hlow hhigh => chunkItems_hold_once hes hc hlow hhigh, fun x hx => ?_⟩
    exact mem_chunkItems hes hc hx
  case values =>
    intro o c n lo hi s hcid hle ix src sum held word gives f plus
    have hsrc : srcOffset o.dims ix = sum (ix.getD · 0) := srcOffset_eq _ _ (length_indicesOf _ _)
    refine ⟨fun hform off h => ?_, fun hform => elementValue_fill c ix lo hi hform, fun hform v r offs hlen h hv => ?_, fun hform hrank at_ off hindex h => ?_⟩
    · exact elementValue_copy c hcid hform (by rw [hsrc]; exact h)
    · exact elementValue_reduce c lo hi hcid hform hlen (by rw [hsrc]; exact h) hv
    · refine elementValue_gather c hcid hform hindex ?_
      have hmoved : sum (fun k => if k = 1 then word at_ 4 else ix.getD k 0) = srcOffset o.dims ix + (o.dims.getD 1 (0, 0, 0)).2.1 * ((word at_ 4 : Int) - ix.getD 1 0) :=
        hsrc ▸ sum_replace (fun k => (o.dims.getD k (0, 0, 0)).2.1) (ix.getD · 0) o.dims.length 1 (word at_ 4) hrank
      rwa [hmoved, ← Int.add_assoc] at h
  case writes =>
    intro o c v off x s hcid hgot va a stored pset
    rw [copyItem_got s c hgot]
    refine ⟨fun hpset hcheck => ⟨fun hsound => ?_, fun hlen hpoison => ?_⟩, fun hpset hcheck hw => push_stf_own hpset hcheck hw⟩
    · rw [push_store_own hcid hpset hcheck, if_neg]
      rintro ⟨hpoison, hlen⟩
      rcases hsound with h | h
      · exact hlen h
      · exact Bool.noConfusion (h.symm.trans hpoison)
    · rw [push_store_own hcid hpset hcheck, if_pos ⟨hpoison, hlen⟩]
  case accesses =>
    intro o c s once w
    have hchunk := copyChunk_eq s o c
    have hwork : o.workOf c = w := by
      rw [LadleOp.workOf, get_eq_find]
      cases hf : Tab.find o.work c <;> simp only [w, hf, Option.getD]
    rw [hwork, left_eq] at hchunk
    refine ⟨⟨_, Nat.le_add_left 1 _, fun hw => ?_, hchunk⟩, fun w n => copySome_chain s o c w n, fun w hw => ?_⟩
    · have hlt := Nat.mod_lt (Config.freeWord 24 s.tick).toNat (left_pos (hwork ▸ hw))
      rwa [hwork, left_eq] at hlt
    · obtain ⟨x, hx⟩ := exists_picked s hw
      refine ⟨picked s w, x, hx, fun v hp => ?_, fun k va hp => ?_, fun hp => copySome_one o c hx hp, fun va hp => copySome_one o c hx hp⟩
      · rw [← after_ok]
        exact copySome_one o c hx hp
      · obtain ⟨q, hq, hfirst, hlater⟩ := earlier_eq_some w.fault (x.at_, k, va)
        refine ⟨q, ?_, hfirst, hlater⟩
        rw [← hq, ← after_fail]
        exact copySome_one o c hx hp

end Sys2Proof.CopyProofs
end

section
/-!
PROOFS. Matrix sums (01 R19, R20; 02 R37, R40 to R44; 10 R233, R237): rounding to units and once to a format, expansion of a narrow code with
its scale, the dense sum of a K-block, the sprue steps, and what a job reads and writes; then the obligation O51.
-/
namespace Sys2Proof.SumProofs
open Sys2Proof Sys2Proof.Machine

/-! Rounding to units, toward zero and to nearest (02 R30). -/

/-- `m` cut to multiples of `s`, and rounded to the nearest one with ties to even. -/
def nearest (m s : Nat) : Nat := m / s + (decide (2 * (m % s) > s) || (2 * (m % s) == s && m / s % 2 == 1)).toNat

theorem roundTo_of_le (rm : Nat) (neg : Bool) (m : Nat) {e q : Int} (h : q ≤ e) : roundTo rm neg m e q = (m * 2 ^ (e - q).toNat, false) := if_pos h

theorem roundTo_zero_of_lt (neg : Bool) (m : Nat) {e q : Int} (h : e < q) :
    roundTo 0 neg m e q = (nearest m (2 ^ (q - e).toNat), m % 2 ^ (q - e).toNat != 0) := by
  unfold roundTo
  rw [if_neg (not_le.mpr h)]
  rfl

theorem roundTo_one_of_lt (neg : Bool) (m : Nat) {e q : Int} (h : e < q) :
    roundTo 1 neg m e q = (m / 2 ^ (q - e).toNat, m % 2 ^ (q - e).toNat != 0) := by
  unfold roundTo
  rw [if_neg (not_le.mpr h)]
  rfl

/-- The rounded multiple is at most half a unit away, at half a unit it is even, and it is the value itself exactly when nothing is cut. -/
theorem nearest_spec (m : Nat) {s : Nat} (hs : 0 < s) : 2 * (nearest m s * s) ≤ 2 * m + s ∧ 2 * m ≤ 2 * (nearest m s * s) + s ∧
    (2 * (nearest m s * s) = 2 * m + s ∨ 2 * m = 2 * (nearest m s * s) + s → nearest m s % 2 = 0) ∧ (m % s = 0 ↔ nearest m s * s = m) := by
  have hm := Nat.div_add_mod m s
  have hlt := Nat.mod_lt m hs
  rw [Nat.mul_comm] at hm
  unfold nearest
  by_cases hup : 2 * (m % s) > s ∨ 2 * (m % s) = s ∧ m / s % 2 = 1
  · have hone : (decide (2 * (m % s) > s) || (2 * (m % s) == s && m / s % 2 == 1)).toNat = 1 := by
      simpa [Bool.toNat_eq_one] using hup
    rw [hone, Nat.add_mul, Nat.one_mul]
    omega
  · have hzero : (decide (2 * (m % s) > s) || (2 * (m % s) == s && m / s % 2 == 1)).toNat = 0 := by
      simpa [Bool.toNat_eq_zero] using hup
    rw [hzero, Nat.add_zero]
    omega

theorem two_zpow_shift {K : Type*} [Field K] [CharZero K] {e q : Int} (h : e ≤ q) : (2 : K) ^ q = (2 ^ (q - e).toNat : Nat) * 2 ^ e := by
  rw [Nat.cast_pow, Nat.cast_ofNat, ← zpow_natCast, Int.toNat_of_nonneg (by omega), ← zpow_add₀ two_ne_zero]
  congr 1
  omega

theorem roundTo_zero_spec (neg : Bool) (m : Nat) (e q : Int) : roundsTo 0 neg ((m : ℝ) * 2 ^ e) (2 ^ q) (roundTo 0 neg m e q).1 ∧
    ((roundTo 0 neg m e q).2 = false ↔ ((roundTo 0 neg m e q).1 : ℝ) * 2 ^ q = m * 2 ^ e) := by
  have hq : (0 : ℝ) < 2 ^ q := zpow_pos two_pos q
  have he : (0 : ℝ) < 2 ^ e := zpow_pos two_pos e
  rcases le_or_gt q e with hle | hlt
  · have hexact : ((m * 2 ^ (e - q).toNat : Nat) : ℝ) * 2 ^ q = m * 2 ^ e := by rw [two_zpow_shift hle]; push_cast; ring
    rw [roundTo_of_le 0 neg m hle]
    simp only [roundsTo, hexact, sub_self, abs_zero]
    exact ⟨⟨by positivity, fun h => absurd h (by positivity)⟩, by simp⟩
  · rw [roundTo_zero_of_lt neg m hlt]
    have hpos : 0 < 2 ^ (q - e).toNat := by positivity
    obtain ⟨hhi, hlo, htie, hexact⟩ := nearest_spec m hpos
    rw [two_zpow_shift hlt.le]
    generalize 2 ^ (q - e).toNat = s at hpos hhi hlo htie hexact ⊢
    generalize nearest m s = n at hhi hlo htie hexact ⊢
    have hdiff : (n : ℝ) * ((s : ℝ) * 2 ^ e) - m * 2 ^ e = ((n : ℝ) * s - m) * 2 ^ e := by ring
    have hhiReal : (2 * (n * s) : ℝ) ≤ 2 * m + s := by exact_mod_cast hhi
    have hloReal : (2 * m : ℝ) ≤ 2 * (n * s) + s := by exact_mod_cast hlo
    have hhalf : |(n : ℝ) * s - m| ≤ s / 2 := abs_le.mpr ⟨by linarith, by linarith⟩
    simp only [roundsTo, hdiff, abs_mul, abs_of_pos he]
    refine ⟨⟨?_, fun h => htie ?_⟩, ?_⟩
    · rw [show (s : ℝ) * 2 ^ e / 2 = s / 2 * 2 ^ e by ring]
      exact mul_le_mul_of_nonneg_right hhalf he.le
    · rw [show (s : ℝ) * 2 ^ e / 2 = s / 2 * 2 ^ e by ring] at h
      have habs := mul_right_cancel₀ he.ne' h
      rcases abs_choice ((n : ℝ) * s - m) with hc | hc
      · left
        have : (2 * (n * s) : ℝ) = 2 * m + s := by linarith
        exact_mod_cast this
      · right
        have : (2 * m : ℝ) = 2 * (n * s) + s := by linarith
        exact_mod_cast this
    · rw [← mul_assoc, mul_left_inj' he.ne']
      have hcast : (n : ℝ) * s = m ↔ n * s = m := by exact_mod_cast Iff.rfl
      rw [hcast, ← hexact]
      simp

/-- Rounding to nearest with ties to even has one result. -/
theorem roundsTo_zero_unique {neg : Bool} {v u : ℝ} {n k : Nat} (hu : 0 < u) (hn : roundsTo 0 neg v u n) (hk : roundsTo 0 neg v u k) : n = k := by
  obtain ⟨hn, hneven⟩ := hn
  obtain ⟨hk, hkeven⟩ := hk
  have hwide : ∀ {a b : Nat}, |a * u - v| ≤ u / 2 → |b * u - v| ≤ u / 2 → a ≤ b + 1 := by
    intro a b ha hb
    have h1 := (abs_le.mp ha).2
    have h2 := (abs_le.mp hb).1
    have hle : (a : ℝ) * u ≤ (b + 1) * u := by linarith
    exact_mod_cast le_of_mul_le_mul_right hle hu
  have hstep : ∀ {a b : Nat}, |a * u - v| ≤ u / 2 → |b * u - v| ≤ u / 2 → a = b + 1 → |a * u - v| = u / 2 ∧ |b * u - v| = u / 2 := by
    intro a b ha hb hab
    have h1 := abs_le.mp ha
    have h2 := abs_le.mp hb
    have hsum : (a : ℝ) * u = b * u + u := by rw [hab]; push_cast; ring
    have hau : (a : ℝ) * u - v = u / 2 := by linarith
    have hbu : (b : ℝ) * u - v = -(u / 2) := by linarith
    rw [hau, hbu, abs_neg, abs_of_pos (by positivity)]
    exact ⟨rfl, rfl⟩
  rcases Nat.lt_trichotomy n k with hlt | rfl | hlt
  · have hone := hwide hk hn
    obtain ⟨h1, h2⟩ := hstep hk hn (by omega)
    have := hneven h2
    have := hkeven h1
    omega
  · rfl
  · have hone := hwide hn hk
    obtain ⟨h1, h2⟩ := hstep hn hk (by omega)
    have := hneven h1
    have := hkeven h2
    omega

/-! The bits of a rounded value and the value of those bits (02 R28). -/

/-- The value of the bits below the sign in units of the least subnormal. -/
def unitsOf (x : FFormat) (b : Nat) : Nat := if b / 2 ^ x.mbits = 0 then b % 2 ^ x.mbits else (2 ^ x.mbits + b % 2 ^ x.mbits) * 2 ^ (b / 2 ^ x.mbits - 1)

/-- The bits of a rounded significand `n` with `d` binary places above the least ones have its value; `n` may have reached the next power of two. -/
theorem unitsOf_body (x : FFormat) {d n : Nat} (hn : n ≤ 2 * 2 ^ x.mbits) (hd : 0 < d → 2 ^ x.mbits ≤ n) : unitsOf x (d * 2 ^ x.mbits + n) = n * 2 ^ d := by
  unfold unitsOf
  have hpos : 0 < 2 ^ x.mbits := by positivity
  generalize 2 ^ x.mbits = M at hn hd hpos ⊢
  have hsplit : ∀ {k r : Nat}, r < M → (k * M + r) / M = k ∧ (k * M + r) % M = r := fun hr =>
    ⟨by rw [Nat.mul_comm, Nat.mul_add_div hpos, Nat.div_eq_of_lt hr, Nat.add_zero], by rw [Nat.mul_comm, Nat.mul_add_mod, Nat.mod_eq_of_lt hr]⟩
  rcases lt_or_ge n M with hlt | hge
  · obtain rfl : d = 0 := by omega
    obtain ⟨hdiv, hmod⟩ := hsplit (k := 0) hlt
    rw [hdiv, hmod, if_pos rfl, pow_zero, Nat.mul_one]
  · rcases Nat.lt_or_ge n (2 * M) with hlt | hge'
    · obtain ⟨hdiv, hmod⟩ := hsplit (k := d + 1) (r := n - M) (by omega)
      rw [show d * M + n = (d + 1) * M + (n - M) by rw [Nat.add_mul]; omega, hdiv, hmod, if_neg (by omega), Nat.add_sub_cancel, Nat.add_sub_cancel' hge]
    · obtain rfl : n = 2 * M := by omega
      obtain ⟨hdiv, hmod⟩ := hsplit (k := d + 2) (r := 0) hpos
      rw [show d * M + 2 * M = (d + 2) * M + 0 by ring, hdiv, hmod, if_neg (by omega), show d + 2 - 1 = d + 1 by omega, pow_succ]
      ring

/-- A rounded significand lies below a power of two times the least normal one exactly when its bits lie below the bits of that power. -/
theorem body_lt_iff (M : Nat) {d n l : Nat} (hM : 0 < M) (hl : 0 < l) (hn : n ≤ 2 * M) (hd : 0 < d → M ≤ n) : n * 2 ^ d < 2 ^ l * M ↔ d * M + n < (l + 1) * M := by
  have hpow : ∀ {a b : Nat}, 2 ^ a * M < 2 ^ b * M ↔ a < b := fun {a b} => by
    rw [Nat.mul_lt_mul_right hM, Nat.pow_lt_pow_iff_right one_lt_two]
  rcases Nat.lt_or_ge n M with hlt | hge
  · obtain rfl : d = 0 := by omega
    have h1 : M ≤ 2 ^ l * M := Nat.le_mul_of_pos_left _ (by positivity)
    have h2 : M ≤ (l + 1) * M := Nat.le_mul_of_pos_left _ (by omega)
    simp only [pow_zero, Nat.mul_one, Nat.zero_mul, Nat.zero_add]
    omega
  · rcases Nat.lt_or_ge n (2 * M) with hlt | hge'
    · have hlow : 2 ^ d * M ≤ n * 2 ^ d := by rw [Nat.mul_comm]; exact Nat.mul_le_mul_right _ hge
      have hhigh : n * 2 ^ d < 2 ^ (d + 1) * M := by
        calc n * 2 ^ d < 2 * M * 2 ^ d := Nat.mul_lt_mul_of_pos_right hlt (by positivity)
          _ = 2 ^ (d + 1) * M := by ring
      constructor
      · intro h
        have hdl : d + 1 ≤ l := hpow.mp (hlow.trans_lt h)
        have := Nat.mul_le_mul_right M hdl
        rw [Nat.add_mul] at this ⊢
        omega
      · intro h
        have hdl : d + 1 ≤ l := by
          by_contra hgt
          have := Nat.mul_le_mul_right M (show l ≤ d by omega)
          rw [Nat.add_mul] at h
          omega
        exact hhigh.trans_le (Nat.mul_le_mul_right M (Nat.pow_le_pow_right two_pos hdl))
    · obtain rfl : n = 2 * M := by omega
      rw [show 2 * M * 2 ^ d = 2 ^ (d + 1) * M by ring, hpow, show d * M + 2 * M = (d + 2) * M by ring, Nat.mul_lt_mul_right hM]
      omega

theorem unpack_finite (x : FFormat) (neg : Bool) {b : Nat} (hb : b < (2 ^ x.ebits - 1) * 2 ^ x.mbits) :
    (x.unpack (x.zero neg + b)).finite = true ∧ (x.unpack (x.zero neg + b)).rat = (if neg then -1 else 1) * (unitsOf x b : ℚ) * 2 ^ (1 - x.bias - x.mbits) := by
  have hM : 0 < 2 ^ x.mbits := by positivity
  have hE : 0 < 2 ^ x.ebits := by positivity
  have hdiv : b / 2 ^ x.mbits < 2 ^ x.ebits - 1 := (Nat.div_lt_iff_lt_mul hM).mpr hb
  have hall : b < 2 ^ (x.ebits + x.mbits) := by
    rw [pow_add]
    exact hb.trans_le (Nat.mul_le_mul_right _ (Nat.sub_le _ _))
  have hsign : bit (x.zero neg + b) (x.ebits + x.mbits) = neg := by
    unfold bit FFormat.zero
    rw [Nat.mul_comm, Nat.mul_add_div (by positivity), Nat.div_eq_of_lt hall]
    cases neg <;> rfl
  have hexp : field (x.zero neg + b) x.mbits x.ebits = b / 2 ^ x.mbits := by
    unfold field FFormat.zero
    rw [pow_add, ← Nat.mul_assoc, Nat.mul_comm _ (2 ^ x.mbits), Nat.mul_add_div hM, Nat.mul_add_mod', Nat.mod_eq_of_lt (by omega)]
  have hfrac : field (x.zero neg + b) 0 x.mbits = b % 2 ^ x.mbits := by
    unfold field FFormat.zero
    rw [pow_zero, Nat.div_one, pow_add, ← Nat.mul_assoc, Nat.mul_comm _ (2 ^ x.mbits), Nat.mul_add_mod]
  unfold FFormat.unpack
  simp only [hsign, hexp, hfrac, hdiv.ne, if_false, unitsOf]
  split
  · split
    · next h => simp [FV.finite, FV.rat, h]
    · simp [FV.finite, FV.rat]
  · next h =>
    refine ⟨rfl, ?_⟩
    have hpow : (2 : ℚ) ^ ((b / 2 ^ x.mbits : Nat) - x.bias - x.mbits : Int) = (2 ^ (b / 2 ^ x.mbits - 1) : Nat) * 2 ^ (1 - x.bias - x.mbits : Int) := by
      rw [Nat.cast_pow, Nat.cast_ofNat, ← zpow_natCast, ← zpow_add₀ two_ne_zero]
      congr 1
      omega
    simp only [FV.rat, hpow, Nat.cast_mul]
    ring

/-! A nonzero value rounded once to a format (02 R28 to R31). -/

section
variable {K : Type*} [Field K] [LinearOrder K] [IsStrictOrderedRing K]

theorem log2_bounds {m : Nat} (hm : m ≠ 0) (e : Int) : (2 : K) ^ ((m.log2 : Int) + e) ≤ m * 2 ^ e ∧ (m : K) * 2 ^ e < 2 ^ ((m.log2 : Int) + e + 1) := by
  have he : (0 : K) < 2 ^ e := zpow_pos two_pos e
  have hlow : (2 : K) ^ m.log2 ≤ m := by exact_mod_cast Nat.log2_self_le hm
  have hhigh : (m : K) < 2 ^ (m.log2 + 1) := by exact_mod_cast Nat.lt_log2_self
  rw [show (m.log2 : Int) + e + 1 = ((m.log2 + 1 : Nat) : Int) + e by push_cast; ring, zpow_add₀ two_ne_zero, zpow_add₀ two_ne_zero, zpow_natCast, zpow_natCast]
  exact ⟨mul_le_mul_of_nonneg_right hlow he.le, mul_lt_mul_of_pos_right hhigh he⟩

theorem exponent_le {v : K} {a b : Int} (ha : 2 ^ a ≤ v) (hb : v < 2 ^ (b + 1)) : a ≤ b :=
  Int.lt_add_one_iff.mp ((zpow_lt_zpow_iff_right₀ one_lt_two).mp (ha.trans_lt hb))

theorem exponent_unique {v : K} {a b : Int} (ha : 2 ^ a ≤ v) (ha' : v < 2 ^ (a + 1)) (hb : 2 ^ b ≤ v) (hb' : v < 2 ^ (b + 1)) : a = b :=
  le_antisymm (exponent_le ha hb') (exponent_le hb ha')

end

theorem nearest_le {neg : Bool} {v u : ℝ} {n b : Nat} (hu : 0 < u) (hn : roundsTo 0 neg v u n) (hv : v ≤ b * u) : n ≤ b := by
  have h := (abs_le.mp hn.1).2
  by_contra hlt
  have hle : ((b : ℝ) + 1) * u ≤ n * u := mul_le_mul_of_nonneg_right (by exact_mod_cast not_le.mp hlt) hu.le
  linarith

theorem le_nearest {neg : Bool} {v u : ℝ} {n b : Nat} (hu : 0 < u) (hn : roundsTo 0 neg v u n) (hv : b * u ≤ v) : b ≤ n := by
  have h := (abs_le.mp hn.1).1
  by_contra hlt
  have hle : ((n : ℝ) + 1) * u ≤ b * u := mul_le_mul_of_nonneg_right (by exact_mod_cast not_le.mp hlt) hu.le
  linarith

theorem two_mul_bias {x : FFormat} (hx : 2 ≤ x.ebits) : 2 * x.bias = ((2 ^ x.ebits - 2 : Nat) : Int) := by
  have hpow : 2 ^ x.ebits = 2 * 2 ^ (x.ebits - 1) := by rw [← pow_succ']; congr 1; omega
  have hge : 2 ^ 1 ≤ 2 ^ x.ebits := Nat.pow_le_pow_right two_pos (by omega)
  rw [pow_one] at hge
  unfold FFormat.bias
  push_cast [hge]
  rw [show (2 : Int) ^ x.ebits = 2 * 2 ^ (x.ebits - 1) by exact_mod_cast hpow]
  ring

/-- How a nonzero value is rounded to nearest: `d` places above the least ones, significand `n` there and `k` without a least exponent. -/
theorem round_zero_eq (x : FFormat) (neg : Bool) (m : Nat) (e : Int) {ex q : Int} {d n k : Nat} (hex : ex = m.log2 + e)
    (hq : q = max ex (1 - x.bias) - x.mbits) (hd : q = d + (1 - x.bias - x.mbits)) (hn : n = (roundTo 0 neg m e q).1) (hk : k = (roundTo 0 neg m e (ex - x.mbits)).1) :
    x.round 0 neg m e = if (2 ^ x.ebits - 1) * 2 ^ x.mbits ≤ d * 2 ^ x.mbits + n then (x.inf neg, 20) else
      (x.zero neg + (d * 2 ^ x.mbits + n), fIf (roundTo 0 neg m e q).2 fNX |||
        fIf (decide (ex < 1 - x.bias) && (decide (k < 2 ^ (x.mbits + 1)) || decide (ex + 1 < 1 - x.bias)) && (roundTo 0 neg m e q).2) fUF) := by
  have hbody : ((q - (1 - x.bias - x.mbits)) * 2 ^ x.mbits).toNat = d * 2 ^ x.mbits := by
    rw [show q - (1 - x.bias - x.mbits) = d by omega]
    exact_mod_cast Int.toNat_natCast (d * 2 ^ x.mbits)
  unfold FFormat.round
  simp only [← hex, ← hq, ← hn, ← hk, hbody]
  rfl

/-- The value of an exponent and significand in units of the least subnormal. -/
theorem scaled_eq {K : Type*} [Field K] [CharZero K] (x : FFormat) {q : Int} {d : Nat} (n : Nat) (hd : q = d + (1 - x.bias - x.mbits)) :
    (n : K) * 2 ^ q = (n * 2 ^ d : Nat) * 2 ^ (1 - x.bias - x.mbits) := by
  rw [hd, zpow_add₀ two_ne_zero, zpow_natCast]
  push_cast
  ring

theorem limit_eq {x : FFormat} (hx : 2 ≤ x.ebits) : (2 : ℝ) ^ (x.bias + 1) = (2 ^ (2 ^ x.ebits - 2) * 2 ^ x.mbits : Nat) * 2 ^ (1 - x.bias - x.mbits) := by
  have hbias := two_mul_bias hx
  rw [← pow_add, Nat.cast_pow, Nat.cast_ofNat, ← zpow_natCast, ← zpow_add₀ two_ne_zero]
  congr 1
  push_cast
  omega

theorem cast_rat_fin (neg : Bool) (m : Nat) (e : Int) : (((FV.fin neg m e).rat : ℚ) : ℝ) = (if neg then -1 else 1) * (m * 2 ^ e) := by
  simp only [FV.rat]
  push_cast
  cases neg <;> simp

theorem abs_rat_fin (neg : Bool) (m : Nat) (e : Int) : |(((FV.fin neg m e).rat : ℚ) : ℝ)| = m * 2 ^ e := by
  have hnonneg : (0 : ℝ) ≤ m * 2 ^ e := by positivity
  rw [cast_rat_fin, abs_mul, abs_of_nonneg hnonneg]
  cases neg <;> simp

theorem rat_fin_neg_iff (neg : Bool) {m : Nat} (e : Int) (hm : m ≠ 0) : (((FV.fin neg m e).rat : ℚ) : ℝ) < 0 ↔ neg = true := by
  have hpos : (0 : ℝ) < m * 2 ^ e := by positivity
  rw [cast_rat_fin]
  cases neg
  · simpa using hpos.le
  · simpa using hpos

/-- The two significands of a rounded value: `n` in its units, `k` in those without a least exponent. -/
structure Significands (x : FFormat) (d n k : Nat) : Prop where
  n_le : n ≤ 2 * 2 ^ x.mbits
  le_n : 0 < d → 2 ^ x.mbits ≤ n
  le_k : 2 ^ x.mbits ≤ k
  k_le : k ≤ 2 * 2 ^ x.mbits

theorem significands_of_bounds {x : FFormat} {neg : Bool} {v : ℝ} {ex q : Int} {d n k : Nat} (hlow : (2 : ℝ) ^ ex ≤ v) (hhigh : v < 2 ^ (ex + 1))
    (hq : q = max ex (1 - x.bias) - x.mbits) (hd : q = d + (1 - x.bias - x.mbits)) (hn : roundsTo 0 neg v (2 ^ q) n)
    (hk : roundsTo 0 neg v (2 ^ (ex - x.mbits)) k) : Significands x d n k := by
  have hunit : ∀ p : Int, (0 : ℝ) < 2 ^ p := fun p => zpow_pos two_pos p
  have hone : ∀ p : Int, ((2 ^ x.mbits : Nat) : ℝ) * 2 ^ p = 2 ^ (x.mbits + p) := fun p => by
    rw [Nat.cast_pow, Nat.cast_ofNat, ← zpow_natCast, ← zpow_add₀ two_ne_zero]
  have htwo : ∀ p : Int, ((2 * 2 ^ x.mbits : Nat) : ℝ) * 2 ^ p = 2 ^ (x.mbits + p + 1) := fun p => by
    rw [zpow_add_one₀ two_ne_zero, ← hone]; push_cast; ring
  have hmono : ∀ {a b : Int}, a ≤ b → (2 : ℝ) ^ a ≤ 2 ^ b := fun h => zpow_le_zpow_right₀ one_le_two h
  refine ⟨nearest_le (hunit q) hn ?_, fun hpos => le_nearest (hunit q) hn ?_, le_nearest (hunit _) hk ?_, nearest_le (hunit _) hk ?_⟩
  · rw [htwo]; exact hhigh.le.trans (hmono (by omega))
  · rw [hone]; exact (hmono (by omega)).trans hlow
  · rw [hone]; exact (hmono (by omega)).trans hlow
  · rw [htwo]; exact hhigh.le.trans (hmono (by omega))

/-- Tininess after rounding, as the model tests it (02 R31). -/
theorem tiny_iff {x : FFormat} {d n k : Nat} (h : Significands x d n k) (ex : Int) :
    (decide (ex < 1 - x.bias) && (decide (k < 2 ^ (x.mbits + 1)) || decide (ex + 1 < 1 - x.bias))) = true ↔ (k : ℝ) * 2 ^ (ex - x.mbits) < 2 ^ (1 - x.bias) := by
  have hunit : (0 : ℝ) < 2 ^ (ex - x.mbits) := zpow_pos two_pos _
  have hone : ((2 ^ x.mbits : Nat) : ℝ) * 2 ^ (ex - x.mbits) = 2 ^ ex := by
    rw [Nat.cast_pow, Nat.cast_ofNat, ← zpow_natCast, ← zpow_add₀ two_ne_zero]; congr 1; omega
  have htwo : ((2 * 2 ^ x.mbits : Nat) : ℝ) * 2 ^ (ex - x.mbits) = 2 ^ (ex + 1) := by
    rw [zpow_add_one₀ two_ne_zero, ← hone]; push_cast; ring
  have hlow : (2 : ℝ) ^ ex ≤ k * 2 ^ (ex - x.mbits) := hone ▸ mul_le_mul_of_nonneg_right (by exact_mod_cast h.le_k) hunit.le
  have hhigh : (k : ℝ) * 2 ^ (ex - x.mbits) ≤ 2 ^ (ex + 1) := htwo ▸ mul_le_mul_of_nonneg_right (by exact_mod_cast h.k_le) hunit.le
  simp only [Bool.and_eq_true, Bool.or_eq_true, decide_eq_true_eq]
  rcases lt_trichotomy (ex + 1) (1 - x.bias) with hlt | heq | hgt
  · exact ⟨fun _ => hhigh.trans_lt (zpow_lt_zpow_right₀ one_lt_two hlt), fun _ => ⟨by omega, .inr hlt⟩⟩
  · rw [← heq, ← htwo, mul_lt_mul_iff_left₀ hunit, Nat.cast_lt, pow_succ']
    omega
  · have hge : (2 : ℝ) ^ (1 - x.bias) ≤ k * 2 ^ (ex - x.mbits) := (zpow_le_zpow_right₀ one_le_two (by omega)).trans hlow
    exact ⟨fun hlt => absurd hlt.1 (by omega), fun hlt => absurd hge (not_le.mpr hlt)⟩

theorem zero_add_lt (x : FFormat) (neg : Bool) {b : Nat} (hb : b < (2 ^ x.ebits - 1) * 2 ^ x.mbits) : x.zero neg + b < 2 ^ x.width := by
  have hall : b < 2 ^ (x.ebits + x.mbits) := by
    rw [pow_add]
    exact hb.trans_le (Nat.mul_le_mul_right _ (Nat.sub_le _ _))
  unfold FFormat.width FFormat.zero
  rw [pow_succ]
  cases neg <;> simp only [Bool.toNat_true, Bool.toNat_false] <;> omega

/-- Rounding to nearest gives the bits and flags of the value rounded once. -/
theorem round_roundsIn {x : FFormat} (hx : 2 ≤ x.ebits) (neg : Bool) {m : Nat} (e : Int) (hm : m ≠ 0) :
    roundsIn x 0 ((FV.fin neg m e).rat : ℝ) (x.round 0 neg m e) := by
  intro neg' ex n k hneg hlow hhigh q u hn hk
  obtain rfl : neg = neg' := Bool.eq_iff_iff.mpr ((rat_fin_neg_iff neg e hm).symm.trans hneg.symm)
  rw [abs_rat_fin] at hlow hhigh hn hk ⊢
  obtain ⟨hlog, hlog'⟩ := log2_bounds (K := ℝ) hm e
  have hex : ex = m.log2 + e := exponent_unique hlow hhigh hlog hlog'
  obtain ⟨hround, hexact⟩ := roundTo_zero_spec neg m e q
  have hnr := roundsTo_zero_unique (zpow_pos two_pos q) hn hround
  have hkr := roundsTo_zero_unique (zpow_pos two_pos (ex - x.mbits)) hk (roundTo_zero_spec neg m e (ex - x.mbits)).1
  obtain ⟨d, hd⟩ : ∃ d : Nat, q = d + (1 - x.bias - x.mbits) := ⟨(q - (1 - x.bias - x.mbits)).toNat, by omega⟩
  have hsig := significands_of_bounds hlow hhigh rfl hd hn hk
  have hE : 2 ^ 2 ≤ 2 ^ x.ebits := Nat.pow_le_pow_right two_pos hx
  have hlimit : (n : ℝ) * 2 ^ q < 2 ^ (x.bias + 1) ↔ d * 2 ^ x.mbits + n < (2 ^ x.ebits - 1) * 2 ^ x.mbits := by
    rw [scaled_eq x n hd, limit_eq hx, mul_lt_mul_iff_left₀ (zpow_pos two_pos _), Nat.cast_lt,
      body_lt_iff _ (by positivity) (by omega) hsig.n_le hsig.le_n, show 2 ^ x.ebits - 2 + 1 = 2 ^ x.ebits - 1 by omega]
  rw [round_zero_eq x neg m e hex rfl hd hnr hkr]
  rw [← hnr] at hexact
  refine ⟨fun hfin => ?_, fun hover => ?_⟩
  · have hbody := hlimit.mp hfin
    rw [if_neg (not_le.mpr hbody)]
    obtain ⟨hfinite, hrat⟩ := unpack_finite x neg hbody
    refine ⟨hfinite, ?_, zero_add_lt x neg hbody, fun heq => ?_, fun hne => ?_⟩
    · rw [hrat, unitsOf_body x hsig.n_le hsig.le_n, mul_assoc, mul_assoc, scaled_eq x n hd]
    · rw [hexact.mpr heq]
      simp [fIf]
    · rw [Bool.eq_true_of_not_eq_false (mt hexact.mp hne), Bool.and_true]
      refine ⟨fun htiny => ?_, fun hbig => ?_⟩
      · rw [(tiny_iff hsig ex).mpr htiny]
        rfl
      · rw [Bool.eq_false_of_not_eq_true (mt (tiny_iff hsig ex).mp (not_lt.mpr hbig))]
        rfl
  · rw [if_pos (not_lt.mp (hlimit.not.mp (not_lt.mpr hover)))]
    exact ⟨rfl, by simp⟩

/-! Finite values and their products (02 R29). -/

theorem abs_rat (neg : Bool) (m : Nat) (e : Int) : |(FV.fin neg m e).rat| = m * 2 ^ e := by
  have hnonneg : (0 : ℚ) ≤ m * 2 ^ e := by positivity
  simp only [FV.rat, mul_assoc, abs_mul, abs_of_nonneg hnonneg]
  cases neg <;> simp

/-- The sign of a nonzero finite value. -/
theorem rat_lt_zero_iff (neg : Bool) {m : Nat} (e : Int) (hm : m ≠ 0) : (FV.fin neg m e).rat < 0 ↔ neg = true := by
  have h := rat_fin_neg_iff neg e hm
  rwa [Rat.cast_lt_zero] at h

theorem rat_eq_zero_iff (neg : Bool) (m : Nat) (e : Int) : (FV.fin neg m e).rat = 0 ↔ m = 0 := by
  rw [← abs_eq_zero, abs_rat, mul_eq_zero, Nat.cast_eq_zero]
  exact or_iff_left (zpow_ne_zero e two_ne_zero)

theorem sign_eq (neg : Bool) {m : Nat} (e : Int) (hm : m ≠ 0) : (if (FV.fin neg m e).rat < 0 then (-1 : ℚ) else 1) = if neg then -1 else 1 :=
  if_congr (rat_lt_zero_iff neg e hm) rfl rfl

theorem mul_of_finite {a b : FV} (ha : a.finite = true) (hb : b.finite = true) : (a.mul b).1.finite = true ∧ (a.mul b).1.rat = a.rat * b.rat := by
  cases a with
  | fin x m e =>
    cases b with
    | fin y n g =>
      refine ⟨rfl, ?_⟩
      simp only [FV.mul, FV.isNan, FV.neg, Bool.or_self, Bool.false_eq_true, if_false, FV.rat, Nat.cast_mul, zpow_add₀ (two_ne_zero (α := ℚ))]
      cases x <;> cases y <;> simp <;> ring
    | zero y => exact ⟨rfl, by simp [FV.mul, FV.isNan, FV.rat]⟩
    | _ => cases hb
  | zero x =>
    cases b with
    | fin y n g => exact ⟨rfl, by simp [FV.mul, FV.isNan, FV.rat]⟩
    | zero y => exact ⟨rfl, by simp [FV.mul, FV.isNan, FV.rat]⟩
    | _ => cases hb
  | _ => cases ha

theorem inf_mul {z : Bool} {b : FV} (hb : b.finite = true) (hne : b.rat ≠ 0) : ((FV.inf z).mul b).1 = .inf (z != b.neg) ∧ (b.mul (.inf z)).1 = .inf (b.neg != z) := by
  cases b with
  | fin y n g => exact ⟨rfl, rfl⟩
  | zero y => exact absurd rfl hne
  | _ => cases hb

/-! Values cut to units (02 R30, R41, R43). -/

theorem roundTo_one_spec (neg : Bool) (m : Nat) (e q : Int) :
    ((roundTo 1 neg m e q).1 : ℚ) * 2 ^ q ≤ m * 2 ^ e ∧ (m : ℚ) * 2 ^ e < ((roundTo 1 neg m e q).1 + 1) * 2 ^ q := by
  have he : (0 : ℚ) < 2 ^ e := zpow_pos two_pos e
  rcases le_or_gt q e with hle | hlt
  · have hq : (0 : ℚ) < 2 ^ q := zpow_pos two_pos q
    have hexact : ((m * 2 ^ (e - q).toNat : Nat) : ℚ) * 2 ^ q = m * 2 ^ e := by rw [two_zpow_shift hle]; push_cast; ring
    rw [roundTo_of_le 1 neg m hle, add_mul, hexact]
    exact ⟨le_rfl, by linarith⟩
  · rw [roundTo_one_of_lt neg m hlt, two_zpow_shift hlt.le, ← mul_assoc, ← mul_assoc]
    have hs : 0 < 2 ^ (q - e).toNat := by positivity
    refine ⟨mul_le_mul_of_nonneg_right ?_ he.le, mul_lt_mul_of_pos_right ?_ he⟩
    · exact_mod_cast Nat.div_mul_le_self m _
    · exact_mod_cast Nat.lt_mul_of_div_lt (Nat.lt_succ_self _) hs

theorem roundTo_one_eq_floor (neg : Bool) (m : Nat) (e q : Int) : ((roundTo 1 neg m e q).1 : Int) = ⌊(m : ℚ) * 2 ^ e / 2 ^ q⌋ := by
  have hq : (0 : ℚ) < 2 ^ q := zpow_pos two_pos q
  obtain ⟨hle, hlt⟩ := roundTo_one_spec neg m e q
  symm
  rw [Int.floor_eq_iff, le_div_iff₀ hq, div_lt_iff₀ hq]
  exact ⟨by exact_mod_cast hle, by exact_mod_cast hlt⟩

/-- A product cut to eight significant bits (02 R41). -/
def cutProduct : FV → FV
  | .fin neg m e => .fin neg (roundTo 1 neg m e (m.log2 + e - 7)).1 (m.log2 + e - 7)
  | x => x

/-- A value that is no escape, expanded with a scale (02 R41). -/
theorem expand_eq {n : Narrow} {c : Nat} (sc : FV) (h : n.decode c ≠ .esc) :
    expand n c sc = if (n.decode c).isNan || sc.isNan then .nan false else cutProduct ((n.decode c).mul sc).1 := by
  unfold expand
  split
  · next hesc => exact absurd hesc h
  · split
    · rfl
    · unfold cutProduct
      rfl

theorem expand_esc {n : Narrow} {c : Nat} (sc : FV) (h : n.decode c = .esc) : expand n c sc = .esc := by
  unfold expand
  rw [h]

theorem expand_nan {n : Narrow} {c : Nat} {sc : FV} (h : n.decode c ≠ .esc) (hnan : (n.decode c).isNan = true ∨ sc.isNan = true) : expand n c sc = .nan false := by
  rw [expand_eq sc h, if_pos (Bool.or_eq_true _ _ ▸ hnan)]

theorem expand_number {n : Narrow} {c : Nat} {v sc : FV} (hv : n.decode c = v) (hn : v.isNan = false) (hs : sc.isNan = false) :
    expand n c sc = cutProduct (v.mul sc).1 := by
  have hne : n.decode c ≠ .esc := by
    rintro h
    rw [← hv, h] at hn
    cases hn
  rw [expand_eq sc hne, hv, hn, hs]
  rfl

theorem isNan_of_finite {v : FV} (h : v.finite = true) : v.isNan = false := by
  cases v with
  | fin _ _ _ => rfl
  | zero _ => rfl
  | _ => cases h

theorem cutProduct_spec {p : FV} (hp : p.finite = true) : (cutProduct p).finite = true ∧ (p.rat = 0 → (cutProduct p).rat = 0) ∧
    ∀ ex : Int, 2 ^ ex ≤ |p.rat| → |p.rat| < 2 ^ (ex + 1) → ∃ k : Nat, k * 2 ^ (ex - 7) ≤ |p.rat| ∧ |p.rat| < (k + 1) * 2 ^ (ex - 7) ∧
      (cutProduct p).rat = (if p.rat < 0 then -1 else 1) * k * 2 ^ (ex - 7) := by
  cases p with
  | fin neg m e =>
    refine ⟨rfl, fun hzero => ?_, fun ex hlow hhigh => ?_⟩
    · obtain rfl := (rat_eq_zero_iff neg m e).mp hzero
      have hfloor := roundTo_one_eq_floor neg 0 e ((Nat.log2 0 : Int) + e - 7)
      rw [cutProduct, rat_eq_zero_iff]
      simpa using hfloor
    · rw [abs_rat] at hlow hhigh ⊢
      have hm : m ≠ 0 := by
        rintro rfl
        have hpos : (0 : ℚ) < 2 ^ ex := zpow_pos two_pos ex
        simp at hlow
        linarith
      obtain ⟨hlog, hlog'⟩ := log2_bounds (K := ℚ) hm e
      obtain rfl : ex = m.log2 + e := exponent_unique hlow hhigh hlog hlog'
      obtain ⟨hle, hlt⟩ := roundTo_one_spec neg m e (m.log2 + e - 7)
      refine ⟨_, hle, hlt, ?_⟩
      rw [sign_eq neg e hm]
      rfl
  | zero z =>
    refine ⟨rfl, fun _ => rfl, fun ex hlow => ?_⟩
    have hpos : (0 : ℚ) < 2 ^ ex := zpow_pos two_pos ex
    simp [FV.rat] at hlow
    linarith
  | _ => cases hp

/-! The dense sum of a K-block (02 R42, R43). -/

theorem exponentOf_fin {p : FV} (hp : p.finite = true) (hne : p.rat ≠ 0) : ∃ a, exponentOf p = some a ∧ 2 ^ a ≤ |p.rat| ∧ |p.rat| < 2 ^ (a + 1) := by
  cases p with
  | fin neg m e =>
    rw [abs_rat]
    exact ⟨m.log2 + e, rfl, log2_bounds (mt (rat_eq_zero_iff neg m e).mpr hne) e⟩
  | zero z => exact absurd rfl hne
  | _ => cases hp

theorem greatestExponent_eq_none (ps : List FV) (h : ∀ p ∈ ps, exponentOf p = none) : greatestExponent ps = none := by
  induction ps with
  | nil => rfl
  | cons p r ih => simp [greatestExponent, h p, ih fun q hq => h q (List.mem_cons_of_mem _ hq)]

theorem greatestExponent_le {ps : List FV} {b : Int} (h : ∀ p ∈ ps, ∀ a, exponentOf p = some a → a ≤ b) : ∀ a, greatestExponent ps = some a → a ≤ b := by
  induction ps with
  | nil => simp [greatestExponent]
  | cons p r ih =>
    have hr := ih fun q hq => h q (List.mem_cons_of_mem _ hq)
    have hp := h p List.mem_cons_self
    intro a ha
    unfold greatestExponent at ha
    split at ha
    · next x y hx hy =>
      obtain rfl := Option.some.inj ha
      exact max_le (hp x hx) (hr y hy)
    · next hx _ => exact hp a (hx.trans ha)
    · exact hr a ha

theorem le_greatestExponent {ps : List FV} {p : FV} {a : Int} (hp : p ∈ ps) (ha : exponentOf p = some a) : ∃ b, greatestExponent ps = some b ∧ a ≤ b := by
  induction ps with
  | nil => cases hp
  | cons q r ih =>
    unfold greatestExponent
    rcases List.mem_cons.mp hp with rfl | hp
    · rw [ha]
      cases greatestExponent r with
      | none => exact ⟨a, rfl, le_rfl⟩
      | some b => exact ⟨max a b, rfl, le_max_left _ _⟩
    · obtain ⟨b, hb, hab⟩ := ih hp
      rw [hb]
      cases exponentOf q with
      | none => exact ⟨b, rfl, hab⟩
      | some x => exact ⟨max x b, rfl, hab.trans (le_max_right _ _)⟩

/-- The greatest exponent of finite products whose zeros have none (02 R42). -/
theorem greatestExponent_eq_some {ps : List FV} {ex : Int} (hfin : ∀ p ∈ ps, p.finite = true) (hzero : ∀ p ∈ ps, p.rat = 0 → exponentOf p = none)
    (hlow : ∃ p ∈ ps, 2 ^ ex ≤ |p.rat|) (hhigh : ∀ p ∈ ps, |p.rat| < 2 ^ (ex + 1)) : greatestExponent ps = some ex := by
  obtain ⟨p, hp, hlow⟩ := hlow
  have hpos : (0 : ℚ) < 2 ^ ex := zpow_pos two_pos ex
  obtain ⟨a, ha, hale, hlt⟩ := exponentOf_fin (hfin p hp) (abs_pos.mp (hpos.trans_le hlow))
  obtain rfl : a = ex := exponent_unique hale hlt hlow (hhigh p hp)
  obtain ⟨b, hb, hab⟩ := le_greatestExponent hp ha
  have hba : b ≤ a := by
    refine greatestExponent_le (fun q hq c hc => ?_) b hb
    have hne : q.rat ≠ 0 := fun h => Option.some_ne_none c (hc.symm.trans (hzero q hq h))
    obtain ⟨d, hd, hdle, -⟩ := exponentOf_fin (hfin q hq) hne
    obtain rfl : d = c := Option.some.inj (hd.symm.trans hc)
    exact exponent_le hdle (hhigh q hq)
  rw [hb, le_antisymm hba hab]

theorem truncated_eq {p : FV} (hp : p.finite = true) (q : Int) : (truncated q p : ℚ) = (if p.rat < 0 then -1 else 1) * (⌊|p.rat| / 2 ^ q⌋ : ℚ) := by
  cases p with
  | fin neg m e =>
    rw [abs_rat, ← roundTo_one_eq_floor neg]
    by_cases hm : m = 0
    · subst hm
      have hfloor := roundTo_one_eq_floor neg 0 e q
      have hcut : (roundTo 1 neg 0 e q).1 = 0 := by simpa using hfloor
      simp [truncated, signed, hcut]
    · rw [sign_eq neg e hm]
      unfold truncated signed
      cases neg <;> simp
  | zero z => simp [truncated, FV.rat]
  | _ => cases hp

theorem cast_foldl_add (f : FV → Int) (ps : List FV) : (ps.foldl (fun t p => t + f p) 0 : Int) = (ps.map f).sum := by
  rw [← List.foldl_map (f := f) (g := fun t v => t + v), List.sum_eq_foldl]

/-- The exact sum of a K-block's products, cut at 39 places below the greatest exponent (02 R42). -/
def cutSum (ps : List FV) (q : Int) : ℚ := (ps.map fun p => (if p.rat < 0 then -1 else 1) * (⌊|p.rat| / 2 ^ q⌋ : ℚ) * 2 ^ q).sum

theorem cutSum_eq {ps : List FV} (hfin : ∀ p ∈ ps, p.finite = true) (q : Int) : cutSum ps q = (ps.foldl (fun t p => t + truncated q p) 0 : Int) * 2 ^ q := by
  rw [cast_foldl_add]
  unfold cutSum
  induction ps with
  | nil => simp
  | cons p r ih =>
    rw [List.map_cons, List.sum_cons, List.map_cons, List.sum_cons, ih fun x hx => hfin x (List.mem_cons_of_mem _ hx), ← truncated_eq (hfin p List.mem_cons_self)]
    push_cast
    ring

theorem ofInt_rat {i : Int} (e : Int) (z : Bool) : (FV.ofInt i e z).rat = i * 2 ^ e := by
  unfold FV.ofInt
  split
  · next h => simp [FV.rat, h]
  · have hcast : ((i.natAbs : ℕ) : ℚ) = |(i : ℚ)| := by rw [← Int.cast_abs, Int.abs_eq_natAbs, Int.cast_natCast]
    simp only [FV.rat, hcast, decide_eq_true_eq]
    split
    · next h => rw [abs_of_neg (by exact_mod_cast h)]; ring
    · next h => rw [abs_of_nonneg (by exact_mod_cast not_lt.mp h)]; ring

theorem rne32_ofInt_zero (e : Int) : rne32 (FV.ofInt 0 e false) = 0 := by
  rfl

theorem rne32_fin (neg : Bool) {m : Nat} (e : Int) (hm : m ≠ 0) : rne32 (.fin neg m e) = (f32.round 0 neg m e).1 := congrArg Prod.fst (if_neg hm)

theorem rne32_ofInt_roundsIn {i : Int} (e : Int) (hi : i ≠ 0) : ∃ fl, roundsIn f32 0 ((i * 2 ^ e : ℚ) : ℝ) (rne32 (FV.ofInt i e false), fl) := by
  have habs := Int.natAbs_ne_zero.mpr hi
  have hround := round_roundsIn (x := f32) (by decide) (decide (i < 0)) e habs
  have hof : FV.ofInt i e false = .fin (decide (i < 0)) i.natAbs e := if_neg hi
  rw [← hof, ofInt_rat] at hround
  rw [hof, rne32_fin _ e habs]
  exact ⟨_, hround⟩

/-- A block whose sum is a NaN: one of its products is, or it holds both infinities. -/
def NanBlock (ps : List FV) : Prop := (∃ p ∈ ps, p.isNan = true) ∨ FV.inf false ∈ ps ∧ FV.inf true ∈ ps

theorem blockSum_nan {ps : List FV} (h : NanBlock ps) : blockSum ps = 0x7FC00000 := by
  unfold blockSum
  have hbad : (ps.any FV.isNan || (ps.contains (.inf false) && ps.contains (.inf true))) = true := by
    rw [Bool.or_eq_true, Bool.and_eq_true, List.any_eq_true, List.contains_iff_mem, List.contains_iff_mem]
    exact h
  exact if_pos hbad

theorem blockSum_number {ps : List FV} (h : ¬NanBlock ps) : blockSum ps = if FV.inf false ∈ ps then 0x7F800000 else if FV.inf true ∈ ps then 0xFF800000 else
    match greatestExponent ps with
    | none => 0
    | some emax => rne32 (FV.ofInt (ps.foldl (fun t p => t + truncated (emax - 39) p) 0) (emax - 39) false) := by
  unfold blockSum
  have hgood : ¬(ps.any FV.isNan || (ps.contains (.inf false) && ps.contains (.inf true))) = true := by
    rw [Bool.or_eq_true, Bool.and_eq_true, List.any_eq_true, List.contains_iff_mem, List.contains_iff_mem]
    exact h
  simp only [if_neg hgood, List.contains_iff_mem]
  rfl

theorem finite_of_no_special {p : FV} (hnan : p.isNan = false) (hpos : p ≠ .inf false) (hneg : p ≠ .inf true) : p.finite = true := by
  cases p with
  | inf z => cases z <;> contradiction
  | fin _ _ _ => rfl
  | zero _ => rfl
  | _ => cases hnan

theorem finite_of_mem {ps : List FV} (h : ¬NanBlock ps) (hpos : FV.inf false ∉ ps) (hneg : FV.inf true ∉ ps) : ∀ p ∈ ps, p.finite = true := fun p hp =>
  finite_of_no_special (Bool.eq_false_of_not_eq_true fun hn => h (.inl ⟨p, hp, hn⟩)) (fun he => hpos (he ▸ hp)) fun he => hneg (he ▸ hp)

theorem blockSum_zeros {ps : List FV} (h : ¬NanBlock ps) (hpos : FV.inf false ∉ ps) (hneg : FV.inf true ∉ ps) (hnone : ∀ p ∈ ps, exponentOf p = none) :
    blockSum ps = 0 := by
  rw [blockSum_number h, if_neg hpos, if_neg hneg, greatestExponent_eq_none ps hnone]

theorem blockSum_finite {ps : List FV} {ex : Int} (h : ¬NanBlock ps) (hpos : FV.inf false ∉ ps) (hneg : FV.inf true ∉ ps)
    (hzero : ∀ p ∈ ps, p.rat = 0 → exponentOf p = none) (hlow : ∃ p ∈ ps, 2 ^ ex ≤ |p.rat|) (hhigh : ∀ p ∈ ps, |p.rat| < 2 ^ (ex + 1)) :
    (cutSum ps (ex - 39) = 0 → blockSum ps = 0) ∧
    (cutSum ps (ex - 39) ≠ 0 → ∃ fl, roundsIn f32 0 ((cutSum ps (ex - 39) : ℚ) : ℝ) (blockSum ps, fl)) := by
  have hfin := finite_of_mem h hpos hneg
  rw [blockSum_number h, if_neg hpos, if_neg hneg, greatestExponent_eq_some hfin hzero hlow hhigh, cutSum_eq hfin]
  dsimp only
  generalize ps.foldl (fun t p => t + truncated (ex - 39) p) 0 = i
  refine ⟨fun hsum => ?_, fun hsum => rne32_ofInt_roundsIn _ ?_⟩
  · have hi : i = 0 := by simpa [zpow_ne_zero] using hsum
    rw [hi]
    exact rne32_ofInt_zero _
  · rintro rfl
    simp at hsum

/-! Scales (02 R37). -/

theorem scaleValue_one {b : Nat} (hb : b < 255) : scaleValue 1 b = .fin false 1 ((b : Int) - 127) := by
  unfold scaleValue
  rw [if_pos rfl, if_neg (by omega)]

/-! The sum over K-blocks and their sprue steps (02 R42). -/

/-- The sprue step of one term. -/
def sprueStep (s : Nat) (t : Term) : Nat :=
  if t.a = .esc ∧ t.b = .esc then mulAdd s t.wa t.wb else if t.a = .esc then mulAdd s t.wa t.b else if t.b = .esc then mulAdd s t.a t.wb else s

theorem sprueSteps_eq_foldl (s : Nat) (ts : List Term) : sprueSteps s ts = ts.foldl sprueStep s := by
  induction ts generalizing s with
  | nil => rfl
  | cons t r ih =>
    simp only [sprueSteps, ih, List.foldl_cons, sprueStep, Bool.and_eq_true, decide_eq_true_eq]

theorem addBlock_eq (acc : Nat) (ts : List Term) : addBlock acc ts =
    rne32 (FV.add 0 (f32.unpack acc) (f32.unpack (ts.foldl sprueStep (blockSum (ts.map fun t => ((dense t.a).mul (dense t.b)).1))))).1 := by
  rw [addBlock, sprueSteps_eq_foldl]

theorem matrixSum_eq_foldl (n acc : Nat) (ts : List Term) (h : ts.length ≤ 32 * n) :
    matrixSum n acc ts = (List.range ((ts.length + 31) / 32)).foldl (fun v b => addBlock v ((ts.drop (32 * b)).take 32)) acc := by
  induction n generalizing acc ts with
  | zero =>
    obtain rfl := List.length_eq_zero_iff.mp (Nat.le_zero.mp h)
    rfl
  | succ n ih =>
    cases ts with
    | nil => rfl
    | cons t r =>
      have hrest := ih (addBlock acc ((t :: r).take 32)) ((t :: r).drop 32) (by rw [List.length_drop]; omega)
      rw [matrixSum, hrest, List.length_drop]
      · rw [show ((t :: r).length + 31) / 32 = ((t :: r).length - 32 + 31) / 32 + 1 by simp only [List.length_cons]; omega, List.range_succ_eq_map,
          List.foldl_cons, List.foldl_map, Nat.mul_zero, List.drop_zero]
        simp only [List.drop_drop, Nat.mul_succ, Nat.add_comm]
      · simp

/-! The fields of a record that start at bit 0 (01 R18). -/

theorem field_zero (v n : Nat) : field v 0 n = v % 2 ^ n := by rw [field, pow_zero, Nat.div_one]

theorem recRows_eq (w : List Word) : recRows w = (w.getD 1 0).toNat % 2 ^ 16 := field_zero _ _

theorem recNarrow_eq (w : List Word) : recNarrow w = narrowOf ((w.getD 2 0).toNat % 2 ^ 32) := congrArg narrowOf (field_zero _ _)

/-! The elements of an operand (01 R19, R20; 02 R37, R41). -/

theorem elementOf_narrow {op : Operand} (colBlocks : Bool) (i j row : Nat) (h : recKind op.rec_ = 0) : elementOf op colBlocks i j row =
    expand (recNarrow op.rec_) (rowCode (recNarrow op.rec_).w row j)
      (scaleValue (recNarrow op.rec_).scf (op.scales.getD (scaleIndex op.rec_ colBlocks i j) 0)) := by
  simp only [elementOf, recBits, recScf, h, if_true]

theorem sprueOf_first {op : Operand} {i j e : Nat} {l r : List (Nat × Nat)}
    (h : op.sprues.getD (i / 128 * recTileCols op.rec_ + j / 128) [] = l ++ (i % 128 * 128 + j % 128, e) :: r)
    (hl : ∀ x ∈ l, x.1 ≠ i % 128 * 128 + j % 128) : sprueOf op i j = f32.unpack e := by
  have hfind : (l ++ (i % 128 * 128 + j % 128, e) :: r).find? (fun x => x.1 == i % 128 * 128 + j % 128) = some (i % 128 * 128 + j % 128, e) :=
    List.find?_eq_some_iff_append.mpr ⟨by simp, l, r, rfl, by simpa using hl⟩
  simp only [sprueOf, h, hfind]

/-! Regions (10 R233). -/

theorem regOutside_iff (g : Word) (n : Nat) : regOutside g n = true ↔ 2 * (n % regRowWords g) + 1 = regCols g := by
  unfold regOutside regRowWords
  rw [Bool.and_eq_true, beq_iff_eq, beq_iff_eq]
  have hmod := Nat.mod_lt n (y := (regCols g + 1) / 2)
  omega

/-! The rows of an operand that a running job reads (10 R238, R240). -/

theorem range_split {i m : Nat} (h : i < m) : List.range m = List.range i ++ i :: List.range' (i + 1) (m - i - 1) := by
  have hjoin := List.range'_append_1 (s := 0) (m := i) (n := m - i)
  rw [Nat.zero_add, Nat.add_sub_cancel' h.le] at hjoin
  rw [List.range_eq_range', List.range_eq_range', ← List.range'_succ, show m - i - 1 + 1 = m - i by omega, hjoin]

/-- The first entry of a table, row by row, at which a test holds. -/
theorem find_rows {α : Type} (p : α → Bool) (f : Nat → Nat → α) {m n i k : Nat} (hi : i < m) (hk : k < n) (hp : p (f i k) = true)
    (hbefore : ∀ i' < m, ∀ k' < n, i' < i ∨ i' = i ∧ k' < k → p (f i' k') = false) :
    ((List.range m).flatMap fun i => (List.range n).map (f i)).find? p = some (f i k) := by
  have hrow : (List.range n).map (f i) = (List.range k).map (f i) ++ f i k :: (List.range' (k + 1) (n - k - 1)).map (f i) := by
    rw [range_split hk, List.map_append, List.map_cons]
  rw [List.find?_eq_some_iff_append]
  refine ⟨hp, ((List.range i).flatMap fun i => (List.range n).map (f i)) ++ (List.range k).map (f i),
    (List.range' (k + 1) (n - k - 1)).map (f i) ++ (List.range' (i + 1) (m - i - 1)).flatMap fun i => (List.range n).map (f i), ?_, fun a ha => ?_⟩
  · rw [range_split hi, List.flatMap_append, List.flatMap_cons, hrow]
    simp only [List.append_assoc, List.cons_append]
  · rw [Bool.not_eq_true']
    rcases List.mem_append.mp ha with ha | ha
    · obtain ⟨i', hi', ha⟩ := List.mem_flatMap.mp ha
      obtain ⟨k', hk', rfl⟩ := List.mem_map.mp ha
      rw [List.mem_range] at hi' hk'
      exact hbefore i' (hi'.trans hi) k' hk' (.inl hi')
    · obtain ⟨k', hk', rfl⟩ := List.mem_map.mp ha
      rw [List.mem_range] at hk'
      exact hbefore i hi k' (hk'.trans hk) (.inr ⟨rfl, hk'⟩)

theorem find_rows_none {α : Type} (p : α → Bool) (f : Nat → Nat → α) {m n : Nat} (h : ∀ i < m, ∀ k < n, p (f i k) = false) :
    ((List.range m).flatMap fun i => (List.range n).map (f i)).find? p = none := by
  rw [List.find?_eq_none]
  intro a ha
  obtain ⟨i, hi, ha⟩ := List.mem_flatMap.mp ha
  obtain ⟨k, hk, rfl⟩ := List.mem_map.mp ha
  rw [List.mem_range] at hi hk
  rw [h i hi k hk]
  exact Bool.false_ne_true

/-- The VA of word `k` of row `i` of operand data. -/
def dataVa (w : List Word) (i k : Nat) : Nat := recBase w + i * recStride w + 8 * k

theorem dataWords_eq (w : List Word) : dataWords w = (List.range (recRows w)).flatMap fun i => (List.range ((recRowBytes w + 7) / 8)).map (dataVa w i) := rfl

theorem runRows_poison {s : State} {cid : Nat} {op : Operand} (feed : List Nat) {va : Nat} (hring : recRing op.rec_ = false)
    (hheld : s.engineHeld cid (recBase op.rec_) = false) (hfind : ((dataWords op.rec_).find? fun va => s.enginePoison cid va) = some va) :
    s.runRows cid op feed = .error (Cause.poison, va) := by
  simp [State.runRows, hring, hheld, hfind]

theorem runRows_ok {s : State} {cid : Nat} {op : Operand} (feed : List Nat) (hring : recRing op.rec_ = false) (hheld : s.engineHeld cid (recBase op.rec_) = false)
    (hfind : ((dataWords op.rec_).find? fun va => s.enginePoison cid va) = none) (hescapes : recEscapes op.rec_ = false) :
    s.runRows cid op feed = .ok (s.dataRows cid op.rec_) := by
  simp [State.runRows, hring, hheld, hfind, hescapes]

/-! The values of a job whose operands have been read (10 R237). -/

theorem jobValues_pair {s : State} {j : Job} {a b : Operand} {ra rb : List Nat} (ha : j.a = some a) (hb : j.bs = [b])
    (hra : s.runRows j.cid a j.feedA = .ok ra) (hrb : s.runRows j.cid b j.feedB = .ok rb) : s.jobValues j = .ok (j.element a ra [rb]) := by
  simp only [State.jobValues, ha, hb, State.runAll, hra, hrb]
  rfl

theorem element_pair {j : Job} {b : Operand} (a : Operand) (ra rb : List Nat) (hkind : j.kind ≠ 1) (hb : j.bs = [b]) (x y : Nat) :
    j.element a ra [rb] x y = matrixSum ((recCols a.rec_ + 31) / 32) (if j.acc then regOld j.region j.old x y else 0)
      (termsOf a b (j.kind == 2) ra rb x y 0 (recCols a.rec_)) := by
  simp only [Job.element, if_neg hkind, hb]
  rfl

theorem termsOf_eq (a b : Operand) (kind : Nat) (ra rb : List Nat) (x y n : Nat) : termsOf a b (kind == 2) ra rb x y 0 n =
    (List.range n).map fun k => ⟨elementOf a false x k (ra.getD x 0),
      elementOf b (kind != 2) (if kind = 2 then (y, k) else (k, y)).1 (if kind = 2 then (y, k) else (k, y)).2 (rb.getD (if kind = 2 then (y, k) else (k, y)).1 0),
      sprueOf a x k, sprueOf b (if kind = 2 then (y, k) else (k, y)).1 (if kind = 2 then (y, k) else (k, y)).2⟩ := by
  unfold termsOf
  refine List.map_congr_left fun k _ => ?_
  by_cases h : kind = 2 <;> simp [h, bne]

/-- Settles O51, by one lemma for each function of a matrix sum. -/
theorem matrixSums : Obligations.MatrixSums := by
  refine ⟨?scales, fun _ => rfl, ?expand, ?block, ?sum, ?elements, ?regions, ?rows, ?values⟩
  case scales =>
    intro b _
    refine ⟨rfl, fun h => h ▸ rfl, fun h => ?_⟩
    rw [scaleValue_one h]
    exact ⟨rfl, by simp [FV.rat]⟩
  case expand =>
    intro n c sc v r x
    refine ⟨fun hv => expand_esc sc hv, fun hne hnan => expand_nan hne hnan, ?_, fun z hz hv hne => ?_, fun z hz hsc hne => ?_, fun hv hsc => ?_⟩
    · rintro (⟨y, hy, z, rfl⟩ | ⟨y, hy, z, rfl⟩)
      · exact expand_number hy rfl rfl
      · exact expand_number hy rfl rfl
    · rw [show r = cutProduct (v.mul sc).1 from expand_number rfl (isNan_of_finite hv) (hz ▸ rfl), hz, (inf_mul hv hne).2]
      rfl
    · rw [show r = cutProduct (v.mul sc).1 from expand_number rfl (hz ▸ rfl) (isNan_of_finite hsc), hz, (inf_mul hsc hne).1]
      rfl
    · obtain ⟨hfin, hrat⟩ := mul_of_finite hv hsc
      rw [show r = cutProduct (v.mul sc).1 from expand_number rfl (isNan_of_finite hv) (isNan_of_finite hsc), show x = (v.mul sc).1.rat from hrat.symm]
      exact cutProduct_spec hfin
  case block =>
    intro ps pos neg bad
    refine ⟨fun h => blockSum_nan h, fun h hpos => ?_, fun h hneg => ?_, fun h hpos hneg hzero => ⟨fun hall => ?_, fun ex hlow hhigh => ?_⟩⟩
    · rw [blockSum_number h, if_pos hpos]
    · rw [blockSum_number h, if_neg fun hpos => h (.inr ⟨hpos, hneg⟩), if_pos hneg]
    · exact blockSum_zeros h hpos hneg fun p hp => hzero p hp (hall p hp)
    · exact blockSum_finite h hpos hneg hzero hlow hhigh
  case sum => exact fun acc n ts => ⟨addBlock_eq acc ts, matrixSum_eq_foldl n acc ts⟩
  case elements =>
    intro op cols i j row h rows_ cols_ f kind b up scale v tile
    have hf : recNarrow op.rec_ = f := recNarrow_eq op.rec_
    have hscale : scaleIndex op.rec_ cols i j = scale := by
      unfold scaleIndex
      rw [hf, recRows_eq]
      rfl
    refine ⟨fun hk => by rw [← hf, ← hscale]; exact elementOf_narrow cols i j row hk, fun hk => ?_, fun hk => ?_, fun hk => ?_, fun l e r hsplit hl => sprueOf_first hsplit hl⟩
    all_goals
      have hkind : recKind op.rec_ = _ := hk
      simp only [v, elementOf, recBits, hkind]
      rfl
  case regions =>
    intro g old value n f cols_ per
    refine ⟨rfl, ?_⟩
    unfold regWordValue
    simp only [regOutside_iff]
    rfl
  case rows =>
    intro s cid op feed w h stride rows_ cols_ kind bits n row poisoned hring hheld
    have hring' : recRing op.rec_ = false := (LaunchProofs.bit_toNat _ _).trans hring
    have hrows : rows_ = recRows w := (recRows_eq w).symm
    have hn : n = recRowBytes w := by
      unfold recRowBytes recBits
      rw [recNarrow_eq]
      rfl
    clear_value rows_ n
    subst hrows hn
    refine ⟨fun i hi k hk hp hbefore => ?_, fun hsound hescapes => ?_⟩
    · exact runRows_poison feed hring' hheld (find_rows _ (dataVa w) hi hk hp hbefore)
    · refine runRows_ok feed hring' hheld (find_rows_none _ (dataVa w) hsound) (Bool.eq_false_of_not_eq_true fun h => hescapes ?_)
      rwa [recEscapes, recNarrow_eq, Bool.and_eq_true, beq_iff_eq, beq_iff_eq] at h
  case values =>
    intro s j a b ra rb hkind ha hb hra hrb
    refine ⟨_, jobValues_pair ha hb hra hrb, fun x y => ?_⟩
    rw [element_pair a ra rb hkind hb, termsOf_eq]
    rfl

end Sys2Proof.SumProofs
end

section
/-!
PROOFS. Rounding in the four modes (02 R28 to R31): to units, once to a format with its flags and its sign bit, and to an integral value of the
format (08 R190); then the obligation O19.
-/
namespace Sys2Proof.RoundingProofs
open Sys2Proof Sys2Proof.Machine Sys2Proof.SumProofs

/-! Rounding to units in the four modes (02 R30). -/

/-- Whether the cut part `r`, in units of `1 / s`, carries into the significand `lo`. -/
def carries (rm : Nat) (neg : Bool) (lo r s : Nat) : Bool :=
  match rm with
  | 0 => 2 * r > s || (2 * r == s && lo % 2 == 1)
  | 1 => false
  | 2 => neg && r != 0
  | _ => !neg && r != 0

theorem roundTo_of_lt (rm : Nat) (neg : Bool) (m : Nat) {e q : Int} (h : e < q) :
    roundTo rm neg m e q = (m / 2 ^ (q - e).toNat + (carries rm neg (m / 2 ^ (q - e).toNat) (m % 2 ^ (q - e).toNat) (2 ^ (q - e).toNat)).toNat,
      m % 2 ^ (q - e).toNat != 0) := by
  unfold roundTo
  rw [if_neg (not_le.mpr h)]
  rfl

/-- `r` of `s` parts lies where the fraction `t` does, as far as rounding asks: at zero or not, below, at or above one half. -/
structure FractionOf (t : ℝ) (r s : Nat) : Prop where
  nonneg : 0 ≤ t
  lt_one : t < 1
  zero_iff : t = 0 ↔ r = 0
  half_lt_iff : 1 < 2 * t ↔ s < 2 * r
  half_iff : 2 * t = 1 ↔ 2 * r = s

theorem fractionOf_zero : FractionOf 0 0 1 := ⟨le_rfl, one_pos, by simp, by norm_num, by norm_num⟩

theorem fractionOf_mod (m : Nat) {s : Nat} (hs : 0 < s) : FractionOf ((m % s : Nat) / s) (m % s) s := by
  have hlt := Nat.mod_lt m hs
  generalize m % s = r at hlt ⊢
  have hsr : (0 : ℝ) < s := by exact_mod_cast hs
  refine ⟨by positivity, (div_lt_one hsr).mpr (by exact_mod_cast hlt), ?_, ?_, ?_⟩
  · rw [div_eq_zero_iff, or_iff_left hsr.ne', Nat.cast_eq_zero]
  · rw [← mul_div_assoc, one_lt_div hsr]
    exact_mod_cast Iff.rfl
  · rw [← mul_div_assoc, div_eq_one_iff_eq hsr.ne']
    exact_mod_cast Iff.rfl

theorem floor_of_fraction {lo r s : Nat} {u t : ℝ} (hu : 0 < u) (h : FractionOf t r s) : (lo : ℝ) * u ≤ (lo + t) * u ∧ (lo + t) * u < (lo + 1) * u :=
  ⟨mul_le_mul_of_nonneg_right (by linarith [h.nonneg]) hu.le, mul_lt_mul_of_pos_right (by linarith [h.lt_one]) hu⟩

theorem ceil_of_fraction {lo r s : Nat} {u t : ℝ} (hu : 0 < u) (h : FractionOf t r s) :
    (lo + t) * u ≤ (lo + (r != 0).toNat : Nat) * u ∧ ((lo + (r != 0).toNat : Nat) - 1) * u < (lo + t) * u := by
  have hone := h.lt_one
  rw [mul_le_mul_iff_left₀ hu, mul_lt_mul_iff_left₀ hu]
  by_cases hr : r = 0
  · rw [h.zero_iff.mpr hr, hr]
    simp
  · have hpos : 0 < t := lt_of_le_of_ne h.nonneg (Ne.symm (mt h.zero_iff.mp hr))
    rw [bne_iff_ne.mpr hr, Bool.toNat_true]
    push_cast
    constructor <;> linarith

theorem nearest_of_fraction {lo r s : Nat} {u t : ℝ} (neg : Bool) (hu : 0 < u) (h : FractionOf t r s) :
    roundsTo 0 neg ((lo + t) * u) u (lo + (carries 0 neg lo r s).toNat) := by
  have habs : ∀ y : ℝ, |y * u| ≤ u / 2 ↔ |y| ≤ 1 / 2 := fun y => by
    rw [abs_mul, abs_of_pos hu, div_eq_mul_one_div u, mul_comm u, mul_le_mul_iff_left₀ hu]
  have htie : ∀ y : ℝ, |y * u| = u / 2 ↔ |y| = 1 / 2 := fun y => by
    rw [abs_mul, abs_of_pos hu, div_eq_mul_one_div u, mul_comm u, mul_left_inj' hu.ne']
  have hnonneg := h.nonneg
  have hone := h.lt_one
  have hlt := h.half_lt_iff
  have heq := h.half_iff
  simp only [roundsTo, ← sub_mul, habs, htie]
  by_cases hup : 2 * r > s ∨ 2 * r = s ∧ lo % 2 = 1
  · have hcarry : carries 0 neg lo r s = true := by simpa [carries] using hup
    rw [hcarry, Bool.toNat_true, Nat.cast_add_one, show (lo : ℝ) + 1 - (lo + t) = 1 - t by ring, abs_of_pos (by linarith)]
    refine ⟨?_, fun hhalf => ?_⟩
    · rcases hup with hgt | ⟨hmid, -⟩
      · linarith [hlt.mpr hgt]
      · linarith [heq.mpr hmid]
    · have := heq.mp (by linarith)
      omega
  · have hcarry : carries 0 neg lo r s = false := by simpa [carries] using hup
    rw [hcarry, Bool.toNat_false, Nat.add_zero, show (lo : ℝ) - (lo + t) = -t by ring, abs_neg, abs_of_nonneg hnonneg]
    refine ⟨?_, fun hhalf => ?_⟩
    · by_contra hgt
      exact hup (.inl (hlt.mp (by linarith)))
    · have := heq.mp (by linarith)
      omega

/-- A significand with a cut part is rounded by the carry of its mode. -/
theorem roundsTo_of_fraction (rm : Nat) (neg : Bool) (lo : Nat) {u t : ℝ} (hu : 0 < u) {r s : Nat} (h : FractionOf t r s) :
    roundsTo rm neg ((lo + t) * u) u (lo + (carries rm neg lo r s).toNat) := by
  match rm, neg with
  | 0, neg => exact nearest_of_fraction neg hu h
  | 1, _ => exact floor_of_fraction hu h
  | 2, true => exact ceil_of_fraction hu h
  | 2, false => exact floor_of_fraction hu h
  | _ + 3, true => exact floor_of_fraction hu h
  | _ + 3, false => exact ceil_of_fraction hu h

theorem inexact_of_fraction (lo : Nat) {u t : ℝ} (hu : 0 < u) {r s : Nat} (h : FractionOf t r s) :
    (r != 0) = true ↔ ∀ n : Nat, (n : ℝ) * u ≠ (lo + t) * u := by
  rw [bne_iff_ne, ne_eq, ← h.zero_iff]
  refine ⟨fun ht n hn => ?_, fun hne ht => hne lo (by rw [ht, add_zero])⟩
  have hval : (n : ℝ) = lo + t := mul_right_cancel₀ hu.ne' hn
  have hnonneg := h.nonneg
  have hone := h.lt_one
  have hlow : lo ≤ n := by exact_mod_cast show (lo : ℝ) ≤ n by linarith
  have hhigh : n < lo + 1 := by exact_mod_cast show (n : ℝ) < lo + 1 by linarith
  obtain rfl : n = lo := by omega
  exact ht (by linarith)

/-- What `roundTo` answers is the rounding of the real that is in its place: the significand cut at `2^q` and a fraction. -/
theorem roundTo_of_fraction (rm : Nat) (neg : Bool) {m : Nat} {e q : Int} (hlt : e < q) {v t : ℝ}
    (h : FractionOf t (m % 2 ^ (q - e).toNat) (2 ^ (q - e).toNat)) (hv : v = ((m / 2 ^ (q - e).toNat : Nat) + t) * 2 ^ q) :
    roundsTo rm neg v (2 ^ q) (roundTo rm neg m e q).1 ∧ ((roundTo rm neg m e q).2 = true ↔ ∀ n : Nat, (n : ℝ) * 2 ^ q ≠ v) := by
  have hu : (0 : ℝ) < 2 ^ q := zpow_pos two_pos q
  rw [roundTo_of_lt rm neg m hlt, hv]
  exact ⟨roundsTo_of_fraction rm neg _ hu h, inexact_of_fraction _ hu h⟩

theorem roundsTo_self (rm : Nat) (neg : Bool) (n : Nat) {u : ℝ} (hu : 0 < u) : roundsTo rm neg (n * u) u n := by
  have hcarry : carries rm neg n 0 1 = false := by
    match rm with
    | 0 | 1 | 2 | _ + 3 => simp [carries]
  simpa [hcarry] using roundsTo_of_fraction rm neg n hu fractionOf_zero

theorem roundTo_spec (rm : Nat) (neg : Bool) (m : Nat) (e q : Int) : roundsTo rm neg ((m : ℝ) * 2 ^ e) (2 ^ q) (roundTo rm neg m e q).1 ∧
    ((roundTo rm neg m e q).2 = true ↔ ∀ n : Nat, (n : ℝ) * 2 ^ q ≠ m * 2 ^ e) := by
  have hu : (0 : ℝ) < 2 ^ q := zpow_pos two_pos q
  rcases le_or_gt q e with hle | hlt
  · have hexact : (m : ℝ) * 2 ^ e = (m * 2 ^ (e - q).toNat : Nat) * 2 ^ q := by rw [two_zpow_shift hle]; push_cast; ring
    rw [roundTo_of_le rm neg m hle, hexact]
    exact ⟨roundsTo_self rm neg _ hu, fun h => absurd h Bool.false_ne_true, fun h => absurd rfl (h _)⟩
  · have hs : 0 < 2 ^ (q - e).toNat := by positivity
    refine roundTo_of_fraction rm neg hlt (fractionOf_mod m hs) ?_
    have hne : ((2 ^ (q - e).toNat : Nat) : ℝ) ≠ 0 := by positivity
    rw [two_zpow_shift hlt.le, ← mul_assoc, add_mul, div_mul_cancel₀ _ hne]
    congr 1
    exact_mod_cast (Nat.div_add_mod' m _).symm

theorem floor_unique {v u : ℝ} {n k : Nat} (hu : 0 < u) (hn : n * u ≤ v ∧ v < (n + 1) * u) (hk : k * u ≤ v ∧ v < (k + 1) * u) : n = k := by
  have hnk : n < k + 1 := by exact_mod_cast lt_of_mul_lt_mul_right (hn.1.trans_lt hk.2) hu.le
  have hkn : k < n + 1 := by exact_mod_cast lt_of_mul_lt_mul_right (hk.1.trans_lt hn.2) hu.le
  omega

theorem ceil_unique {v u : ℝ} {n k : Nat} (hu : 0 < u) (hn : v ≤ n * u ∧ (n - 1) * u < v) (hk : v ≤ k * u ∧ (k - 1) * u < v) : n = k := by
  have hnk : n < k + 1 := by exact_mod_cast show (n : ℝ) < k + 1 by linarith [lt_of_mul_lt_mul_right (hn.2.trans_le hk.1) hu.le]
  have hkn : k < n + 1 := by exact_mod_cast show (k : ℝ) < n + 1 by linarith [lt_of_mul_lt_mul_right (hk.2.trans_le hn.1) hu.le]
  omega

theorem roundsTo_unique {rm : Nat} {neg : Bool} {v u : ℝ} {n k : Nat} (hu : 0 < u) (hn : roundsTo rm neg v u n) (hk : roundsTo rm neg v u k) : n = k := by
  match rm, neg with
  | 0, _ => exact roundsTo_zero_unique hu hn hk
  | 1, _ => exact floor_unique hu hn hk
  | 2, true => exact ceil_unique hu hn hk
  | 2, false => exact floor_unique hu hn hk
  | _ + 3, true => exact floor_unique hu hn hk
  | _ + 3, false => exact ceil_unique hu hn hk

theorem roundsTo_near {rm : Nat} {neg : Bool} {v u : ℝ} {n : Nat} (hu : 0 < u) (hn : roundsTo rm neg v u n) : |n * u - v| < u := by
  have hfloor : n * u ≤ v ∧ v < (n + 1) * u → |n * u - v| < u := fun h => abs_lt.mpr ⟨by linarith [h.2], by linarith [h.1]⟩
  have hceil : v ≤ n * u ∧ (n - 1) * u < v → |n * u - v| < u := fun h => abs_lt.mpr ⟨by linarith [h.1], by linarith [h.2]⟩
  match rm, neg with
  | 0, _ => exact hn.1.trans_lt (half_lt_self hu)
  | 1, _ => exact hfloor hn
  | 2, true => exact hceil hn
  | 2, false => exact hfloor hn
  | _ + 3, true => exact hfloor hn
  | _ + 3, false => exact hceil hn

theorem rounded_le {rm : Nat} {neg : Bool} {v u : ℝ} {n b : Nat} (hu : 0 < u) (hn : roundsTo rm neg v u n) (hv : v ≤ b * u) : n ≤ b := by
  have hnear := (abs_lt.mp (roundsTo_near hu hn)).2
  have hlt : (n : ℝ) * u < (b + 1) * u := by linarith
  exact Nat.lt_succ_iff.mp (by exact_mod_cast lt_of_mul_lt_mul_right hlt hu.le)

theorem le_rounded {rm : Nat} {neg : Bool} {v u : ℝ} {n b : Nat} (hu : 0 < u) (hn : roundsTo rm neg v u n) (hv : b * u ≤ v) : b ≤ n := by
  have hnear := (abs_lt.mp (roundsTo_near hu hn)).1
  have hlt : (b : ℝ) * u < (n + 1) * u := by linarith
  exact Nat.lt_succ_iff.mp (by exact_mod_cast lt_of_mul_lt_mul_right hlt hu.le)


/-! A nonzero value rounded once to a format, in the four modes (02 R28 to R31). -/

theorem rounded_bounds {rm M n : Nat} {neg : Bool} {v : ℝ} {ex q : Int} (hlow : (2 : ℝ) ^ ex ≤ v) (hhigh : v < 2 ^ (ex + 1)) (hq : ex - M ≤ q)
    (hn : roundsTo rm neg v (2 ^ q) n) : n ≤ 2 * 2 ^ M ∧ (q = ex - M → 2 ^ M ≤ n) := by
  have hu : (0 : ℝ) < 2 ^ q := zpow_pos two_pos q
  have hone : ((2 ^ M : Nat) : ℝ) * 2 ^ q = 2 ^ (M + q) := by rw [Nat.cast_pow, Nat.cast_ofNat, ← zpow_natCast, ← zpow_add₀ two_ne_zero]
  refine ⟨rounded_le hu hn ?_, fun heq => le_rounded hu hn ?_⟩
  · rw [Nat.cast_mul, mul_assoc, hone, Nat.cast_ofNat, ← zpow_one_add₀ two_ne_zero]
    exact hhigh.le.trans (zpow_le_zpow_right₀ one_le_two (by omega))
  · rwa [hone, heq, add_sub_cancel]

theorem significands_of_rounded {x : FFormat} {rm : Nat} {neg : Bool} {v : ℝ} {ex emin q : Int} {d n k : Nat}
    (hlow : (2 : ℝ) ^ ex ≤ v) (hhigh : v < 2 ^ (ex + 1)) (hq : q = max ex emin - x.mbits) (hd : q = d + (emin - x.mbits)) (hn : roundsTo rm neg v (2 ^ q) n)
    (hk : roundsTo rm neg v (2 ^ (ex - x.mbits)) k) : Significands x d n k := by
  obtain ⟨hn_le, hle_n⟩ := rounded_bounds (M := x.mbits) hlow hhigh (by omega) hn
  obtain ⟨hk_le, hle_k⟩ := rounded_bounds (M := x.mbits) hlow hhigh le_rfl hk
  exact ⟨hn_le, fun hpos => hle_n (by omega), hle_k rfl, hk_le⟩

/-- How a nonzero value is rounded: `d` places above the least ones, significand `n` there and `k` without a least exponent. -/
theorem round_eq (x : FFormat) (rm : Nat) (neg : Bool) (m : Nat) (e : Int) {ex q : Int} {d n k : Nat} (hex : ex = m.log2 + e)
    (hq : q = max ex (1 - x.bias) - x.mbits) (hd : q = d + (1 - x.bias - x.mbits)) (hn : n = (roundTo rm neg m e q).1)
    (hk : k = (roundTo rm neg m e (ex - x.mbits)).1) :
    x.round rm neg m e = if (2 ^ x.ebits - 1) * 2 ^ x.mbits ≤ d * 2 ^ x.mbits + n then
      (if rm = 0 ∨ rm = 2 ∧ neg = true ∨ rm = 3 ∧ neg = false then x.inf neg else x.huge neg, 20) else
      (x.zero neg + (d * 2 ^ x.mbits + n), fIf (roundTo rm neg m e q).2 fNX |||
        fIf (decide (ex < 1 - x.bias) && (decide (k < 2 ^ (x.mbits + 1)) || decide (ex + 1 < 1 - x.bias)) && (roundTo rm neg m e q).2) fUF) := by
  have hbody : ((q - (1 - x.bias - x.mbits)) * 2 ^ x.mbits).toNat = d * 2 ^ x.mbits := by
    rw [show q - (1 - x.bias - x.mbits) = d by omega]
    exact_mod_cast Int.toNat_natCast (d * 2 ^ x.mbits)
  unfold FFormat.round
  simp only [← hex, ← hq, ← hn, ← hk, hbody, Bool.or_eq_true, Bool.and_eq_true, decide_eq_true_eq, Bool.not_eq_true', or_assoc]
  rfl

/-- The bits and flags are those of the value rounded once. -/
theorem roundsIn_round {x : FFormat} (hx : 2 ≤ x.ebits) (rm : Nat) (neg : Bool) {m : Nat} (e : Int) (hm : m ≠ 0) :
    roundsIn x rm ((FV.fin neg m e).rat : ℝ) (x.round rm neg m e) := by
  intro neg' ex n k hneg hlow hhigh q u hn hk
  obtain rfl : neg = neg' := Bool.eq_iff_iff.mpr ((rat_fin_neg_iff neg e hm).symm.trans hneg.symm)
  rw [abs_rat_fin] at hlow hhigh hn hk ⊢
  obtain ⟨hlog, hlog'⟩ := log2_bounds (K := ℝ) hm e
  have hex : ex = m.log2 + e := exponent_unique hlow hhigh hlog hlog'
  obtain ⟨hround, hinexact⟩ := roundTo_spec rm neg m e q
  have hnr := roundsTo_unique (zpow_pos two_pos q) hn hround
  have hkr := roundsTo_unique (zpow_pos two_pos (ex - x.mbits)) hk (roundTo_spec rm neg m e (ex - x.mbits)).1
  obtain ⟨d, hd⟩ : ∃ d : Nat, q = d + (1 - x.bias - x.mbits) := ⟨(q - (1 - x.bias - x.mbits)).toNat, by omega⟩
  have hsig := significands_of_rounded hlow hhigh rfl hd hn hk
  have hE : 2 ^ 2 ≤ 2 ^ x.ebits := Nat.pow_le_pow_right two_pos hx
  have hlimit : (n : ℝ) * 2 ^ q < 2 ^ (x.bias + 1) ↔ d * 2 ^ x.mbits + n < (2 ^ x.ebits - 1) * 2 ^ x.mbits := by
    rw [scaled_eq x n hd, limit_eq hx, mul_lt_mul_iff_left₀ (zpow_pos two_pos _), Nat.cast_lt,
      body_lt_iff _ (by positivity) (by omega) hsig.n_le hsig.le_n, show 2 ^ x.ebits - 2 + 1 = 2 ^ x.ebits - 1 by omega]
  rw [round_eq x rm neg m e hex rfl hd hnr hkr]
  refine ⟨fun hfin => ?_, fun hover => ?_⟩
  · have hbody := hlimit.mp hfin
    rw [if_neg (not_le.mpr hbody)]
    obtain ⟨hfinite, hrat⟩ := unpack_finite x neg hbody
    refine ⟨hfinite, ?_, zero_add_lt x neg hbody, fun heq => ?_, fun hne => ?_⟩
    · rw [hrat, unitsOf_body x hsig.n_le hsig.le_n, mul_assoc, mul_assoc, scaled_eq x n hd]
    · rw [Bool.eq_false_of_not_eq_true fun h => hinexact.mp h n heq, Bool.and_false]
      rfl
    · rw [hinexact.mpr fun j hj => hne (by rw [roundsTo_unique (zpow_pos two_pos q) hn (hj ▸ roundsTo_self rm neg j (zpow_pos two_pos q)), hj]), Bool.and_true]
      refine ⟨fun htiny => ?_, fun hbig => ?_⟩
      · rw [(tiny_iff hsig ex).mpr htiny]
        rfl
      · rw [Bool.eq_false_of_not_eq_true (mt (tiny_iff hsig ex).mp (not_lt.mpr hbig))]
        rfl
  · rw [if_pos (not_lt.mp (hlimit.not.mp (not_lt.mpr hover)))]
    exact ⟨rfl, rfl⟩

/-! The sign bit of a rounded value. -/

theorem round_eq_zero_add {x : FFormat} (hx : 0 < x.ebits) (rm : Nat) (neg : Bool) (m : Nat) (e : Int) :
    ∃ b < 2 ^ (x.ebits + x.mbits), (x.round rm neg m e).1 = x.zero neg + b := by
  have hE : 2 ^ 1 ≤ 2 ^ x.ebits := Nat.pow_le_pow_right two_pos hx
  have hM : 0 < 2 ^ x.mbits := by positivity
  have hinf : (2 ^ x.ebits - 1) * 2 ^ x.mbits < 2 ^ (x.ebits + x.mbits) := by
    rw [pow_add]
    exact Nat.mul_lt_mul_of_pos_right (by omega) hM
  have hpos : 0 < (2 ^ x.ebits - 1) * 2 ^ x.mbits := Nat.mul_pos (by omega) hM
  obtain ⟨d, hd⟩ : ∃ d : Nat, max (m.log2 + e) (1 - x.bias) - x.mbits = d + (1 - x.bias - x.mbits) :=
    ⟨(max (m.log2 + e) (1 - x.bias) - (1 - x.bias)).toNat, by omega⟩
  rw [round_eq x rm neg m e rfl rfl hd rfl rfl]
  split
  · split
    · exact ⟨_, hinf, rfl⟩
    · exact ⟨(2 ^ x.ebits - 1) * 2 ^ x.mbits - 1, by omega, by unfold FFormat.huge FFormat.inf FFormat.zero; dsimp only; omega⟩
  · next hfin => exact ⟨_, (not_le.mp hfin).trans hinf, rfl⟩

theorem bit_zero_add (x : FFormat) (neg : Bool) {b : Nat} (hb : b < 2 ^ (x.ebits + x.mbits)) : bit (x.zero neg + b) (x.width - 1) = neg := by
  unfold bit FFormat.zero FFormat.width
  rw [Nat.add_sub_cancel, Nat.mul_comm, Nat.mul_add_div (by positivity), Nat.div_eq_of_lt hb]
  cases neg <;> rfl

/-! Bits and the value that they stand for (02 R28). -/

/-- The four formats have at least two exponent bits and an exponent range that holds every significand as an integer. -/
theorem format_bounds {x : FFormat} (hx : x = f64 ∨ x = f32 ∨ x = h16 ∨ x = bf16) : 2 ≤ x.ebits ∧ 1 ≤ x.bias ∧ (x.mbits : Int) ≤ x.bias := by
  rcases hx with rfl | rfl | rfl | rfl <;> decide

theorem bits_eq_fields (x : FFormat) {a : Nat} (ha : a < 2 ^ x.width) :
    a = (bit a (x.ebits + x.mbits)).toNat * 2 ^ (x.ebits + x.mbits) + field a x.mbits x.ebits * 2 ^ x.mbits + field a 0 x.mbits := by
  have hhigh : a / 2 ^ (x.ebits + x.mbits) < 2 := by
    rw [Nat.div_lt_iff_lt_mul (by positivity), ← pow_succ']
    exact ha
  have hbit : (bit a (x.ebits + x.mbits)).toNat = a / 2 ^ (x.ebits + x.mbits) := by
    unfold bit
    interval_cases a / 2 ^ (x.ebits + x.mbits) <;> rfl
  have hexp : a / 2 ^ x.mbits = 2 ^ x.ebits * (a / 2 ^ (x.ebits + x.mbits)) + field a x.mbits x.ebits := by
    unfold field
    rw [Nat.add_comm x.ebits, pow_add, ← Nat.div_div_eq_div_mul, Nat.div_add_mod]
  have hfrac : field a 0 x.mbits = a % 2 ^ x.mbits := by rw [field, pow_zero, Nat.div_one]
  rw [hbit, hfrac, Nat.pow_add, ← Nat.mul_assoc, ← Nat.add_mul, Nat.mul_comm _ (2 ^ x.ebits), ← Nat.pow_add, ← hexp, Nat.div_add_mod']

/-- What stands for each kind of value. -/
theorem unpack_cases (x : FFormat) (a : Nat) :
    (∃ s, x.unpack a = .nan s) ∨
    (x.unpack a = .inf (bit a (x.ebits + x.mbits)) ∧ field a x.mbits x.ebits = 2 ^ x.ebits - 1 ∧ field a 0 x.mbits = 0) ∨
    (x.unpack a = .zero (bit a (x.ebits + x.mbits)) ∧ field a x.mbits x.ebits = 0 ∧ field a 0 x.mbits = 0) ∨
    (x.unpack a = .fin (bit a (x.ebits + x.mbits)) (field a 0 x.mbits) (1 - x.bias - x.mbits) ∧ field a 0 x.mbits ≠ 0) ∨
    (x.unpack a = .fin (bit a (x.ebits + x.mbits)) (2 ^ x.mbits + field a 0 x.mbits) (field a x.mbits x.ebits - x.bias - x.mbits) ∧
      field a x.mbits x.ebits ≠ 0 ∧ field a x.mbits x.ebits ≠ 2 ^ x.ebits - 1) := by
  unfold FFormat.unpack
  dsimp only
  split
  · next hones =>
    split
    · next hfrac => exact .inr (.inl ⟨rfl, hones, hfrac⟩)
    · exact .inl ⟨_, rfl⟩
  · next hones =>
    split
    · next hexp =>
      split
      · next hfrac => exact .inr (.inr (.inl ⟨rfl, hexp, hfrac⟩))
      · next hfrac => exact .inr (.inr (.inr (.inl ⟨rfl, hfrac⟩)))
    · next hexp => exact .inr (.inr (.inr (.inr ⟨rfl, hexp, hones⟩)))

theorem eq_inf_of_unpack {x : FFormat} {a : Nat} {n : Bool} (ha : a < 2 ^ x.width) (h : x.unpack a = .inf n) : a = x.inf n := by
  have hbits := bits_eq_fields x ha
  rcases unpack_cases x a with ⟨s, hv⟩ | ⟨hv, hexp, hfrac⟩ | ⟨hv, -⟩ | ⟨hv, -⟩ | ⟨hv, -⟩ <;> rw [h] at hv <;> cases hv
  rw [hexp, hfrac] at hbits
  exact hbits

theorem eq_zero_of_unpack {x : FFormat} {a : Nat} {n : Bool} (ha : a < 2 ^ x.width) (h : x.unpack a = .zero n) : a = x.zero n := by
  have hbits := bits_eq_fields x ha
  rcases unpack_cases x a with ⟨s, hv⟩ | ⟨hv, -⟩ | ⟨hv, hexp, hfrac⟩ | ⟨hv, -⟩ | ⟨hv, -⟩ <;> rw [h] at hv <;> cases hv
  rw [hexp, hfrac, Nat.zero_mul] at hbits
  exact hbits

theorem fin_bounds_of_unpack {x : FFormat} {a m : Nat} {n : Bool} {e : Int} (hx : 2 ≤ x.ebits) (h : x.unpack a = .fin n m e) :
    m ≠ 0 ∧ m < 2 ^ (x.mbits + 1) ∧ 1 - x.bias - x.mbits ≤ e ∧ e + x.mbits ≤ x.bias := by
  have hbias := two_mul_bias hx
  have hE : 2 ^ 2 ≤ 2 ^ x.ebits := Nat.pow_le_pow_right two_pos hx
  have hM : 0 < 2 ^ x.mbits := by positivity
  have hfrac : field a 0 x.mbits < 2 ^ x.mbits := Nat.mod_lt _ hM
  have hexp : field a x.mbits x.ebits < 2 ^ x.ebits := Nat.mod_lt _ (by positivity)
  rw [pow_succ]
  rcases unpack_cases x a with ⟨s, hv⟩ | ⟨hv, -⟩ | ⟨hv, -⟩ | ⟨hv, hne⟩ | ⟨hv, hpos, hones⟩ <;> rw [h] at hv <;> cases hv
  · exact ⟨hne, by omega, le_rfl, by omega⟩
  · exact ⟨by omega, by omega, by omega, by omega⟩

theorem unpack_zero {x : FFormat} (hx : x = f64 ∨ x = f32 ∨ x = h16 ∨ x = bf16) (n : Bool) : x.unpack (x.zero n) = .zero n := by
  rcases hx with rfl | rfl | rfl | rfl <;> cases n <;> rfl

/-! Rounding to an integral value of the format (08 R190). -/

theorem scaled_rat_iff (n : Nat) (q : Int) (m : Nat) (e : Int) : (n : ℚ) * 2 ^ q = m * 2 ^ e ↔ (n : ℝ) * 2 ^ q = m * 2 ^ e := by
  rw [← Rat.cast_inj (α := ℝ)]
  push_cast
  rfl

/-- A value that the format holds is rounded to itself. -/
theorem round_representable {x : FFormat} (hx : 2 ≤ x.ebits) (rm : Nat) (neg : Bool) {m k : Nat} {e p : Int} (hm : m ≠ 0) (hval : (m : ℝ) * 2 ^ e = k * 2 ^ p)
    (hk : k < 2 ^ (x.mbits + 1)) (hleast : 1 - x.bias - x.mbits ≤ p) (hmost : p + x.mbits ≤ x.bias) :
    (x.unpack (x.round rm neg m e).1).finite = true ∧ (x.unpack (x.round rm neg m e).1).rat = (if neg then -1 else 1) * m * 2 ^ e := by
  have hp : (0 : ℝ) < 2 ^ p := zpow_pos two_pos p
  obtain ⟨hlow, hhigh⟩ := log2_bounds (K := ℝ) hm e
  have hbound : (m : ℝ) * 2 ^ e < 2 ^ (p + x.mbits + 1) := by
    rw [hval, show p + x.mbits + 1 = ((x.mbits + 1 : Nat) : Int) + p by push_cast; ring, zpow_add₀ two_ne_zero, zpow_natCast]
    exact mul_lt_mul_of_pos_right (by exact_mod_cast hk) hp
  have hex : (m.log2 : Int) + e ≤ p + x.mbits := exponent_le hlow hbound
  obtain ⟨q, hq⟩ : ∃ q : Int, q = max ((m.log2 : Int) + e) (1 - x.bias) - x.mbits := ⟨_, rfl⟩
  obtain ⟨j, hj⟩ : ∃ j : Nat, (j : ℝ) * 2 ^ q = m * 2 ^ e := by
    refine ⟨k * 2 ^ (p - q).toNat, ?_⟩
    rw [hval, two_zpow_shift (show q ≤ p by omega)]
    push_cast
    ring
  have hself : roundsTo rm neg (m * 2 ^ e) (2 ^ q) j := hj ▸ roundsTo_self rm neg j (zpow_pos two_pos q)
  have hround := roundsIn_round hx rm neg e hm neg (m.log2 + e) j (roundTo rm neg m e (m.log2 + e - x.mbits)).1 (rat_fin_neg_iff neg e hm).symm
  rw [abs_rat_fin, ← hq] at hround
  obtain ⟨hfin, hrat, -⟩ := (hround hlow hhigh hself (roundTo_spec rm neg m e _).1).1
    (by rw [hj]; exact hbound.trans_le (zpow_le_zpow_right₀ one_le_two (by omega)))
  refine ⟨hfin, ?_⟩
  rw [hrat, mul_assoc, mul_assoc]
  congr 1
  exact (scaled_rat_iff j q m e).mpr hj

/-- The integer that a value of the format rounds to is a value of the format. -/
theorem integral_representable {x : FFormat} (hM : (x.mbits : Int) ≤ x.bias) (hbias : 1 ≤ x.bias) (rm : Nat) (neg : Bool) {m : Nat} {e : Int}
    (hm : m < 2 ^ (x.mbits + 1)) (hmost : e + x.mbits ≤ x.bias) :
    ∃ (k : Nat) (p : Int), ((roundTo rm neg m e 0).1 : ℝ) * 2 ^ (0 : Int) = k * 2 ^ p ∧ k < 2 ^ (x.mbits + 1) ∧
      1 - x.bias - x.mbits ≤ p ∧ p + x.mbits ≤ x.bias := by
  rcases le_or_gt 0 e with hle | hlt
  · refine ⟨m, e, ?_, hm, by omega, hmost⟩
    rw [roundTo_of_le rm neg m hle, two_zpow_shift hle]
    push_cast
    ring
  · refine ⟨_, 0, rfl, ?_, by omega, by omega⟩
    have hhalf : (m : ℝ) * 2 ^ e ≤ (2 ^ x.mbits : Nat) * 2 ^ (0 : Int) := by
      have hmle : (m : ℝ) ≤ 2 ^ x.mbits * 2 := by exact_mod_cast (pow_succ 2 x.mbits ▸ hm).le
      calc (m : ℝ) * 2 ^ e ≤ 2 ^ x.mbits * 2 * 2 ^ (-1 : Int) :=
            mul_le_mul hmle (zpow_le_zpow_right₀ one_le_two (by omega)) (by positivity) (by positivity)
        _ = (2 ^ x.mbits : Nat) * 2 ^ (0 : Int) := by push_cast; norm_num [mul_assoc]
    exact (rounded_le (zpow_pos two_pos 0) (roundTo_spec rm neg m e 0).1 hhalf).trans_lt (Nat.pow_lt_pow_right one_lt_two (Nat.lt_succ_self _))

/-- The sign of a finite value that is not zero. -/
theorem neg_iff_rat_neg {v : FV} (hfin : v.finite = true) (hne : v.rat ≠ 0) : v.neg = true ↔ v.rat < 0 := by
  cases v with
  | fin n m e => exact (rat_lt_zero_iff n e ((rat_eq_zero_iff n m e).not.mp hne)).symm
  | zero n => exact absurd rfl hne
  | _ => cases hfin

theorem toIntegral_fin {x : FFormat} (hx : x = f64 ∨ x = f32 ∨ x = h16 ∨ x = bf16) (rm : Nat) {a m : Nat} {n : Bool} {e : Int} (h : x.unpack a = .fin n m e) :
    (x.unpack (x.toIntegral rm a).1).finite = true ∧ (x.unpack (x.toIntegral rm a).1).rat = (if n then -1 else 1) * (roundTo rm n m e 0).1 ∧
      (x.unpack (x.toIntegral rm a).1).neg = n ∧ (x.toIntegral rm a).2 = if (roundTo rm n m e 0).2 then 16 else 0 := by
  obtain ⟨hbits, hbias, hM⟩ := format_bounds hx
  obtain ⟨-, hlt, -, hmost⟩ := fin_bounds_of_unpack hbits h
  obtain ⟨k, p, hval, hk, hleast, hmost'⟩ := integral_representable hM hbias rm n hlt hmost
  have heq : x.toIntegral rm a = (if (roundTo rm n m e 0).1 = 0 then x.zero n else (x.round 0 n (roundTo rm n m e 0).1 0).1, fIf (roundTo rm n m e 0).2 fNX) := by
    unfold FFormat.toIntegral
    rw [h]
    rfl
  rw [heq]
  by_cases hzero : (roundTo rm n m e 0).1 = 0
  · rw [if_pos hzero, unpack_zero hx, hzero]
    exact ⟨rfl, by simp [FV.rat], rfl, rfl⟩
  · rw [if_neg hzero]
    obtain ⟨hfin, hrat⟩ := round_representable hbits 0 n hzero hval hk hleast hmost'
    rw [zpow_zero, mul_one] at hrat
    have hpos : (0 : ℚ) < (roundTo rm n m e 0).1 := by exact_mod_cast Nat.pos_of_ne_zero hzero
    refine ⟨hfin, hrat, Bool.eq_iff_iff.mpr ((neg_iff_rat_neg hfin ?_).trans ?_), rfl⟩
    · rw [hrat]
      cases n <;> simp [hzero]
    · rw [hrat]
      cases n
      · simp
      · simpa using hpos

theorem toIntegral_nan {x : FFormat} (rm : Nat) {a : Nat} (h : (x.unpack a).isNan = true) :
    x.toIntegral rm a = (x.nan, if (x.unpack a).isSnan then 1 else 0) := by
  unfold FFormat.toIntegral
  cases hv : x.unpack a with
  | nan s => rfl
  | esc => rfl
  | _ => rw [hv] at h; cases h

theorem toIntegral_of_not_fin {x : FFormat} (rm : Nat) {a : Nat} (ha : a < 2 ^ x.width) (hnan : ¬(x.unpack a).isNan = true)
    (hfin : ∀ n m e, x.unpack a ≠ .fin n m e) : x.toIntegral rm a = (a, 0) := by
  unfold FFormat.toIntegral
  cases hv : x.unpack a with
  | inf n => rw [eq_inf_of_unpack ha hv]
  | zero n => rw [eq_zero_of_unpack ha hv]
  | fin n m e => exact absurd hv (hfin n m e)
  | nan s => rw [hv] at hnan; exact absurd rfl hnan
  | esc => rw [hv] at hnan; exact absurd rfl hnan

/-- Settles O19: each part from the lemma about `roundTo`, `round` and `toIntegral`. -/
theorem roundingAndRoundedResults : Obligations.RoundingAndRoundedResults := by
  unfold Obligations.RoundingAndRoundedResults
  refine ⟨?units, ?format, fun x rm neg => ⟨rfl, rfl⟩, ?integral⟩
  case units =>
    intro neg m rm e q _
    obtain ⟨hround, hinexact⟩ := roundTo_spec rm neg m e q
    push_cast
    exact ⟨hround, hinexact.trans (forall_congr' fun n => not_congr (scaled_rat_iff n q m e).symm)⟩
  case format =>
    intro x rm neg m e hx _ hm
    obtain ⟨hbits, -, -⟩ := format_bounds hx
    obtain ⟨b, hb, hzero⟩ := round_eq_zero_add (x := x) (by omega) rm neg m e
    have hpack : x.pack rm (.fin neg m e) = x.round rm neg m e := if_neg hm
    rw [hpack]
    exact ⟨roundsIn_round hbits rm neg e hm, by rw [hzero, bit_zero_add x neg hb]⟩
  case integral =>
    intro x rm a hx ha
    exact ⟨fun n m e h => toIntegral_fin hx rm h, toIntegral_nan rm, toIntegral_of_not_fin rm ha⟩

end Sys2Proof.RoundingProofs
end

section
/-!
PROOFS. Exact arithmetic before rounding (02 R29; 08 R190): sums and products, infinities and zeros, the sticky last bit of a quotient and of a
root, fused sums; then the obligation O18.
-/
namespace Sys2Proof.ExactProofs
open Sys2Proof Sys2Proof.Machine Sys2Proof.SumProofs Sys2Proof.RoundingProofs

/-! Exact sums and products (02 R29). -/

theorem rat_fin_eq_signed (n : Bool) (m : Nat) (e : Int) : (FV.fin n m e).rat = signed n m * 2 ^ e := by
  cases n <;> simp [FV.rat, signed]

theorem ofInt_finite (i e : Int) (z : Bool) : (FV.ofInt i e z).finite = true := by
  unfold FV.ofInt
  split <;> rfl

theorem signed_shift (n : Bool) (m : Nat) {e q : Int} (h : q ≤ e) : ((signed n m * 2 ^ (e - q).toNat : Int) : ℚ) * 2 ^ q = (FV.fin n m e).rat := by
  rw [rat_fin_eq_signed, two_zpow_shift h]
  push_cast
  ring

theorem add_fin_fin_rat (rm : Nat) (x y : Bool) (m n : Nat) (e g : Int) :
    (FV.add rm (.fin x m e) (.fin y n g)).1.rat = (FV.fin x m e).rat + (FV.fin y n g).rat := by
  rw [← signed_shift x m (min_le_left e g), ← signed_shift y n (min_le_right e g), ← add_mul, ← Int.cast_add]
  exact ofInt_rat _ _

theorem add_of_finite (rm : Nat) {a b : FV} (ha : a.finite = true) (hb : b.finite = true) :
    (FV.add rm a b).1.finite = true ∧ (FV.add rm a b).1.rat = a.rat + b.rat ∧ (FV.add rm a b).2 = 0 := by
  cases a with
  | fin x m e =>
    cases b with
    | fin y n g => exact ⟨ofInt_finite _ _ _, add_fin_fin_rat rm x y m n e g, rfl⟩
    | zero y => exact ⟨rfl, (add_zero _).symm, rfl⟩
    | _ => cases hb
  | zero x =>
    cases b with
    | fin y n g => exact ⟨rfl, (zero_add _).symm, rfl⟩
    | zero y => exact ⟨rfl, (add_zero _).symm, rfl⟩
    | _ => cases hb
  | _ => cases ha

/-- A sum of nonzero values that cancel is the zero of the rounding mode. -/
theorem add_eq_zero_of_cancel (rm : Nat) {a b : FV} (ha : a.finite = true) (hb : b.finite = true) (hne : a.rat ≠ 0) (hsum : a.rat + b.rat = 0) :
    (FV.add rm a b).1 = .zero (rm == 2) := by
  cases a with
  | fin x m e =>
    cases b with
    | fin y n g =>
      have hrat := add_fin_fin_rat rm x y m n e g
      rw [hsum] at hrat
      have hint := (mul_eq_zero.mp ((ofInt_rat _ _).symm.trans hrat)).resolve_right (zpow_ne_zero _ two_ne_zero)
      exact if_pos (Int.cast_eq_zero.mp hint)
    | zero y => exact absurd ((add_zero _).symm.trans hsum) hne
    | _ => cases hb
  | zero x => exact absurd rfl hne
  | _ => cases ha

theorem flip_finite {b : FV} (hb : b.finite = true) : b.flip.finite = true ∧ b.flip.rat = -b.rat := by
  cases b with
  | fin y n g =>
    refine ⟨rfl, ?_⟩
    cases y <;> simp [FV.flip, FV.rat]
  | zero y => exact ⟨rfl, neg_zero.symm⟩
  | _ => cases hb

theorem mul_sign_of_finite {a b : FV} (ha : a.finite = true) (hb : b.finite = true) : (a.mul b).1.neg = (a.neg != b.neg) ∧ (a.mul b).2 = 0 := by
  cases a with
  | fin x m e =>
    cases b with
    | fin y n g => exact ⟨rfl, rfl⟩
    | zero y => exact ⟨rfl, rfl⟩
    | _ => cases hb
  | zero x =>
    cases b with
    | fin y n g => exact ⟨rfl, rfl⟩
    | zero y => exact ⟨rfl, rfl⟩
    | _ => cases hb
  | _ => cases ha

/-! Infinities and zeros (02 R29). -/

theorem inf_with_finite (rm : Nat) (m : Bool) {b : FV} (hb : b.finite = true) :
    FV.add rm (.inf m) b = (.inf m, 0) ∧ FV.add rm b (.inf m) = (.inf m, 0) ∧ FV.div (.inf m) b = (.inf (m != b.neg), 0) ∧
      FV.div b (.inf m) = (.zero (m != b.neg), 0) := by
  cases b with
  | fin y n g => exact ⟨rfl, rfl, rfl, by rw [bne_comm]; rfl⟩
  | zero y => exact ⟨rfl, rfl, rfl, by rw [bne_comm]; rfl⟩
  | _ => cases hb

theorem inf_with_nonzero (m : Bool) {b : FV} (hb : b.finite = true) (hne : b.rat ≠ 0) :
    FV.mul (.inf m) b = (.inf (m != b.neg), 0) ∧ FV.mul b (.inf m) = (.inf (m != b.neg), 0) := by
  cases b with
  | fin y n g => exact ⟨rfl, by rw [bne_comm]; rfl⟩
  | zero y => exact absurd rfl hne
  | _ => cases hb

theorem zero_with_nonzero (m : Bool) {b : FV} (hb : b.finite = true) (hne : b.rat ≠ 0) :
    FV.div (.zero m) b = (.zero (m != b.neg), 0) ∧ FV.div b (.zero m) = (.inf (m != b.neg), 2) := by
  cases b with
  | fin y n g => exact ⟨rfl, by rw [bne_comm]; rfl⟩
  | zero y => exact absurd rfl hne
  | _ => cases hb

/-! Sticky significands (02 R29, R30). -/

/-- The significand `k` stands for `y`: an even one is `y`, an odd one says that `y` lies between its neighbours. -/
def Sticky (y : ℝ) (k : Nat) : Prop := k % 2 = 0 ∧ y = k ∨ k % 2 = 1 ∧ k - 1 < y ∧ y < k + 1

/-- Twice a value whose floor is known, with a last bit for what the floor leaves. -/
theorem sticky_of_floor {y : ℝ} {q : Nat} {c : Prop} [Decidable c] (hlow : q ≤ y) (hhigh : y < q + 1) (hc : c ↔ y = q) :
    Sticky (2 * y) (2 * q + if c then 0 else 1) := by
  by_cases h : c
  · rw [if_pos h]
    exact .inl ⟨by omega, by rw [hc.mp h]; push_cast; ring⟩
  · rw [if_neg h]
    have hlt : (q : ℝ) < y := lt_of_le_of_ne hlow (Ne.symm (mt hc.mpr h))
    refine .inr ⟨by omega, ?_, ?_⟩ <;> push_cast <;> linarith

theorem sticky_mod {y : ℝ} {k s : Nat} (h : Sticky y k) (hs : 2 ∣ s) : Sticky (y - (k / s * s : Nat)) (k % s) := by
  have hsplit := Nat.div_add_mod' k s
  have hcast : (k : ℝ) = (k / s * s : Nat) + (k % s : Nat) := by exact_mod_cast hsplit.symm
  have hparity : k % s % 2 = k % 2 := Nat.mod_mod_of_dvd k hs
  unfold Sticky
  rw [hparity]
  rcases h with ⟨heven, hy⟩ | ⟨hodd, hlow, hhigh⟩
  · exact .inl ⟨heven, by linarith⟩
  · exact .inr ⟨hodd, by linarith, by linarith⟩

theorem fractionOf_sticky {y : ℝ} {r j : Nat} (h : Sticky y r) (hr : r < 4 * j) : FractionOf (y / (4 * j : Nat)) r (4 * j) := by
  have hpos : (0 : ℝ) < (4 * j : Nat) := by exact_mod_cast (show 0 < 4 * j by omega)
  have hscale : 2 * (y / (4 * j : Nat)) = y / (2 * j : Nat) := by
    push_cast
    rw [show (4 : ℝ) * j = 2 * (2 * j) by ring, div_mul_eq_div_div_swap, mul_div_cancel₀ _ (two_ne_zero' ℝ)]
  have hhalf : (0 : ℝ) < (2 * j : Nat) := by exact_mod_cast (show 0 < 2 * j by omega)
  suffices hfacts : 0 ≤ y ∧ y < (4 * j : Nat) ∧ (y = 0 ↔ r = 0) ∧ (((2 * j : Nat) : ℝ) < y ↔ 4 * j < 2 * r) ∧ (y = (2 * j : Nat) ↔ 2 * r = 4 * j) by
    obtain ⟨hnonneg, hlt, hzero, hmore, hequal⟩ := hfacts
    exact ⟨div_nonneg hnonneg hpos.le, (div_lt_one hpos).mpr hlt, by rw [div_eq_zero_iff, or_iff_left hpos.ne', hzero],
      by rw [hscale, one_lt_div hhalf, hmore], by rw [hscale, div_eq_one_iff_eq hhalf.ne', hequal]⟩
  rcases h with ⟨heven, rfl⟩ | ⟨hodd, hlow, hhigh⟩
  · refine ⟨r.cast_nonneg, by exact_mod_cast hr, Nat.cast_eq_zero, ?_, ?_⟩
    · rw [Nat.cast_lt]; omega
    · rw [Nat.cast_inj]; omega
  · have hbelow : ∀ n : Nat, r < n → n % 2 = 0 → y < n := fun n hn hn2 =>
      hhigh.trans_le (by exact_mod_cast show r + 1 ≤ n by omega)
    have habove : ∀ n : Nat, n < r → n % 2 = 0 → (n : ℝ) < y := fun n hn hn2 =>
      lt_of_le_of_lt (by rw [le_sub_iff_add_le]; exact_mod_cast show n + 1 ≤ r by omega) hlow
    have hzero := habove 0 (by omega) rfl
    rw [Nat.cast_zero] at hzero
    refine ⟨hzero.le, hbelow _ hr (by omega), iff_of_false hzero.ne' (by omega), ?_, iff_of_false ?_ (by omega)⟩
    · rcases lt_or_ge r (2 * j) with hlt | hge
      · exact iff_of_false (hbelow _ hlt (by omega)).not_gt (by omega)
      · exact iff_of_true (habove _ (by omega) (by omega)) (by omega)
    · rcases lt_or_ge r (2 * j) with hlt | hge
      · exact (hbelow _ hlt (by omega)).ne
      · exact (habove _ (by omega) (by omega)).ne'

theorem sticky_log2 {y : ℝ} {k : Nat} (h : Sticky y k) (hk : 1 ≤ k.log2) : (2 : ℝ) ^ k.log2 ≤ y ∧ y < 2 ^ (k.log2 + 1) := by
  have hne : k ≠ 0 := by
    rintro rfl
    simp at hk
  have hlow := Nat.log2_self_le hne
  have hhigh := Nat.lt_log2_self (n := k)
  have heven : 2 ∣ 2 ^ k.log2 := dvd_pow_self 2 (by omega)
  have heven' : 2 ∣ 2 ^ (k.log2 + 1) := dvd_pow_self 2 (by omega)
  rcases h with ⟨-, rfl⟩ | ⟨hodd, hy, hy'⟩
  · exact ⟨by exact_mod_cast hlow, by exact_mod_cast hhigh⟩
  · have hlow' : ((2 ^ k.log2 + 1 : Nat) : ℝ) ≤ k := by exact_mod_cast (show 2 ^ k.log2 + 1 ≤ k by omega)
    have hhigh' : ((k + 1 : Nat) : ℝ) ≤ (2 ^ (k.log2 + 1) : Nat) := by exact_mod_cast (show k + 1 ≤ 2 ^ (k.log2 + 1) by omega)
    push_cast at hlow' hhigh'
    exact ⟨by linarith, by linarith⟩

/-- A sticky significand of at least 63 bits carries what rounding needs. -/
theorem stickyFor_of_sticky {y : ℝ} {k : Nat} (h : Sticky y k) (hk : 62 ≤ k.log2) (e : Int) : stickyFor (y * 2 ^ e) k e := by
  have he : (0 : ℝ) < 2 ^ e := zpow_pos two_pos e
  obtain ⟨hlow, hhigh⟩ := sticky_log2 h (by omega)
  refine ⟨?_, ?_, fun rm neg q _ hq => ?_⟩
  · rw [zpow_add₀ two_ne_zero, zpow_natCast]
    exact mul_le_mul_of_nonneg_right hlow he.le
  · rw [add_right_comm, ← Nat.cast_add_one, zpow_add₀ two_ne_zero, zpow_natCast]
    exact mul_lt_mul_of_pos_right hhigh he
  · have hlt : e < q := by omega
    obtain ⟨j, hj⟩ : ∃ j, 2 ^ (q - e).toNat = 4 * j := ⟨2 ^ ((q - e).toNat - 2), by rw [show 4 = 2 ^ 2 from rfl, ← pow_add]; congr 1; omega⟩
    have hpos : 0 < 4 * j := hj ▸ Nat.two_pow_pos _
    have hne : ((4 * j : Nat) : ℝ) ≠ 0 := by exact_mod_cast hpos.ne'
    have hfraction := fractionOf_sticky (sticky_mod h (s := 4 * j) (by omega)) (Nat.mod_lt k hpos)
    rw [← hj] at hfraction hne
    refine roundTo_of_fraction rm neg hlt hfraction ?_
    rw [two_zpow_shift hlt.le, ← mul_assoc, add_mul, div_mul_cancel₀ _ hne]
    push_cast
    ring

/-! Quotients and square roots. -/

theorem stickyFor_of_floor {y : ℝ} {q : Nat} {c : Prop} [Decidable c] (hlow : q ≤ y) (hhigh : y < q + 1) (hc : c ↔ y = q) (hq : 2 ^ 62 ≤ q) (e : Int) :
    stickyFor (y * 2 ^ (e + 1)) (2 * q + if c then 0 else 1) e := by
  have hlog : 62 ≤ (2 * q + if c then 0 else 1).log2 := (Nat.le_log2 (by omega)).mpr (by omega)
  have hunit : y * 2 ^ (e + 1) = 2 * y * 2 ^ e := by rw [zpow_add_one₀ two_ne_zero]; ring
  rw [hunit]
  exact stickyFor_of_sticky (sticky_of_floor hlow hhigh hc) hlog e

theorem floor_div {a d : Nat} (hd : 0 < d) :
    ((a / d : Nat) : ℝ) ≤ (a : ℝ) / d ∧ (a : ℝ) / d < (a / d : Nat) + 1 ∧ (a % d = 0 ↔ (a : ℝ) / d = (a / d : Nat)) := by
  have hpos : (0 : ℝ) < d := by exact_mod_cast hd
  rw [le_div_iff₀ hpos, div_lt_iff₀ hpos, div_eq_iff hpos.ne']
  refine ⟨by exact_mod_cast Nat.div_mul_le_self a d, by exact_mod_cast Nat.lt_mul_of_div_lt (Nat.lt_succ_self _) hd, ?_⟩
  have hsplit := Nat.div_add_mod' a d
  have hcast : (a : ℝ) = (a / d : Nat) * d ↔ a = a / d * d := by exact_mod_cast Iff.rfl
  rw [hcast]
  omega

theorem quotient_stickyFor (s : Bool) {m n : Nat} (e : Int) (hm : m ≠ 0) (hn : n ≠ 0) :
    ∃ k h, quotient s m n e = .fin s k h ∧ stickyFor ((m : ℝ) / n * 2 ^ e) k h := by
  refine ⟨_, _, rfl, ?_⟩
  obtain ⟨hlow, hhigh, hexact⟩ := floor_div (a := m * 2 ^ (n.log2 + 160)) (Nat.pos_of_ne_zero hn)
  have hfloor : 2 ^ 62 ≤ m * 2 ^ (n.log2 + 160) / n := by
    rw [Nat.le_div_iff_mul_le (Nat.pos_of_ne_zero hn)]
    calc 2 ^ 62 * n ≤ 2 ^ 62 * 2 ^ (n.log2 + 1) := Nat.mul_le_mul_left _ Nat.lt_log2_self.le
      _ = 2 ^ (n.log2 + 63) := by rw [← pow_add]; congr 1; omega
      _ ≤ m * 2 ^ (n.log2 + 160) := (Nat.pow_le_pow_right two_pos (by omega)).trans (Nat.le_mul_of_pos_left _ (Nat.pos_of_ne_zero hm))
  have h := stickyFor_of_floor hlow hhigh hexact hfloor (e - (n.log2 + 160 : Nat) - 1)
  rwa [sub_add_cancel, zpow_sub₀ two_ne_zero, zpow_natCast, Nat.cast_mul, Nat.cast_pow, Nat.cast_ofNat, mul_div_right_comm, mul_assoc,
    mul_div_cancel₀ _ (by positivity)] at h

theorem div_stickyFor (x y : Bool) {m n : Nat} (e g : Int) (hm : m ≠ 0) (hn : n ≠ 0) :
    ∃ k h, FV.div (.fin x m e) (.fin y n g) = (.fin (x != y) k h, 0) ∧ stickyFor ((|(FV.fin x m e).rat| / |(FV.fin y n g).rat| : ℚ) : ℝ) k h := by
  obtain ⟨k, h, hquotient, hsticky⟩ := quotient_stickyFor (x != y) (e - g) hm hn
  refine ⟨k, h, congrArg (·, 0) hquotient, ?_⟩
  rw [abs_rat, abs_rat]
  push_cast
  rwa [mul_div_mul_comm, ← zpow_sub₀ two_ne_zero]

/-- The bits of a root are found from the top down. -/
theorem isqrt_spec (n : Nat) : ∀ k r : Nat, r * r ≤ n → n < (r + 2 ^ k) * (r + 2 ^ k) →
    isqrt n k r * isqrt n k r ≤ n ∧ n < (isqrt n k r + 1) * (isqrt n k r + 1)
  | 0, r, hlow, hhigh => ⟨hlow, hhigh⟩
  | k + 1, r, hlow, hhigh => by
    rw [pow_succ, Nat.mul_two, ← Nat.add_assoc] at hhigh
    unfold isqrt
    split
    · next hle => exact isqrt_spec n k _ hle hhigh
    · next hgt => exact isqrt_spec n k r hlow (not_le.mp hgt)

theorem isqrt_eq_sqrt (n : Nat) : isqrt n (n.log2 / 2 + 1) 0 = Nat.sqrt n := by
  have hn : n < (0 + 2 ^ (n.log2 / 2 + 1)) * (0 + 2 ^ (n.log2 / 2 + 1)) := by
    rw [Nat.zero_add, ← pow_add]
    exact Nat.lt_log2_self.trans_le (Nat.pow_le_pow_right two_pos (by omega))
  obtain ⟨hlow, hhigh⟩ := isqrt_spec n _ 0 (Nat.zero_le n) hn
  exact (Nat.eq_sqrt.mpr ⟨hlow, hhigh⟩)

theorem floor_sqrt (w : Nat) : (Nat.sqrt w : ℝ) ≤ √w ∧ √w < Nat.sqrt w + 1 ∧ (Nat.sqrt w * Nat.sqrt w = w ↔ √(w : ℝ) = Nat.sqrt w) := by
  refine ⟨Real.nat_sqrt_le_real_sqrt, Real.real_sqrt_lt_nat_sqrt_succ, ?_⟩
  rw [Real.sqrt_eq_iff_mul_self_eq w.cast_nonneg (Nat.cast_nonneg _)]
  exact_mod_cast eq_comm

theorem rootOfFin_stickyFor {n : Nat} {e : Int} (hn : n ≠ 0) (he : e % 2 = 0) :
    ∃ k h, rootOfFin n e = .fin false k h ∧ stickyFor (√((n : ℝ) * 2 ^ e)) k h := by
  obtain ⟨hlow, hhigh, hexact⟩ := floor_sqrt (n * 2 ^ 256)
  have hfloor : 2 ^ 62 ≤ Nat.sqrt (n * 2 ^ 256) := by
    rw [Nat.le_sqrt]
    exact le_trans (by norm_num) (Nat.le_mul_of_pos_left (2 ^ 256) (Nat.pos_of_ne_zero hn))
  have h := stickyFor_of_floor hlow hhigh hexact hfloor (e / 2 - 129)
  refine ⟨_, _, rfl, ?_⟩
  rw [isqrt_eq_sqrt]
  have hscale : (n : ℝ) * 2 ^ e = (n * 2 ^ 256 : Nat) * (2 ^ (e / 2 - 129 + 1)) ^ 2 := by
    rw [← zpow_natCast, ← zpow_mul, Nat.cast_mul, Nat.cast_pow, Nat.cast_ofNat, mul_assoc, ← zpow_natCast 2 256, ← zpow_add₀ two_ne_zero]
    congr 2
    omega
  rwa [hscale, Real.sqrt_mul (Nat.cast_nonneg _), Real.sqrt_sq (zpow_pos two_pos _).le]

theorem sqrt_stickyFor {m : Nat} (e : Int) (hm : m ≠ 0) :
    ∃ k h, FV.sqrt (.fin false m e) = (.fin false k h, 0) ∧ stickyFor (√((FV.fin false m e).rat : ℝ)) k h := by
  have hrat : ((FV.fin false m e).rat : ℝ) = m * 2 ^ e := by rw [cast_rat_fin]; simp
  rw [hrat]
  rcases Int.emod_two_eq_zero_or_one e with heven | hodd
  · obtain ⟨k, h, hroot, hsticky⟩ := rootOfFin_stickyFor hm heven
    exact ⟨k, h, by rw [← hroot]; exact if_pos heven, hsticky⟩
  · obtain ⟨k, h, hroot, hsticky⟩ := rootOfFin_stickyFor (n := 2 * m) (e := e - 1) (by omega) (by omega)
    refine ⟨k, h, by rw [← hroot]; exact if_neg (by omega), ?_⟩
    rwa [Nat.cast_mul, Nat.cast_ofNat, mul_right_comm, ← zpow_one_add₀ two_ne_zero, add_sub_cancel, mul_comm] at hsticky

/-! Fused sums (08 R190). -/

theorem isSnan_of_not_nan {a : FV} (h : a.isNan = false) : a.isSnan = false := by
  cases a with
  | nan _ => cases h
  | esc => cases h
  | _ => rfl

theorem add_of_nan (rm : Nat) {a b : FV} (h : a.isNan = true ∨ b.isNan = true) : FV.add rm a b = (.nan false, fIf (a.isSnan || b.isSnan) fNV) :=
  if_pos ((Bool.or_eq_true _ _).mpr h)

theorem mul_of_nan {a b : FV} (h : a.isNan = true ∨ b.isNan = true) : FV.mul a b = (.nan false, fIf (a.isSnan || b.isSnan) fNV) :=
  if_pos ((Bool.or_eq_true _ _).mpr h)

/-- A product of two numbers is a number, or invalid. -/
theorem mul_of_numbers {a b : FV} (ha : a.isNan = false) (hb : b.isNan = false) :
    (a.mul b).2 = 0 ∧ (a.mul b).1.isNan = false ∨ a.mul b = (.nan false, 1) := by
  cases a with
  | nan _ => cases ha
  | esc => cases ha
  | inf x =>
    cases b with
    | nan _ => cases hb
    | esc => cases hb
    | zero _ => exact .inr rfl
    | _ => exact .inl ⟨rfl, rfl⟩
  | zero x =>
    cases b with
    | nan _ => cases hb
    | esc => cases hb
    | inf _ => exact .inr rfl
    | _ => exact .inl ⟨rfl, rfl⟩
  | fin x m e =>
    cases b with
    | nan _ => cases hb
    | esc => cases hb
    | _ => exact .inl ⟨rfl, rfl⟩

theorem fma_of_numbers (rm : Nat) {a b c : FV} (o : Bool) (ha : a.isNan = false) (hb : b.isNan = false) (hc : c.isNan = false) :
    FV.fma rm a b c o = if (a.mul b).2 = 0 then FV.add rm (a.mul b).1 c else (.nan false, 1) := by
  unfold FV.fma
  rcases mul_of_numbers ha hb with ⟨hflag, hnum⟩ | hinvalid
  · simp [hc, hflag, hnum]
  · rw [hinvalid, hc, isSnan_of_not_nan hc]
    rfl

theorem fma_of_nan_factor (rm : Nat) {a b : FV} (c : FV) (o : Bool) (h : a.isNan = true ∨ b.isNan = true) :
    FV.fma rm a b c o = (.nan false, if a.isSnan || b.isSnan || c.isSnan then 1 else 0) := by
  have hfirst : (c.isNan && !a.isNan && !b.isNan && (a.mul b).2 != 0) = false := by
    rcases h with h | h <;> simp [h]
  unfold FV.fma
  dsimp only
  rw [hfirst, mul_of_nan h]
  cases a.isSnan <;> cases b.isSnan <;> cases c.isSnan <;> rfl

theorem fma_of_nan_addend (rm : Nat) {a b c : FV} (o : Bool) (ha : a.isNan = false) (hb : b.isNan = false) (hc : c.isNan = true) :
    FV.fma rm a b c o = (.nan false, if c.isSnan || (o && (a.mul b).2 != 0) then 1 else 0) := by
  unfold FV.fma
  rcases mul_of_numbers ha hb with ⟨hflag, hnum⟩ | hinvalid
  · simp [hflag, hnum, add_of_nan rm (.inr hc), isSnan_of_not_nan hnum, fIf, fNV]
  · simp [ha, hb, hc, hinvalid, fIf, fNV]

theorem fma_of_finite (rm : Nat) {a b c : FV} (o : Bool) (ha : a.finite = true) (hb : b.finite = true) (hc : c.finite = true) :
    (FV.fma rm a b c o).1.finite = true ∧ (FV.fma rm a b c o).1.rat = a.rat * b.rat + c.rat ∧ (FV.fma rm a b c o).2 = 0 := by
  obtain ⟨hfin, hrat⟩ := mul_of_finite ha hb
  rw [fma_of_numbers rm o (isNan_of_finite ha) (isNan_of_finite hb) (isNan_of_finite hc), if_pos (mul_sign_of_finite ha hb).2, ← hrat]
  exact add_of_finite rm hfin hc

/-- Settles O18: each clause from the lemma about its operation. -/
theorem exactArithmeticBeforeRounding : Obligations.ExactArithmeticBeforeRounding := by
  unfold Obligations.ExactArithmeticBeforeRounding
  intro a b c rm o z nan s add mul div fma
  have hnumber : ∀ {l : List FV} {v : FV}, ¬nan l → v ∈ l → v.isNan = false := fun hl hv => Bool.eq_false_of_not_eq_true fun h => hl ⟨_, hv, h⟩
  refine ⟨?finite, ?inf, ?zero, ?div, ?sqrt, ?numbers, ?factor, ?addend, fun ha hb hc => fma_of_finite rm o ha hb hc⟩
  case finite =>
    intro ha hb
    obtain ⟨hfin, hrat, hflag⟩ := add_of_finite rm ha hb
    obtain ⟨hflip, hneg⟩ := flip_finite hb
    obtain ⟨-, hsub, -⟩ := add_of_finite rm ha hflip
    obtain ⟨hmfin, hmrat⟩ := mul_of_finite ha hb
    obtain ⟨hsign, hmflag⟩ := mul_sign_of_finite ha hb
    refine ⟨hfin, hrat, hflag, by rw [hsub, hneg, sub_eq_add_neg], hmfin, hmrat, hsign, hmflag, ?_, add_eq_zero_of_cancel rm ha hb⟩
    rintro m n rfl rfl
    rfl
  case inf =>
    rintro m rfl
    refine ⟨fun hb => ?_, ?_, ?_, ?_⟩
    · obtain ⟨hab, hba, hdiv, hdivr⟩ := inf_with_finite rm m hb
      exact ⟨hab, hba, hdiv, congrArg Prod.fst hdivr, congrArg Prod.snd hdivr, inf_with_nonzero m hb⟩
    · rintro rfl
      exact if_pos rfl
    · rintro n rfl
      rfl
    · cases m <;> rfl
  case zero =>
    rintro m rfl
    exact ⟨rfl, zero_with_nonzero m⟩
  case div =>
    rintro x m e y n g rfl rfl hm hn
    exact div_stickyFor x y e g hm hn
  case sqrt =>
    rintro m e rfl hm
    exact sqrt_stickyFor e hm
  case numbers =>
    intro h
    exact fma_of_numbers rm o (hnumber h (by simp)) (hnumber h (by simp)) (hnumber h (by simp))
  case factor =>
    intro h
    exact fma_of_nan_factor rm c o (by simpa [nan] using h)
  case addend =>
    intro h hc
    exact fma_of_nan_addend rm o (hnumber h (by simp)) (hnumber h (by simp)) (by simpa [nan] using hc)

end Sys2Proof.ExactProofs
end

section
/-!
PROOFS. The scalar float instructions that act on fields or choose an operand (02 R28, R31, R32; 08 R190, R209, R211): flags and float traps, FABS, FNEG
and FCLASS, FMIN and FMAX; then the obligation O16.
-/
namespace Sys2Proof.FloatScalarProofs
open Sys2Proof Sys2Proof.Machine Sys2Proof.Laws Sys2Proof.LaunchProofs Sys2Proof.SumProofs Sys2Proof.RoundingProofs Sys2Proof.ExactProofs

/-! Flags and float traps (02 R31, R32). -/

theorem fte_raise (t : Thread) (f : Nat) : (t.raise f).fte = t.fte := by
  have hlow : f % 128 * 2 ^ 18 < 2 ^ 25 := by omega
  unfold Thread.fte Thread.tswBit Thread.raise
  rw [BitVec.getLsbD_or, BitVec.getLsbD_ofNat, Nat.testBit_lt_two_pow hlow, Bool.and_false, Bool.or_false]

theorem floatCause_none {f : Nat} (h : f % 8 = 0) : floatCause f = none := by
  have h0 : bit f 0 = false := by simp only [bit, beq_eq_false_iff_ne]; omega
  have h1 : bit f 1 = false := by simp only [bit, beq_eq_false_iff_ne]; omega
  have h2 : bit f 2 = false := by simp only [bit, beq_eq_false_iff_ne]; omega
  simp [floatCause, h0, h1, h2]

theorem floatCause_invalid {f : Nat} (h : f % 2 = 1) : floatCause f = some Cause.fpInvalid := by
  have h0 : bit f 0 = true := by simp only [bit, beq_iff_eq]; omega
  simp [floatCause, h0]

theorem floatCause_divZero {f : Nat} (h : f % 4 = 2) : floatCause f = some Cause.fpDivZero := by
  have h0 : bit f 0 = false := by simp only [bit, beq_eq_false_iff_ne]; omega
  have h1 : bit f 1 = true := by simp only [bit, beq_iff_eq]; omega
  simp [floatCause, h0, h1]

theorem floatCause_overflow {f : Nat} (h : f % 8 = 4) : floatCause f = some Cause.fpOverflow := by
  have h0 : bit f 0 = false := by simp only [bit, beq_eq_false_iff_ne]; omega
  have h1 : bit f 1 = false := by simp only [bit, beq_eq_false_iff_ne]; omega
  have h2 : bit f 2 = true := by simp only [bit, beq_iff_eq]; omega
  simp [floatCause, h0, h1, h2]

theorem flagged_eq (σ : State) (f : Nat) (k : State → State) :
    σ.flagged f k = match (if σ.thr.fte then floatCause f else none) with
      | some c => (σ.raised f).trap c 0
      | none => k (σ.raised f) := by
  have hfte : (σ.raised f).thr.fte = σ.thr.fte := by rw [State.raised, State.thr_onThr, fte_raise]
  rw [← hfte]
  rfl

theorem flagged_continues {σ : State} {f : Nat} {k : State → State} (h : σ.thr.fte = false ∨ f % 8 = 0) : σ.flagged f k = k (σ.raised f) := by
  have hnone : (if σ.thr.fte then floatCause f else none) = none := by
    rcases h with h | h
    · rw [h]; rfl
    · rw [floatCause_none h, ite_self]
  rw [flagged_eq, hnone]

theorem flagged_traps {σ : State} {f c : Nat} {k : State → State} (hfte : σ.thr.fte = true) (hc : floatCause f = some c) :
    σ.flagged f k = (σ.raised f).trap c 0 := by
  rw [flagged_eq, if_pos hfte, hc]

/-- An instruction that sets flags and goes on signals them. -/
theorem signals_of_flagged {σ : State} {i : Instr} {f : Nat} {k : State → State} (he : σ.leads i (σ.flagged f k)) : σ.signals i f k := by
  intro hadm
  rw [he hadm]
  exact ⟨fun h => by rw [flagged_continues h], fun ht h => by rw [flagged_traps ht (floatCause_invalid h)],
    fun ht h => by rw [flagged_traps ht (floatCause_divZero h)], fun ht h => by rw [flagged_traps ht (floatCause_overflow h)]⟩

theorem floats_op {σ : State} {i : Instr} {w : Width} {d s t : Reg} {f : FFormat → Nat → Nat → Nat → Nat × Nat} (he : exec i σ = floatOp w d s t f σ)
    (hn : [d.val, s.val, t.val] = i.named) (ha : i.afterPrefix = false) {r : Nat × Nat}
    (hr : f (fmtOf w) σ.thr.rm (σ.fop (fmtOf w) s) (σ.fop (fmtOf w) t) = r) : σ.floats i d r :=
  signals_of_flagged (leads_plain he hn ha (by subst hr; rfl))

theorem raise_zero (t : Thread) : t.raise 0 = t := by
  simp [Thread.raise]

/-- Setting no flag is lost in the write of the thread that follows it. -/
theorem retire_setG_raised_zero (σ : State) (d : Nat) (v : Word) : ((σ.raised 0).setG d v).retire = (σ.setG d v).retire := by
  have hthr : (σ.raised 0).thr = σ.thr := by rw [State.raised, State.thr_onThr, raise_zero]
  have hthread : (σ.raised 0).thread σ.cur.1 σ.cur.2 = σ.thread σ.cur.1 σ.cur.2 := hthr
  have hcur : (σ.raised 0).cur = σ.cur := rfl
  unfold State.retire State.retireTo
  rw [State.thr_setG, State.thr_setG, hthr]
  unfold State.setG State.setGOf
  rw [hcur, hthread]
  unfold State.raised State.onThr State.onThread
  simp only [onCore_onCore, State.onCore_cur, Core.slot, Tab.get_set_same, Laws.Tab.set_set, raise_zero]

theorem puts_float {σ : State} {i : Instr} {d s : Reg} {f : Nat → Nat → Nat × Nat} (he : exec i σ = floatUnary d s f σ)
    (hn : [d.val, s.val] = i.named) (ha : i.afterPrefix = false) {v : Nat} (hf : f σ.thr.rm (σ.gn s) = (v, 0)) : σ.puts i d (BitVec.ofNat 64 v) :=
  leads_plain he hn ha (by dsimp only; rw [hf, flagged_continues (.inr rfl), retire_setG_raised_zero])

/-! Operations on the fields (02 R28, 08 R209, R211). -/

theorem ofNat_mod_two_pow (a : Word) (n : Nat) (hn : n ≤ 64) : BitVec.ofNat 64 (a.toNat % 2 ^ n) = a &&& BitVec.ofNat 64 (2 ^ n - 1) := by
  have hpow : 2 ^ n - 1 < 2 ^ 64 := (Nat.sub_lt (Nat.two_pow_pos n) one_pos).trans_le (Nat.pow_le_pow_right two_pos hn)
  refine BitVec.eq_of_toNat_eq ?_
  rw [BitVec.toNat_and, BitVec.toNat_ofNat, BitVec.toNat_ofNat, Nat.mod_eq_of_lt hpow, Nat.and_two_pow_sub_one_eq_mod,
    Nat.mod_eq_of_lt ((Nat.mod_le _ _).trans_lt a.isLt)]

theorem ofNat_flip (a : Word) (n k : Nat) (hn : n ≤ 64) :
    BitVec.ofNat 64 (a.toNat % 2 ^ n ^^^ 2 ^ k) = (a &&& BitVec.ofNat 64 (2 ^ n - 1)) ^^^ BitVec.ofNat 64 (2 ^ k) := by
  rw [BitVec.ofNat_xor, ofNat_mod_two_pow a n hn]

theorem field_mod (a : Nat) {w lo len : Nat} (h : lo + len ≤ w) : field (a % 2 ^ w) lo len = field a lo len := by
  unfold field
  obtain ⟨k, rfl⟩ := Nat.exists_eq_add_of_le h
  rw [Nat.add_assoc, pow_add 2 lo, Nat.mod_mul_right_div_self, Nat.mod_mod_of_dvd _ (pow_dvd_pow 2 (Nat.le_add_right len k))]

theorem bit_mod (a : Nat) {w k : Nat} (h : k < w) : bit (a % 2 ^ w) k = bit a k := by
  have hfield := field_mod a (lo := k) (len := 1) (w := w) h
  unfold field at hfield
  unfold bit
  rw [show a % 2 ^ w / 2 ^ k % 2 = a / 2 ^ k % 2 from hfield]

/-- The class of the value by its fields (08 R211). -/
theorem classMask_eq (x : FFormat) (a : Nat) : x.classMask a =
    if field a x.mbits x.ebits = 2 ^ x.ebits - 1 then
      (if field a 0 x.mbits = 0 then (if bit a (x.ebits + x.mbits) then 1 else 128) else if bit a (x.mbits - 1) then 512 else 256)
    else if field a x.mbits x.ebits = 0 then
      (if field a 0 x.mbits = 0 then (if bit a (x.ebits + x.mbits) then 8 else 16) else if bit a (x.ebits + x.mbits) then 4 else 32)
    else if bit a (x.ebits + x.mbits) then 2 else 64 := by
  unfold FFormat.classMask FFormat.unpack
  by_cases hones : field a x.mbits x.ebits = 2 ^ x.ebits - 1
  · by_cases hfrac : field a 0 x.mbits = 0
    · simp only [if_pos hones, if_pos hfrac]
    · simp only [if_pos hones, if_neg hfrac]
      cases bit a (x.mbits - 1) <;> rfl
  · by_cases hexp : field a x.mbits x.ebits = 0
    · by_cases hfrac : field a 0 x.mbits = 0
      · simp only [if_neg hones, if_pos hexp, if_pos hfrac]
      · simp only [if_neg hones, if_pos hexp, if_neg hfrac]
    · simp only [if_neg hones, if_neg hexp]

theorem extract_eq_allOnes_iff (a : Word) (lo len : Nat) : a.extractLsb' lo len = BitVec.allOnes len ↔ field a.toNat lo len = 2 ^ len - 1 := by
  rw [← BitVec.toNat_inj, BitVec.toNat_allOnes, ← field_toNat]

theorem extract_eq_zero_iff (a : Word) (lo len : Nat) : a.extractLsb' lo len = 0 ↔ field a.toNat lo len = 0 := by
  rw [BitVec.ofNat_eq_ofNat, ← BitVec.toNat_inj, BitVec.toNat_zero, ← field_toNat]

/-- The class of the low bits of a register. -/
theorem classMask_word {x : FFormat} (a : Word) (hM : 0 < x.mbits) : BitVec.ofNat 64 (x.classMask (a.toNat % 2 ^ x.width)) =
    let e := a.extractLsb' x.mbits x.ebits
    let m := a.extractLsb' 0 x.mbits
    let n := a.getLsbD (x.ebits + x.mbits)
    if e = BitVec.allOnes x.ebits then (if m = 0 then (if n then 1 else 0x80) else if m.getLsbD (x.mbits - 1) then 0x200 else 0x100)
    else if e = 0 then (if m = 0 then (if n then 8 else 0x10) else if n then 4 else 0x20) else if n then 2 else 0x40 := by
  have hwidth : x.width = x.ebits + x.mbits + 1 := rfl
  have hquiet : (a.extractLsb' 0 x.mbits).getLsbD (x.mbits - 1) = a.getLsbD (x.mbits - 1) := by
    rw [BitVec.getLsbD_extractLsb', Nat.zero_add, decide_eq_true (by omega), Bool.true_and]
  simp only [extract_eq_allOnes_iff, extract_eq_zero_iff, hquiet, ← bit_toNat]
  rw [classMask_eq, field_mod _ (by omega), field_mod _ (by omega), bit_mod _ (by omega), bit_mod _ (by omega)]
  simp only [apply_ite (BitVec.ofNat 64)]
  rfl

theorem width_fmtOf_le (w : Width) : (fmtOf w).width ≤ 64 := by
  cases w <;> decide

theorem puts_fabs (w : Width) (d s : Reg) (σ : State) : σ.puts (.fabs w d s) d (σ.g s &&& BitVec.ofNat 64 (2 ^ ((fmtOf w).width - 1) - 1)) := by
  have hwidth := width_fmtOf_le w
  rw [← ofNat_mod_two_pow _ _ (by omega)]
  exact puts_float (exec_fabs σ) rfl rfl rfl

theorem puts_fneg (w : Width) (d s : Reg) (σ : State) :
    σ.puts (.fneg w d s) d ((σ.g s &&& BitVec.ofNat 64 (2 ^ (fmtOf w).width - 1)) ^^^ BitVec.ofNat 64 (2 ^ ((fmtOf w).width - 1))) := by
  rw [← ofNat_flip _ _ _ (width_fmtOf_le w)]
  exact puts_float (exec_fneg σ) rfl rfl rfl

theorem puts_class {σ : State} {i : Instr} {d s : Reg} (x : FFormat) (hM : 0 < x.mbits)
    (he : exec i σ = floatUnary d s (fun _ v => (x.classMask (v % 2 ^ x.width), 0)) σ)
    (hn : [d.val, s.val] = i.named) (ha : i.afterPrefix = false) :
    let e := (σ.g s).extractLsb' x.mbits x.ebits
    let m := (σ.g s).extractLsb' 0 x.mbits
    let n := (σ.g s).getLsbD (x.ebits + x.mbits)
    σ.puts i d (
      if e = BitVec.allOnes x.ebits then (if m = 0 then (if n then 1 else 0x80) else if m.getLsbD (x.mbits - 1) then 0x200 else 0x100)
      else if e = 0 then (if m = 0 then (if n then 8 else 0x10) else if n then 4 else 0x20) else if n then 2 else 0x40) := by
  intro e m n
  rw [← classMask_word (σ.g s) hM]
  exact puts_float he hn ha rfl

/-! FMIN and FMAX (08 R190, R209). -/

theorem least_of_snan {u v : FV} (h : u.isSnan = true ∨ v.isSnan = true) : u.least v = (none, 1) :=
  if_pos ((Bool.or_eq_true _ _).mpr h)

theorem least_of_no_snan {u v : FV} (hu : u.isSnan = false) (hv : v.isSnan = false) : u.least v =
    if u.isNan && v.isNan then (none, 0) else if u.isNan then (some false, 0) else if v.isNan then (some true, 0)
    else (some (FV.lt u v || (FV.eq u v && u.neg)), 0) := by
  unfold FV.least
  rw [hu, hv]
  rfl

theorem min_max_none {x : FFormat} {a b f : Nat} (h : (x.unpack a).least (x.unpack b) = (none, f)) : x.min a b = (x.nan, f) ∧ x.max a b = (x.nan, f) := by
  unfold FFormat.min FFormat.max
  rw [h]
  exact ⟨rfl, rfl⟩

theorem min_max_first {x : FFormat} {a b f : Nat} (h : (x.unpack a).least (x.unpack b) = (some true, f)) :
    x.min a b = (a, f) ∧ x.max a b = (if (x.unpack b).isNan then a else b, f) := by
  unfold FFormat.min FFormat.max
  rw [h]
  exact ⟨rfl, rfl⟩

theorem min_max_second {x : FFormat} {a b f : Nat} (h : (x.unpack a).least (x.unpack b) = (some false, f)) :
    x.min a b = (b, f) ∧ x.max a b = (if (x.unpack a).isNan then b else a, f) := by
  unfold FFormat.min FFormat.max
  rw [h]
  exact ⟨rfl, rfl⟩

/-- Numbers of which the first is the lesser, or neither is and the first is negative. -/
theorem min_max_lesser {x : FFormat} {a b : Nat} {u v : FV} (ha : x.unpack a = u) (hb : x.unpack b = v) (hu : u.isNan = false) (hv : v.isNan = false)
    (h : FV.lt u v = true ∨ FV.lt v u = false ∧ u.neg = true) : x.min a b = (a, 0) ∧ x.max a b = (b, 0) := by
  have hleast : u.least v = (some true, 0) := by
    rw [least_of_no_snan (isSnan_of_not_nan hu) (isSnan_of_not_nan hv)]
    rcases h with h | ⟨h, hneg⟩
    · simp [hu, hv, h]
    · simp [hu, hv, h, hneg, FV.eq, Bool.or_not_self]
  obtain ⟨hmin, hmax⟩ := min_max_first (ha.symm ▸ hb.symm ▸ hleast)
  rw [hb, hv] at hmax
  exact ⟨hmin, hmax⟩

/-- Numbers of which the first is not the lesser, and the second is or the first is not negative. -/
theorem min_max_greater {x : FFormat} {a b : Nat} {u v : FV} (ha : x.unpack a = u) (hb : x.unpack b = v) (hu : u.isNan = false) (hv : v.isNan = false)
    (hnot : FV.lt u v = false) (h : FV.lt v u = true ∨ u.neg = false) : x.min a b = (b, 0) ∧ x.max a b = (a, 0) := by
  have hleast : u.least v = (some false, 0) := by
    rw [least_of_no_snan (isSnan_of_not_nan hu) (isSnan_of_not_nan hv)]
    rcases h with h | h <;> simp [hu, hv, hnot, h, FV.eq]
  obtain ⟨hmin, hmax⟩ := min_max_second (ha.symm ▸ hb.symm ▸ hleast)
  rw [ha, hu] at hmax
  exact ⟨hmin, hmax⟩

/-- A quiet NaN beside a number gives the number. -/
theorem min_max_one_nan {x : FFormat} {a b : Nat} (hsa : (x.unpack a).isSnan = false) (hsb : (x.unpack b).isSnan = false) :
    ((x.unpack a).isNan = true → (x.unpack b).isNan = false → x.min a b = (b, 0) ∧ x.max a b = (b, 0)) ∧
    ((x.unpack a).isNan = false → (x.unpack b).isNan = true → x.min a b = (a, 0) ∧ x.max a b = (a, 0)) := by
  have hleast := least_of_no_snan hsa hsb
  refine ⟨fun hu hv => ?_, fun hu hv => ?_⟩ <;> rw [hu, hv] at hleast
  · obtain ⟨hmin, hmax⟩ := min_max_second hleast
    rw [hu] at hmax
    exact ⟨hmin, hmax⟩
  · obtain ⟨hmin, hmax⟩ := min_max_first hleast
    rw [hv] at hmax
    exact ⟨hmin, hmax⟩

theorem min_max_two_nans {x : FFormat} {a b : Nat} (hsa : (x.unpack a).isSnan = false) (hsb : (x.unpack b).isSnan = false) (hu : (x.unpack a).isNan = true)
    (hv : (x.unpack b).isNan = true) : x.min a b = (x.nan, 0) ∧ x.max a b = (x.nan, 0) := by
  have hleast := least_of_no_snan hsa hsb
  rw [hu, hv] at hleast
  exact min_max_none hleast

theorem lt_fin_fin (x y : Bool) (m n : Nat) (e g : Int) : FV.lt (.fin x m e) (.fin y n g) = true ↔ (FV.fin x m e).rat < (FV.fin y n g).rat := by
  rw [← signed_shift x m (min_le_left e g), ← signed_shift y n (min_le_right e g), mul_lt_mul_iff_left₀ (zpow_pos two_pos _), Int.cast_lt]
  exact decide_eq_true_iff

theorem rat_sign {x : Bool} {m : Nat} {e : Int} : (x = true → (FV.fin x m e).rat ≤ 0) ∧ (x = false → 0 ≤ (FV.fin x m e).rat) := by
  have hnonneg : (0 : ℚ) ≤ m * 2 ^ e := by positivity
  constructor <;> rintro rfl <;> simp [FV.rat, hnonneg]

/-- The order of finite values is that of their numbers. -/
theorem lt_of_rat_lt {u v : FV} (hu : u.finite = true) (hv : v.finite = true) (h : u.rat < v.rat) : FV.lt u v = true ∧ FV.lt v u = false := by
  cases u with
  | fin x m e =>
    cases v with
    | fin y n g => exact ⟨(lt_fin_fin x y m n e g).mpr h, Bool.eq_false_of_not_eq_true ((lt_fin_fin y x n m g e).not.mpr h.le.not_gt)⟩
    | zero y =>
      cases x with
      | true => exact ⟨rfl, rfl⟩
      | false => exact absurd h (rat_sign.2 rfl).not_gt
    | _ => cases hv
  | zero x =>
    cases v with
    | fin y n g =>
      cases y with
      | true => exact absurd h (rat_sign.1 rfl).not_gt
      | false => exact ⟨rfl, rfl⟩
    | zero y => exact absurd h (lt_irrefl 0)
    | _ => cases hv
  | _ => cases hu

theorem lt_inf_finite (n : Bool) {v : FV} (hv : v.finite = true) : FV.lt (.inf n) v = n ∧ FV.lt v (.inf n) = !n := by
  cases v with
  | fin y m e => exact ⟨rfl, rfl⟩
  | zero y => exact ⟨rfl, rfl⟩
  | _ => cases hv

theorem nan_fmtOf (w : Width) : (fmtOf w).nan = match w with
    | .w32 => 0x7FC00000
    | .w64 => 0x7FF8000000000000 := by
  cases w <;> rfl

/-- FMIN and FMAX put what `FFormat.min` and `FFormat.max` give of the operands. -/
theorem floats_min_max (w : Width) (d s t : Reg) (σ : State) {lo hi f : Nat}
    (h : (fmtOf w).min (σ.fop (fmtOf w) s) (σ.fop (fmtOf w) t) = (lo, f) ∧ (fmtOf w).max (σ.fop (fmtOf w) s) (σ.fop (fmtOf w) t) = (hi, f)) :
    σ.floats (.fmin w d s t) d (lo, f) ∧ σ.floats (.fmax w d s t) d (hi, f) :=
  ⟨floats_op (exec_fmin σ) rfl rfl h.1, floats_op (exec_fmax σ) rfl rfl h.2⟩

/-- Settles O16: FABS, FNEG and FCLASS from the bits of the operand, FMIN and FMAX from what `FV.least` answers. -/
theorem floatSignClassAndMinMaxResults : Obligations.FloatSignClassAndMinMaxResults := by
  unfold Obligations.FloatSignClassAndMinMaxResults
  refine ⟨?fields, ?order⟩
  case fields =>
    intro d s σ a e m n e' m' n'
    have hneg := puts_fneg .w64 d s σ
    rw [show BitVec.ofNat 64 (2 ^ (fmtOf .w64).width - 1) = BitVec.allOnes 64 from rfl, BitVec.and_allOnes] at hneg
    exact ⟨puts_fabs .w32 d s σ, puts_fabs .w64 d s σ, puts_fneg .w32 d s σ, hneg,
      puts_class f32 (by decide) (exec_fclass32 σ) rfl rfl, puts_class f64 (by decide) (exec_fclass64 σ) rfl rfl⟩
  case order =>
    intro w d s t σ x a b nan u v both
    have hboth : ∀ {lo hi f : Nat}, x.min a b = (lo, f) ∧ x.max a b = (hi, f) → both lo hi f := floats_min_max w d s t σ
    have hnan : x.nan = nan := nan_fmtOf w
    have hfalse : ∀ {c : Bool}, ¬c = true → c = false := Bool.eq_false_of_not_eq_true
    refine ⟨fun h => ?snan, fun hu hv hsu hsv => ?nans, fun hu hv hsu => ?nanFirst, fun hu hv hsv => ?nanSecond, fun hu hv h => ?less, fun hu hv h => ?greater,
      fun hu hv => ?zeros, fun hu hv => ?zeros', fun hu hv => ?infLess, fun hu hv => ?infGreater⟩
    case snan => exact hboth (hnan ▸ min_max_none (least_of_snan h))
    case nans => exact hboth (hnan ▸ min_max_two_nans (hfalse hsu) (hfalse hsv) hu hv)
    case nanFirst => exact hboth ((min_max_one_nan (hfalse hsu) (isSnan_of_not_nan (hfalse hv))).1 hu (hfalse hv))
    case nanSecond => exact hboth ((min_max_one_nan (isSnan_of_not_nan (hfalse hu)) (hfalse hsv)).2 (hfalse hu) hv)
    case less => exact hboth (min_max_lesser rfl rfl (isNan_of_finite hu) (isNan_of_finite hv) (.inl (lt_of_rat_lt hu hv h).1))
    case greater =>
      obtain ⟨hlt, hge⟩ := lt_of_rat_lt hv hu h
      exact hboth (min_max_greater rfl rfl (isNan_of_finite hu) (isNan_of_finite hv) hge (.inl hlt))
    case zeros => exact hboth (min_max_lesser hu hv rfl rfl (.inr ⟨rfl, rfl⟩))
    case zeros' => exact hboth (min_max_greater hu hv rfl rfl rfl (.inr rfl))
    case infLess => exact hboth (min_max_lesser hu rfl rfl (isNan_of_finite hv) (.inl (lt_inf_finite true hv).1))
    case infGreater =>
      obtain ⟨hge, hlt⟩ := lt_inf_finite false hv
      exact hboth (min_max_greater hu rfl rfl (isNan_of_finite hv) hge (.inl hlt))

end Sys2Proof.FloatScalarProofs
end

section
/-!
PROOFS. Narrow formats (02 R33 to R36, R38, R39): legal descriptors, what a code stands for, the order of the numbers and MAXFIN, overflow, the code and
flags of a rounded value; then the obligation O28.
-/
namespace Sys2Proof.NarrowProofs
open Sys2Proof Sys2Proof.Machine Sys2Proof.SumProofs Sys2Proof.RoundingProofs Sys2Proof.ExactProofs Sys2Proof.FloatScalarProofs

/-! Legal descriptors (02 R33, R34). -/

/-- What a legal descriptor's fields satisfy. -/
structure Sound (n : Narrow) : Prop where
  two_le_w : 2 ≤ n.w
  s_le : n.s ≤ 1
  special_le : n.special ≤ 2
  zc_le : n.zc ≤ 2
  e_le : n.e ≤ n.w - n.s
  of_ieee : n.special = 2 → 2 ≤ n.e ∧ 1 ≤ n.m
  of_zc : n.zc ≠ 0 → n.s = 1

theorem sound_of_legal {d : Nat} (h : (narrowOf d).legal = true) : Sound (narrowOf d) := by
  have hs : (narrowOf d).s ≤ 1 := Nat.lt_succ_iff.mp (Nat.mod_lt _ two_pos)
  simp only [Narrow.legal, Bool.and_eq_true, Bool.or_eq_true, Bool.not_eq_true', decide_eq_true_eq, beq_iff_eq, Bool.and_eq_false_iff, Bool.or_eq_false_iff,
    decide_eq_false_iff_not, beq_eq_false_iff_ne, bne_eq_false_iff_eq] at h
  obtain ⟨⟨⟨⟨⟨⟨⟨⟨⟨⟨hw, -⟩, -⟩, -⟩, -⟩, hzc⟩, hspecial⟩, he⟩, hieee⟩, hsigned⟩, -⟩ := h
  refine ⟨hw, hs, hspecial, hzc, he, fun h2 => ?_, fun hne => ?_⟩
  · rcases hieee with h | ⟨h1, h3⟩
    · exact absurd h2 h
    · unfold Narrow.m
      omega
  · rcases hsigned with h | h
    · exact absurd h hne
    · omega

theorem narrowOf_fields {d : Nat} (hd : d < 2 ^ 32) : let n := narrowOf d
    n.w = d % 16 ∧ n.s = d / 16 % 2 ∧ n.e = d / 32 % 8 ∧ n.bias = (if d / 2 ^ 15 % 2 = 1 then (d / 2 ^ 8 % 256 : Int) - 256 else (d / 2 ^ 8 % 256 : Int)) ∧
      n.special = d / 2 ^ 16 % 4 ∧ n.zc = d / 2 ^ 18 % 4 ∧ n.blk = d / 2 ^ 20 % 16 ∧ n.scf = d / 2 ^ 24 % 16 ∧ n.sat = d.testBit 28 ∧ n.rsv = d / 2 ^ 29 := by
  have hbias : (narrowOf d).bias = sextNat 8 (d / 2 ^ 8 % 256) := rfl
  have hsat : (narrowOf d).sat = bit d 28 := rfl
  refine ⟨?_, rfl, rfl, ?_, rfl, rfl, rfl, rfl, ?_, ?_⟩
  · exact congrArg (· % 16) (Nat.div_one d)
  · rw [hbias]
    unfold sextNat
    split <;> split <;> omega
  · rw [hsat, Nat.testBit_eq_decide_div_mod_eq, bit, beq_eq_decide]
  · exact Nat.mod_eq_of_lt (by omega)

section
variable {n : Narrow}

/-! What a code stands for (02 R35). -/

/-- The value of a sign and a magnitude (02 R35). -/
def codeValue (n : Narrow) (sg : Bool) (mg : Nat) : FV :=
  if sg && mg == 0 && n.zc == 0 then .zero true
  else if sg && mg == 0 && n.zc == 1 then .esc
  else if sg && mg == 0 && n.zc == 2 then .nan false
  else if n.special == 1 && mg == 2 ^ (n.w - n.s) - 1 then .nan false
  else if n.special == 2 && n.e != 0 && mg / 2 ^ n.m == 2 ^ n.e - 1 then
    (if mg % 2 ^ n.m = 0 then .inf sg else .nan false)
  else n.magnitude sg mg

theorem decode_eq {c : Nat} (hc : c < 2 ^ n.w) : n.decode c = codeValue n (decide (n.s = 1) && c.testBit (n.w - 1)) (c % 2 ^ (n.w - n.s)) := by
  rw [Nat.testBit_eq_decide_div_mod_eq]
  unfold Narrow.decode
  rw [Nat.mod_eq_of_lt hc]
  rfl

/-- The code of a sign and a magnitude. -/
theorem decode_code (h : Sound n) {sg : Bool} {mg : Nat} (hmg : mg < 2 ^ (n.w - n.s)) (hsg : sg = true → n.s = 1) :
    n.sign sg + mg < 2 ^ n.w ∧ n.decode (n.sign sg + mg) = codeValue n sg mg := by
  have hw := h.two_le_w
  have hpow : 2 ^ n.w = 2 * 2 ^ (n.w - 1) := by rw [← pow_succ']; congr 1; omega
  unfold Narrow.sign
  have hs := h.s_le
  rcases Nat.lt_or_ge n.s 1 with hzero | hone
  · obtain rfl : sg = false := Bool.eq_false_of_not_eq_true fun hs => by have := hsg hs; omega
    rw [show n.w - n.s = n.w by omega] at hmg
    rw [if_neg Bool.false_ne_true, Nat.zero_add, decode_eq hmg, decide_eq_false (by omega), Bool.false_and, show n.w - n.s = n.w by omega, Nat.mod_eq_of_lt hmg]
    exact ⟨hmg, rfl⟩
  · rw [show n.s = 1 by omega] at hmg
    have hlt : (if sg then 2 ^ (n.w - 1) else 0) + mg < 2 ^ n.w := by split <;> omega
    have hbit : ((if sg then 2 ^ (n.w - 1) else 0) + mg).testBit (n.w - 1) = sg := by
      cases sg
      · rw [if_neg Bool.false_ne_true, Nat.zero_add]
        exact Nat.testBit_lt_two_pow hmg
      · rw [if_pos rfl, Nat.testBit_two_pow_add_eq, Nat.testBit_lt_two_pow hmg]
        rfl
    have hmod : ((if sg then 2 ^ (n.w - 1) else 0) + mg) % 2 ^ (n.w - 1) = mg := by
      split
      · rw [Nat.add_mod_left, Nat.mod_eq_of_lt hmg]
      · rw [Nat.zero_add, Nat.mod_eq_of_lt hmg]
    rw [decode_eq hlt, hbit, show n.s = 1 by omega, hmod]
    exact ⟨hlt, rfl⟩

/-- The code with the sign bit alone (02 R35: ZC). -/
theorem codeValue_neg_zero (h : Sound n) : codeValue n true 0 = if n.zc = 0 then .zero true else if n.zc = 1 then .esc else .nan false := by
  have hzc := h.zc_le
  unfold codeValue
  interval_cases n.zc <;> rfl

theorem codeValue_of_magnitude {sg : Bool} {mg : Nat} (hmg : sg = false ∨ mg ≠ 0) : codeValue n sg mg =
    if n.special = 1 ∧ mg = 2 ^ (n.w - n.s) - 1 then .nan false
    else if (n.special = 2 ∧ n.e ≠ 0) ∧ mg / 2 ^ n.m = 2 ^ n.e - 1 then (if mg % 2 ^ n.m = 0 then .inf sg else .nan false)
    else n.magnitude sg mg := by
  have hzero : (sg && mg == 0) = false := by
    rcases hmg with rfl | hne
    · rfl
    · rw [beq_false_of_ne hne, Bool.and_false]
  unfold codeValue
  simp [hzero]

/-- The magnitudes of numbers are those up to MAXFIN's (02 R36). -/
theorem le_maxMag_iff (h : Sound n) {mg : Nat} (hmg : mg < 2 ^ (n.w - n.s)) :
    mg ≤ n.maxMag ↔ ¬(n.special = 1 ∧ mg = 2 ^ (n.w - n.s) - 1) ∧ ¬((n.special = 2 ∧ n.e ≠ 0) ∧ mg / 2 ^ n.m = 2 ^ n.e - 1) := by
  have hM : 0 < 2 ^ n.m := Nat.two_pow_pos _
  unfold Narrow.maxMag
  by_cases h1 : n.special = 1
  · rw [if_pos h1]
    have hK : 2 ^ 1 ≤ 2 ^ (n.w - n.s) := Nat.pow_le_pow_right two_pos (by have := h.two_le_w; have := h.s_le; omega)
    omega
  · by_cases h2 : n.special = 2
    · obtain ⟨he, hm⟩ := h.of_ieee h2
      have hle := h.e_le
      have hE : 2 ^ 2 ≤ 2 ^ n.e := Nat.pow_le_pow_right two_pos he
      have hdiv : mg / 2 ^ n.m < 2 ^ n.e := by
        rw [Nat.div_lt_iff_lt_mul hM, ← pow_add]
        convert hmg using 2
        unfold Narrow.m
        omega
      have hpos : 0 < (2 ^ n.e - 1) * 2 ^ n.m := Nat.mul_pos (by omega) hM
      have hlt : mg < (2 ^ n.e - 1) * 2 ^ n.m ↔ mg / 2 ^ n.m < 2 ^ n.e - 1 := (Nat.div_lt_iff_lt_mul hM).symm
      rw [if_neg h1, if_pos h2]
      omega
    · rw [if_neg h1, if_neg h2]
      omega

theorem maxMag_lt (h : Sound n) : n.maxMag < 2 ^ (n.w - n.s) := by
  have hK : 0 < 2 ^ (n.w - n.s) := Nat.two_pow_pos _
  unfold Narrow.maxMag
  split
  · omega
  · split
    · next h2 =>
      have hle := h.e_le
      have hpow : 2 ^ (n.w - n.s) = 2 ^ n.e * 2 ^ n.m := by
        rw [← pow_add]
        congr 1
        unfold Narrow.m
        omega
      have hmul : (2 ^ n.e - 1) * 2 ^ n.m ≤ 2 ^ n.e * 2 ^ n.m := Nat.mul_le_mul_right _ (Nat.sub_le _ _)
      omega
    · omega

theorem codeValue_number (h : Sound n) {sg : Bool} {mg : Nat} (hmg : sg = false ∨ mg ≠ 0) (hle : mg ≤ n.maxMag) : codeValue n sg mg = n.magnitude sg mg := by
  obtain ⟨h1, h2⟩ := (le_maxMag_iff h (hle.trans_lt (maxMag_lt h))).mp hle
  rw [codeValue_of_magnitude hmg, if_neg h1, if_neg h2]

/-! The numbers (02 R35). -/

/-- A magnitude in units of the format's least value, and the exponent of that unit. -/
def unitsIn (n : Narrow) (mg : Nat) : Nat := if n.e = 0 then mg else unitsOf ⟨n.e, n.m⟩ mg
def unitExp (n : Narrow) : Int := if n.e = 0 then -n.bias else 1 - n.bias - n.m

theorem magnitude_sign (sg : Bool) (mg : Nat) : (n.magnitude sg mg).finite = true ∧ (n.magnitude sg mg).neg = sg := by
  unfold Narrow.magnitude
  split
  · split <;> exact ⟨rfl, rfl⟩
  · dsimp only
    split
    · split <;> exact ⟨rfl, rfl⟩
    · exact ⟨rfl, rfl⟩

theorem rat_zero_or_fin (sg : Bool) (k : Nat) (p : Int) : (if k = 0 then FV.zero sg else .fin sg k p).rat = (if sg then -1 else 1) * (k * 2 ^ p) := by
  split
  · next h => simp [FV.rat, h]
  · simp only [FV.rat, mul_assoc]

theorem magnitude_rat_integer (he : n.e = 0) (sg : Bool) (mg : Nat) : (n.magnitude sg mg).rat = (if sg then -1 else 1) * ((mg : ℚ) * 2 ^ (-n.bias)) := by
  unfold Narrow.magnitude
  rw [if_pos he, rat_zero_or_fin]

theorem magnitude_rat_subnormal (he : n.e ≠ 0) (sg : Bool) {mg : Nat} (hef : mg / 2 ^ n.m = 0) :
    (n.magnitude sg mg).rat = (if sg then -1 else 1) * ((mg % 2 ^ n.m : Nat) * 2 ^ (1 - n.bias - n.m)) := by
  unfold Narrow.magnitude
  dsimp only
  rw [if_neg he, if_pos hef, rat_zero_or_fin]

theorem magnitude_rat_normal (he : n.e ≠ 0) (sg : Bool) {mg : Nat} (hef : mg / 2 ^ n.m ≠ 0) :
    (n.magnitude sg mg).rat = (if sg then -1 else 1) * ((2 ^ n.m + (mg % 2 ^ n.m : Nat)) * 2 ^ ((mg / 2 ^ n.m : Nat) - n.bias - n.m)) := by
  unfold Narrow.magnitude
  dsimp only
  rw [if_neg he, if_neg hef]
  simp only [FV.rat, mul_assoc]
  push_cast
  rfl

theorem magnitude_rat (sg : Bool) (mg : Nat) : (n.magnitude sg mg).rat = (if sg then -1 else 1) * ((unitsIn n mg : ℚ) * 2 ^ unitExp n) := by
  unfold unitsIn unitExp
  by_cases he : n.e = 0
  · rw [if_pos he, if_pos he, magnitude_rat_integer he]
  · rw [if_neg he, if_neg he]
    unfold unitsOf
    dsimp only
    by_cases hef : mg / 2 ^ n.m = 0
    · rw [if_pos hef, magnitude_rat_subnormal he sg hef]
    · have hpow : (2 : ℚ) ^ ((mg / 2 ^ n.m : Nat) - n.bias - n.m : Int) = (2 ^ (mg / 2 ^ n.m - 1) : Nat) * 2 ^ (1 - n.bias - n.m : Int) := by
        generalize mg / 2 ^ n.m = ef at hef
        rw [two_zpow_shift (show (1 - n.bias - n.m : Int) ≤ ef - n.bias - n.m by omega),
          show (ef - n.bias - n.m - (1 - n.bias - n.m) : Int).toNat = ef - 1 by omega]
      rw [if_neg hef, magnitude_rat_normal he sg hef, hpow]
      push_cast
      ring

theorem unitsOf_lt_succ (x : FFormat) (b : Nat) : unitsOf x b < unitsOf x (b + 1) := by
  have hM : 0 < 2 ^ x.mbits := Nat.two_pow_pos _
  obtain ⟨d, k, rfl, hk, hd⟩ : ∃ d k, b = d * 2 ^ x.mbits + k ∧ k < 2 * 2 ^ x.mbits ∧ (0 < d → 2 ^ x.mbits ≤ k) := by
    have hsplit := Nat.div_add_mod' b (2 ^ x.mbits)
    have hmod := Nat.mod_lt b hM
    rcases Nat.eq_zero_or_pos (b / 2 ^ x.mbits) with hzero | hpos
    · rw [hzero] at hsplit
      exact ⟨0, b, by omega, by omega, by omega⟩
    · obtain ⟨d, hd⟩ := Nat.exists_eq_add_of_lt hpos
      rw [Nat.zero_add] at hd
      rw [hd, Nat.add_mul, Nat.one_mul] at hsplit
      exact ⟨d, 2 ^ x.mbits + b % 2 ^ x.mbits, by omega, by omega, by omega⟩
  rw [unitsOf_body x hk.le hd, Nat.add_assoc, unitsOf_body x hk (fun h => (hd h).trans (Nat.le_succ k))]
  exact Nat.mul_lt_mul_of_pos_right (Nat.lt_succ_self k) (Nat.two_pow_pos d)

theorem unitsIn_strictMono (n : Narrow) : StrictMono (unitsIn n) := by
  refine strictMono_nat_of_lt_succ fun b => ?_
  unfold unitsIn
  split
  · exact Nat.lt_succ_self b
  · exact unitsOf_lt_succ _ b

/-- The number of MAXFIN. -/
def maxfin (n : Narrow) : ℚ := (unitsIn n n.maxMag : ℚ) * 2 ^ unitExp n

theorem maxfin_nonneg (n : Narrow) : 0 ≤ maxfin n := by
  unfold maxfin
  positivity

theorem units_le_maxfin_iff (mg : Nat) : (unitsIn n mg : ℚ) * 2 ^ unitExp n ≤ maxfin n ↔ mg ≤ n.maxMag := by
  unfold maxfin
  rw [mul_le_mul_iff_left₀ (zpow_pos two_pos _), Nat.cast_le, (unitsIn_strictMono n).le_iff_le]

theorem rat_decode_le (h : Sound n) {c : Nat} (hc : c < 2 ^ n.w) (hfin : (n.decode c).finite = true) : (n.decode c).rat ≤ maxfin n := by
  rw [decode_eq hc] at hfin ⊢
  have hmg : c % 2 ^ (n.w - n.s) < 2 ^ (n.w - n.s) := Nat.mod_lt _ (Nat.two_pow_pos _)
  generalize c % 2 ^ (n.w - n.s) = mg at hmg hfin ⊢
  generalize (decide (n.s = 1) && c.testBit (n.w - 1)) = sg at hfin ⊢
  by_cases hzero : sg = true ∧ mg = 0
  · obtain ⟨rfl, rfl⟩ := hzero
    rw [codeValue_neg_zero h]
    refine le_trans (le_of_eq ?_) (maxfin_nonneg n)
    split
    · rfl
    · split <;> rfl
  · have hnum : sg = false ∨ mg ≠ 0 := by
      rw [not_and_or] at hzero
      exact hzero.imp_left Bool.eq_false_of_not_eq_true
    by_cases hle : mg ≤ n.maxMag
    · rw [codeValue_number h hnum hle, magnitude_rat]
      have hunits := (units_le_maxfin_iff mg).mpr hle
      have hnonneg : (0 : ℚ) ≤ unitsIn n mg * 2 ^ unitExp n := by positivity
      cases sg
      · simpa using hunits
      · simpa using (neg_nonpos.mpr hnonneg).trans (maxfin_nonneg n)
    · rw [le_maxMag_iff h hmg, not_and_or, not_not, not_not] at hle
      rw [codeValue_of_magnitude hnum] at hfin
      rcases hle with h1 | h2
      · rw [if_pos h1] at hfin
        cases hfin
      · rw [if_neg (by omega), if_pos h2] at hfin
        split at hfin <;> cases hfin

/-- The largest finite value of the codes is MAXFIN. -/
theorem top_eq_maxfin (h : Sound n) {top : ℚ} (hmem : ∃ c < 2 ^ n.w, (n.decode c).finite = true ∧ (n.decode c).neg = false ∧ (n.decode c).rat = top)
    (hmax : ∀ c < 2 ^ n.w, (n.decode c).finite = true → (n.decode c).rat ≤ top) : top = maxfin n := by
  obtain ⟨c, hc, hfin, -, rfl⟩ := hmem
  refine le_antisymm (rat_decode_le h hc hfin) ?_
  obtain ⟨hlt, hcode⟩ := decode_code h (sg := false) (maxMag_lt h) (fun hs => absurd hs Bool.false_ne_true)
  rw [codeValue_number h (.inl rfl) le_rfl] at hcode
  have hle := hmax _ hlt (by rw [hcode]; exact (magnitude_sign false _).1)
  rw [hcode, magnitude_rat, if_neg Bool.false_ne_true, one_mul] at hle
  exact hle

/-! Codes and flags (02 R36, R38, R39). -/

/-- A code of the format that stands for `q`, and the flags `fl`. -/
def Gives (n : Narrow) (r : Nat × Nat) (q : ℚ) (fl : Nat) : Prop := r.1 < 2 ^ n.w ∧ (n.decode r.1).finite = true ∧ (n.decode r.1).rat = q ∧ r.2 = fl

/-- What a value beyond the largest finite one `top` is encoded to. -/
def Beyond (n : Narrow) (top : ℚ) (sg : Bool) (r : Nat × Nat) : Prop :=
  if n.s = 0 ∧ sg = true then r = (0, 48)
  else if n.special = 2 ∧ n.sat = false then r.1 < 2 ^ n.w ∧ n.decode r.1 = .inf sg ∧ r.2 = 20
  else if n.special = 1 ∧ n.sat = false then some r.1 = n.nanCode ∧ r.2 = 20
  else Gives n r (if sg then -top else top) 48

theorem gives_number (h : Sound n) {sg : Bool} {mg : Nat} (fl : Nat) (hmg : sg = false ∨ mg ≠ 0) (hle : mg ≤ n.maxMag) (hsg : sg = true → n.s = 1) :
    Gives n (n.sign sg + mg, fl) (if sg then -((unitsIn n mg : ℚ) * 2 ^ unitExp n) else (unitsIn n mg : ℚ) * 2 ^ unitExp n) fl := by
  obtain ⟨hlt, hcode⟩ := decode_code h (hle.trans_lt (maxMag_lt h)) hsg
  refine ⟨hlt, ?_, ?_, rfl⟩
  · rw [hcode, codeValue_number h hmg hle]
    exact (magnitude_sign sg mg).1
  · rw [hcode, codeValue_number h hmg hle, magnitude_rat]
    cases sg <;> simp

theorem unitsIn_zero (n : Narrow) : unitsIn n 0 = 0 := by
  unfold unitsIn unitsOf
  split
  · rfl
  · rw [Nat.zero_div, if_pos rfl, Nat.zero_mod]

/-- MAXFIN of either sign, also of a format whose magnitudes are all zero (log entry 72). -/
theorem gives_maxfin (h : Sound n) {sg : Bool} (hsg : sg = true → n.s = 1) :
    Gives n ((if n.maxMag = 0 ∧ n.zc ≠ 0 then 0 else n.sign sg) + n.maxMag, 48) (if sg then -maxfin n else maxfin n) 48 := by
  by_cases hmax : n.maxMag = 0
  · have hzero : maxfin n = 0 := by rw [maxfin, hmax, unitsIn_zero, Nat.cast_zero, zero_mul]
    have hK : 0 < 2 ^ (n.w - n.s) := Nat.two_pow_pos _
    rw [hzero, neg_zero, ite_self, hmax, Nat.add_zero]
    by_cases hzc : n.zc = 0
    · rw [if_neg (fun hne => hne.2 hzc)]
      obtain ⟨hlt, hcode⟩ := decode_code h hK hsg
      have hval : codeValue n sg 0 = .zero sg := by
        cases sg with
        | true => rw [codeValue_neg_zero h, if_pos hzc]
        | false =>
          rw [codeValue_number h (.inl rfl) (Nat.zero_le _)]
          unfold Narrow.magnitude
          dsimp only
          split
          · rfl
          · rw [Nat.zero_div, if_pos rfl, Nat.zero_mod, if_pos rfl]
      rw [hval] at hcode
      exact ⟨hlt, by rw [show (n.sign sg, 48).1 = n.sign sg + 0 from rfl, hcode]; rfl, by rw [show (n.sign sg, 48).1 = n.sign sg + 0 from rfl, hcode]; rfl, rfl⟩
    · rw [if_pos ⟨rfl, hzc⟩]
      have hgives := gives_number h (sg := false) (mg := 0) 48 (.inl rfl) (Nat.zero_le _) (fun hs => absurd hs Bool.false_ne_true)
      rw [unitsIn_zero, Nat.cast_zero, zero_mul, if_neg Bool.false_ne_true] at hgives
      exact hgives
  · rw [if_neg (fun hne => hmax hne.1)]
    exact gives_number h 48 (.inr hmax) le_rfl hsg

theorem overflow_eq (n : Narrow) (sg : Bool) : n.overflow sg =
    if n.s = 0 ∧ sg = true then (0, 48)
    else if n.special = 2 ∧ n.sat = false then (n.sign sg + (2 ^ n.e - 1) * 2 ^ n.m, 20)
    else if n.special = 1 ∧ n.sat = false then (n.nanCode.getD 0, 20)
    else ((if n.maxMag = 0 ∧ n.zc ≠ 0 then 0 else n.sign sg) + n.maxMag, 48) := by
  unfold Narrow.overflow
  simp only [Bool.and_eq_true, decide_eq_true_eq, Bool.not_eq_true', bne_iff_ne]
  rfl

theorem decode_inf (h : Sound n) (h2 : n.special = 2) {sg : Bool} (hsg : sg = true → n.s = 1) :
    n.sign sg + (2 ^ n.e - 1) * 2 ^ n.m < 2 ^ n.w ∧ n.decode (n.sign sg + (2 ^ n.e - 1) * 2 ^ n.m) = .inf sg := by
  obtain ⟨he, hm⟩ := h.of_ieee h2
  have hM : 0 < 2 ^ n.m := Nat.two_pow_pos _
  have hE : 2 ^ 2 ≤ 2 ^ n.e := Nat.pow_le_pow_right two_pos he
  have hlt : (2 ^ n.e - 1) * 2 ^ n.m < 2 ^ (n.w - n.s) := by
    have hle := h.e_le
    rw [show n.w - n.s = n.e + n.m by unfold Narrow.m; omega, pow_add]
    exact Nat.mul_lt_mul_of_pos_right (by omega) hM
  have hne : (2 ^ n.e - 1) * 2 ^ n.m ≠ 0 := (Nat.mul_pos (by omega) hM).ne'
  obtain ⟨hcode, hval⟩ := decode_code h hlt hsg
  refine ⟨hcode, hval.trans ?_⟩
  rw [codeValue_of_magnitude (.inr hne), if_neg (by omega), if_pos ⟨⟨h2, by omega⟩, Nat.mul_div_left _ hM⟩, if_pos (Nat.mul_mod_left _ _)]

theorem nanCode_of_special (h1 : n.special = 1) : some (n.nanCode.getD 0) = n.nanCode := by
  unfold Narrow.nanCode
  rw [if_pos h1]
  split <;> rfl

theorem overflow_beyond (h : Sound n) (sg : Bool) : Beyond n (maxfin n) sg (n.overflow sg) := by
  unfold Beyond
  rw [overflow_eq]
  by_cases hneg : n.s = 0 ∧ sg = true
  · rw [if_pos hneg, if_pos hneg]
  · have hsg : sg = true → n.s = 1 := fun hs => by
      have hle := h.s_le
      have hne : n.s ≠ 0 := fun h0 => hneg ⟨h0, hs⟩
      omega
    rw [if_neg hneg, if_neg hneg]
    by_cases hinf : n.special = 2 ∧ n.sat = false
    · rw [if_pos hinf, if_pos hinf]
      obtain ⟨hlt, hval⟩ := decode_inf h hinf.1 hsg
      exact ⟨hlt, hval, rfl⟩
    · rw [if_neg hinf, if_neg hinf]
      by_cases hnan : n.special = 1 ∧ n.sat = false
      · rw [if_pos hnan, if_pos hnan]
        exact ⟨nanCode_of_special hnan.1, rfl⟩
      · rw [if_neg hnan, if_neg hnan]
        exact gives_maxfin h hsg

theorem overflow_flags (n : Narrow) (sg : Bool) : (n.overflow sg).2 = 48 ∨ (n.overflow sg).2 = 20 := by
  rw [overflow_eq]
  split
  · exact .inl rfl
  · split
    · exact .inr rfl
    · split
      · exact .inr rfl
      · exact .inl rfl

/-- NX is among the flags of an overflow. -/
theorem overflow_or_nx (n : Narrow) (sg inexact : Bool) : (n.overflow sg).2 ||| fIf inexact fNX = (n.overflow sg).2 := by
  rcases overflow_flags n sg with h | h <;> rw [h] <;> cases inexact <;> rfl

/-! Encoding a nonzero value (02 R38, R39). -/

/-- The exponent of half the format's least value: what is not above it rounds to zero. -/
def halfExp (n : Narrow) : Int := -n.bias - 1 + (if n.e = 0 then 0 else (1 : Int) - n.m)

/-- The exponent of the unit that a value with its leading bit at `ex` is rounded in. -/
def quantum (n : Narrow) (ex : Int) : Int := if n.e = 0 then -n.bias else max ex (1 - n.bias) - n.m

theorem lt_fin_iff {u : FV} (hu : u.finite = true) {k : Nat} (hk : k ≠ 0) (p : Int) : FV.lt u (.fin false k p) = true ↔ u.rat < (k : ℚ) * 2 ^ p := by
  have hrat : (FV.fin false k p).rat = k * 2 ^ p := by simp [FV.rat]
  rw [← hrat]
  cases u with
  | fin x m e => exact lt_fin_fin x false m k e p
  | zero x =>
    rw [hrat]
    exact iff_of_true rfl (by rw [show (FV.zero x).rat = 0 from rfl]; positivity)
  | _ => cases hu

/-- A value that an unsigned format holds nothing for is not encoded (02 R38). -/
theorem encode_unsigned_negative {m : Nat} {e : Int} (hm : m ≠ 0) (hs : n.s = 0) (hbig : (2 : ℚ) ^ halfExp n < m * 2 ^ e) :
    n.encode (.fin true m e) = (0, 48) := by
  have hlt : FV.lt (.fin false 1 (halfExp n)) (.fin false m e) = true := (lt_fin_iff rfl hm e).mpr (by simpa [FV.rat] using hbig)
  exact if_pos (show (decide (n.s = 0) && true && FV.lt (.fin false 1 (halfExp n)) (.fin false m e)) = true by rw [decide_eq_true hs, hlt]; rfl)

/-- The magnitude of a rounded value that is not zero. -/
def roundedMag (n : Narrow) (k : Nat) (q : Int) : Nat := if n.e = 0 then k else ((q - (1 - n.bias - n.m)) * 2 ^ n.m).toNat + k

/-- The code and flags of a rounded value: `k` in units of `2^q`. -/
def roundedCode (n : Narrow) (sg : Bool) (k : Nat) (q : Int) (inexact : Bool) : Nat × Nat :=
  if k ≠ 0 && FV.lt (n.magnitude false n.maxMag) (.fin false k q) then ((n.overflow sg).1, (n.overflow sg).2 ||| fIf inexact fNX)
  else
    let small := if n.e = 0 then k == 0 else k == 0 || FV.lt (.fin false k q) (.fin false 1 (1 - n.bias))
    let fl := fIf inexact fNX ||| fIf (inexact && small) fUF
    if k = 0 then (if sg && n.s = 1 && n.zc = 0 then n.sign true else 0, fl)
    else (n.sign sg + roundedMag n k q, fl)

theorem encode_fin {sg : Bool} {m : Nat} {e : Int} (hm : m ≠ 0) (h : n.s = 0 → sg = true → (m : ℚ) * 2 ^ e ≤ 2 ^ halfExp n) :
    n.encode (.fin sg m e) =
      roundedCode n sg (roundTo 0 sg m e (quantum n (m.log2 + e))).1 (quantum n (m.log2 + e)) (roundTo 0 sg m e (quantum n (m.log2 + e))).2 := by
  have hlt : (decide (n.s = 0) && sg && FV.lt (.fin false 1 (halfExp n)) (.fin false m e)) = false := by
    by_contra hne
    rw [Bool.not_eq_false, Bool.and_eq_true, Bool.and_eq_true, decide_eq_true_eq, lt_fin_iff rfl hm e] at hne
    obtain ⟨⟨hs, hsg⟩, hbig⟩ := hne
    exact absurd (h hs hsg) (not_le.mpr (by simpa [FV.rat] using hbig))
  exact if_neg (Bool.eq_false_iff.mp hlt)

theorem maxfin_lt_iff {k : Nat} (hk : k ≠ 0) (q : Int) : FV.lt (n.magnitude false n.maxMag) (.fin false k q) = true ↔ maxfin n < k * 2 ^ q := by
  rw [lt_fin_iff (magnitude_sign false _).1 hk, magnitude_rat, if_neg Bool.false_ne_true, one_mul]
  rfl

theorem roundedCode_beyond (h : Sound n) {sg inexact : Bool} {k : Nat} {q : Int} (hover : maxfin n < k * 2 ^ q) :
    Beyond n (maxfin n) sg (roundedCode n sg k q inexact) := by
  have hk : k ≠ 0 := by
    rintro rfl
    rw [Nat.cast_zero, zero_mul] at hover
    exact absurd (maxfin_nonneg n) (not_le.mpr hover)
  have hcode : roundedCode n sg k q inexact = n.overflow sg := by
    unfold roundedCode
    rw [if_pos (by rw [decide_eq_true hk, Bool.true_and]; exact (maxfin_lt_iff hk q).mpr hover), overflow_or_nx]
  rw [hcode]
  exact overflow_beyond h sg

/-- NX of an inexact result and UF of one that is tiny too, as a sum. -/
theorem flags_eq {inexact small : Bool} {p t : Prop} [Decidable p] [Decidable t] (hp : inexact = false ↔ p) (ht : small = true ↔ t) :
    fIf inexact fNX ||| fIf (inexact && small) fUF = (if p then 0 else 16) + if ¬p ∧ t then 8 else 0 := by
  cases inexact with
  | false => rw [if_pos (hp.mp rfl), if_neg (fun hne => hne.1 (hp.mp rfl)), Bool.false_and]; rfl
  | true =>
    have hne : ¬p := fun h => Bool.false_ne_true (hp.mpr h).symm
    rw [if_neg hne]
    cases small with
    | false => rw [if_neg (fun h => Bool.false_ne_true (ht.mpr h.2))]; rfl
    | true => rw [if_pos ⟨hne, ht.mp rfl⟩]; rfl

theorem roundedCode_zero (sg inexact : Bool) (q : Int) :
    roundedCode n sg 0 q inexact = (if sg = true ∧ n.s = 1 ∧ n.zc = 0 then 2 ^ (n.w - 1) else 0, fIf inexact fNX ||| fIf (inexact && true) fUF) := by
  have hsmall : (if n.e = 0 then (0 : Nat) == 0 else (0 : Nat) == 0 || FV.lt (.fin false 0 q) (.fin false 1 (1 - n.bias))) = true := by split <;> rfl
  unfold roundedCode
  simp only [hsmall, Bool.and_eq_true, decide_eq_true_eq, ne_eq, not_true_eq_false, false_and, if_false, if_true, and_assoc]
  rfl

/-- A rounded value below the least normal one is tiny. -/
theorem roundedCode_number {sg inexact : Bool} {k : Nat} {q : Int} (hk : k ≠ 0) (hle : (k : ℚ) * 2 ^ q ≤ maxfin n) :
    roundedCode n sg k q inexact = (n.sign sg + roundedMag n k q,
      fIf inexact fNX ||| fIf (inexact && decide (n.e ≠ 0 ∧ (k : ℚ) * 2 ^ q < 2 ^ (1 - n.bias))) fUF) := by
  have hsmall : (if n.e = 0 then k == 0 else k == 0 || FV.lt (.fin false k q) (.fin false 1 (1 - n.bias))) =
      decide (n.e ≠ 0 ∧ (k : ℚ) * 2 ^ q < 2 ^ (1 - n.bias)) := by
    rw [beq_false_of_ne hk, Bool.false_or]
    by_cases he : n.e = 0
    · rw [if_pos he, decide_eq_false (fun h => h.1 he)]
    · have hiff := lt_fin_fin false false k 1 q (1 - n.bias)
      simp only [FV.rat, Bool.false_eq_true, if_false, one_mul, Nat.cast_one] at hiff
      rw [if_neg he, Bool.eq_iff_iff, hiff, decide_eq_true_eq, and_iff_right he]
  have hlt : FV.lt (n.magnitude false n.maxMag) (.fin false k q) = false := Bool.eq_false_of_not_eq_true ((maxfin_lt_iff hk q).not.mpr (not_lt.mpr hle))
  unfold roundedCode
  rw [hlt, Bool.and_false, if_neg Bool.false_ne_true]
  dsimp only
  rw [hsmall, if_neg hk]

theorem unitsIn_roundedMag {neg : Bool} {v : ℝ} {ex : Int} {k : Nat} (hlow : (2 : ℝ) ^ ex ≤ v) (hhigh : v < 2 ^ (ex + 1))
    (hk : roundsTo 0 neg v (2 ^ quantum n ex) k) : (unitsIn n (roundedMag n k (quantum n ex)) : ℚ) * 2 ^ unitExp n = k * 2 ^ quantum n ex := by
  unfold unitsIn roundedMag unitExp
  by_cases he : n.e = 0
  · have hq : quantum n ex = -n.bias := if_pos he
    rw [if_pos he, if_pos he, if_pos he, hq]
  · have hq : quantum n ex = max ex (1 - n.bias) - n.m := if_neg he
    rw [if_neg he, if_neg he, if_neg he]
    obtain ⟨d, hd⟩ : ∃ d : Nat, quantum n ex = d + (1 - n.bias - n.m) := ⟨(quantum n ex - (1 - n.bias - n.m)).toNat, by omega⟩
    obtain ⟨hk_le, hle_k⟩ := rounded_bounds (M := n.m) hlow hhigh (by omega) hk
    have hbody : ((quantum n ex - (1 - n.bias - n.m)) * 2 ^ n.m).toNat = d * 2 ^ n.m := by
      rw [show quantum n ex - (1 - n.bias - n.m) = d by omega]
      exact_mod_cast Int.toNat_natCast (d * 2 ^ n.m)
    rw [hbody, unitsOf_body ⟨n.e, n.m⟩ hk_le (fun hpos => hle_k (by omega)), hd, zpow_add₀ two_ne_zero, zpow_natCast]
    push_cast
    ring

/-- What is not above half the least value rounds to zero. -/
theorem rounds_to_zero {sg : Bool} {m k : Nat} {e ex : Int} (hlow : (2 : ℚ) ^ ex ≤ m * 2 ^ e) (htiny : (m : ℚ) * 2 ^ e ≤ 2 ^ halfExp n)
    (hk : roundsTo 0 sg ((m : ℝ) * 2 ^ e) (2 ^ quantum n ex) k) : k = 0 := by
  have hex : ex ≤ halfExp n := (zpow_le_zpow_iff_right₀ one_lt_two).mp (hlow.trans htiny)
  have hq : quantum n ex = halfExp n + 1 := by
    unfold quantum
    unfold halfExp at hex ⊢
    by_cases he : n.e = 0
    · rw [if_pos he, if_pos he]
      omega
    · rw [if_neg he] at hex
      rw [if_neg he, if_neg he]
      omega
  have hu : (0 : ℝ) < 2 ^ quantum n ex := zpow_pos two_pos _
  have hhalf : (m : ℝ) * 2 ^ e ≤ 2 ^ quantum n ex / 2 := by
    rw [hq, zpow_add_one₀ two_ne_zero, mul_div_cancel_right₀ _ two_ne_zero]
    have hcast := Rat.cast_le (K := ℝ).mpr htiny
    push_cast at hcast
    exact hcast
  refine roundsTo_zero_unique hu hk ⟨?_, fun _ => rfl⟩
  rw [Nat.cast_zero, zero_mul, zero_sub, abs_neg, abs_of_nonneg (by positivity)]
  exact hhalf

theorem roundedMag_ne_zero {k : Nat} (hk : k ≠ 0) (q : Int) : roundedMag n k q ≠ 0 := by
  unfold roundedMag
  split <;> omega

theorem cast_bounds {m : Nat} {e ex : Int} (hlow : (2 : ℚ) ^ ex ≤ m * 2 ^ e) (hhigh : (m : ℚ) * 2 ^ e < 2 ^ (ex + 1)) :
    (2 : ℝ) ^ ex ≤ m * 2 ^ e ∧ (m : ℝ) * 2 ^ e < 2 ^ (ex + 1) := by
  have hlow' := Rat.cast_le (K := ℝ).mpr hlow
  have hhigh' := Rat.cast_lt (K := ℝ).mpr hhigh
  push_cast at hlow' hhigh'
  exact ⟨hlow', hhigh'⟩

/-- What is encoded is the code of the value rounded once to nearest. -/
theorem encode_eq_roundedCode (h : Sound n) {sg : Bool} {m k : Nat} {e ex : Int} (hm : m ≠ 0)
    (hheld : n.s = 1 ∨ sg = false ∨ (m : ℚ) * 2 ^ e ≤ 2 ^ halfExp n)
    (hlow : (2 : ℚ) ^ ex ≤ m * 2 ^ e) (hhigh : (m : ℚ) * 2 ^ e < 2 ^ (ex + 1)) (hk : roundsTo 0 sg ((m : ℝ) * 2 ^ e) (2 ^ quantum n ex) k) :
    ∃ inexact : Bool, (inexact = false ↔ (k : ℚ) * 2 ^ quantum n ex = m * 2 ^ e) ∧ n.encode (.fin sg m e) = roundedCode n sg k (quantum n ex) inexact ∧
      (k ≠ 0 → sg = true → n.s = 1) := by
  have hs := h.s_le
  obtain ⟨hlog, hlog'⟩ := log2_bounds (K := ℚ) hm e
  obtain rfl := exponent_unique hlow hhigh hlog hlog'
  obtain ⟨hround, hexact⟩ := roundTo_zero_spec sg m e (quantum n (m.log2 + e))
  obtain rfl := roundsTo_zero_unique (zpow_pos two_pos _) hk hround
  refine ⟨_, hexact.trans (scaled_rat_iff _ _ m e).symm, encode_fin hm fun h0 hsg => ?_, fun hne hsg => ?_⟩
  · rcases hheld with h1 | hpos | htiny
    · omega
    · rw [hsg] at hpos
      cases hpos
    · exact htiny
  · rcases hheld with h1 | hpos | htiny
    · exact h1
    · rw [hsg] at hpos
      cases hpos
    · exact absurd (rounds_to_zero hlow htiny hk) hne

/-- A rounded value that is not zero and not beyond MAXFIN has its code. -/
theorem gives_rounded (h : Sound n) {sg : Bool} {v : ℝ} {k : Nat} {ex : Int} (fl : Nat) (hlow : (2 : ℝ) ^ ex ≤ v) (hhigh : v < 2 ^ (ex + 1))
    (hk : roundsTo 0 sg v (2 ^ quantum n ex) k) (hne : k ≠ 0) (hle : (k : ℚ) * 2 ^ quantum n ex ≤ maxfin n) (hsg : sg = true → n.s = 1) :
    Gives n (n.sign sg + roundedMag n k (quantum n ex), fl) (if sg then -((k : ℚ) * 2 ^ quantum n ex) else (k : ℚ) * 2 ^ quantum n ex) fl := by
  have hunits := unitsIn_roundedMag hlow hhigh hk
  rw [← hunits] at hle ⊢
  exact gives_number h fl (.inr (roundedMag_ne_zero hne _)) ((units_le_maxfin_iff _).mp hle) hsg

theorem two_zpow_halfExp (n : Narrow) : (2 : ℚ) ^ halfExp n = 2 ^ (-n.bias - 1) * if n.e = 0 then 1 else 2 ^ (1 - (n.m : Int)) := by
  unfold halfExp
  rw [zpow_add₀ two_ne_zero]
  split
  · rw [zpow_zero]
  · rfl

/-- NX of a value `a` that is rounded to `v`, and UF when that is tiny. -/
def roundedFlags (n : Narrow) (a v : ℚ) : Nat :=
  (if v = a then 0 else 16) + if v ≠ a ∧ (n.e = 0 ∧ v = 0 ∨ n.e ≠ 0 ∧ v < 2 ^ (1 - n.bias)) then 8 else 0

/-- The code and flags of a finite value, by the value that it rounds to. -/
theorem encode_rounded (h : Sound n) {sg : Bool} {m k : Nat} {e ex : Int} (hm : m ≠ 0)
    (hheld : n.s = 1 ∨ sg = false ∨ (m : ℚ) * 2 ^ e ≤ 2 ^ halfExp n)
    (hlow : (2 : ℚ) ^ ex ≤ m * 2 ^ e) (hhigh : (m : ℚ) * 2 ^ e < 2 ^ (ex + 1)) (hk : roundsTo 0 sg ((m : ℝ) * 2 ^ e) (2 ^ quantum n ex) k)
    {v : ℚ} (hv : v = k * 2 ^ quantum n ex) : (maxfin n < v → Beyond n (maxfin n) sg (n.encode (.fin sg m e))) ∧
      (v ≤ maxfin n → (k = 0 → n.encode (.fin sg m e) = (if sg = true ∧ n.s = 1 ∧ n.zc = 0 then 2 ^ (n.w - 1) else 0, roundedFlags n (m * 2 ^ e) v)) ∧
        (k ≠ 0 → Gives n (n.encode (.fin sg m e)) (if sg then -v else v) (roundedFlags n (m * 2 ^ e) v))) := by
  obtain ⟨inexact, hexact, hcode, hsg⟩ := encode_eq_roundedCode h hm hheld hlow hhigh hk
  rw [← hv] at hexact
  rw [hcode]
  refine ⟨fun hover => roundedCode_beyond h (hv ▸ hover), fun hle => ⟨fun hzero => ?_, fun hne => ?_⟩⟩
  · have hv0 : v = 0 := by rw [hv, hzero, Nat.cast_zero, zero_mul]
    have hsmall : true = true ↔ n.e = 0 ∧ v = 0 ∨ n.e ≠ 0 ∧ v < 2 ^ (1 - n.bias) := by
      rw [hv0]
      exact iff_of_true rfl ((eq_or_ne n.e 0).imp (⟨·, rfl⟩) (⟨·, zpow_pos two_pos _⟩))
    rw [hzero, roundedCode_zero, flags_eq hexact hsmall]
    rfl
  · have hv0 : v ≠ 0 := hv ▸ mul_ne_zero (Nat.cast_ne_zero.mpr hne) (zpow_ne_zero _ two_ne_zero)
    have hsmall : decide (n.e ≠ 0 ∧ v < 2 ^ (1 - n.bias)) = true ↔ n.e = 0 ∧ v = 0 ∨ n.e ≠ 0 ∧ v < 2 ^ (1 - n.bias) := by
      rw [decide_eq_true_eq]
      exact ⟨.inr, fun hor => hor.resolve_left fun hzero => hv0 hzero.2⟩
    obtain ⟨hlow', hhigh'⟩ := cast_bounds hlow hhigh
    rw [roundedCode_number hne (hv ▸ hle), ← hv, flags_eq hexact hsmall, hv]
    exact gives_rounded h _ hlow' hhigh' hk hne (hv ▸ hle) (hsg hne)

theorem encode_nan (s : Bool) : n.encode (.nan s) = match n.nanCode with
    | some c => (c, 0)
    | none => (0, 1) := by
  unfold Narrow.encode
  cases n.nanCode <;> rfl

theorem encode_zero (sg : Bool) : n.encode (.zero sg) = (if sg = true ∧ n.s = 1 ∧ n.zc = 0 then 2 ^ (n.w - 1) else 0, 0) := by
  have heq : n.encode (.zero sg) = if (sg && decide (n.s = 1) && decide (n.zc = 0)) = true then (2 ^ (n.w - 1), 0) else (0, 0) := rfl
  rw [heq]
  simp only [Bool.and_eq_true, decide_eq_true_eq, and_assoc]
  split <;> rfl

theorem encode_inf (sg : Bool) : n.encode (.inf sg) = n.overflow sg := by
  have heq : n.encode (.inf sg) = if (decide (n.s = 0) && sg) = true then (0, 48) else n.overflow sg := rfl
  rw [heq]
  split
  · next hneg => exact (if_pos hneg).symm
  · rfl

end

/-- Settles O28: the fields, what each code stands for, and the code of a NaN, a zero, an infinity and a rounded value. -/
theorem narrowCodesAndEncoding : Obligations.NarrowCodesAndEncoding := by
  unfold Obligations.NarrowCodesAndEncoding
  intro d hd hlegal n W S E M B nan gives
  have h : Sound n := sound_of_legal hlegal
  refine ⟨narrowOf_fields hd, ?codes, ?nan, encode_zero, ?number⟩
  case codes =>
    intro c hc sg mg r sign ef f is
    have hr : r = codeValue n sg mg := decode_eq hc
    refine ⟨fun hsg hzero => ?_, fun hmg => ?_⟩
    · rw [hr, hsg, hzero, codeValue_neg_zero h]
    rw [codeValue_of_magnitude hmg] at hr
    refine ⟨fun h1 hones => hr.trans (if_pos ⟨h1, hones⟩), fun hnot1 => ?_⟩
    rw [if_neg (fun hand => hnot1.elim (absurd hand.1) (absurd hand.2))] at hr
    have hmagnitude : ¬((n.special = 2 ∧ n.e ≠ 0) ∧ mg / 2 ^ n.m = 2 ^ n.e - 1) → ∀ q : ℚ,
        (n.magnitude sg mg).rat = sign * q → is q := fun hnot2 q hq => by
      rw [if_neg hnot2] at hr
      obtain ⟨hfin, hneg⟩ := magnitude_sign (n := n) sg mg
      exact ⟨hr ▸ hfin, hr ▸ hq, hr ▸ hneg⟩
    refine ⟨fun he => hmagnitude (fun hand => hand.1.2 he) _ (magnitude_rat_integer he sg mg), fun he => ⟨fun h2 hef => ?_, fun hnot2 => ?_⟩⟩
    · exact hr.trans (if_pos ⟨⟨h2, he⟩, hef⟩)
    · have hnot : ¬((n.special = 2 ∧ n.e ≠ 0) ∧ mg / 2 ^ n.m = 2 ^ n.e - 1) := fun hand => hnot2.elim (absurd hand.1.1) (absurd hand.2)
      exact ⟨fun hef => hmagnitude hnot _ (magnitude_rat_subnormal he sg hef), fun hef => hmagnitude hnot _ (magnitude_rat_normal he sg hef)⟩
  case nan =>
    intro s
    rw [encode_nan]
    rfl
  case number =>
    intro top hmem hmax beyond
    obtain rfl := top_eq_maxfin h hmem hmax
    have hover : ∀ sg, beyond sg (n.overflow sg) := overflow_beyond h
    refine ⟨fun sg => encode_inf (n := n) sg ▸ hover sg, ?_⟩
    intro sg m e hm a r tiny
    have htiny : tiny ↔ a ≤ 2 ^ halfExp n := by
      rw [two_zpow_halfExp]
      exact Iff.rfl
    refine ⟨fun hs hsg hbig => ?unsigned, ?rounded⟩
    case unsigned =>
      subst hsg
      exact encode_unsigned_negative hm hs (not_le.mp (htiny.not.mp hbig))
    case rounded =>
      intro hheld ex k hlow hhigh q hk v nx uf
      have hcast : ((a : ℚ) : ℝ) = m * 2 ^ e := by push_cast [a]; rfl
      rw [hcast] at hk
      rw [htiny] at hheld
      exact encode_rounded h hm hheld hlow hhigh hk rfl

end Sys2Proof.NarrowProofs
end

section
/-!
PROOFS. What the loss of packets leaves unchanged (04 R78): memory, the modules in the fabric, and of each module everything but its domains. Used
for link ports, temperature, power states and resets.
-/
namespace Sys2Proof.FabricProofs
open Sys2Proof Sys2Proof.Machine Sys2Proof.Laws

/-- `t` is `s` but for cores, clusters, packets and the domains of modules. -/
structure KeepsModules (s t : State) : Prop where
  mem : t.mem = s.mem
  present : t.present = s.present
  module : ∀ j, ∃ ds, t.module j = { s.module j with domains := ds }

theorem KeepsModules.of_modules {s t : State} (hmem : t.mem = s.mem) (hpresent : t.present = s.present) (hmodules : t.modules = s.modules) :
    KeepsModules s t :=
  ⟨hmem, hpresent, fun j => ⟨(s.module j).domains, by unfold State.module; rw [hmodules]⟩⟩

theorem KeepsModules.refl (s : State) : KeepsModules s s := .of_modules rfl rfl rfl

theorem KeepsModules.trans {s t u : State} (h : KeepsModules s t) (h' : KeepsModules t u) : KeepsModules s u := by
  refine ⟨h'.mem.trans h.mem, h'.present.trans h.present, fun j => ?_⟩
  obtain ⟨ds, hds⟩ := h'.module j
  obtain ⟨ds', hds'⟩ := h.module j
  exact ⟨ds, by rw [hds, hds']⟩

/-- A field of a module other than its domains. -/
theorem KeepsModules.field {α : Type} {s t : State} (h : KeepsModules s t) (f : Machine.Module → α) (hf : ∀ x ds, f { x with domains := ds } = f x) (j : Nat) :
    f (t.module j) = f (s.module j) := by
  obtain ⟨ds, hds⟩ := h.module j
  rw [hds, hf]

theorem KeepsModules.foldl {α : Type} {f : State → α → State} (hf : ∀ s a, KeepsModules s (f s a)) (l : List α) (s : State) : KeepsModules s (l.foldl f s) := by
  induction l generalizing s with
  | nil => exact .refl s
  | cons a r ih => exact (hf s a).trans (ih (f s a))

theorem keepsModules_onDomain (s : State) (m dom : Nat) (f : Domain → Domain) : KeepsModules s (s.onDomain m dom f) := by
  refine ⟨rfl, rfl, fun j => ?_⟩
  unfold State.onDomain
  rw [module_onModule']
  split
  case isTrue h => exact ⟨_, by rw [h]⟩
  case isFalse => exact ⟨_, rfl⟩

theorem keepsModules_postRecord (s : State) (m dom : Nat) (r : List Word) : KeepsModules s (s.postRecord m dom r) := by
  unfold State.postRecord State.pumpFaultQueue
  exact (keepsModules_onDomain s m dom _).trans (keepsModules_onDomain _ m dom _)

theorem keepsModules_lose (s : State) (p : Packet) : KeepsModules s (s.lose p) := by
  have hnet : ∀ net, KeepsModules s { s with net := net } := fun _ => .of_modules rfl rfl rfl
  unfold State.lose
  dsimp only
  split
  · exact (hnet _).trans (keepsModules_postRecord ..)
  · exact .of_modules rfl rfl rfl
  · exact hnet _

theorem keepsModules_losePackets (s : State) (gone : Packet → Bool) : KeepsModules s (s.losePackets gone) :=
  KeepsModules.trans (t := { s with net := s.net.filter fun p => !gone p }) (.of_modules rfl rfl rfl) (.foldl keepsModules_lose _ _)

theorem keepsModules_dropWatches (s : State) (cl : Nat) : KeepsModules s (s.dropWatches cl) := by
  unfold State.dropWatches
  dsimp only
  split
  · exact .refl s
  · exact .of_modules rfl rfl rfl

theorem keepsModules_dropAllWatches (s : State) : KeepsModules s s.dropAllWatches := .foldl keepsModules_dropWatches _ _

theorem keepsModules_cutModule (s : State) (m : Nat) : KeepsModules s (s.cutModule m) :=
  (keepsModules_losePackets s _).trans (keepsModules_dropAllWatches _)

end Sys2Proof.FabricProofs
end

section
/-!
PROOFS. Gang switches, all-asleep detection, link ports, temperature and clock (03 R65 to R68; 14 R351 to R353; 04 R78, R79; 15 R367, R368): O48.
-/
namespace Sys2Proof.GangProofs
open Sys2Proof Sys2Proof.Machine Sys2Proof.Laws Sys2Proof.FabricProofs

/-! Messages between management cores (03 R65, 14 R353). -/

/-- The fabric grew from `before` by one packet on class 15 for each message of `l`, from the management core of module `m`. -/
def Told (m : Nat) (t : State) (before : List Packet) (l : List (Nat × Mgmt)) : Prop :=
  ∃ ps, t.net = before ++ ps ∧
    ps.map (fun p => (p.src, p.dst, p.vc, p.body)) = l.map fun k => (mgmtKey m, mgmtKey k.1, 4, Body.mgmt k.2)

/-- Messages to modules that a path leads to are all sent, and nothing but the fabric changes. What a message says may be read off the state, as
long as it does not depend on the fabric. -/
theorem foldl_tell {s : State} {m : Nat} {f : State → Nat → Mgmt} (hf : ∀ net d, f { s with net := net } d = f s d) (dsts : List Nat) :
    ∀ before, (∀ d ∈ dsts, s.reaches m (mgmtKey d) = true) →
      ∃ net, dsts.foldl (fun t d => t.tell m d (f t d)) { s with net := before } = { s with net := net } ∧
        Told m { s with net := net } before (dsts.map fun d => (d, f s d)) := by
  induction dsts with
  | nil => exact fun before _ => ⟨before, rfl, [], by simp, rfl⟩
  | cons d r ih =>
    intro before hr
    obtain ⟨port, hd⟩ := tell_sends { s with net := before } m d (f s d) (hr d List.mem_cons_self)
    obtain ⟨net, hnet, ps, hps, hmap⟩ := ih _ fun k hk => hr k (List.mem_cons_of_mem _ hk)
    refine ⟨net, ?_, ⟨mgmtKey m, mgmtKey d, 4, port, false, .mgmt (f s d)⟩ :: ps, ?_, ?_⟩
    · rw [List.foldl_cons, hf, hd]
      exact hnet
    · rw [show net = _ from hps, List.append_assoc]
      rfl
    · rw [List.map_cons, List.map_cons, List.map_cons, hmap]

theorem tellAll_told {s : State} {m : Nat} (k : Mgmt) {dsts : List Nat} (hr : ∀ d ∈ dsts, s.reaches m (mgmtKey d) = true) :
    ∃ net, s.tellAll m k dsts = { s with net := net } ∧ Told m { s with net := net } s.net (dsts.map fun d => (d, k)) :=
  foldl_tell (f := fun _ _ => k) (fun _ _ => rfl) dsts s.net hr

theorem tell_told {s : State} {m d : Nat} (k : Mgmt) (hr : s.reaches m (mgmtKey d) = true) :
    ∃ net, s.tell m d k = { s with net := net } ∧ Told m { s with net := net } s.net [(d, k)] :=
  tellAll_told k (dsts := [d]) (by simpa using hr)

theorem receiveMgmt_eq {s : State} {n src dst vc : Nat} {port : Option Nat} {cr : Bool} {k : Mgmt}
    (h : s.deliverable n = some ⟨src, dst, vc, port, cr, .mgmt k⟩) (hd : (s.module (keyModule dst)).d3hot = false) :
    s.receiveMgmt n = some (keyModule dst, keyModule src, k, s.takePacket n) := by
  unfold State.receiveMgmt
  rw [receive_eq h]
  exact if_neg (by simp [hd])

/-! Gangs (03 R65). -/

/-- A gang's state is no part of what routes packets. -/
theorem reaches_onGang (s : State) (m g : Nat) (f : Gang → Gang) (j d : Nat) : (s.onGang m g f).reaches j d = s.reaches j d :=
  reaches_on s m (fun x => { x with gangs := Tab.set x.gangs g (f (Tab.get Gang.fresh x.gangs g)) }) rfl j d

/-- The parts of a module that say which cores a domain needs there. -/
def needs (x : Machine.Module) : Tab Queue × List SavedCore × Tab Domain × List Launch := (x.queues, x.saved, x.domains, x.launches)

theorem neededCores_congr {s t : State} (hc : t.cores = s.cores) (hm : ∀ j, needs (t.module j) = needs (s.module j)) (m out inn : Nat) :
    t.neededCores m out inn = s.neededCores m out inn := by
  have hq : ∀ j, (t.module j).queues = (s.module j).queues := fun j => congrArg Prod.fst (hm j)
  have hs : ∀ j, (t.module j).saved = (s.module j).saved := fun j => congrArg (fun x => x.2.1) (hm j)
  have hd : ∀ j, (t.module j).domains = (s.module j).domains := fun j => congrArg (fun x => x.2.2.1) (hm j)
  have hl : ∀ j, (t.module j).launches = (s.module j).launches := fun j => congrArg (fun x => x.2.2.2) (hm j)
  unfold State.neededCores State.clusterAvailable State.onlyFor State.domain? State.core
  simp only [hq, hs, hd, hl, hc]

theorem needs_onGang (s : State) (m g : Nat) (f : Gang → Gang) (j : Nat) : needs ((s.onGang m g f).module j) = needs (s.module j) := by
  unfold State.onGang
  rw [module_onModule']
  split
  case isTrue h => rw [h]; rfl
  case isFalse => rfl

theorem neededCores_onGang (s : State) (m g : Nat) (f : Gang → Gang) (k out inn : Nat) :
    (s.onGang m g f).neededCores k out inn = s.neededCores k out inn :=
  neededCores_congr (s := s) (t := s.onGang m g f) rfl (needs_onGang s m g f) k out inn

section
variable {s : State} {m g : Nat} {d : DomainSettings}

theorem gangTimerExpiry_eq (hset : s.gangSet m g = some d) (hpresent : s.present.contains m = true) (hd3 : (s.module m).d3hot = false)
    (hleast : leastOf d.gangModules = some m) (hsending : (s.gang m g).sending = none) (hphase : (s.gang m g).phase1 = none)
    (hrunning : (s.gang m g).running = none) (hreq : s.startRequest m g = none) :
    let q := s.gang m g; let inn := nextPeer d.gangPeers q.current
    exec (.gangTimerExpiry m g) s = .next (if inn = q.current then s else
      d.gangModules.foldl (fun t k => t.tell m k (.prepare g q.expect q.current inn (t.neededCores k q.current inn)))
        (s.onGang m g fun q => { q with sending := some (q.expect, q.current, inn), prepared := [], done := [] })) := by
  simp only [exec_gangTimerExpiry, execGangTimerExpiry, hset, hreq]
  rw [if_neg (by simpa [hd3, hleast, hsending, hphase, hrunning] using hpresent)]

theorem prepare_told {out inn e : Nat} (f : Gang → Gang) {dsts : List Nat} (hr : ∀ k ∈ dsts, s.reaches m (mgmtKey k) = true) : ∃ net,
    dsts.foldl (fun t k => t.tell m k (.prepare g e out inn (t.neededCores k out inn))) (s.onGang m g f) = { (s.onGang m g f) with net := net } ∧
      Told m { (s.onGang m g f) with net := net } s.net (dsts.map fun k => (k, .prepare g e out inn (s.neededCores k out inn))) := by
  obtain ⟨net, hnet, htold⟩ := foldl_tell (s := s.onGang m g f) (m := m) (f := fun t k => .prepare g e out inn (t.neededCores k out inn))
    (fun _ _ => rfl) dsts s.net fun k hk => (reaches_onGang s m g f m _).trans (hr k hk)
  refine ⟨net, hnet, ?_⟩
  simpa only [neededCores_onGang] using htold

theorem gangCommit_started {k by_ : Nat} {t : State} {p : Nat × Nat × Nat × List Nat} (hd3 : (s.module m).d3hot = false)
    (hrunning : (s.gang m g).running = none) (hpacket : s.commitPacket m g = some (k, by_, t)) (hphase : (t.gang m g).phase1 = some p) :
    exec (.gangCommit m g) s = .next (if p.1 = k then t.startSwitch m g p else t) := by
  simp only [exec_gangCommit, execGangCommit, hd3, hrunning, hpacket, hphase, Bool.false_eq_true, if_false]

/-- No core, no pour to stop. -/
theorem preemptPours_nil (s : State) : s.preemptPours [] = s := by
  unfold State.preemptPours
  generalize s.clusters.map Prod.fst = cls
  induction cls with
  | nil => rfl
  | cons cl r ih =>
    rw [List.foldl_cons]
    cases (s.flask cl).pour <;> simpa using ih

theorem gangCommit_ends {k out inn : Nat} {cores : List Nat} (hd3 : (s.module m).d3hot = false)
    (hrunning : (s.gang m g).running = some (k, out, inn, cores)) (hopen : ∀ c ∈ cores, (s.core c).gangShut = false) :
    exec (.gangCommit m g) s = .next ((s.onGang m g fun q => { q with running := none }).tell m
      ((((s.gangSet m g).bind fun d => leastOf d.gangModules)).getD m) (.done g k m)) := by
  have hleft : cores.filter (fun c => (s.core c).gangShut) = [] := List.filter_eq_nil_iff.mpr fun c hc => by simp [hopen c hc]
  have hnone : (cores.any fun c => (s.core c).gangShut) = false := List.any_eq_false.mpr fun c hc => by simp [hopen c hc]
  simp only [exec_gangCommit, execGangCommit, hd3, hrunning, hleft, preemptPours_nil, List.find?_nil, hnone, Bool.false_eq_true, if_false]

theorem gangCommit_goes_on {k out inn c : Nat} {cores : List Nat} (hd3 : (s.module m).d3hot = false)
    (hrunning : (s.gang m g).running = some (k, out, inn, cores)) :
    let left := cores.filter fun c => (s.core c).gangShut; let v := s.preemptPours left
    left.find? (fun c => (switchUnit cores c).all fun x => v.coreQuiet x out) = some c → let w := v.switchCores out inn (switchUnit cores c)
    (∃ a ∈ cores, (w.core a).gangShut = true) → exec (.gangCommit m g) s = .next w := by
  intro left v hfind w hshut
  simp only [exec_gangCommit, execGangCommit, hd3, hrunning, Bool.false_eq_true, if_false]
  rw [hfind]
  exact congrArg Host.Outcome.next (if_pos (List.any_eq_true.mpr hshut))
end

/-! Steps that take a message between management cores (03 R65, 14 R353): `t` is the state without it. -/

section
variable {s t : State} {n m by_ g e j : Nat}

section
variable {out inn : Nat} {cores : List Nat} (hrecv : s.receiveMgmt n = some (m, by_, .prepare g e out inn cores, t))
include hrecv

theorem gangPrepare_ignored (h : e ≠ (t.gang m g).expect ∨ (t.gang m g).phase1.isSome = true ∨ (t.gang m g).running.isSome = true) :
    exec (.gangPrepare n) s = .next t := by
  simp only [exec_gangPrepare, execGangPrepare, hrecv]
  rw [if_pos (by simpa [or_assoc] using h)]

variable (he : e = (t.gang m g).expect) (hphase : (t.gang m g).phase1 = none) (hrunning : (t.gang m g).running = none)
include he hphase hrunning

theorem gangPrepare_accepted {i : Nat} {d : Domain} (hdom : t.domain? m inn = some (i, d)) (hgang : d.set.gang = some g) :
    exec (.gangPrepare n) s = .next ((t.onGang m g fun q => { q with phase1 := some (e, out, inn, cores) }).tell m by_ (.prepared g e m)) := by
  simp only [exec_gangPrepare, execGangPrepare, hrecv]
  rw [if_neg (by simp [he, hphase, hrunning]), hdom]
  simp only [hgang, if_true]

theorem gangPrepare_refused {why : GangReason} (h : (∃ i d, t.domain? m inn = some (i, d) ∧ d.set.gang ≠ some g ∧ why = .notInGang) ∨
    t.domain? m inn = none ∧ why = .notBound) : exec (.gangPrepare n) s = .next (t.tell m by_ (.refused g e m why)) := by
  simp only [exec_gangPrepare, execGangPrepare, hrecv]
  rw [if_neg (by simp [he, hphase, hrunning])]
  rcases h with ⟨i, d, hdom, hgang, rfl⟩ | ⟨hdom, rfl⟩
  · simp only [hdom, hgang, if_false]
  · simp only [hdom]
end

section
variable {o inn : Nat} {d : DomainSettings} (hsending : (t.gang m g).sending = some (e, o, inn)) (hset : t.gangSet m g = some d)
include hsending hset

theorem gangPreparedReply_prepared (hrecv : s.receiveMgmt n = some (m, by_, .prepared g e j, t)) (hj : j ∉ (t.gang m g).prepared) :
    let u := t.onGang m g fun q => { q with prepared := j :: q.prepared }
    exec (.gangPreparedReply n) s = .next (if ∀ k ∈ d.gangModules, k ∈ j :: (t.gang m g).prepared then u.tellAll m (.commit g e) d.gangModules else u) := by
  simp only [exec_gangPreparedReply, execGangPreparedReply, hrecv, hsending, hset]
  rw [if_neg (by simpa using hj)]
  simp only [List.all_eq_true, List.contains_iff_mem, Option.map_some, Option.getD_some]

theorem gangPreparedReply_refused {why : GangReason} (hrecv : s.receiveMgmt n = some (m, by_, .refused g e j why, t)) (hj : j ∉ (t.gang m g).prepared) :
    exec (.gangPreparedReply n) s =
      .next ((t.onGang m g fun q => { q with sending := none, prepared := [] }).tellAll m (.abort g e) d.gangModules) := by
  simp only [exec_gangPreparedReply, execGangPreparedReply, hrecv, hsending, hset]
  rw [if_neg (by simpa using hj)]
  rfl

theorem gangDone_eq (hrecv : s.receiveMgmt n = some (m, by_, .done g e j, t)) : exec (.gangDone n) s = .next (t.onGang m g fun q =>
    { q with done := j :: q.done, sending := if ∀ k ∈ d.gangModules, k ∈ j :: q.done then none else q.sending }) := by
  simp only [exec_gangDone, execGangDone, hrecv, hsending, hset]
  rw [if_neg (by simp)]
  simp only [List.all_eq_true, List.contains_iff_mem, Option.map_some, Option.getD_some]
end

theorem gangSwitchAbort_eq (hrecv : s.receiveMgmt n = some (m, by_, .abort g e, t)) :
    exec (.gangSwitchAbort n) s = .next (if e = (t.gang m g).expect then t.onGang m g Gang.forget else t) := by
  simp only [exec_gangSwitchAbort, execGangSwitchAbort, hrecv]

end

/-! All-asleep detection (14 R351 to R353). -/

theorem reaches_setRound (t : State) (m : Nat) (f : Machine.Module → Machine.Module) (hf : ∀ x, (f x).livePorts = x.livePorts) (j d : Nat) :
    (t.onModule m f).reaches j d = t.reaches j d := reaches_on t m f (hf _) j d

/-- Messages sent to modules that a path leads to, once a module changed its rounds. -/
theorem tellAll_setRound {t : State} {m dom : Nat} {y : Option Round} (k : Mgmt) {dsts : List Nat} (hr : ∀ d ∈ dsts, t.reaches m (mgmtKey d) = true) :
    let w := t.onModule m fun x => x.setRound dom y
    ∃ net, w.tellAll m k dsts = { w with net := net } ∧ Told m { w with net := net } t.net (dsts.map fun d => (d, k)) :=
  tellAll_told k fun d hd => (reaches_setRound t m (fun x => x.setRound dom y) (fun _ => rfl) m (mgmtKey d)).trans (hr d hd)

/-- The modules on which a domain is bound, after a change that leaves the domains. -/
theorem domModules_onModule {t : State} {m : Nat} {f : Machine.Module → Machine.Module} (hf : ∀ x, (f x).domains = x.domains) (dom : Nat) :
    (t.onModule m f).domModules dom = t.domModules dom := by
  have hd : ∀ j, ((t.onModule m f).module j).domains = (t.module j).domains := fun j => by
    rw [module_onModule']
    split
    case isTrue h => rw [hf, h]
    case isFalse => rfl
  unfold State.domModules State.domain?
  simp only [hd, State.onModule_present]

section
variable {s t : State} {n m by_ dom r : Nat}

theorem asleepReceipt_waits {j : Nat} (hrecv : s.receiveMgmt n = some (m, by_, .asleep dom j, t)) (h : ∃ y ∈ (s.module m).rounds, y.dom = dom) :
    exec (.asleepReceipt n) s = .next s := by
  simp only [exec_asleepReceipt, execAsleepReceipt, hrecv]
  rw [if_pos (by simpa using h)]

/-- A module on which round `r` of a domain begins. -/
def withRound (dom r : Nat) (x : Machine.Module) : Machine.Module :=
  { x.setRound dom (some ⟨dom, r, 1, [], []⟩) with roundNo := Tab.set x.roundNo dom r }

theorem asleepReceipt_starts {j : Nat} (hrecv : s.receiveMgmt n = some (m, by_, .asleep dom j, t)) (h : ∀ y ∈ (s.module m).rounds, y.dom ≠ dom) :
    let r := Tab.get 0 (t.module m).roundNo dom + 1
    exec (.asleepReceipt n) s = .next ((t.onModule m (withRound dom r)).tellAll m (.query dom r false) (t.domModules dom)) := by
  intro r
  rw [← domModules_onModule (t := t) (m := m) (f := withRound dom r) (fun _ => rfl) dom, exec_asleepReceipt, execAsleepReceipt, hrecv]
  exact congrArg Host.Outcome.next (if_neg (by simpa using h))

theorem setRound_new {x : Machine.Module} (h : ∀ y ∈ x.rounds, y.dom ≠ dom) (y : Round) : (x.setRound dom (some y)).rounds = x.rounds ++ [y] := by
  unfold Module.setRound
  rw [List.filter_eq_self.mpr fun y hy => by simpa using h y hy]
  rfl

theorem setRound_only {x : Machine.Module} {y : Round} (h : x.rounds = [y]) (o : Option Round) : (x.setRound y.dom o).rounds = o.toList := by
  unfold Module.setRound
  rw [h, List.filter_cons_of_neg (by simp)]
  rfl

theorem rounds_of_only {t : State} {m : Nat} {y : Round} (h : (t.module m).rounds = [y]) (o : Option Round) (net : List Packet) :
    (State.module { (t.onModule m fun x => x.setRound y.dom o) with net := net } m).rounds = o.toList := by
  have hmodule := module_onModule t m fun x => x.setRound y.dom o
  exact (congrArg Module.rounds hmodule).trans (setRound_only h o)

theorem allAsleepQuery_eq {c : Bool} (hrecv : s.receiveMgmt n = some (m, by_, .query dom r c, t)) : ∃ falls,
    (∀ i d, t.domain? m dom = some (i, d) → falls = d.falls) ∧
      exec (.allAsleepQuery n) s = .next (t.tell m by_ (.status dom r c m (t.asleepNow m dom) falls)) := by
  simp only [exec_allAsleepQuery, execAllAsleepQuery, hrecv]
  refine ⟨_, fun i d h => ?_, rfl⟩
  rw [h]

theorem allAsleepRaise_eq (hrecv : s.receiveMgmt n = some (m, by_, .raise dom r, t)) : exec (.allAsleepRaise n) s = .next (t.postAsleep m dom r) := by
  simp only [exec_allAsleepRaise, execAllAsleepRaise, hrecv]

section
variable {y : Round} (hround : (t.module m).rounds = [y]) (hdom : y.dom = dom) (hr : y.r = r)
include hround hdom hr

theorem allAsleepReply_unreachable (hrecv : s.receiveMgmt n = some (m, by_, .unreachable dom r, t)) :
    exec (.allAsleepReply n) s = .next (t.onModule m fun x => x.setRound y.dom none) := by
  simp only [exec_allAsleepReply, execAllAsleepReply, hrecv, hround]
  rw [List.find?_cons_of_pos (by simp [hdom, hr]), hdom]

theorem allAsleepReply_status {c out : Bool} {j count : Nat} (hrecv : s.receiveMgmt n = some (m, by_, .status dom r c j out count, t))
    (hphase : y.phase = 2 ↔ c = true) (hj : ∀ a ∈ y.replies, a.1 ≠ j) : exec (.allAsleepReply n) s = .next (t.replied m y j out count) := by
  have hc : (y.phase == 2) = c := by rw [Bool.eq_iff_iff, beq_iff_eq, hphase]
  simp only [exec_allAsleepReply, execAllAsleepReply, hrecv, hround]
  rw [List.find?_cons_of_pos (by simp [hdom, hr, hc])]
  refine congrArg Host.Outcome.next (if_neg ?_)
  rw [List.any_eq_true]
  rintro ⟨a, ha, heq⟩
  exact hj a ha (beq_iff_eq.mp heq)
end

/-- What a reply does to a round: it may end it, be kept, or be the last one. -/
theorem replied_disagrees {y : Round} {j count : Nat} {out : Bool} (h : ¬(out = true ∧ (y.phase = 2 → (j, count) ∈ y.first))) :
    t.replied m y j out count = t.onModule m fun x => x.setRound y.dom none := by
  unfold State.replied
  refine if_pos ?_
  cases out
  · rfl
  · simpa using h

section
variable {y : Round} {j count : Nat} {out : Bool} (h : out = true ∧ (y.phase = 2 → (j, count) ∈ y.first))
include h

theorem replied_agrees : t.replied m y j out count = if ¬∀ k ∈ t.domModules y.dom, ∃ a ∈ (j, out, count) :: y.replies, a.1 = k then
      t.onModule m fun x => x.setRound y.dom (some { y with replies := (j, out, count) :: y.replies })
    else if y.phase = 1 then (t.onModule m fun x => x.setRound y.dom
        (some ⟨y.dom, y.r, 2, [], ((j, out, count) :: y.replies).map fun a => (a.1, a.2.2)⟩)).tellAll m (.query y.dom y.r true) (t.domModules y.dom)
      else (t.onModule m fun x => x.setRound y.dom none).tellAll m (.raise y.dom y.r) (t.domModules y.dom) := by
  unfold State.replied
  have hall : (!(t.domModules y.dom).all fun d => ((j, out, count) :: y.replies).any fun a => a.1 == d) = true ↔
      ¬∀ k ∈ t.domModules y.dom, ∃ a ∈ (j, out, count) :: y.replies, a.1 = k := by
    rw [Bool.not_eq_true', ← Bool.not_eq_true, List.all_eq_true]
    simp only [List.any_eq_true, beq_iff_eq]
  rw [if_neg (by simpa [h.1] using h.2)]
  simp only [hall]
end
end

/-! A rise is reported (14 R352, R353). -/

section
variable {s : State} {m n count : Nat} {d : Domain} (hslot : Tab.find (s.module m).domains n = some d)
include hslot

theorem allAsleepRise_none (h : d.rises = []) : exec (.allAsleepRise m n) s = .next s := by
  simp only [exec_allAsleepRise, execAllAsleepRise, hslot, h]

variable {r : List Nat} (hrises : d.rises = count :: r) (hd3 : (s.module m).d3hot = false)
include hrises hd3

theorem allAsleepRise_alone : let v := s.onDomain m d.tag fun d => { d with rises := r }
    (v.domModules d.tag).length ≤ 1 → exec (.allAsleepRise m n) s = .next (v.postAsleep m d.tag count) := by
  intro v h
  simp only [exec_allAsleepRise, execAllAsleepRise, hslot, hrises, hd3, Bool.false_eq_true, if_false]
  split
  case h_1 a b l hmods => rw [hmods, List.length_cons, List.length_cons] at h; omega
  case h_2 => rfl

theorem allAsleepRise_among {c : Nat} : let v := s.onDomain m d.tag fun d => { d with rises := r }
    2 ≤ (v.domModules d.tag).length → leastOf (v.domModules d.tag) = some c → exec (.allAsleepRise m n) s = .next (v.tell m c (.asleep d.tag m)) := by
  intro v h hc
  simp only [exec_allAsleepRise, execAllAsleepRise, hslot, hrises, hd3, Bool.false_eq_true, if_false]
  split
  case h_1 a b l hmods => rw [← hmods, hc]; rfl
  case h_2 hno =>
    match hmods : v.domModules d.tag with
    | [] => rw [hmods, List.length_nil] at h; omega
    | [a] => rw [hmods, List.length_singleton] at h; omega
    | a :: b :: l => exact absurd hmods (hno a b l)
end

theorem find_map_snd {α β : Type} (f : Nat → α → β) (t : Tab α) (k : Nat) :
    Tab.find (t.map fun p => (p.1, f p.1 p.2)) k = (Tab.find t k).map (f k) := by
  induction t with
  | nil => rfl
  | cons p r ih =>
    simp only [List.map_cons, Tab.find]
    split
    case isTrue h => rw [h]; rfl
    case isFalse => exact ih

theorem watch_eq (d : Domain) (out : Bool) : d.watch out = { d with
    asleep := out, rises := if out = true ∧ d.asleep = false then d.rises ++ [d.falls] else d.rises,
    falls := if out = false ∧ d.asleep = true then d.falls + 1 else d.falls } := by
  obtain ⟨tag, set, fq, fqWait, serial, service, want, asleep, falls, rises, unbinding⟩ := d
  cases out <;> cases asleep <;> rfl

/-- The detectors of a module after a step. -/
theorem domains_watchAsleep (s : State) (m : Nat) : (s.watchAsleep.module m).domains =
    (s.module m).domains.map fun q => (q.1, q.2.watch (s.asleepNow m q.2.tag)) := by
  unfold State.watchAsleep State.module
  simp only
  induction s.modules with
  | nil => rfl
  | cons p r ih =>
    simp only [List.map_cons, Tab.get]
    split
    case isTrue h => rw [h]
    case isFalse => exact ih

theorem find_watchAsleep {s : State} {m k : Nat} {d : Domain} (h : Tab.find (s.module m).domains k = some d) :
    Tab.find (s.watchAsleep.module m).domains k = some (d.watch (s.asleepNow m d.tag)) := by
  rw [domains_watchAsleep, find_map_snd fun _ (d : Domain) => d.watch (s.asleepNow m d.tag), h]
  rfl

/-! The cores that a domain needs (03 R65). -/

theorem mem_moduleCores (m c : Nat) : c ∈ moduleCores m ↔ cidModule c = m ∧ cidValid c = true := by
  unfold moduleCores cidModule
  rw [List.mem_filter, List.mem_map]
  refine and_congr_left fun _ => ⟨?_, fun h => ⟨c % 2 ^ 14, List.mem_range.mpr (by omega), by omega⟩⟩
  rintro ⟨k, hk, rfl⟩
  have := List.mem_range.mp hk
  omega

theorem mem_neededCores (s : State) (m out inn c : Nat) : c ∈ s.neededCores m out inn ↔ cidModule c = m ∧ cidValid c = true ∧
    ((∃ y ∈ (s.module m).saved, y.cid = c ∧ y.dom = inn) ∨ ∃ y ∈ (s.module m).queues, ∃ l cs, y.2.latch = some l ∧ l.dom = inn ∧ c ∈ cs ∧
      l.choose (fun a => s.clusterAvailable (cidCluster a) inn && s.onlyFor a out inn) m = some cs) := by
  unfold State.neededCores
  rw [List.mem_filter, mem_moduleCores, and_assoc]
  refine and_congr_right fun _ => and_congr_right fun _ => ?_
  rw [Bool.or_eq_true, List.any_eq_true, List.contains_iff_mem, List.mem_flatMap]
  refine or_congr (by simp) (exists_congr fun y => and_congr_right fun _ => ?_)
  cases y.2.latch with
  | none => simp
  | some l =>
    by_cases hl : l.dom = inn
    · cases hc : l.choose (fun a => s.clusterAvailable (cidCluster a) inn && s.onlyFor a out inn) m <;> simp [hl, hc]
    · simp [hl]

/-! Link ports (04 R78, R79). -/

section
variable (s : State) (m k : Nat)

theorem ports_onPort (f : Port → Port) : ((s.onPort m k f).module m).ports = Tab.set (s.module m).ports k (f (Tab.get Port.fresh (s.module m).ports k)) := by
  unfold State.onPort
  rw [module_onModule]

/-- A port that closes is logged, and what it carried is answered; the module keeps everything else but its domains. -/
theorem keepsModules_closePort :
    KeepsModules ((s.onPort m k fun p => { p with closed := true }).logError m 4 0 1 k) (s.closePort m k) := by
  unfold State.closePort
  simp only
  split
  · exact keepsModules_cutModule _ m
  · exact (keepsModules_losePackets _ _).trans (keepsModules_dropAllWatches _)

theorem ports_logError (kind dom count place : Nat) : ((s.logError m kind dom count place).module m).ports = (s.module m).ports := by
  unfold State.logError State.raiseMsix
  rw [module_onModule, module_onModule]

/-- The module after one of its ports closed (04 R78). -/
theorem closePort_spec : (s.closePort m k).mem = s.mem ∧
    Tab.get Port.fresh ((s.closePort m k).module m).ports k = { Tab.get Port.fresh (s.module m).ports k with closed := true } ∧
    ((s.closePort m k).module m).msix = (s.module m).msix ++ [1] ∧
    ∃ e, ((s.closePort m k).module m).log = (if (s.module m).log.length < 1024 then (s.module m).log else (s.module m).log.drop 1) ++
      [[BitVec.ofNat 64 (4 * 2 ^ 56 + 1), BitVec.ofNat 64 k, 0, e]] := by
  have hkeeps := keepsModules_closePort s m k
  obtain ⟨⟨e, hlog⟩, hmsix⟩ := logError_facts (s.onPort m k fun p => { p with closed := true }) m 4 0 1 k
  have hport : ∀ α (f : Machine.Module → α), (∀ x ps, f { x with ports := ps } = f x) →
      f ((s.onPort m k fun p => { p with closed := true }).module m) = f (s.module m) := fun α f hf => by
    unfold State.onPort
    rw [module_onModule, hf]
  refine ⟨hkeeps.mem, ?_, ?_, e, ?_⟩
  · rw [hkeeps.field (·.ports) (fun _ _ => rfl), ports_logError, ports_onPort, Tab.get_set_same]
  · rw [hkeeps.field (·.msix) (fun _ _ => rfl), hmsix, hport _ (·.msix) fun _ _ => rfl]
  · rw [hkeeps.field (·.log) (fun _ _ => rfl), hlog, hport _ (·.log) fun _ _ => rfl]
    rfl

variable {s m k} (hpresent : s.present.contains m = true) (hk : k < 36) (hopen : (Tab.get Port.fresh (s.module m).ports k).closed = false)
include hpresent hk hopen

theorem linkPortClose_eq : exec (.linkPortClose m k) s = .next (s.closePort m k) := by
  rw [exec_linkPortClose, execLinkPortClose]
  exact congrArg Host.Outcome.next (if_neg (by simpa [hk, hopen] using hpresent))

theorem linkPortDegrade_eq {lanes : Nat} (rows : Nat) (hlanes : lanes = 1 ∨ lanes = 2 ∨ lanes = 4)
    (hle : lanes ≤ (Tab.get Port.fresh (s.module m).ports k).lanes) : let p := Tab.get Port.fresh (s.module m).ports k
    let t := s.onPort m k fun p => { p with lanes := lanes, rows := p.rows + rows }
    exec (.linkPortDegrade m k lanes rows) s = .next (if Config.reserveHeld lanes (p.rows + rows) then t else t.closePort m k) := by
  rw [exec_linkPortDegrade, execLinkPortDegrade]
  refine congrArg Host.Outcome.next ((if_neg ?_).trans (if_neg ?_))
  · have hbad : (!(lanes == 1 || lanes == 2 || lanes == 4)) = false := by rcases hlanes with rfl | rfl | rfl <;> rfl
    simpa [hk, hbad] using hpresent
  · simpa [hopen] using hle
end

/-! Temperature and clock (15 R367, R368). -/

section
variable {s : State} {m : Nat} (hpresent : s.present.contains m = true)
include hpresent

theorem junctionOver105_eq : exec (.junctionOver105 m) s = .next (s.onModule m fun x =>
    if x.over105 then { x with over105 := x.over115 } else { x with over105 := true, clock := 800 }) := by
  rw [exec_junctionOver105, execJunctionOver105, if_pos hpresent]

theorem junctionOver115_spec : ∃ t, exec (.junctionOver115 m) s = .next t ∧ t.mem = s.mem ∧ (t.module m).over105 = true ∧ (t.module m).over115 = true ∧
    (t.module m).clock = 800 ∧ (t.module m).livePorts = [] := by
  have hkeeps := keepsModules_cutModule (s.onModule m fun x => { x with over105 := true, over115 := true, clock := 800 }) m
  refine ⟨_, by rw [exec_junctionOver115, execJunctionOver115, if_pos hpresent], hkeeps.mem, ?_⟩
  rw [hkeeps.field (·.over105) (fun _ _ => rfl), hkeeps.field (·.over115) (fun _ _ => rfl), hkeeps.field (·.clock) (fun _ _ => rfl),
    hkeeps.field (·.livePorts) (fun _ _ => rfl), module_onModule]
  exact ⟨rfl, rfl, rfl, if_pos (by simp)⟩

theorem powerCapClockStep_eq (up : Bool) : exec (.powerCapClockStep m up) s = .next (s.onModule m fun x =>
    if up then (if x.over105 then x else { x with clock := min 1600 (x.clock + 25) }) else { x with clock := max 800 (x.clock - 25) }) := by
  rw [exec_powerCapClockStep, execPowerCapClockStep, if_pos hpresent]
end

/-! The obligation, from one lemma for each step. -/

theorem gang_told {s : State} {m g : Nat} (f : Gang → Gang) (net : List Packet) : State.gang { (s.onGang m g f) with net := net } m g = f (s.gang m g) :=
  gang_onGang s m g f

/-- Settles O48: each clause from the lemma about its step, the messages sent from `tellAll_told` and `prepare_told`. -/
theorem gangsDetectionAndLinks : Obligations.GangsDetectionAndLinks := by
  unfold Obligations.GangsDetectionAndLinks
  intro m n src dst vc port cr s x u ends mem there sends same
  refine ⟨?timer, ?commit, ?messages, ?rise, fun k d hd => ?watch, fun out inn c => mem_neededCores s m out inn c, ?ports⟩
  case timer =>
    intro g d hset q i inn hpresent hd3 hleast hsending hphase hrunning hreq
    have he := gangTimerExpiry_eq hset hpresent hd3 hleast hsending hphase hrunning hreq
    refine ⟨fun h => he.trans (congrArg Host.Outcome.next (if_pos h)), fun h hr => ?_⟩
    obtain ⟨net, hnet, htold⟩ := prepare_told (g := g) (out := q.current) (inn := inn) (e := q.expect)
      (fun q => { q with sending := some (q.expect, q.current, inn), prepared := [], done := [] }) hr
    exact ⟨_, he.trans (congrArg Host.Outcome.next ((if_neg h).trans hnet)), rfl, gang_told _ net, htold⟩
  case commit =>
    intro g hd3 q i
    refine ⟨fun k by_ t1 p hrunning hpacket hphase => ?_, fun k out inn cores hrunning => ⟨fun hopen hthere => ?_, fun c => gangCommit_goes_on hd3 hrunning⟩⟩
    · have he := gangCommit_started hd3 hrunning hpacket hphase
      exact ⟨fun h => by rw [he, if_neg h], fun h => by rw [he, if_pos h]⟩
    · obtain ⟨net, hnet, htold⟩ := tell_told (s := s.onGang m g fun q => { q with running := none }) (m := m) (.done g k m)
        ((reaches_onGang ..).trans hthere)
      exact ⟨_, (gangCommit_ends hd3 hrunning hopen).trans (congrArg Host.Outcome.next hnet), rfl, gang_told _ net, htold⟩
  case messages =>
    rintro k hdeliverable rfl hd3 by_ plain
    have hrecv := receiveMgmt_eq hdeliverable hd3
    refine ⟨?prepare, ?reply, ?abort, ?done, ?asleep, ?query, ?status, ?unreachable, ?raise⟩
    case prepare =>
      rintro g e out inn cores rfl q i
      refine ⟨gangPrepare_ignored hrecv, fun he hphase hrunning hthere => ⟨fun j d hdom hgang => ?_, fun why hwhy => ?_⟩⟩
      · obtain ⟨net, hnet, htold⟩ := tell_told (s := u.onGang (keyModule dst) g fun q => { q with phase1 := some (e, out, inn, cores) })
          (m := keyModule dst) (d := by_) (.prepared g e (keyModule dst)) ((reaches_onGang ..).trans hthere)
        exact ⟨_, (gangPrepare_accepted hrecv he hphase hrunning hdom hgang).trans (congrArg Host.Outcome.next hnet), rfl, htold, gang_told _ net⟩
      · obtain ⟨net, hnet, htold⟩ := tell_told (s := u) (m := keyModule dst) (d := by_) (.refused g e (keyModule dst) why) hthere
        exact ⟨_, (gangPrepare_refused hrecv he hphase hrunning hwhy).trans (congrArg Host.Outcome.next hnet), rfl, htold, rfl⟩
    case reply =>
      intro g e j o inn d q hsending hj hset i all reach
      refine ⟨?_, ?_, ?_⟩
      · rintro rfl hall
        exact ⟨_, (gangPreparedReply_prepared (t := u) hsending hset hrecv hj).trans (congrArg Host.Outcome.next (if_neg hall)), rfl, rfl, gang_onGang ..⟩
      · rintro rfl hall hr
        obtain ⟨net, hnet, htold⟩ := tellAll_told (s := u.onGang (keyModule dst) g fun q => { q with prepared := j :: q.prepared }) (m := keyModule dst)
          (.commit g e) fun k hk => (reaches_onGang ..).trans (hr k hk)
        exact ⟨_, (gangPreparedReply_prepared (t := u) hsending hset hrecv hj).trans (congrArg Host.Outcome.next ((if_pos hall).trans hnet)), rfl, gang_told _ net, htold⟩
      · rintro why rfl hr
        obtain ⟨net, hnet, htold⟩ := tellAll_told (s := u.onGang (keyModule dst) g fun q => { q with sending := none, prepared := [] }) (m := keyModule dst)
          (.abort g e) fun k hk => (reaches_onGang ..).trans (hr k hk)
        exact ⟨_, (gangPreparedReply_refused (t := u) hsending hset hrecv hj).trans (congrArg Host.Outcome.next hnet), rfl, gang_told _ net, htold⟩
    case abort =>
      rintro g e rfl q i
      exact ⟨fun he => (gangSwitchAbort_eq hrecv).trans (congrArg Host.Outcome.next (if_neg he)),
        fun he => ⟨_, (gangSwitchAbort_eq hrecv).trans (congrArg Host.Outcome.next (if_pos he)), rfl, rfl, gang_onGang ..⟩⟩
    case done =>
      rintro g e j o inn d rfl q hsending hset
      refine ⟨_, gangDone_eq (t := u) hsending hset hrecv, rfl, rfl, fun hall => ?_, fun hleft => ?_⟩
      · rw [gang_onGang]
        exact if_pos hall
      · rw [gang_onGang]
        obtain ⟨k, hk, hkout⟩ := hleft
        exact congrArg (fun sending => { q with done := j :: q.done, sending }) (if_neg fun hall : (∀ k ∈ d.gangModules, k ∈ j :: q.done) => hkout (hall k hk))
    case asleep =>
      rintro dom j rfl r mods i
      refine ⟨asleepReceipt_waits hrecv, fun hrounds hr => ?_⟩
      obtain ⟨net, hnet, htold⟩ := tellAll_told (s := u.onModule (keyModule dst) (withRound dom r)) (m := keyModule dst) (.query dom r false)
        fun k hk => (reaches_setRound u _ (withRound dom r) (fun _ => rfl) _ _).trans (hr k hk)
      refine ⟨_, (asleepReceipt_starts hrecv hrounds).trans (congrArg Host.Outcome.next hnet), rfl, htold, ?_⟩
      have hmodule : State.module { (u.onModule (keyModule dst) (withRound dom r)) with net := net } (keyModule dst) = withRound dom r x := module_onModule ..
      rw [hmodule]
      exact ⟨setRound_new hrounds _, Tab.get_set_same ..⟩
    case query =>
      rintro dom r c rfl hthere
      obtain ⟨falls, hfalls, he⟩ := allAsleepQuery_eq hrecv
      obtain ⟨net, hnet, htold⟩ := tell_told (s := u) (m := keyModule dst) (d := by_) (.status dom r c (keyModule dst) (u.asleepNow (keyModule dst) dom) falls) hthere
      exact ⟨_, he.trans (congrArg Host.Outcome.next hnet), rfl, falls, hfalls, htold⟩
    case status =>
      rintro dom r c j out count y rfl hround rfl rfl hphase hone hj mods i rounds all agrees
      have he := allAsleepReply_status (t := u) (y := y) hround rfl rfl hrecv hphase hj
      refine ⟨fun hno => ?_, fun hyes hleft => ?_, fun hyes hall hr => ⟨fun h1 => ?_, fun h2 => ?_⟩⟩
      · refine ⟨_, he.trans (congrArg Host.Outcome.next (replied_disagrees hno)), rfl, rfl, ?_⟩
        exact rounds_of_only (t := u) hround _ _
      · refine ⟨_, he.trans (congrArg Host.Outcome.next ((replied_agrees (t := u) hyes).trans (if_pos hleft))), rfl, rfl, ?_⟩
        exact rounds_of_only (t := u) hround _ _
      · have hsent := he.trans (congrArg Host.Outcome.next ((replied_agrees (t := u) hyes).trans ((if_neg (not_not.mpr hall)).trans (if_pos h1))))
        obtain ⟨net, hnet, htold⟩ := tellAll_setRound (t := u) (m := keyModule dst) (dom := y.dom) (.query y.dom y.r true) (fun k hk => hr k hk)
        exact ⟨_, hsent.trans (congrArg Host.Outcome.next hnet), rfl, rounds_of_only (t := u) hround _ _, htold⟩
      · have hsent := he.trans (congrArg Host.Outcome.next ((replied_agrees (t := u) hyes).trans ((if_neg (not_not.mpr hall)).trans (if_neg (by omega)))))
        obtain ⟨net, hnet, htold⟩ := tellAll_setRound (t := u) (m := keyModule dst) (dom := y.dom) (.raise y.dom y.r) (fun k hk => hr k hk)
        exact ⟨_, hsent.trans (congrArg Host.Outcome.next hnet), rfl, rounds_of_only (t := u) hround _ _, htold⟩
    case unreachable =>
      rintro dom r y rfl hround rfl rfl
      refine ⟨_, allAsleepReply_unreachable (t := u) hround rfl rfl hrecv, rfl, rfl, ?_⟩
      exact rounds_of_only (t := u) hround _ _
    case raise =>
      rintro dom r rfl
      exact allAsleepRaise_eq hrecv
  case rise =>
    intro d hslot
    refine ⟨allAsleepRise_none hslot, ?_⟩
    intro count r hrises hd3 i v mods
    refine ⟨allAsleepRise_alone hslot hrises hd3, fun h2 c hc hthere => ?_⟩
    obtain ⟨net, hnet, htold⟩ := tell_told (s := v) (m := m) (.asleep d.tag m) ((reaches_on s m _ rfl m _).trans hthere)
    exact ⟨_, (allAsleepRise_among hslot hrises hd3 h2 hc).trans (congrArg Host.Outcome.next hnet), rfl, htold⟩
  case watch =>
    exact (find_watchAsleep hd).trans (congrArg some (watch_eq d _))
  case ports =>
    intro hpresent
    refine ⟨?one, ?_, ?_, junctionOver115_spec hpresent, ⟨_, powerCapClockStep_eq hpresent false, rfl, module_onModule ..⟩,
      ⟨_, powerCapClockStep_eq hpresent true, rfl, module_onModule ..⟩⟩
    case one =>
      intro k hk p hopen
      refine ⟨⟨_, linkPortClose_eq hpresent hk hopen, closePort_spec s m k⟩, fun lanes rows hlanes hle => ?_⟩
      have he := linkPortDegrade_eq hpresent hk hopen rows hlanes hle
      by_cases hheld : Config.reserveHeld lanes (p.rows + rows) = true
      · exact ⟨_, he.trans (congrArg Host.Outcome.next (if_pos hheld)), rfl, fun _ => module_onModule .., fun h => absurd hheld h⟩
      · obtain ⟨hmem, hport, -⟩ := closePort_spec (s.onPort m k fun p => { p with lanes := lanes, rows := p.rows + rows }) m k
        refine ⟨_, he.trans (congrArg Host.Outcome.next (if_neg hheld)), hmem, fun h => absurd h hheld, fun _ => hport.trans ?_⟩
        rw [ports_onPort, Tab.get_set_same]
    · intro hcold
      refine ⟨_, junctionOver105_eq hpresent, rfl, (module_onModule ..).trans (if_neg ?_)⟩
      simpa using hcold
    · intro hhot
      exact ⟨_, junctionOver105_eq hpresent, rfl, (module_onModule ..).trans (if_pos hhot)⟩

end Sys2Proof.GangProofs
end

section
/-!
PROOFS. What putting a thread into a slot changes (06 R133; 12 R300): used for the boot root, root threads, tasks and threads that arrive.
-/
namespace Sys2Proof.PlaceProofs
open Sys2Proof Sys2Proof.Machine Sys2Proof.Laws Sys2Proof.LaunchProofs

/-- Writing registers changes the cores alone. -/
theorem setRegs_cores (c k : Nat) (vs : List Word) (n : Nat) (s : State) : ∃ cs, s.setRegs c k vs n = { s with cores := cs } := by
  induction vs generalizing s n with
  | nil => exact ⟨s.cores, rfl⟩
  | cons v r ih => exact ih (n + 1) (s.setGOf c k n v)

section
variable (s : State) (c k base : Nat) (th : Thread) (regs : List Word)

/-- Putting a thread into a slot changes the cores alone. -/
theorem putThread_cores : ∃ cs, s.putThread c k base th regs = { s with cores := cs } := setRegs_cores ..

/-- Starting a task changes the cores and the count of threads alone. -/
theorem startTask_cores : ∃ cs, s.startTask c k base th regs = { s with cores := cs, uids := s.uids + 1 } := setRegs_cores ..

theorem thread_putThread : (s.putThread c k base th regs).thread c k = { th with base := base } := by
  unfold State.putThread
  rw [setRegs_thread, State.thread_onThread_same]

theorem getD_append_zeros (l : List Word) (n j : Nat) : (l ++ List.replicate n 0).getD j 0 = l.getD j 0 := by
  rw [List.getD_eq_getElem?_getD, List.getD_eq_getElem?_getD, List.getElem?_append]
  split
  case isTrue => rfl
  case isFalse h =>
    rw [List.getElem?_eq_none (l := l) (by omega), List.getElem?_replicate]
    split <;> rfl

theorem gOf_putThread {j : Nat} (hj : j < th.win) : (s.putThread c k base th regs).gOf c k j = regs.getD j 0 := by
  have hbase : ((s.putThread c k base th regs).thread c k).base = base := congrArg Thread.base (thread_putThread s c k base th regs)
  have hlength : ((regs ++ List.replicate th.win 0).take th.win).length = th.win := by simp
  rw [State.gOf, hbase]
  unfold State.putThread
  rw [setRegs_rf, State.thread_onThread_same, hlength]
  dsimp only
  rw [if_pos (by omega), show base + j - (base + 0) = j by omega, List.getD_eq_getElem?_getD, List.getElem?_take_of_lt hj, ← List.getD_eq_getElem?_getD,
    getD_append_zeros]

theorem thread_startTask : (s.startTask c k base th regs).thread c k = { th with uid := s.uids + 1, base := base } := thread_putThread ..

theorem gOf_startTask {j : Nat} (hj : j < th.win) : (s.startTask c k base th regs).gOf c k j = regs.getD j 0 :=
  gOf_putThread { s with uids := s.uids + 1 } c k base { th with uid := s.uids + 1 } regs hj

theorem startTask_modules : (s.startTask c k base th regs).modules = s.modules := by
  obtain ⟨cs, hcs⟩ := startTask_cores s c k base th regs
  rw [hcs]

theorem startTask_uids : (s.startTask c k base th regs).uids = s.uids + 1 := by
  obtain ⟨cs, hcs⟩ := startTask_cores s c k base th regs
  rw [hcs]

theorem mem_putThread : (s.putThread c k base th regs).mem = s.mem := by
  obtain ⟨cs, hcs⟩ := putThread_cores s c k base th regs
  rw [hcs]
end

end Sys2Proof.PlaceProofs
end

section
/-!
PROOFS. The control registers of the mailbox and the commands that firmware serves (15 R358, R359; 03 R51, R58, R68; 14 R334, R354): O47.
-/
namespace Sys2Proof.MailboxProofs
open Sys2Proof Sys2Proof.Machine Sys2Proof.Laws Sys2Proof.LaunchProofs Sys2Proof.FabricProofs

/-! A command in the mailbox. -/

/-- The mailbox of module `m` holds a command with code `c` that firmware may serve. -/
def Serves (s : State) (m c : Nat) : Prop :=
  s.present.contains m = true ∧ (s.module m).d3hot = false ∧ (s.module m).mbox.busy = true ∧ (s.module m).mbox.finished = false ∧ (s.module m).mbox.code = c

/-- An instruction leaves module `m` as `y`, and memory and the cores as they were. -/
def Gives (s : State) (m : Nat) (i : Instr) (y : Machine.Module) : Prop :=
  ∃ t, exec i s = .next t ∧ t.module m = y ∧ t.mem = s.mem ∧ t.cores = s.cores

/-- A module whose command has ended with a RESULT. -/
def withResult (y : Machine.Module) (r : Nat) : Machine.Module := { y with mbox := y.mbox.ended r }

section
variable {s : State} {m : Nat} {i : Instr}

theorem serving_eq {c : Nat} (h : Serves s m c) (k : State → State) : s.serving m c k = k s := by
  obtain ⟨hpresent, hd3, hbusy, hfinished, hcode⟩ := h
  unfold State.serving
  exact if_pos (by rw [hpresent, hd3, hbusy, hfinished, hcode]; simp)

theorem gives_onModule {f : Machine.Module → Machine.Module} (h : exec i s = .next (s.onModule m f)) : Gives s m i (f (s.module m)) :=
  ⟨_, h, module_onModule s m f, rfl, rfl⟩

theorem gives_ended {r : Nat} (h : exec i s = .next (s.ended m r)) : Gives s m i (withResult (s.module m) r) := gives_onModule h

theorem module_ended (t : State) (m r : Nat) : (t.ended m r).module m = withResult (t.module m) r := module_onModule t m _

theorem gives_onModule_ended {r : Nat} {f : Machine.Module → Machine.Module} (h : exec i s = .next ((s.onModule m f).ended m r)) :
    Gives s m i (withResult (f (s.module m)) r) :=
  ⟨_, h, by rw [module_ended, module_onModule], rfl, rfl⟩
end

/-! Tables filled with a run of values. -/

theorem get_foldl_set {α : Type} (d : α) (b : Nat) (f : Nat → α) (t : Tab α) (j : Nat) (n : Nat) :
    Tab.get d ((List.range n).foldl (fun t i => Tab.set t (b + i) (f i)) t) j = if b ≤ j ∧ j < b + n then f (j - b) else Tab.get d t j := by
  induction n with
  | zero => rw [if_neg (by omega)]; rfl
  | succ n ih =>
    rw [List.range_succ, List.foldl_append, List.foldl_cons, List.foldl_nil, Tab.get_set, ih]
    by_cases hj : j = b + n
    · rw [if_pos hj, if_pos (by omega), show j - b = n by omega]
    · rw [if_neg hj]
      exact if_congr (by omega) rfl rfl

theorem zip_range_eq_map {α : Type} (d : α) (l : List α) : l.zip (List.range l.length) = (List.range l.length).map fun i => (l.getD i d, i) := by
  refine List.ext_getElem (by simp) fun i h₁ h₂ => ?_
  have hi : i < l.length := by simpa using h₂
  rw [List.getElem_zip, List.getElem_map, List.getElem_range, List.getD_eq_getElem _ _ hi]

/-- A buffer with some bytes written from offset 0 up. -/
def filled (l : List Byte) (t : Tab Byte) : Tab Byte := (l.zip (List.range l.length)).foldl (fun t p => Tab.set t p.2 p.1) t

theorem get_filled (l : List Byte) (t : Tab Byte) {j : Nat} (hj : j < l.length) : Tab.get 0 (filled l t) j = l.getD j 0 := by
  have hfold : filled l t = (List.range l.length).foldl (fun t i => Tab.set t (0 + i) (l.getD i 0)) t := by
    unfold filled
    rw [zip_range_eq_map 0, List.foldl_map]
    simp only [Nat.zero_add]
  rw [hfold, get_foldl_set, if_pos (by omega), Nat.sub_zero]

/-- A module whose mailbox changed. -/
def onMailbox (f : Mailbox → Mailbox) (x : Machine.Module) : Machine.Module := { x with mbox := f x.mbox }

theorem setBuffer_eq (s : State) (m : Nat) (l : List Byte) : s.setBuffer m l = s.onModule m (onMailbox fun b => { b with buffer := filled l b.buffer }) := rfl

theorem setArg_eq (s : State) (m k : Nat) (v : Word) : s.setArg m k v = s.onModule m (onMailbox fun b => { b with args := listSet b.args k v }) := rfl

/-! The control registers (15 R358). -/

section
variable {s : State} {m : Nat}

theorem registerWrite_eq (hpresent : s.present.contains m = true) (hturned : (s.module m).turnedAway = none) {o off : Nat} (ho : o = 0x2000 + off) (h8 : off % 8 = 0)
    (hoff : off < 0x1000) (v : Word) : exec (.registerWrite m o v) s = .next (s.onModule m fun x => x.mailboxWrite off v) := by
  rw [exec_registerWrite, execRegisterWrite, hostReq_ok hpresent hturned, if_neg (by simp; omega), ho, Nat.add_sub_cancel_left]

variable {x : Machine.Module} {v : Word}

theorem mailboxWrite_command : x.mailboxWrite 0 v = x.command v.toNat := if_pos rfl

theorem mailboxWrite_overrun : x.mailboxWrite 8 v = { x with mbox := { x.mbox with ovr := x.mbox.ovr && !v.getLsbD 1 } } := by
  rw [← bit_toNat]
  rfl

theorem mailboxWrite_argument {k : Nat} (hk : k < 8) : x.mailboxWrite (0x10 + 8 * k) v = { x with mbox := { x.mbox with args := listSet x.mbox.args k v } } := by
  unfold Module.mailboxWrite
  rw [if_neg (by omega), if_neg (by omega), if_pos (by omega), show (0x10 + 8 * k - 0x10) / 8 = k by omega]

theorem get_mailboxWrite_buffer (k j : Nat) : Tab.get 0 (x.mailboxWrite (0x100 + 8 * k) v).mbox.buffer j =
    if 8 * k ≤ j ∧ j < 8 * k + 8 then BitVec.ofNat 8 (v.toNat / 256 ^ (j - 8 * k)) else Tab.get 0 x.mbox.buffer j := by
  unfold Module.mailboxWrite
  rw [if_neg (by omega), if_neg (by omega), if_neg (by omega), if_neg (by omega), Nat.add_sub_cancel_left]
  exact get_foldl_set ..

theorem command_busy (hbusy : x.busy = true) (v : Nat) : x.command v = { x with mbox := { x.mbox with ovr := true } } := if_pos hbusy

/-- The mailbox that has just taken a command word (15 R358). -/
def taken (b : Mailbox) (v : Word) : Mailbox := { b with code := v.toNat % 256, tag := (v.extractLsb' 16 16).toNat, busy := true }

theorem command_taken (hbusy : x.busy = false) : x.command v.toNat = onMailbox (fun b =>
    if x.bootHalted then (taken b v).ended 4
    else if v.extractLsb' 32 32 ≠ 0 ∨ v.extractLsb' 8 8 ≠ 0 then (taken b v).ended 2
    else if v.toNat % 256 = 0 ∨ 0x0F ≤ v.toNat % 256 then (taken b v).ended 1
    else { taken b v with finished := false, result := 0 }) x := by
  have hcode : field v.toNat 0 8 = v.toNat % 256 := by simp [field]
  have hzero : ∀ lo len, field v.toNat lo len ≠ 0 ↔ v.extractLsb' lo len ≠ 0 := fun lo len => by
    rw [field_toNat, ne_eq, ne_eq, ← BitVec.toNat_inj]
    rfl
  unfold Module.command
  rw [if_neg (by rw [hbusy]; decide), hcode, field_toNat v 16 16]
  simp only [Bool.or_eq_true, bne_iff_ne, hzero, decide_eq_true_eq]
  rfl
end

theorem mailboxCommandDone_gives {s : State} {m : Nat} (hpresent : s.present.contains m = true) (hd3 : (s.module m).d3hot = false)
    (hbusy : (s.module m).mbox.busy = true) (hfinished : (s.module m).mbox.finished = true) : Gives s m (.mailboxCommandDone m)
      { s.module m with mbox := { (s.module m).mbox with busy := false, finished := false }, msix := (s.module m).msix ++ [0] } := by
  refine ⟨_, congrArg Host.Outcome.next (if_neg (by rw [hpresent, hd3, hbusy, hfinished]; decide)), ?_, rfl, rfl⟩
  unfold State.raiseMsix
  rw [module_onModule, module_onModule]

/-! Queues and domains (03 R51, R58). -/

section
variable {s : State} {m : Nat}

theorem arg_lt (k : Nat) : s.arg m k < 2 ^ 64 := BitVec.isLt _

/-- The rules of QUEUE_SET's arguments (03 R51). -/
def QueueWellFormed (s : State) (m q base cfg : Nat) : Prop :=
  q < 64 ∧ cfg / 2 ^ 32 = 0 ∧ cfg / 32 % 2 ^ 11 = 0 ∧ base % 128 = 0 ∧ 1 ≤ cfg % 16 ∧ cfg % 16 ≤ 13 ∧ (base / 2 ^ 60 = 0 ∨ base / 2 ^ 60 = 8) ∧
    (cfg / 16 % 2 = 1 → s.domain? m ((BitVec.ofNat 64 cfg).extractLsb' 16 16).toNat ≠ none)

theorem queueBad_iff {q base cfg : Nat} (hbase : base < 2 ^ 64) (hcfg : cfg < 2 ^ 64) : s.queueBad m q base cfg = true ↔ ¬QueueWellFormed s m q base cfg := by
  have hhigh : field cfg 32 32 = cfg / 2 ^ 32 := Nat.mod_eq_of_lt (by omega)
  have hreserved : field cfg 5 11 = cfg / 32 % 2 ^ 11 := rfl
  have haligned : field base 0 7 = base % 128 := by simp [field]
  have hsize : field cfg 0 4 = cfg % 16 := by simp [field]
  have hwindow : field base 60 4 = base / 2 ^ 60 := Nat.mod_eq_of_lt (by omega)
  have hen : bit cfg 4 = true ↔ cfg / 16 % 2 = 1 := by simp [bit]
  unfold State.queueBad QueueWellFormed
  rw [field_ofNat cfg 16 16 (by decide), hhigh, hreserved, haligned, hsize, hwindow, ← hen]
  simp only [Bool.or_eq_true, Bool.and_eq_true, decide_eq_true_eq, Bool.not_eq_true', Bool.or_eq_false_iff, beq_eq_false_iff_ne, Option.isNone_iff_eq_none,
    not_and_or, not_or, not_lt, not_le, Classical.not_imp, not_not, ne_eq, or_assoc, Nat.lt_one_iff]

end

theorem gives_congr {s : State} {m : Nat} {i : Instr} {y z : Machine.Module} (h : Gives s m i y) (hyz : y = z) : Gives s m i z := hyz ▸ h

/-! Queues and domains (03 R51, R58). -/

section
variable {s : State} {m : Nat}

/-- A queue as QUEUE_SET leaves it (03 R51). -/
def setQueue (base : Word) (cfg : Nat) (y : Queue) : Queue :=
  { y with base, dom := ((BitVec.ofNat 64 cfg).extractLsb' 16 16).toNat, en := bit cfg 4, sizelog := cfg % 16, cons := if bit cfg 4 then 0 else y.cons, gathered := [] }

theorem setQueue_enabled {cfg : Nat} (hen : bit cfg 4 = true) (base : Word) (y : Queue) : setQueue base cfg y =
    { y with base, dom := ((BitVec.ofNat 64 cfg).extractLsb' 16 16).toNat, en := true, sizelog := cfg % 16, cons := 0, gathered := [] } := by
  rw [setQueue, hen]
  rfl

theorem setQueue_disabled {cfg : Nat} (hen : bit cfg 4 = false) (base : Word) (y : Queue) : setQueue base cfg y =
    { y with base, dom := ((BitVec.ofNat 64 cfg).extractLsb' 16 16).toNat, en := false, sizelog := cfg % 16, gathered := [] } := by
  rw [setQueue, hen]
  rfl

variable (h : Serves s m 0x01)
include h

theorem queueSet_malformed (hbad : ¬QueueWellFormed s m (s.arg m 0) (s.arg m 1) (s.arg m 2)) : Gives s m (.queueSet m) (withResult (s.module m) 2) := by
  apply gives_ended
  rw [exec_queueSet, execQueueSet, serving_eq h]
  exact congrArg Host.Outcome.next (if_pos ((queueBad_iff (arg_lt 1) (arg_lt 2)).mpr hbad))

theorem queueSet_wellFormed (hgood : QueueWellFormed s m (s.arg m 0) (s.arg m 1) (s.arg m 2)) : let y := (s.module m).queue (s.arg m 0)
    (bit (s.arg m 2) 4 = true → y.en = true → Gives s m (.queueSet m) (withResult (s.module m) 3)) ∧
    (¬(bit (s.arg m 2) 4 = true ∧ y.en = true) → Gives s m (.queueSet m) (withResult { s.module m with
      queues := Tab.set (s.module m).queues (s.arg m 0) (setQueue ((s.module m).mbox.args.getD 1 0) (s.arg m 2) y) } 0)) := by
  have hbad : ¬s.queueBad m (s.arg m 0) (s.arg m 1) (s.arg m 2) = true := fun hb => (queueBad_iff (arg_lt 1) (arg_lt 2)).mp hb hgood
  have hbase : BitVec.ofNat 64 (s.arg m 1) = (s.module m).mbox.args.getD 1 0 := by simp [State.arg]
  have hsize : field (s.arg m 2) 0 4 = s.arg m 2 % 16 := by simp [field]
  refine ⟨fun hen hy => gives_ended ?_, fun hfree => ?_⟩
  · rw [exec_queueSet, execQueueSet, serving_eq h]
    exact congrArg Host.Outcome.next ((if_neg hbad).trans (if_pos (by simp [hen, hy])))
  · rw [← hbase, setQueue, ← hsize, field_ofNat _ 16 16 (by decide)]
    apply gives_onModule_ended (f := fun x => { x with queues := Tab.set x.queues (s.arg m 0) { x.queue (s.arg m 0) with
      base := BitVec.ofNat 64 (s.arg m 1), dom := field (s.arg m 2) 16 16, en := bit (s.arg m 2) 4, sizelog := field (s.arg m 2) 0 4,
      cons := if bit (s.arg m 2) 4 then 0 else (x.queue (s.arg m 0)).cons, gathered := [] } })
    rw [exec_queueSet, execQueueSet, serving_eq h]
    exact congrArg Host.Outcome.next ((if_neg hbad).trans (if_neg (by simpa using hfree)))
end

section
variable {s : State} {m : Nat}

/-- Whether a domain may be bound with these settings in this slot under this tag (03 R58, R60). -/
def MayBind (s : State) (m slot tag : Nat) (d : DomainSettings) : Prop :=
  slot < 64 ∧ 0 < tag ∧ tag < 0xFFFF ∧ s.domain? m tag = none ∧ Tab.find (s.module m).domains slot = none ∧ masksBad d.imasks = false ∧
    (d.partitioned = false ∨ d.gang = none ∧ ∀ k y, (k, y) ∈ (s.module m).domains → y.set.partitioned = true → ∀ c ∈ y.set.clusters, c ∉ d.clusters)

theorem clustersTaken_iff (x : Machine.Module) (d : DomainSettings) : x.clustersTaken d = true ↔
    d.partitioned = true ∧ ¬∀ k y, (k, y) ∈ x.domains → y.set.partitioned = true → ∀ c ∈ y.set.clusters, c ∉ d.clusters := by
  unfold Module.clustersTaken
  simp only [Bool.and_eq_true, List.any_eq_true, List.contains_iff_mem, Prod.exists, not_forall, not_not, exists_prop]

theorem shares_iff (x : Machine.Module) (d : DomainSettings) :
    (d.partitioned = false ∨ d.gang = none ∧ ∀ k y, (k, y) ∈ x.domains → y.set.partitioned = true → ∀ c ∈ y.set.clusters, c ∉ d.clusters) ↔
      ¬(d.partitioned && d.gang.isSome) = true ∧ ¬x.clustersTaken d = true := by
  rw [clustersTaken_iff]
  cases d.partitioned <;> simp

variable (h : Serves s m 0x02)
include h

theorem domainBind_bootTag (htag : s.arg m 1 = 0xFFFF) : Gives s m (.domainBind m ()) (withResult (s.module m) 2) := by
  apply gives_ended
  rw [exec_domainBind, execDomainBind, serving_eq h]
  exact congrArg Host.Outcome.next (if_pos htag)

variable (htag : s.arg m 1 ≠ 0xFFFF)
include htag

theorem domainBind_unprovisioned (hlife : (s.module m).unprovisioned = true) : Gives s m (.domainBind m ()) (withResult (s.module m) 3) := by
  apply gives_ended
  rw [exec_domainBind, execDomainBind, serving_eq h]
  exact congrArg Host.Outcome.next ((if_neg htag).trans (if_pos hlife))

theorem domainBind_provisioned (hlife : (s.module m).unprovisioned = false) : let d := settingsOf (s.bufferWord m)
    (¬MayBind s m (s.arg m 0) (s.arg m 1) d → Gives s m (.domainBind m ()) (withResult (s.module m) 2)) ∧
    (MayBind s m (s.arg m 0) (s.arg m 1) d → Gives s m (.domainBind m ()) (withResult { s.module m with
      domains := Tab.set (s.module m).domains (s.arg m 0) ⟨s.arg m 1, d, [], [], 0, none, true, false, 0, [], false⟩ } 0)) := by
  intro d
  have hmay : (64 ≤ s.arg m 0 || s.arg m 1 = 0 || 0xFFFF < s.arg m 1 || (s.domain? m (s.arg m 1)).isSome ||
      (Tab.find (s.module m).domains (s.arg m 0)).isSome || masksBad d.imasks || (d.partitioned && d.gang.isSome) || (s.module m).clustersTaken d) = true ↔
      ¬MayBind s m (s.arg m 0) (s.arg m 1) d := by
    have hlt : s.arg m 1 < 0xFFFF ↔ ¬0xFFFF < s.arg m 1 := by omega
    unfold MayBind
    rw [shares_iff, hlt]
    simp only [Bool.or_eq_true, decide_eq_true_eq, Option.isSome_iff_ne_none, ne_eq, not_and_or, not_lt, not_le, not_not, Bool.not_eq_false, or_assoc,
      Nat.le_zero]
  refine ⟨fun hbad => gives_ended ?_, fun hgood => gives_onModule_ended (f := fun x =>
    { x with domains := Tab.set x.domains (s.arg m 0) ⟨s.arg m 1, d, [], [], 0, none, true, false, 0, [], false⟩ }) ?_⟩
  · rw [exec_domainBind, execDomainBind, serving_eq h]
    exact congrArg Host.Outcome.next ((if_neg htag).trans ((if_neg (by rw [hlife]; decide)).trans (if_pos (hmay.mpr hbad))))
  · rw [exec_domainBind, execDomainBind, serving_eq h]
    exact congrArg Host.Outcome.next ((if_neg htag).trans ((if_neg (by rw [hlife]; decide)).trans (if_neg fun hb => hmay.mp hb hgood)))
end

/-! Gangs and service threads (03 R68; 14 R334). -/

section
variable {s : State} {m : Nat} (h : Serves s m 0x04)
include h

theorem gangAbort_refused (hphase : ∀ p, (s.gang m (s.arg m 0)).phase1 = some p → p.1 ≠ s.arg m 1) : Gives s m (.gangAbort m) (withResult (s.module m) 3) := by
  apply gives_ended
  rw [exec_gangAbort, execGangAbort, serving_eq h]
  dsimp only
  split
  case h_1 => rfl
  case h_2 p hp => rw [if_pos (hphase p hp)]

theorem gangAbort_member {p : Nat × Nat × Nat × List Nat} (hphase : (s.gang m (s.arg m 0)).phase1 = some p) (hp : p.1 = s.arg m 1)
    (hsending : (s.gang m (s.arg m 0)).sending = none) : Gives s m (.gangAbort m)
      (withResult { s.module m with gangs := Tab.set (s.module m).gangs (s.arg m 0) (s.gang m (s.arg m 0)).forget } 0) := by
  apply gives_onModule_ended (f := fun x => { x with gangs := Tab.set x.gangs (s.arg m 0) (Tab.get Gang.fresh x.gangs (s.arg m 0)).forget })
  rw [exec_gangAbort, execGangAbort, serving_eq h]
  simp only [hphase, hsending]
  rw [if_neg (not_not.mpr hp)]
  rfl
end

section
variable {s : State} {m : Nat}

/-- Two words of a command name a FAULTED service thread of the module and an action on it (15 R359). -/
def NamesService (s : State) (m w act : Nat) : Prop :=
  let th := s.thread (w / 256 % 2 ^ 26) (w % 256)
  w < 2 ^ 34 ∧ cidModule (w / 256 % 2 ^ 26) = m ∧ act < 3 ∧ th.svc = true ∧ th.st = .faulted

theorem namesService_iff : ¬(field (s.arg m 0) 34 30 ≠ 0 || cidModule (s.arg m 0 / 256 % 2 ^ 26) ≠ m || 2 < s.arg m 1 ||
    !(s.thread (s.arg m 0 / 256 % 2 ^ 26) (s.arg m 0 % 256)).svc || (s.thread (s.arg m 0 / 256 % 2 ^ 26) (s.arg m 0 % 256)).st != .faulted) = true ↔
    NamesService s m (s.arg m 0) (s.arg m 1) := by
  have hw := arg_lt (s := s) (m := m) 0
  have hhigh : field (s.arg m 0) 34 30 = 0 ↔ s.arg m 0 < 2 ^ 34 := by
    unfold field
    omega
  have hact : 2 < s.arg m 1 ↔ ¬s.arg m 1 < 3 := by omega
  unfold NamesService
  rw [← hhigh]
  simp [hact, and_assoc]

variable (h : Serves s m 0x05)
include h

/-- SVC_CONTROL, with the words of its arguments taken apart. -/
theorem svcControl_eq : let act := s.arg m 1; let c := s.arg m 0 / 256 % 2 ^ 26; let k := s.arg m 0 % 256; let th := s.thread c k
    exec (.svcControl m) s = .next (
      if field (s.arg m 0) 34 30 ≠ 0 || cidModule c ≠ m || 2 < act || !th.svc || th.st != .faulted then s.ended m 2
      else if act = 2 then if ((s.core c).pending k).isEmpty then (s.endTask c k).ended m 0 else s.discardEntries c k
      else if th.dbl || (act == 1 && s.handlerOf c th == 0) then s.ended m 2
      else (if act = 0 then s.trapReturn c k else s.handleAt c k).ended m 0) := by
  have hslot : field (s.arg m 0) 0 8 = s.arg m 0 % 256 := by simp [field]
  rw [exec_svcControl, execSvcControl, serving_eq h]
  simp only [hslot]
  rfl

theorem svcControl_refused (hname : ¬NamesService s m (s.arg m 0) (s.arg m 1)) : Gives s m (.svcControl m) (withResult (s.module m) 2) :=
  gives_ended ((svcControl_eq h).trans (congrArg Host.Outcome.next (if_pos (not_not.mp fun hb => hname (namesService_iff.mp hb)))))

variable (hname : NamesService s m (s.arg m 0) (s.arg m 1))
include hname

theorem svcControl_kill (hact : s.arg m 1 = 2) : let c := s.arg m 0 / 256 % 2 ^ 26; let k := s.arg m 0 % 256
    exec (.svcControl m) s = .next (if ((s.core c).pending k).isEmpty then (s.endTask c k).ended m 0 else s.discardEntries c k) :=
  (svcControl_eq h).trans (congrArg Host.Outcome.next ((if_neg (namesService_iff.mpr hname)).trans (if_pos hact)))

theorem svcControl_starts (hact : s.arg m 1 < 2) : let c := s.arg m 0 / 256 % 2 ^ 26; let k := s.arg m 0 % 256; let th := s.thread c k
    exec (.svcControl m) s = .next (if th.dbl || (s.arg m 1 == 1 && s.handlerOf c th == 0) then s.ended m 2
      else (if s.arg m 1 = 0 then s.trapReturn c k else s.handleAt c k).ended m 0) :=
  (svcControl_eq h).trans (congrArg Host.Outcome.next ((if_neg (namesService_iff.mpr hname)).trans (if_neg (by omega))))

theorem svcControl_barred (hact : s.arg m 1 < 2) : let c := s.arg m 0 / 256 % 2 ^ 26; let k := s.arg m 0 % 256; let th := s.thread c k
    th.dbl = true ∨ s.arg m 1 = 1 ∧ s.handlerOf c th = 0 → Gives s m (.svcControl m) (withResult (s.module m) 2) :=
  fun hbar => gives_ended ((svcControl_starts h hname hact).trans (congrArg Host.Outcome.next (if_pos (by simpa using hbar))))

theorem svcControl_resumes (hact : s.arg m 1 = 0) : let c := s.arg m 0 / 256 % 2 ^ 26; let k := s.arg m 0 % 256
    (s.thread c k).dbl = false → exec (.svcControl m) s = .next ((s.trapReturn c k).ended m 0) :=
  fun hdbl => (svcControl_starts h hname (by omega)).trans
    (congrArg Host.Outcome.next ((if_neg (by rw [hdbl, hact]; simp)).trans (congrArg (State.ended · m 0) (if_pos hact))))

theorem svcControl_handles (hact : s.arg m 1 = 1) : let c := s.arg m 0 / 256 % 2 ^ 26; let k := s.arg m 0 % 256; let th := s.thread c k
    th.dbl = false → s.handlerOf c th ≠ 0 → exec (.svcControl m) s = .next ((s.handleAt c k).ended m 0) :=
  fun hdbl hhandler => (svcControl_starts h hname (by omega)).trans
    (congrArg Host.Outcome.next ((if_neg (by rw [hdbl]; simpa using fun _ => hhandler)).trans (congrArg (State.ended · m 0) (if_neg (by omega)))))
end

theorem thread_handleAt (s : State) (c k : Nat) : (s.handleAt c k).thread c k =
    { (s.thread c k).dropFetch with pc := s.handlerOf c (s.thread c k), st := .trap } := State.thread_onThread_same ..

/-- A module whose domains have lost a service thread. -/
def withoutService (uid : Nat) (x : Machine.Module) : Machine.Module :=
  { x with domains := x.domains.map fun q => if q.2.service == some uid then (q.1, { q.2 with service := none }) else q }

theorem module_endService (s : State) (uid j : Nat) : (s.endService uid).module j = withoutService uid (s.module j) :=
  get_map_snd (withoutService uid) Module.fresh s.modules j

theorem keepsModules_endService (s : State) (uid : Nat) : KeepsModules s (s.endService uid) := ⟨rfl, rfl, fun j => ⟨_, module_endService s uid j⟩⟩

theorem keepsModules_endTask (s : State) (c k : Nat) : KeepsModules s (s.endTask c k) := by
  have hdrop : KeepsModules s (s.dropJobsOf (s.thread c k).uid) := .of_modules rfl rfl rfl
  unfold State.endTask
  dsimp only
  split
  · exact (hdrop.trans (keepsModules_endService ..)).trans (.of_modules rfl rfl rfl)
  · exact hdrop.trans (.of_modules rfl rfl rfl)

section
variable {s : State} {m : Nat}

section
variable (h : Serves s m 0x06)
include h

theorem svcAnswer_refused (hdom : s.domain? m (s.arg m 2) = none ∨ 0xFFFF < s.arg m 2) : Gives s m (.svcAnswer m) (withResult (s.module m) 2) := by
  apply gives_ended
  rw [exec_svcAnswer, execSvcAnswer, serving_eq h]
  exact congrArg Host.Outcome.next (if_pos (by simpa [or_comm] using hdom))

theorem svcAnswer_performed {v : Nat} {t : State} (hdom : s.domain? m (s.arg m 2) ≠ none) (htag : s.arg m 2 ≤ 0xFFFF)
    (hact : s.unitAct m (s.arg m 2) (s.arg m 0) (.stf (s.arg m 1)) none = (.ok v, t)) : exec (.svcAnswer m) s = .next (t.ended m 0) := by
  rw [exec_svcAnswer, execSvcAnswer, serving_eq h]
  simp only [hact]
  exact congrArg Host.Outcome.next (if_neg (by simp [hdom]; omega))
end

/-- The module whose oldest host-service record has gone to the arguments. -/
def popped (r : List Word) (q : List (List Word)) (x : Machine.Module) : Machine.Module := { x with hsq := q, mbox := { x.mbox with args := r } }

/-- Nothing moves up in the host-service queue while no record waits (14 R334). -/
theorem pumpHostQueue_settled {t : State} (hwait : (t.module m).hsWait = []) : ((t.pumpHostQueue m).module m) = t.module m ∧
    (t.pumpHostQueue m).mem = t.mem ∧ (t.pumpHostQueue m).cores = t.cores := by
  have hkeeps : enqueueRecords 256 (t.module m).hsq (t.module m).hsWait (t.module m).hsSerial = ((t.module m).hsq, (t.module m).hsWait, (t.module m).hsSerial) := by
    rw [hwait, enqueueRecords]
  unfold State.pumpHostQueue
  simp only [hkeeps]
  rw [if_neg (by simp), module_onModule]
  exact ⟨rfl, rfl, rfl⟩

section
variable (h : Serves s m 0x07)
include h

theorem svcPop_empty (hq : (s.module m).hsq = []) : Gives s m (.svcPop m)
    (withResult (onMailbox (fun b => { b with args := listSet b.args 0 0 }) (s.module m)) 0) := by
  apply gives_onModule_ended
  rw [exec_svcPop, execSvcPop, serving_eq h]
  simp only [hq, setArg_eq]

theorem svcPop_pops {r : List Word} {q : List (List Word)} (hq : (s.module m).hsq = r :: q) (hwait : (s.module m).hsWait = []) :
    Gives s m (.svcPop m) (withResult (popped r q (s.module m)) 0) := by
  have hpopped : (s.onModule m (popped r q)).module m = popped r q (s.module m) := module_onModule ..
  obtain ⟨hmodule, hmem, hcores⟩ := pumpHostQueue_settled (t := s.onModule m (popped r q)) (m := m) (by rw [hpopped]; exact hwait)
  refine ⟨((s.onModule m (popped r q)).pumpHostQueue m).ended m 0, ?_, by rw [module_ended, hmodule, hpopped], hmem, hcores⟩
  rw [exec_svcPop, execSvcPop, serving_eq h]
  simp only [hq]
  rfl
end

end

/-! Logs, power, firmware, attestation (14 R354; 15 R359, R364 to R367). -/

section
variable {s : State} {m : Nat}

/-- A command that ends with bytes in the buffer (15 R358). -/
theorem setBuffer_ended (t : State) (l : List Byte) : let y := ((t.setBuffer m l).ended m 0).module m
    y.fuses = (t.module m).fuses ∧ y.mbox.result = 0 ∧ y.mbox.finished = true ∧ ∀ j < l.length, Tab.get 0 y.mbox.buffer j = l.getD j 0 := by
  rw [module_ended, setBuffer_eq, module_onModule]
  exact ⟨rfl, rfl, rfl, fun j hj => get_filled _ _ hj⟩

/-- A command that ends with bytes in the buffer and a result word. -/
theorem setBuffer_setArg_ended (t : State) (l : List Byte) (k : Nat) (v : Word) : let y := (((t.setBuffer m l).setArg m k v).ended m 0).module m
    y.mbox.args = listSet (t.module m).mbox.args k v ∧ y.mbox.result = 0 ∧ y.mbox.finished = true ∧
      ∀ j < l.length, Tab.get 0 y.mbox.buffer j = l.getD j 0 := by
  rw [module_ended, setArg_eq, setBuffer_eq, module_onModule, module_onModule]
  exact ⟨rfl, rfl, rfl, fun j hj => get_filled _ _ hj⟩

/-- The entries that LOG_READ gives (14 R354). -/
def readLog (x : Machine.Module) (from_ : Nat) : List (List Word) :=
  (x.log.filter fun e => decide (((e.getD 3 0).toNat + 2 ^ 32 - from_ % 2 ^ 32) % 2 ^ 32 < 2 ^ 31)).take 112

theorem logRead_eq (h : Serves s m 0x08) : let es := readLog (s.module m) (s.arg m 0)
    exec (.logRead m) s = .next ((((s.setBuffer m (es.flatMap wordBytes)).setArg m 0 (BitVec.ofNat 64 es.length)).setArg m 1
      (BitVec.ofNat 64 (s.module m).overrun)).ended m 0) := by
  rw [exec_logRead, execLogRead, serving_eq h]
  rfl

theorem powerCap_supported (h : Serves s m 0x09) (hcap : s.arg m 0 = 2400 ∨ s.arg m 0 = 2800 ∨ s.arg m 0 = 3200) :
    Gives s m (.powerCap m) (withResult { s.module m with cap := s.arg m 0 } 0) := by
  apply gives_onModule_ended (f := fun x => { x with cap := s.arg m 0 })
  rw [exec_powerCap, execPowerCap, serving_eq h]
  exact congrArg Host.Outcome.next (if_pos (by simpa [or_assoc] using hcap))

theorem powerCap_unsupported (h : Serves s m 0x09) (hcap : ¬(s.arg m 0 = 2400 ∨ s.arg m 0 = 2800 ∨ s.arg m 0 = 3200)) :
    Gives s m (.powerCap m) (withResult (s.module m) 2) := by
  apply gives_ended
  rw [exec_powerCap, execPowerCap, serving_eq h]
  exact congrArg Host.Outcome.next (if_neg (by simpa [or_assoc] using hcap))

theorem unprovisioned_iff (x : Machine.Module) : x.unprovisioned = true ↔ x.fuses.lifecycle = 0 ∨ x.fuses.lifecycle = 3 := by simp [Module.unprovisioned]

theorem provisioned {x : Machine.Module} (h : x.fuses.lifecycle = 1 ∨ x.fuses.lifecycle = 2) : x.unprovisioned = false := by
  rw [← Bool.not_eq_true, unprovisioned_iff]
  omega

section
variable (h : Serves s m 0x0A)
include h

theorem attest_refused (hkey : (s.module m).fuses.keyEpoch = none ∨ (s.module m).unprovisioned = true) : Gives s m (.attest m) (withResult (s.module m) 3) := by
  apply gives_ended
  rw [exec_attest, execAttest, serving_eq h]
  dsimp only
  split
  case h_1 => rfl
  case h_2 e he =>
    obtain hnone | hun := hkey
    · rw [he] at hnone
      contradiction
    · rw [if_pos hun]

variable {e : Nat} (hkey : (s.module m).fuses.keyEpoch = some e) (hlife : (s.module m).unprovisioned = false)
include hkey hlife

theorem attest_exhausted (hleaf : 32768 ≤ (s.module m).fuses.leaf) : Gives s m (.attest m) (withResult (s.module m) 6) := by
  apply gives_ended
  rw [exec_attest, execAttest, serving_eq h]
  simp only [hkey]
  rw [hlife, if_neg (by decide), if_pos hleaf]

/-- The module whose next one-time key is used up. -/
def nextLeaf (x : Machine.Module) : Machine.Module := { x with fuses := { x.fuses with leaf := x.fuses.leaf + 1 } }

theorem attest_signs (hleaf : (s.module m).fuses.leaf < 32768) : let x := s.module m; let report := x.report m e (s.buffer m 32)
    exec (.attest m) s = .next (((s.onModule m nextLeaf).setBuffer m (report ++ lmsSign m e x.fuses.leaf report)).ended m 0) := by
  rw [exec_attest, execAttest, serving_eq h]
  simp only [hkey]
  rw [hlife, if_neg (by decide), if_neg (by omega)]
  rfl
end

section
variable (h : Serves s m 0x0B)
include h

theorem identity_refused (hkey : (s.module m).fuses.keyEpoch = none ∨ (s.module m).unprovisioned = true) : Gives s m (.identity m) (withResult (s.module m) 3) := by
  apply gives_ended
  rw [exec_identity, execIdentity, serving_eq h]
  dsimp only
  split
  case h_1 => rfl
  case h_2 e he =>
    obtain hnone | hun := hkey
    · rw [he] at hnone
      contradiction
    · rw [if_pos hun]

theorem identity_eq {e : Nat} (hkey : (s.module m).fuses.keyEpoch = some e) (hlife : (s.module m).unprovisioned = false) : exec (.identity m) s =
    .next (((s.setBuffer m (lmsPublic m e)).setArg m 0 (BitVec.ofNat 64 (s.module m).fuses.lifecycle)).ended m 0) := by
  rw [exec_identity, execIdentity, serving_eq h]
  simp only [hkey]
  rw [hlife, if_neg (by decide)]
end

end

/-! Firmware images (15 R359, R366). -/

theorem ofNat_ofBytes (l : List Byte) {i : Nat} (hi : i < l.length) : BitVec.ofNat 8 (ofBytes l / 256 ^ i) = l.getD i 0 := by
  induction l generalizing i with
  | nil => exact absurd hi (Nat.not_lt_zero i)
  | cons b r ih =>
    have hb := b.isLt
    cases i with
    | zero =>
      refine BitVec.eq_of_toNat_eq ?_
      rw [BitVec.toNat_ofNat, ofBytes, Nat.pow_zero, Nat.div_one, List.getD_cons_zero]
      omega
    | succ i =>
      have hdiv : (b.toNat + 256 * ofBytes r) / 256 = ofBytes r := by omega
      rw [List.getD_cons_succ, ← ih (Nat.lt_of_succ_lt_succ hi), ofBytes, Nat.pow_succ', ← Nat.div_div_eq_div_mul, hdiv]

/-- `mem'` is memory without poison, `mem` with some bytes written from `a` up. -/
structure Written (mem mem' : Memory) (a : Nat) (data : List Byte) : Prop where
  wf : mem'.wf = true
  poison : mem'.poison = []
  empties : mem'.empties = mem.empties
  byte : ∀ x, mem'.byte x = if a ≤ x ∧ x < a + data.length then data.getD (x - a) 0 else mem.byte x

theorem Written.append {mem mem' mem'' : Memory} {a : Nat} {data : List Byte} {n : Nat} (hn : n ≤ data.length) (h : Written mem mem' a (data.take n))
    (h' : Written mem' mem'' (a + n) (data.drop n)) : Written mem mem'' a data := by
  refine ⟨h'.wf, h'.poison, h'.empties.trans h.empties, fun x => ?_⟩
  have hlength : (data.take n).length = n := by simpa using hn
  rw [h'.byte, h.byte, hlength, List.length_drop]
  by_cases hlow : x < a + n
  · rw [if_neg (by omega)]
    refine ite_congr (by simp; omega) (fun hx => ?_) fun _ => rfl
    rw [List.getD_eq_getElem?_getD, List.getD_eq_getElem?_getD, List.getElem?_take_of_lt (by omega)]
  · rw [if_neg (c := a ≤ x ∧ x < a + n) (by omega)]
    refine ite_congr (by simp; omega) (fun hx => ?_) fun _ => rfl
    rw [List.getD_eq_getElem?_getD, List.getD_eq_getElem?_getD, List.getElem?_drop, show n + (x - (a + n)) = x - a by omega]

section
variable {s : State} (hwf : s.mem.wf = true) (hpoison : s.mem.poison = [])
include hwf hpoison

theorem barWord_written (m a : Nat) (data : List Byte) : ∃ mem, s.barWord m a data.length (ofBytes data) false = s.withMem mem ∧ Written s.mem mem a data := by
  have hbytes : ∀ x, (s.mem.write a data.length (ofBytes data)).byte x = if a ≤ x ∧ x < a + data.length then data.getD (x - a) 0 else s.mem.byte x := fun x => by
    rw [byte_write hwf]
    refine ite_congr rfl (fun hx => ?_) fun _ => rfl
    exact ofNat_ofBytes data (by omega)
  have hfields := write_fields s.mem a data.length (ofBytes data)
  unfold State.barWord
  dsimp only
  rw [if_neg (by decide)]
  split
  case isTrue h8 =>
    rw [h8] at hfields hbytes
    refine ⟨_, rfl, Memory.wf_setPoison (Memory.wf_write hwf _ _ _) _ _, ?_, hfields.1, fun x => (hbytes x).trans (by rw [h8])⟩
    show setErase (s.mem.write a 8 (ofBytes data)).poison _ = []
    rw [hfields.2, hpoison]
    rfl
  case isFalse =>
    rw [if_neg (by simp [Memory.poisoned, hpoison])]
    exact ⟨_, rfl, Memory.wf_write hwf _ _ _, hfields.2.trans hpoison, hfields.1, hbytes⟩
end

/-- A write of the device-memory BAR into memory without poison, with words enough to reach its end (03 R50). -/
theorem barWords_written (m k : Nat) : ∀ (s : State) (a : Nat) (data : List Byte), s.mem.wf = true → s.mem.poison = [] → data.length = 0 ∨ data.length + a % 8 ≤ 8 * k →
    ∃ mem, s.barWords m a false k data = s.withMem mem ∧ Written s.mem mem a data := by
  have hnone : ∀ (s : State) a, s.mem.wf = true → s.mem.poison = [] → Written s.mem s.mem a [] := fun s a hwf hpoison =>
    ⟨hwf, hpoison, rfl, fun x => (if_neg (by simp)).symm⟩
  induction k with
  | zero =>
    intro s a data hwf hpoison hk
    obtain rfl : data = [] := List.length_eq_zero_iff.mp (by omega)
    exact ⟨s.mem, rfl, hnone s a hwf hpoison⟩
  | succ k ih =>
    intro s a data hwf hpoison hk
    cases hdata : data with
    | nil => exact ⟨s.mem, rfl, hnone s a hwf hpoison⟩
    | cons b r =>
      rw [← hdata]
      obtain ⟨n, hn, hle, hend⟩ : ∃ n, min data.length (8 - a % 8) = n ∧ n ≤ data.length ∧ (n = data.length ∨ a % 8 + n = 8) :=
        ⟨_, rfl, Nat.min_le_left .., by omega⟩
      have hlength : (data.take n).length = n := by simpa using hle
      obtain ⟨mem, hmem, hfirst⟩ := barWord_written hwf hpoison m a (data.take n)
      obtain ⟨mem', hmem', hrest⟩ := ih (s.withMem mem) (a + n) (data.drop n) hfirst.wf hfirst.poison (by rw [List.length_drop]; omega)
      refine ⟨mem', ?_, hfirst.append hle hrest⟩
      rw [hlength] at hmem
      rw [State.barWords, hn, hmem, hmem']
      · rfl
      · exact fun h => by rw [hdata] at h; contradiction

section
variable {s : State} {m : Nat}

section
variable (h : Serves s m 0x0C)
include h

theorem fwStage_beyond (hoff : 2 ^ 26 < s.arg m 0 + 3840) : Gives s m (.fwStage m) (withResult (s.module m) 2) := by
  apply gives_ended
  rw [exec_fwStage, execFwStage, serving_eq h]
  exact congrArg Host.Outcome.next (if_pos hoff)

/-- A module that has staged bytes up to `n`. -/
def withStaged (n : Nat) (x : Machine.Module) : Machine.Module := { x with staged := max x.staged n }

theorem fwStage_stages (hoff : s.arg m 0 + 3840 ≤ 2 ^ 26) (hwf : s.mem.wf = true) (hpoison : s.mem.poison = []) : ∃ mem,
    exec (.fwStage m) s = .next (((s.withMem mem).onModule m (withStaged (s.arg m 0 + 3840))).ended m 0) ∧
      Written s.mem mem (stagingAddr m + s.arg m 0) (s.buffer m 3840) := by
  have hlength : (s.buffer m 3840).length = 3840 := by simp [State.buffer]
  obtain ⟨mem, hmem, hwritten⟩ := barWords_written m 482 s (stagingAddr m + s.arg m 0) (s.buffer m 3840) hwf hpoison (.inr (by rw [hlength]; omega))
  refine ⟨mem, ?_, hwritten⟩
  rw [exec_fwStage, execFwStage, serving_eq h]
  dsimp only
  rw [if_neg (by omega), hmem]
  rfl
end

theorem buffer_getD (n : Nat) {j : Nat} (hj : j < n) : (s.buffer m n).getD j 0 = Tab.get 0 (s.module m).mbox.buffer j := by
  rw [List.getD_eq_getElem _ _ (by simpa [State.buffer] using hj)]
  simp [State.buffer]

theorem stagedPoison_iff : s.stagedPoison m = true ↔
    ∃ w ∈ s.mem.poison, 8 * w < stagingAddr m + (s.module m).staged ∧ stagingAddr m < 8 * w + 8 := by
  simp [State.stagedPoison, rangesMeet]

/-- A module whose flash holds an image of a version. -/
def withImage (image : List Byte) (version : Nat) (x : Machine.Module) : Machine.Module :=
  { x with fuses := { x.fuses with flash := image, version := max x.fuses.version version } }

theorem fwCommit_eq (h : Serves s m 0x0D) : let f := (s.module m).fuses; let image := s.stagedImage m
    exec (.fwCommit m () ()) s = .next (if s.stagedPoison m || !f.image.sound f.rootHash image || f.image.versionIn image < f.version then s.ended m 4
      else (s.onModule m (withImage image (f.image.versionIn image))).ended m 0) := by
  rw [exec_fwCommit, execFwCommit, serving_eq h]
  rfl

/-- Whether the staged image may be committed, poison left aside (15 R366). -/
def ImageGood (s : State) (m : Nat) : Prop :=
  let f := (s.module m).fuses
  f.image.sound f.rootHash (s.stagedImage m) = true ∧ f.version ≤ f.image.versionIn (s.stagedImage m)

theorem commitRefused_iff : let f := (s.module m).fuses; let image := s.stagedImage m
    (s.stagedPoison m || !f.image.sound f.rootHash image || f.image.versionIn image < f.version) = true ↔ s.stagedPoison m = true ∨ ¬ImageGood s m := by
  simp only [ImageGood, Bool.or_eq_true, Bool.not_eq_true', decide_eq_true_eq, not_and_or, not_le, Bool.not_eq_true, or_assoc]

theorem fwCommit_refused (h : Serves s m 0x0D) (hbad : s.stagedPoison m = true ∨ ¬ImageGood s m) : Gives s m (.fwCommit m () ()) (withResult (s.module m) 4) :=
  gives_ended ((fwCommit_eq h).trans (congrArg Host.Outcome.next (if_pos (commitRefused_iff.mpr hbad))))

theorem fwCommit_commits (h : Serves s m 0x0D) (hpoison : ¬s.stagedPoison m = true) (hgood : ImageGood s m) : let f := (s.module m).fuses
    let image := s.stagedImage m
    Gives s m (.fwCommit m () ()) (withResult { s.module m with fuses := { f with flash := image, version := f.image.versionIn image } } 0) := by
  intro f image
  have hversion : max f.version (f.image.versionIn image) = f.image.versionIn image := max_eq_right hgood.2
  have hgo : ¬(s.stagedPoison m = true ∨ ¬ImageGood s m) := not_or.mpr ⟨hpoison, not_not.mpr hgood⟩
  refine gives_congr (gives_onModule_ended ((fwCommit_eq h).trans (congrArg Host.Outcome.next (if_neg (mt commitRefused_iff.mp hgo))))) ?_
  unfold withImage
  rw [hversion]
end

end Sys2Proof.MailboxProofs
end

section
/-!
PROOFS. Teardown, resets, the life cycle, boot and boot mode (15 R360 to R364; 03 R47; 17 R376 to R380): O47.
-/
namespace Sys2Proof.ResetProofs
open Sys2Proof Sys2Proof.Machine Sys2Proof.Laws Sys2Proof.LaunchProofs Sys2Proof.PlaceProofs Sys2Proof.FabricProofs Sys2Proof.MailboxProofs

/-! Memory that nothing is listed at. -/

/-- Memory lists no byte at `a`, and its word neither as empty nor as poisoned. -/
structure Unlisted (mem : Memory) (a : Nat) : Prop where
  cell : ∀ c ∈ mem.cells, c.1 ≠ a
  full : a / 8 ∉ mem.empties
  poison : a / 8 ∉ mem.poison

theorem cellAt_unlisted {l : List Host.Cell} {a : Nat} (h : ∀ c ∈ l, c.1 ≠ a) : cellAt l a = 0 := by
  induction l with
  | nil => rfl
  | cons c r ih =>
    obtain ⟨b, v⟩ := c
    rw [cellAt, if_neg (h (b, v) List.mem_cons_self), ih fun c hc => h c (List.mem_cons_of_mem _ hc)]
    split <;> rfl

/-- A byte that memory does not list is zero, in a full word without poison. -/
theorem Unlisted.reads {mem : Memory} {a : Nat} (h : Unlisted mem a) : mem.byte a = 0 ∧ mem.full (a / 8) = true ∧ mem.poisoned (a / 8) = false :=
  ⟨cellAt_unlisted h.cell, by simpa [Memory.full] using h.full, by simpa [Memory.poisoned] using h.poison⟩

theorem Unlisted.wipe {mem : Memory} {a : Nat} (h : Unlisted mem a) (lo hi : Nat) : Unlisted (mem.wipe lo hi) a :=
  ⟨fun c hc => h.cell c (List.mem_of_mem_filter hc), fun hw => h.full (List.mem_of_mem_filter hw), fun hw => h.poison (List.mem_of_mem_filter hw)⟩

theorem unlisted_wipe (mem : Memory) {lo hi a : Nat} (hlo : lo % 8 = 0) (ha : lo ≤ a) (hhi : a < hi) : Unlisted (mem.wipe lo hi) a := by
  refine ⟨fun c hc heq => ?_, fun hw => ?_, fun hw => ?_⟩
  · have hout := (List.mem_filter.mp hc).2
    rw [heq] at hout
    simp at hout
    omega
  · have hout := (List.mem_filter.mp hw).2
    simp at hout
    omega
  · have hout := (List.mem_filter.mp hw).2
    simp at hout
    omega

/-- What the reset wipe of a module clears (15 R362). -/
def OfModule (m a : Nat) : Prop := a / 2 ^ 40 = m ∨ ∃ c o, cidModule c = m ∧ o < 2 ^ 19 ∧ a = localAddr c o

theorem unlisted_wipeModule (mem : Memory) {m a : Nat} (h : OfModule m a) : Unlisted (mem.wipeModule m) a := by
  unfold Memory.wipeModule
  obtain hdram | ⟨c, o, hc, ho, rfl⟩ := h
  · exact ((unlisted_wipe mem (by simp [dramAddr]; omega) (by simp [dramAddr]; omega) (by simp [dramAddr]; omega)).wipe _ _).wipe _ _
  · unfold cidModule at hc
    exact (unlisted_wipe (mem.wipe _ _) (by simp [localAddr]; omega) (by simp [localAddr]; omega) (by simp [localAddr]; omega)).wipe _ _

/-! The module reset wipe (15 R362). -/

/-- Nothing of module `m` is left in `t`, and the modules present are those of `s`. -/
structure Clean (s : State) (m : Nat) (t : State) : Prop where
  core : ∀ c, cidModule c = m → t.core c = Core.fresh
  cluster : ∀ c, clusterModule c = m → t.cluster c = Cluster.fresh
  memory : ∀ a, OfModule m a → t.mem.byte a = 0 ∧ t.mem.full (a / 8) = true ∧ t.mem.poisoned (a / 8) = false
  contexts : ∀ k, k ∈ t.ctxs → cidModule k.cid ≠ m
  present : t.present = s.present

/-- A module as it is while it resets. -/
def asleepNow (x : Machine.Module) : Machine.Module := { x with d3hot := true }

theorem keepsModules_abandon (s : State) (m : Nat) : KeepsModules (s.onModule m asleepNow) (((s.abandonPackets m).abandonHomes m).forgetModule m) := by
  have hcut := keepsModules_cutModule (s.onModule m asleepNow) m
  have hlost := keepsModules_losePackets ((s.onModule m asleepNow).cutModule m) fun p => keyModule p.dst == m && sourceModule p.src != m
  exact (hcut.trans hlost).trans (.of_modules rfl rfl rfl)

theorem wiped_congr {x y : Machine.Module} (hfuses : x.fuses = y.fuses) (hcode : x.code = y.code) (h105 : x.over105 = y.over105) (h115 : x.over115 = y.over115) :
    x.wiped = y.wiped := by
  unfold Module.wiped
  rw [hfuses, hcode, h105, h115]

theorem module_resetModule (s : State) (m : Nat) : (s.resetModule m).module m = (s.module m).wiped := by
  have hkeeps := keepsModules_abandon s m
  have hfield : ∀ {α} (f : Machine.Module → α), (∀ x ds, f { x with domains := ds } = f x) → (∀ x, f (asleepNow x) = f x) →
      f ((((s.abandonPackets m).abandonHomes m).forgetModule m).module m) = f (s.module m) := fun f hf hf' => by
    rw [hkeeps.field f hf, module_onModule, hf']
  unfold State.resetModule
  rw [module_onModule]
  exact wiped_congr (hfield (·.fuses) (fun _ _ => rfl) fun _ => rfl) (hfield (·.code) (fun _ _ => rfl) fun _ => rfl)
    (hfield (·.over105) (fun _ _ => rfl) fun _ => rfl) (hfield (·.over115) (fun _ _ => rfl) fun _ => rfl)

theorem clean_resetModule (s : State) (m : Nat) : Clean s m (s.resetModule m) := by
  have hkeeps := keepsModules_abandon s m
  refine ⟨fun c hc => ?_, fun c hc => ?_, fun a ha => (unlisted_wipeModule _ ha).reads, fun k hk hin => ?_, hkeeps.present⟩
  · exact get_filter Core.fresh (fun k => cidModule k != m) _ c (by simp [hc])
  · exact get_filter Cluster.fresh (fun k => clusterModule k != m) _ c (by simp [hc])
  · have hout := (List.mem_filter.mp hk).2
    simp [hin] at hout

theorem Clean.onModule {s t : State} {m : Nat} (h : Clean s m t) (j : Nat) (f : Machine.Module → Machine.Module) : Clean s m (t.onModule j f) :=
  ⟨h.core, h.cluster, h.memory, h.contexts, h.present⟩

/-- A module as after a fundamental reset. -/
def cooled (x : Machine.Module) : Machine.Module := { x with over105 := false, over115 := false, clock := 1600 }

theorem module_resetCold (s : State) (m : Nat) : (s.resetCold m).module m = cooled (s.module m).wiped :=
  (module_onModule ..).trans (congrArg cooled (module_resetModule s m))

theorem clean_resetCold (s : State) (m : Nat) : Clean s m (s.resetCold m) := (clean_resetModule s m).onModule ..

/-! Requests that reset a module or change its power state (15 R362, R368; 03 R46, R47). -/

section
variable {s : State} {m : Nat} (hpresent : s.present.contains m = true)
include hpresent

theorem hotReset_eq : exec (.hotReset m) s = .next (s.resetModule m) := congrArg Host.Outcome.next (if_pos hpresent)

theorem fundamentalReset_eq : exec (.fundamentalReset m) s = .next (s.resetCold m) := congrArg Host.Outcome.next (if_pos hpresent)

theorem configRequest_hot (h : (s.module m).over115 = true) (k : State → State) : s.configRequest m k = s.answerHost m .abort [] := by
  unfold State.configRequest
  rw [hpresent, h]
  rfl

theorem configRequest_eq (h : (s.module m).over115 = false) (k : State → State) : s.configRequest m k = k s := by
  unfold State.configRequest
  rw [hpresent, h]
  rfl

theorem gives_configRequest_hot (h : (s.module m).over115 = true) {i : Instr} {k : State → State} (hi : exec i s = .next (s.configRequest m k)) :
    Gives s m i { s.module m with reply := ⟨.abort, []⟩ } :=
  gives_onModule (f := fun x => { x with reply := ⟨.abort, []⟩ }) (hi.trans (congrArg Host.Outcome.next (configRequest_hot hpresent h k)))

variable (h : (s.module m).over115 = false)
include h

/-- A module after a write of its Device Control registers; a size that is not supported leaves its field. -/
def configured (v : BitVec 4) (z : Bool) (p q : BitVec 3) (x : Machine.Module) : Machine.Module :=
  { x with timeout := v, atomics := z, mps := if (maxPayload p).isSome then p else x.mps, mrrs := if (maxRead q).isSome then q else x.mrrs }

omit hpresent h in
theorem configured_eq (v : BitVec 4) (z : Bool) (p q : BitVec 3) (x : Machine.Module) : configured v z p q x =
    { x with timeout := v, atomics := z, mps := if p.toNat ≤ 2 then p else x.mps, mrrs := if q.toNat ≤ 5 then q else x.mrrs } := by
  have hpayload : (maxPayload p).isSome = true ↔ p.toNat ≤ 2 := by unfold maxPayload; split <;> simp [*]
  have hread : (maxRead q).isSome = true ↔ q.toNat ≤ 5 := by unfold maxRead; split <;> simp [*]
  unfold configured
  simp only [hpayload, hread]

theorem configurationWrite_gives (v : BitVec 4) (z : Bool) (p q : BitVec 3) :
    Gives s m (.configurationWrite m (v, z) (p, q)) (configured v z p q (s.module m)) :=
  gives_onModule (congrArg Host.Outcome.next (configRequest_eq hpresent h _))

theorem functionLevelReset_eq : exec (.functionLevelReset m) s = .next (s.resetModule m) := congrArg Host.Outcome.next (configRequest_eq hpresent h _)

theorem d3hotExit_eq (hd3 : (s.module m).d3hot = true) : exec (.d3hotExit m) s = .next (s.resetCold m) :=
  congrArg Host.Outcome.next ((configRequest_eq hpresent h _).trans (if_pos hd3))

theorem d3hotEntry_spec (hd3 : (s.module m).d3hot = false) : ∃ t, exec (.d3hotEntry m) s = .next t ∧ (t.module m).d3hot = true ∧ t.mem = s.mem := by
  have hkeeps := keepsModules_cutModule (s.onModule m asleepNow) m
  refine ⟨_, congrArg Host.Outcome.next ((configRequest_eq hpresent h _).trans (if_neg (by rw [hd3]; decide))), ?_, hkeeps.mem⟩
  refine (hkeeps.field (·.d3hot) (fun _ _ => rfl) m).trans ?_
  rw [module_onModule]
  rfl
end

/-! The life cycle (15 R363). -/

section
variable {s : State} {m : Nat}

/-- The transitions that the table of 15 R363 lists. -/
def Listed (target life : Nat) : Prop := (target = 0 ∧ life = 3) ∨ (target = 1 ∧ (life = 0 ∨ life = 2)) ∨ (target = 2 ∧ life = 1) ∨ target = 3

theorem lifecycleListed_iff {target : Nat} (life : Nat) : lifecycleListed life target = true ↔ Listed target life := by
  unfold Listed
  match target with
  | 0 | 1 | 2 | 3 => simp [lifecycleListed]
  | n + 4 =>
    rw [lifecycleListed]
    · simp
    all_goals omega

variable (h : Serves s m 0x0E)
include h

/-- A module whose fuses have entered a life-cycle state. -/
def entered (target : Nat) (x : Machine.Module) : Machine.Module := { x with fuses := x.fuses.enter target }

theorem lifecycle_eq : let target := s.arg m 0; let f := (s.module m).fuses
    exec (.lifecycle m ()) s = .next (if 4 ≤ target then s.ended m 2 else if !lifecycleListed f.lifecycle target then s.ended m 3
      else if target = 0 && !f.command.sound f.rootHash (s.buffer m 3840) then s.ended m 4 else (s.onModule m (entered target)).resetModule m) := by
  rw [exec_lifecycle, execLifecycle, serving_eq h]
  rfl

theorem lifecycle_unknown (ht : 4 ≤ s.arg m 0) : Gives s m (.lifecycle m ()) (withResult (s.module m) 2) :=
  gives_ended ((lifecycle_eq h).trans (congrArg Host.Outcome.next (if_pos ht)))

theorem lifecycle_unlisted (ht : s.arg m 0 < 4) (hlist : ¬Listed (s.arg m 0) (s.module m).fuses.lifecycle) : Gives s m (.lifecycle m ()) (withResult (s.module m) 3) := by
  have hout : (!lifecycleListed (s.module m).fuses.lifecycle (s.arg m 0)) = true := by
    rw [← lifecycleListed_iff] at hlist
    simpa using hlist
  exact gives_ended ((lifecycle_eq h).trans (congrArg Host.Outcome.next ((if_neg (by omega)).trans (if_pos hout))))

variable (hlist : Listed (s.arg m 0) (s.module m).fuses.lifecycle)
include hlist

theorem lifecycle_listed : let f := (s.module m).fuses
    exec (.lifecycle m ()) s = .next (if s.arg m 0 = 0 && !f.command.sound f.rootHash (s.buffer m 3840) then s.ended m 4
      else (s.onModule m (entered (s.arg m 0))).resetModule m) := by
  have hin : ¬(!lifecycleListed (s.module m).fuses.lifecycle (s.arg m 0)) = true := by
    rw [← lifecycleListed_iff] at hlist
    simpa using hlist
  have ht : ¬4 ≤ s.arg m 0 := by
    unfold Listed at hlist
    omega
  exact (lifecycle_eq h).trans (congrArg Host.Outcome.next ((if_neg ht).trans (if_neg hin)))
end

theorem enter_eq (f : Fuses) (target : Nat) : f.enter target =
    if target = 1 ∧ f.lifecycle = 0 then { f with lifecycle := 1, keyEpoch := some f.keysMade, keysMade := f.keysMade + 1, leaf := 0 }
    else if target = 3 then { f with lifecycle := 3, keyEpoch := none, leaf := 0 } else { f with lifecycle := target } := by
  unfold Fuses.enter
  exact if_congr (by simp) rfl rfl

/-! Teardown of a domain (15 R360, R361). -/

/-- The tags of the domains bound on a module. -/
def tags (x : Machine.Module) : List Nat := x.domains.map fun p => p.2.tag

/-- The same domains are bound on every module. -/
structure KeepsTags (s t : State) : Prop where
  tags : ∀ j, tags (t.module j) = tags (s.module j)

theorem KeepsTags.of_modules {s t : State} (h : t.modules = s.modules) : KeepsTags s t := ⟨fun j => by
  unfold State.module
  rw [h]⟩

theorem KeepsTags.refl (s : State) : KeepsTags s s := .of_modules rfl

theorem KeepsTags.trans {s t u : State} (h : KeepsTags s t) (h' : KeepsTags t u) : KeepsTags s u := ⟨fun j => (h'.tags j).trans (h.tags j)⟩

theorem KeepsTags.foldl {α : Type} {f : State → α → State} (hf : ∀ s a, KeepsTags s (f s a)) (l : List α) (s : State) : KeepsTags s (l.foldl f s) :=
  List.foldlRecOn l f (motive := KeepsTags s) (.refl s) fun t ht a _ => ht.trans (hf t a)

theorem keepsTags_onModule {f : Machine.Module → Machine.Module} (hf : ∀ x, tags (f x) = tags x) (s : State) (m : Nat) : KeepsTags s (s.onModule m f) := ⟨fun j => by
  rw [module_onModule']
  split
  case isTrue h => rw [hf, h]
  case isFalse => rfl⟩

theorem keepsTags_endService (s : State) (uid : Nat) : KeepsTags s (s.endService uid) := ⟨fun j => by
  rw [module_endService]
  unfold tags withoutService
  rw [List.map_map]
  refine List.map_congr_left fun q _ => ?_
  dsimp only [Function.comp]
  split <;> rfl⟩

theorem keepsTags_killContext (s : State) (k : Context) : KeepsTags s (s.killContext k) := by
  have hdrop : KeepsTags s ((s.dropContext k).dropJobsOf k.th.uid) := .of_modules rfl
  unfold State.killContext
  dsimp only
  split
  · exact hdrop.trans (keepsTags_endService ..)
  · exact hdrop

/-- A module with nothing saved of a domain. -/
def unsaved (dom : Nat) (x : Machine.Module) : Machine.Module :=
  { x with saved := x.saved.filter fun y => y.dom != dom, savedCl := x.savedCl.filter fun y => y.dom != dom }

theorem keepsTags_killOthers (s : State) (m dom : Nat) : KeepsTags s (s.killOthers m dom) := by
  have hkilled := KeepsTags.foldl keepsTags_killContext (s.ctxs.filter fun k => cidModule k.cid == m && k.th.dom == dom) s
  exact (hkilled.trans (keepsTags_onModule (f := unsaved dom) (fun _ => rfl) _ m)).trans (.of_modules rfl)

theorem keepsTags_wipeRange (s : State) (lo hi : Nat) : KeepsTags s (s.wipeRange lo hi) :=
  KeepsTags.trans (t := { s with mem := s.mem.wipe lo hi, waitq := s.waitq.filter fun e => !(lo ≤ e.word * 8 && e.word * 8 < hi) }) (.of_modules rfl)
    (.foldl (f := fun s (e : WaitEntry) => s.sendAns e.replyTo e.req .shutter) (fun _ _ => .of_modules rfl) _ _)

theorem keepsTags_wipeRanges {α : Type} (lo hi : α → Nat) (l : List α) (s : State) : KeepsTags s (l.foldl (fun s x => s.wipeRange (lo x) (hi x)) s) :=
  .foldl (fun _ _ => keepsTags_wipeRange ..) l s

theorem keepsTags_unholdCore (s : State) (c dom : Nat) : KeepsTags s (s.unholdCore c dom) := by
  unfold State.unholdCore State.wipeCore
  split
  · exact .of_modules rfl
  · split
    · exact (keepsTags_wipeRange ..).trans (.of_modules rfl)
    · exact (keepsTags_wipeRanges ..).trans (.of_modules rfl)

theorem keepsTags_unholdCluster (s : State) (cl dom : Nat) : KeepsTags s (s.unholdCluster cl dom) := by
  unfold State.unholdCluster State.wipeStores
  dsimp only
  split
  · exact ((keepsTags_wipeRange ..).trans (.of_modules rfl)).trans (.of_modules rfl)
  · exact .of_modules rfl

theorem keepsTags_unholdCores (l : List Nat) (dom : Nat) (s : State) : KeepsTags s (l.foldl (fun s k => s.unholdCore k dom) s) :=
  .foldl (fun _ _ => keepsTags_unholdCore ..) l s

theorem keepsTags_unholdClusters (l : List Nat) (dom : Nat) (s : State) : KeepsTags s (l.foldl (fun s k => s.unholdCluster k dom) s) :=
  .foldl (fun _ _ => keepsTags_unholdCluster ..) l s

theorem KeepsTags.withDead {s t : State} (h : KeepsTags s t) (l : List (Nat × Nat)) : KeepsTags s { t with dead := l } := h.trans (.of_modules rfl)

/-- The wipe frees the domain's slot and no other. -/
theorem wipeDomain_frees (s : State) (m dom : Nat) : ∃ t, KeepsTags s t ∧ s.wipeDomain m dom = t.onModule m fun x => x.withoutDomain dom := by
  refine ⟨_, ?_, rfl⟩
  refine KeepsTags.trans (.withDead ?_ _) (keepsTags_wipeRanges ..)
  refine KeepsTags.trans ?_ (keepsTags_unholdClusters ..)
  refine KeepsTags.trans ?_ (keepsTags_unholdCores ..)
  exact (keepsTags_killOthers s m dom).trans (.of_modules rfl)

theorem domain?_eq_none {s : State} {m dom : Nat} : s.domain? m dom = none ↔ dom = 0 ∨ dom ∉ tags (s.module m) := by
  unfold State.domain? tags
  split
  case isTrue h => simp [h]
  case isFalse h => simp [h]

theorem domain?_wipeDomain (s : State) (m dom j : Nat) (h : j = m ∨ s.domain? j dom = none) : (s.wipeDomain m dom).domain? j dom = none := by
  obtain ⟨t, htags, ht⟩ := wipeDomain_frees s m dom
  rw [domain?_eq_none] at h ⊢
  rw [ht, module_onModule']
  by_cases hj : j = m
  · rw [if_pos hj]
    exact .inr (by simp [tags, Module.withoutDomain])
  · rw [if_neg hj, htags.tags j]
    exact h.resolve_left hj

theorem domain?_wipeDomains (dom j : Nat) (l : List Nat) (s : State) (h : j ∈ l ∨ s.domain? j dom = none) :
    (l.foldl (fun s k => s.wipeDomain k dom) s).domain? j dom = none := by
  induction l generalizing s with
  | nil => exact h.resolve_left List.not_mem_nil
  | cons k r ih =>
    refine ih _ ?_
    obtain hin | hnone := h
    · exact (List.mem_cons.mp hin).elim (fun hk => .inr (domain?_wipeDomain s k dom j (.inl hk))) .inl
    · exact .inr (domain?_wipeDomain s k dom j (.inr hnone))

section
variable {s : State} {m : Nat} (h : Serves s m 0x03)
include h

theorem domainUnbind_free (hslot : Tab.find (s.module m).domains (s.arg m 0) = none) : Gives s m (.domainUnbind m) (withResult (s.module m) 3) := by
  apply gives_ended
  rw [exec_domainUnbind, execDomainUnbind, serving_eq h]
  simp only [hslot]

variable {d : Domain} (hslot : Tab.find (s.module m).domains (s.arg m 0) = some d)
include hslot

theorem domainUnbind_eq : let mods := s.domModules d.tag; let u := s.endWork mods d.tag
    exec (.domainUnbind m) s = .next (if !bit (s.arg m 1) 0 && s.unbindRefused d.tag mods then s.ended m 3
      else if mods.any fun k => u.stillRuns k d.tag then u else (mods.foldl (fun s k => s.wipeDomain k d.tag) u).ended m 0) := by
  rw [exec_domainUnbind, execDomainUnbind, serving_eq h]
  simp only [hslot]

theorem domainUnbind_refused (hforce : ¬s.arg m 1 % 2 = 1) (hrefused : s.unbindRefused d.tag (s.domModules d.tag) = true) :
    Gives s m (.domainUnbind m) (withResult (s.module m) 3) :=
  gives_ended ((domainUnbind_eq h hslot).trans (congrArg Host.Outcome.next (if_pos (by simpa [bit, hrefused] using hforce))))

theorem domainUnbind_proceeds (hgo : s.arg m 1 % 2 = 1 ∨ s.unbindRefused d.tag (s.domModules d.tag) = false) :
    let mods := s.domModules d.tag; let u := s.endWork mods d.tag
    exec (.domainUnbind m) s = .next (if mods.any fun k => u.stillRuns k d.tag then u else (mods.foldl (fun s k => s.wipeDomain k d.tag) u).ended m 0) := by
  refine (domainUnbind_eq h hslot).trans (congrArg Host.Outcome.next (if_neg ?_))
  rw [Bool.and_eq_true, not_and_or]
  exact hgo.imp (fun hforce => by simp [bit, hforce]) fun hfree => by simp [hfree]
end

theorem domain?_onModule {f : Machine.Module → Machine.Module} (hf : ∀ x, (f x).domains = x.domains) (s : State) (m j dom : Nat) :
    (s.onModule m f).domain? j dom = s.domain? j dom := by
  have hdomains : ((s.onModule m f).module j).domains = (s.module j).domains := by
    rw [module_onModule']
    split
    case isTrue h => rw [hf, h]
    case isFalse => rfl
  unfold State.domain?
  rw [hdomains]

theorem domain?_ended (s : State) (m r j dom : Nat) : (s.ended m r).domain? j dom = s.domain? j dom :=
  domain?_onModule (f := (withResult · r)) (fun _ => rfl) s m j dom

/-! Boot and boot mode (15 R364; 17 R376 to R378). -/

theorem setWordFull_modules (s : State) (m va : Nat) (full : Bool) : (s.setWordFull m va full).modules = s.modules := by
  unfold State.setWordFull
  split <;> rfl

theorem prepareBoot_modules (s : State) (m : Nat) (b : BootImage) : (s.prepareBoot m b).modules = s.modules := by
  unfold State.prepareBoot
  dsimp only
  rw [setWordFull_modules, setWordFull_modules]
  refine List.foldlRecOn _ _ (motive := fun t : State => t.modules = s.modules) ?_ fun _ ht _ _ => ht
  exact List.foldlRecOn _ _ (motive := fun t : State => t.modules = s.modules) rfl fun _ ht _ _ => ht

/-- The boot core of a cluster depends on the fuses alone. -/
theorem bootCore_congr {s t : State} (h : ∀ j, (t.module j).fuses = (s.module j).fuses) (cl : Nat) : t.bootCore cl = s.bootCore cl := by
  unfold State.bootCore State.fuseWord
  rw [h]

section
variable {s : State} {m : Nat} (hpresent : s.present.contains m = true) (hbooted : (s.module m).booted = false) (hhalted : (s.module m).bootHalted = false)
  (hmode : (s.module m).bootMode = false) (hd3 : (s.module m).d3hot = false)
include hpresent hbooted hhalted hmode hd3

/-- The stages in flash measured into the measurement register, and whether all were verified. -/
def measured (x : Machine.Module) : Nat × Bool := measure (x.fuses.image.verified x.fuses.rootHash x.fuses.flash) x.mr

/-- A module whose measurement register holds a value. -/
def withMr (v : Nat) (x : Machine.Module) : Machine.Module := { x with mr := v }

/-- The measurement register once the configuration is measured (15 R364). -/
def configMr (x : Machine.Module) : Nat := extendMr (measured x).1 (Config.configuration x.fuses.fuseMap x.cap x.fuses.lifecycle)

/-- A module whose measurement register is extended with its configuration, the fuses and the stages' value given. -/
def configMeasured (f : Fuses) (mr : Nat) (x : Machine.Module) : Machine.Module := withMr (extendMr mr (Config.configuration f.fuseMap x.cap f.lifecycle)) x

theorem moduleBoot_eq (c : BootImage) {mr : Nat} {ok : Bool} (hmeasured : measured (s.module m) = (mr, ok)) : let u := s.onModule m (configMeasured (s.module m).fuses mr)
    exec (.moduleBoot m c) s = .next (if !ok then s.onModule m fun x => { x with mr := mr, bootHalted := true }
      else if c.program then ((u.onModule m fun x => x.enterBoot c).prepareBoot m c).startBoot m c else u.onModule m fun x => { x with booted := true }) := by
  unfold measured at hmeasured
  have hgo : ¬(!s.present.contains m || (s.module m).booted || (s.module m).bootHalted || (s.module m).bootMode || (s.module m).d3hot) = true := by
    rw [hpresent, hbooted, hhalted, hmode, hd3]
    decide
  rw [exec_moduleBoot, execModuleBoot, if_neg hgo]
  dsimp only
  rw [hmeasured]
  rfl

theorem moduleBoot_halts (c : BootImage) (hbad : (measured (s.module m)).2 = false) :
    Gives s m (.moduleBoot m c) { s.module m with mr := (measured (s.module m)).1, bootHalted := true } :=
  gives_onModule ((moduleBoot_eq hpresent hbooted hhalted hmode hd3 c Prod.mk.eta.symm).trans (congrArg Host.Outcome.next (if_pos (by rw [hbad]; rfl))))

omit hpresent hbooted hhalted hmode hd3 in
theorem module_configMeasured : (s.onModule m (configMeasured (s.module m).fuses (measured (s.module m)).1)).module m = withMr (configMr (s.module m)) (s.module m) := by
  rw [module_onModule, configMeasured, configMr]

variable {c : BootImage} (hgood : (measured (s.module m)).2 = true)
include hgood

omit hpresent hbooted hhalted hmode hd3 hgood in
theorem booted_withMr (v : Nat) (x : Machine.Module) : { withMr v x with booted := true } = { x with mr := v, booted := true } := rfl

theorem moduleBoot_completes (hprogram : c.program = false) :
    Gives s m (.moduleBoot m c) { s.module m with mr := configMr (s.module m), booted := true } := by
  refine ⟨_, (moduleBoot_eq hpresent hbooted hhalted hmode hd3 c Prod.mk.eta.symm).trans
    (congrArg Host.Outcome.next ((if_neg (by rw [hgood]; decide)).trans (if_neg (by rw [hprogram]; decide)))), ?_, rfl, rfl⟩
  rw [module_onModule, module_configMeasured]
  exact booted_withMr ..

/-- The state in which the boot program's root thread starts (17 R376). -/
def prepared (s : State) (m : Nat) (c : BootImage) : State :=
  ((s.onModule m (configMeasured (s.module m).fuses (measured (s.module m)).1)).onModule m fun x => x.enterBoot c).prepareBoot m c

theorem moduleBoot_runs (hprogram : c.program = true) : exec (.moduleBoot m c) s = .next ((prepared s m c).startBoot m c) :=
  (moduleBoot_eq hpresent hbooted hhalted hmode hd3 c Prod.mk.eta.symm).trans
    (congrArg Host.Outcome.next ((if_neg (by rw [hgood]; decide)).trans (if_pos hprogram)))
end

/-- A module whose boot root is a thread. -/
def withRoot (uid : Nat) (x : Machine.Module) : Machine.Module := { x with bootRoot := some uid }

/-- The first word of the boot program's root descriptor (17 R378). -/
def bootEntry (s : State) (m : Nat) (b : BootImage) : Nat :=
  match s.placeInDram m bootTag b.root.toNat with
  | some a => s.mem.read a 8
  | none => 0

theorem startBoot_eq (s : State) (m : Nat) (b : BootImage) : s.startBoot m b =
    (s.startTask (s.bootCore (m * 2 ^ 9)) 0 0 (newTask bootTag none false b.root.toNat (bootEntry s m b) 32) [0x1000000, 0, 1]).onModule m (withRoot (s.uids + 1)) := by
  unfold State.startBoot bootEntry
  dsimp only
  rw [startTask_uids]
  rfl

/-- The boot root thread before it has a slot. -/
def rootTask (s : State) (m : Nat) (b : BootImage) : Thread := newTask bootTag none false b.root.toNat (bootEntry s m b) 32

section
variable (s : State) (m : Nat) (b : BootImage)

theorem startBoot_started : s.startBoot m b =
    (s.startTask (s.bootCore (m * 2 ^ 9)) 0 0 (rootTask s m b) [0x1000000, 0, 1]).onModule m (withRoot (s.uids + 1)) := startBoot_eq s m b

theorem module_startBoot : (s.startBoot m b).module m = withRoot (s.uids + 1) (s.module m) := by
  rw [startBoot_started, module_onModule]
  exact congrArg (fun l => withRoot (s.uids + 1) (Tab.get Module.fresh l m)) (startTask_modules ..)

theorem bootCore_startBoot (cl : Nat) : (s.startBoot m b).bootCore cl = s.bootCore cl := by
  refine bootCore_congr (fun j => ?_) cl
  have hmodules : ∀ c k base th regs, (s.startTask c k base th regs).module j = s.module j := fun c k base th regs =>
    congrArg (fun l => Tab.get Module.fresh l j) (startTask_modules s c k base th regs)
  rw [startBoot_started, module_onModule']
  split
  case isTrue h =>
    subst h
    rw [hmodules]
    rfl
  case isFalse => rw [hmodules]

theorem thread_onModule (f : Machine.Module → Machine.Module) (c k : Nat) : (s.onModule m f).thread c k = s.thread c k := rfl

theorem thread_startBoot : (s.startBoot m b).thread (s.bootCore (m * 2 ^ 9)) 0 = { rootTask s m b with uid := s.uids + 1, base := 0 } := by
  rw [startBoot_started, thread_onModule, thread_startTask]

theorem gOf_onModule (f : Machine.Module → Machine.Module) (c k j : Nat) : (s.onModule m f).gOf c k j = s.gOf c k j := rfl

theorem gOf_startBoot {j : Nat} (hj : j < 32) : (s.startBoot m b).gOf (s.bootCore (m * 2 ^ 9)) 0 j = [0x1000000, 0, 1].getD j (0 : Word) := by
  rw [startBoot_started, gOf_onModule, gOf_startTask (hj := hj)]
end

/-- The boot root thread as it starts (17 R378). -/
theorem startBoot_spec (s : State) (m : Nat) (b : BootImage) : let t := s.startBoot m b; let cid := t.bootCore (m * 2 ^ 9); let th := t.thread cid 0
    t.module m = withRoot th.uid (s.module m) ∧ th.st = .ready ∧ th.dom = 0xFFFF ∧ th.win = 32 ∧ t.gOf cid 0 0 = 0x1000000 ∧ t.gOf cid 0 1 = 0 ∧ t.gOf cid 0 2 = 1 := by
  dsimp only
  rw [bootCore_startBoot, thread_startBoot, module_startBoot, gOf_startBoot s m b (j := 0) (by decide), gOf_startBoot s m b (j := 1) (by decide),
    gOf_startBoot s m b (j := 2) (by decide)]
  exact ⟨rfl, rfl, rfl, rfl, rfl, rfl, rfl⟩

theorem module_prepareBoot (s : State) (m : Nat) (b : BootImage) : (s.prepareBoot m b).module m = s.module m :=
  congrArg (fun l => Tab.get Module.fresh l m) (prepareBoot_modules s m b)

theorem module_prepared (s : State) (m : Nat) (c : BootImage) :
    (prepared s m c).module m = (withMr (configMr (s.module m)) (s.module m)).enterBoot c := by
  rw [prepared, module_prepareBoot, module_onModule, module_configMeasured]

/-- The module whose boot program has started (17 R376). -/
theorem enterBoot_fields (v : Nat) (c : BootImage) (uid : Nat) (x : Machine.Module) : let y := withRoot uid ((withMr v x).enterBoot c)
    y.mr = v ∧ y.bootMode = true ∧ y.sealed = false ∧ y.booted = x.booted ∧ y.boot = some c ∧ y.bootRoot = some uid := ⟨rfl, rfl, rfl, rfl, rfl, rfl⟩

/-! The seal and the result of boot mode (17 R379, R380). -/

section
variable {s : State} {m : Nat} {c : BootImage} (hboot : (s.module m).boot = some c) (hhalted : (s.module m).bootHalted = false) (hd3 : (s.module m).d3hot = false)
include hboot hhalted hd3

section
variable {a : Nat} (hmode : (s.module m).bootMode = true) (hplace : s.placeInDram m 0xFFFF c.sealVa = some a) (hfull : s.mem.full (a / 8) = true)
include hmode hplace hfull

/-- A module whose boot has halted. -/
def halted (x : Machine.Module) : Machine.Module := { x with bootHalted := true }

/-- A module that has left boot mode under the map words called for. -/
def sealed (want : List Nat) (x : Machine.Module) : Machine.Module :=
  { x with bootMode := false, sealed := true, logicalMap := (List.range 16).map fun d => (List.range 23).map fun l => BitVec.ofNat 64 (want.getD (23 * d + l) 0) }

/-- The map that the boot program wrote is the one that the fuses call for (17 R379). -/
def MapAgrees (s : State) (m : Nat) (c : BootImage) : Prop := ∀ i < 368, (mapWords (s.module m).fuses.fuseMap).getD i 0 = (s.writtenMap m c).getD i 0

omit hboot hmode hplace hfull hhalted hd3 in
theorem mapAgrees_iff : ((List.range 368).find? fun i => (mapWords (s.module m).fuses.fuseMap).getD i 0 != (s.writtenMap m c).getD i 0) = none ↔ MapAgrees s m c := by
  simp only [List.find?_eq_none, List.mem_range, bne_iff_ne, not_not, MapAgrees]

omit hboot hplace in
theorem sealWaits_not : ¬(!(s.module m).bootMode || (s.module m).bootHalted || (s.module m).d3hot || !s.mem.full (wordOf a)) = true := by
  rw [hmode, hhalted, hd3, show s.mem.full (wordOf a) = true from hfull]
  decide

theorem bootSeal_mismatch (h : ¬MapAgrees s m c) : ∃ i, exec (.bootSeal m) s = .next ((s.bootPut m c.sealedVa (0xFF * 2 ^ 56 + i)).onModule m halted) := by
  obtain ⟨i, hi⟩ := Option.ne_none_iff_exists'.mp (mt mapAgrees_iff.mp h)
  refine ⟨i, ?_⟩
  rw [exec_bootSeal, execBootSeal]
  simp only [hboot, bootTag, hplace, hi]
  exact congrArg Host.Outcome.next (if_neg (sealWaits_not hhalted hd3 hmode hfull))

theorem bootSeal_match (h : MapAgrees s m c) : let want := mapWords (s.module m).fuses.fuseMap
    exec (.bootSeal m) s = .next (if !s.bootQuiet m then s else ((s.onModule m (sealed want)).applyMap m want).bootPut m c.sealedVa 1) := by
  rw [exec_bootSeal, execBootSeal]
  simp only [hboot, bootTag, hplace, mapAgrees_iff.mpr h]
  exact congrArg Host.Outcome.next (if_neg (sealWaits_not hhalted hd3 hmode hfull))
end

section
variable (hbooted : (s.module m).booted = false)
include hbooted

omit hboot in
theorem resultWaits_not : ¬((s.module m).booted || (s.module m).bootHalted || (s.module m).d3hot) = true := by
  rw [hbooted, hhalted, hd3]
  decide

theorem bootResult_faulted (hfq : s.faultQueue m 0xFFFF ≠ []) : exec (.bootResult m) s = .next (s.onModule m halted) := by
  rw [exec_bootResult, execBootResult]
  simp only [hboot]
  exact congrArg Host.Outcome.next ((if_neg (resultWaits_not hhalted hd3 hbooted)).trans (if_pos (by simpa [bootTag] using hfq)))

variable (hfq : s.faultQueue m 0xFFFF = [])
include hfq

theorem bootResult_waits (htasks : s.bootTasks m none ≠ 0) : exec (.bootResult m) s = .next s := by
  rw [exec_bootResult, execBootResult]
  simp only [hboot]
  exact congrArg Host.Outcome.next ((if_neg (resultWaits_not hhalted hd3 hbooted)).trans ((if_neg (by simpa [bootTag] using hfq)).trans (if_pos htasks)))

/-- A module whose boot is complete. -/
def bootEnded (x : Machine.Module) : Machine.Module := { x with booted := true, boot := none, bootRoot := none }

theorem bootResult_ends {a : Nat} (htasks : s.bootTasks m none = 0) (hplace : s.placeInDram m 0xFFFF c.resultVa = some a) :
    exec (.bootResult m) s = .next (if s.mem.read a 8 ≠ 0 then s.onModule m halted else (s.wipeDomain m 0xFFFF).onModule m bootEnded) := by
  rw [exec_bootResult, execBootResult]
  simp only [hboot, bootTag, hplace]
  exact congrArg Host.Outcome.next ((if_neg (resultWaits_not hhalted hd3 hbooted)).trans ((if_neg (by simpa using hfq)).trans (if_neg (by simpa using htasks))))
end
end

/-! The obligation, from one lemma for each command and event. -/

/-- Settles O47: each clause from the lemma about its command, reset or step of the boot. -/
theorem managementAndReset : Obligations.ManagementAndReset := by
  unfold Obligations.ManagementAndReset
  intro m s x b life ends arg a0 a1 a2 ended gives does fails serves wiped clean
  refine ⟨?registers, ?done, ?queueSet, ?domainBind, ?domainUnbind, ?gangAbort, ?svcControl, ?svcAnswer, ?svcPop, ?logRead, ?powerCap, ?attest, ?identity,
    ?fwStage, ?fwCommit, ?lifecycle, ?resets⟩
  case registers =>
    intro hpresent hturned v w
    have hwrite : ∀ {o off : Nat}, o = 0x2000 + off → off % 8 = 0 → off < 0x1000 → gives (w o) (x.mailboxWrite off v) := fun ho h8 hoff =>
      gives_onModule (registerWrite_eq hpresent hturned ho h8 hoff v)
    have hcommand : gives (w 0x2000) (x.command v.toNat) := gives_congr (hwrite (off := 0) rfl rfl (by decide)) mailboxWrite_command
    refine ⟨fun hbusy => gives_congr hcommand (command_busy hbusy _), fun hbusy => ?_, ?_, fun k hk => ?_, fun k hk => ?_⟩
    · have htaken := gives_congr hcommand (command_taken hbusy)
      have hbecomes : ∀ {b'}, (if x.bootHalted then (taken b v).ended 4 else if v.extractLsb' 32 32 ≠ 0 ∨ v.extractLsb' 8 8 ≠ 0 then (taken b v).ended 2
          else if v.toNat % 256 = 0 ∨ 0x0F ≤ v.toNat % 256 then (taken b v).ended 1 else { taken b v with finished := false, result := 0 }) = b' →
          gives (w 0x2000) { x with mbox := b' } := fun hb => gives_congr htaken (congrArg (fun b => { x with mbox := b }) hb)
      refine ⟨fun hhalted => hbecomes (if_pos hhalted), fun hhalted => ?_⟩
      have hrunning : ¬x.bootHalted = true := by rw [hhalted]; decide
      refine ⟨fun hreserved => hbecomes ((if_neg hrunning).trans (if_pos hreserved)), fun hhigh hlow => ?_⟩
      have hclear : ¬(v.extractLsb' 32 32 ≠ 0 ∨ v.extractLsb' 8 8 ≠ 0) := by simp [hhigh, hlow]
      exact ⟨fun hcode => hbecomes ((if_neg hrunning).trans ((if_neg hclear).trans (if_pos hcode))),
        fun hpos hlt => hbecomes ((if_neg hrunning).trans ((if_neg hclear).trans (if_neg (by omega))))⟩
    · exact gives_congr (hwrite (off := 8) rfl rfl (by decide)) mailboxWrite_overrun
    · exact gives_congr (hwrite (off := 0x10 + 8 * k) (by omega) (by omega) (by omega)) (mailboxWrite_argument hk)
    · refine ⟨_, registerWrite_eq hpresent hturned (off := 0x100 + 8 * k) (by omega) (by omega) (by omega) v, fun j => ?_⟩
      rw [module_onModule]
      exact get_mailboxWrite_buffer k j
  case done =>
    exact fun hpresent hd3 hbusy hfinished => mailboxCommandDone_gives hpresent hd3 hbusy hfinished
  case queueSet =>
    intro h y i size queue en wellFormed
    have hen : bit a2 4 = true ↔ en := by simp [bit, en]
    refine ⟨fun hbad => queueSet_malformed h hbad, fun hgood => ?_⟩
    obtain ⟨hbusy, hset⟩ := queueSet_wellFormed h hgood
    refine ⟨fun he hy => hbusy (hen.mpr he) hy, fun he hy => ?_, fun he => ?_⟩
    · exact gives_congr (hset fun hboth => by rw [show y.en = true from hboth.2] at hy; contradiction)
        (congrArg (fun z => withResult { x with queues := Tab.set x.queues a0 z } 0) (setQueue_enabled (hen.mpr he) ..))
    · have hoff : bit a2 4 = false := by rwa [← Bool.not_eq_true, hen]
      exact gives_congr (hset fun hboth => he (hen.mp hboth.1))
        (congrArg (fun z => withResult { x with queues := Tab.set x.queues a0 z } 0) (setQueue_disabled hoff ..))
  case domainBind =>
    intro h d i
    refine ⟨fun htag => domainBind_bootTag h htag, fun htag hlife => domainBind_unprovisioned h htag ((unprovisioned_iff x).mpr hlife), ?_⟩
    intro free htag hlife
    exact domainBind_provisioned h htag (provisioned hlife)
  case domainUnbind =>
    intro h i
    refine ⟨fun hslot => domainUnbind_free h hslot, ?_⟩
    intro d hslot mods force refused u
    refine ⟨fun hforce hrefused => domainUnbind_refused h hslot hforce hrefused,
      fun hgo hruns => (domainUnbind_proceeds h hslot hgo).trans (congrArg Host.Outcome.next (if_pos hruns)),
      fun hgo hquiet => ⟨_, (domainUnbind_proceeds h hslot hgo).trans (congrArg Host.Outcome.next (if_neg (by rw [hquiet]; decide))), fun k hk => ?_, ?_, ?_⟩⟩
    · exact (domain?_ended ..).trans (domain?_wipeDomains d.tag k mods u (.inl hk))
    · rw [module_ended]
      rfl
    · rw [module_ended]
      rfl
  case gangAbort =>
    intro h q i
    refine ⟨fun hnone => gangAbort_refused h fun p hp => absurd (hp.symm.trans hnone) (by simp), fun p hp => ⟨fun hne => gangAbort_refused h fun p' hp' => ?_,
      fun heq hsending => gangAbort_member h hp heq hsending⟩⟩
    obtain rfl : p' = p := Option.some.inj (hp'.symm.trans hp)
    exact hne
  case svcControl =>
    intro h c k th i service
    refine ⟨fun hname => svcControl_refused h hname, fun hname hact hdbl => svcControl_barred h hname hact (.inl hdbl),
      fun hname hact hhandler => svcControl_barred h hname (by rw [show s.arg m 1 = 1 from hact]; decide) (.inr ⟨hact, hhandler⟩),
      fun hname hact hdbl => svcControl_resumes h hname hact hdbl,
      fun hname hact hdbl hhandler => ⟨_, svcControl_handles h hname hact hdbl hhandler,
        congrArg Thread.pc (thread_handleAt s c k), congrArg Thread.st (thread_handleAt s c k), module_ended ..⟩,
      fun hname hact hpending => ?_, fun hname hact hpending => ?_⟩
    · refine ⟨_, (svcControl_kill h hname hact).trans
        (congrArg Host.Outcome.next (if_pos (List.isEmpty_iff.mpr hpending))), ?_, ?_⟩
      · exact (endTask_facts s c k).2.2.1
      · rw [module_ended]
        exact congrArg (fun b => b.ended 0) ((keepsModules_endTask s c k).field (·.mbox) (fun _ _ => rfl) m)
    · exact (svcControl_kill h hname hact).trans (congrArg Host.Outcome.next (if_neg (mt List.isEmpty_iff.mp hpending)))
  case svcAnswer =>
    intro h i
    exact ⟨fun hdom => svcAnswer_refused h hdom, fun v t hdom htag hact => ⟨_, svcAnswer_performed h hdom htag hact, module_ended .., rfl⟩⟩
  case svcPop =>
    intro h i
    exact ⟨fun hq => svcPop_empty h hq, fun r q hq hwait => svcPop_pops h hq hwait⟩
  case logRead =>
    intro h es
    refine ⟨_, logRead_eq h, ?_⟩
    beta_reduce
    rw [module_ended, setArg_eq, setArg_eq, setBuffer_eq, module_onModule, module_onModule, module_onModule]
    exact ⟨rfl, rfl, rfl, fun j hj => get_filled _ _ hj, rfl⟩
  case powerCap =>
    intro h i
    exact ⟨fun hcap => powerCap_supported h hcap, fun h1 h2 h3 => powerCap_unsupported h (by rintro (h | h | h) <;> contradiction)⟩
  case attest =>
    intro h i
    refine ⟨fun hkey => attest_refused h (hkey.imp_right (unprovisioned_iff x).mpr), fun e hkey hlife =>
      ⟨fun hleaf => attest_exhausted h hkey (provisioned hlife) hleaf,
      fun hleaf => ⟨_, attest_signs h hkey (provisioned hlife) hleaf, ?_⟩⟩⟩
    obtain ⟨hfuses, hmbox⟩ := setBuffer_ended (m := m) (s.onModule m nextLeaf)
      (x.report m e (s.buffer m 32) ++ lmsSign m e x.fuses.leaf (x.report m e (s.buffer m 32)))
    exact ⟨hfuses.trans (congrArg Module.fuses (module_onModule ..)), hmbox⟩
  case identity =>
    intro h i
    refine ⟨fun hkey => identity_refused h (hkey.imp_right (unprovisioned_iff x).mpr), fun e hkey hlife => ⟨_, identity_eq h hkey (provisioned hlife), ?_⟩⟩
    exact setBuffer_setArg_ended s (lmsPublic m e) 0 _
  case fwStage =>
    intro h i
    refine ⟨fun hoff => fwStage_beyond h hoff, fun hoff hwf hpoison => ?_⟩
    obtain ⟨mem, he, hwritten⟩ := fwStage_stages h hoff hwf hpoison
    have hlength : (s.buffer m 3840).length = 3840 := by simp [State.buffer]
    refine ⟨_, he, ?_, rfl, fun w => congrArg (fun l : List Nat => !l.contains w) hwritten.empties, fun j => (hwritten.byte j).trans ?_⟩
    · rw [module_ended, module_onModule]
      rfl
    · rw [hlength]
      exact ite_congr rfl (fun hj => buffer_getD 3840 (Nat.sub_lt_left_of_lt_add hj.1 hj.2)) fun _ => rfl
  case fwCommit =>
    intro h image f ver i poisoned ok
    refine ⟨fun hbad => fwCommit_refused h ?_, fun hpoison hok => fwCommit_commits h (fun hp => hpoison (stagedPoison_iff.mp hp)) hok⟩
    exact hbad.imp (fun hp => stagedPoison_iff.mpr hp.1) id
  case lifecycle =>
    intro h signed i listed
    refine ⟨fun ht => lifecycle_unknown h ht, fun ht hlist => lifecycle_unlisted h ht hlist, fun hlist ht hsigned => gives_ended ?_, fun hlist hsigned => ?_⟩
    · exact (lifecycle_listed h hlist).trans (congrArg Host.Outcome.next (if_pos (by
        rw [show s.arg m 0 = 0 from ht, show x.fuses.command.sound x.fuses.rootHash (s.buffer m 3840) = false from hsigned]
        rfl)))
    · have hgo : ¬(decide (s.arg m 0 = 0) && !x.fuses.command.sound x.fuses.rootHash (s.buffer m 3840)) = true := by
        rw [Bool.and_eq_true, decide_eq_true_eq]
        rintro ⟨ht, hbad⟩
        rw [show x.fuses.command.sound x.fuses.rootHash (s.buffer m 3840) = true from hsigned ht] at hbad
        contradiction
      obtain ⟨hcore, hcluster, hmemory, hctxs, hpresent⟩ := clean_resetModule (s.onModule m (entered (s.arg m 0))) m
      refine ⟨_, (lifecycle_listed h hlist).trans (congrArg Host.Outcome.next (if_neg hgo)), ⟨hcore, hcluster, hmemory, hctxs, hpresent⟩, ?_⟩
      rw [module_resetModule, module_onModule]
      exact congrArg (fun f => { wiped x with fuses := f }) (enter_eq x.fuses (s.arg m 0))
  case resets =>
    intro hpresent cold
    have hclean : ∀ {t}, Clean s m t → clean t := fun ⟨hcore, hcluster, hmemory, hctxs, hpresent⟩ => ⟨hcore, hcluster, hmemory, hctxs, hpresent⟩
    refine ⟨⟨_, hotReset_eq hpresent, hclean (clean_resetModule s m), module_resetModule s m⟩,
      ⟨_, fundamentalReset_eq hpresent, hclean (clean_resetCold s m), module_resetCold s m⟩,
      fun v z p q => ⟨fun hhot i hi => ?_, fun hcool => gives_congr (configurationWrite_gives hpresent hcool v z p q) (configured_eq v z p q x)⟩,
      fun hcool => ⟨⟨_, functionLevelReset_eq hpresent hcool, hclean (clean_resetModule s m), module_resetModule s m⟩,
        fun hd3 => ⟨_, d3hotExit_eq hpresent hcool hd3, hclean (clean_resetCold s m), module_resetCold s m⟩, fun hd3 => d3hotEntry_spec hpresent hcool hd3⟩,
      ?boot, ?program⟩
    · simp only [List.mem_cons, List.not_mem_nil, or_false] at hi
      obtain rfl | rfl | rfl | rfl := hi
      · exact gives_configRequest_hot hpresent hhot (exec_functionLevelReset ..)
      · exact gives_configRequest_hot hpresent hhot (exec_d3hotEntry ..)
      · exact gives_configRequest_hot hpresent hhot (exec_d3hotExit ..)
      · exact gives_configRequest_hot hpresent hhot (exec_configurationWrite ..)
    case boot =>
      intro c hbooted hhalted hmode hd3 f i r mr
      refine ⟨fun hbad => moduleBoot_halts hpresent hbooted hhalted hmode hd3 c hbad,
        fun hok hprogram => moduleBoot_completes hpresent hbooted hhalted hmode hd3 hok hprogram, fun hok hprogram => ?_⟩
      obtain ⟨hmodule, hroot⟩ := startBoot_spec (prepared s m c) m c
      rw [module_prepared] at hmodule
      obtain ⟨hmr, hmode', hsealed, hbooted', hboot, hbootRoot⟩ := enterBoot_fields (configMr x) c
        (((prepared s m c).startBoot m c).thread (((prepared s m c).startBoot m c).bootCore (m * 2 ^ 9)) 0).uid x
      rw [← hmodule] at hmr hmode' hsealed hbooted' hboot hbootRoot
      exact ⟨_, moduleBoot_runs hpresent hbooted hhalted hmode hd3 hok hprogram, hmr, hmode', hsealed, hbooted'.trans hbooted, hboot, hbootRoot, hroot⟩
    case program =>
      intro c hboot hhalted hd3
      refine ⟨fun a hmode hplace hfull => ?_, fun hbooted => ?_⟩
      · intro agrees
        refine ⟨fun hno => ?_, fun hyes hquiet => ?_, fun hyes hquiet => ?_⟩
        · obtain ⟨i, he⟩ := bootSeal_mismatch hboot hhalted hd3 hmode hplace hfull hno
          exact ⟨_, he, congrArg Module.bootHalted (module_onModule ..)⟩
        · exact (bootSeal_match hboot hhalted hd3 hmode hplace hfull hyes).trans (congrArg Host.Outcome.next (if_pos (by rw [hquiet]; rfl)))
        · have hsealed := module_onModule s m (sealed (mapWords x.fuses.fuseMap))
          exact ⟨_, (bootSeal_match hboot hhalted hd3 hmode hplace hfull hyes).trans (congrArg Host.Outcome.next (if_neg (by rw [hquiet]; decide))),
            congrArg Module.bootMode hsealed, congrArg Module.sealed hsealed, congrArg Module.logicalMap hsealed⟩
      · intro i halts
        refine ⟨fun hfq => gives_onModule (bootResult_faulted hboot hhalted hd3 hbooted hfq),
          fun hfq => ⟨fun htasks => bootResult_waits hboot hhalted hd3 hbooted hfq htasks, fun a htasks hplace => ?_⟩⟩
        have he := bootResult_ends hboot hhalted hd3 hbooted hfq htasks hplace
        refine ⟨fun hbad => gives_onModule (he.trans (congrArg Host.Outcome.next (if_pos hbad))),
          fun hzero => ⟨_, he.trans (congrArg Host.Outcome.next (if_neg (not_not.mpr hzero))), ?_, ?_, ?_⟩⟩
        · exact congrArg Module.booted (module_onModule ..)
        · exact congrArg Module.boot (module_onModule ..)
        · exact (domain?_onModule (f := bootEnded) (fun _ => rfl) ..).trans (domain?_wipeDomain s m 0xFFFF m (.inl rfl))

end Sys2Proof.ResetProofs
end

section
/-!
PROOFS. Requests of the host and completions for the device (03 R46 to R51, R54; 07 R157): O45.
-/
namespace Sys2Proof.HostProofs
open Sys2Proof Sys2Proof.Machine Sys2Proof.Laws Sys2Proof.LaunchProofs Sys2Proof.FabricProofs Sys2Proof.MailboxProofs

/-! The put window and the queue status (03 R51, R54). -/

section
variable {s : State} {m : Nat}

/-- A request that the endpoint turns away changes its last answer alone. -/
theorem hostRequest_turnedAway (hpresent : s.present.contains m = true) {st : HostStatus} (h : (s.module m).turnedAway = some st) (k : State → State) :
    s.hostRequest m k = s.answerHost m st [] := by
  unfold State.hostRequest
  rw [hpresent, h]
  rfl

theorem module_answerHost (st : HostStatus) (data : List Byte) : (s.answerHost m st data).module m = { s.module m with reply := ⟨st, data⟩ } := module_onModule ..

theorem aer_onQueue (t : State) (q : Nat) (f : Queue → Queue) : ((t.onQueue m q f).module m).aer = (t.module m).aer := by
  unfold State.onQueue
  rw [module_onModule]

/-- An answer of the endpoint changes no queue. -/
theorem answerHost_facts (st : HostStatus) (data : List Byte) : ((s.answerHost m st data).module m).reply = ⟨st, data⟩ ∧
    ∀ q, ((s.answerHost m st data).module m).queue q = (s.module m).queue q := by
  rw [module_answerHost]
  exact ⟨rfl, fun _ => rfl⟩

variable (hpresent : s.present.contains m = true) (hturned : (s.module m).turnedAway = none)
include hpresent hturned

section
variable {q off : Nat} (hq : q < 64)
include hq

omit hpresent hturned hq in
theorem putBad_iff (y : Queue) (off len : Nat) : y.putBad off len = true ↔
    off % 8 ≠ 0 ∨ len % 8 ≠ 0 ∨ 128 * 2 ^ y.sizelog < off + len ∨ 128 * 2 ^ y.sizelog ≤ off ∨ y.en = false := by
  simp only [Queue.putBad, Bool.or_eq_true, bne_iff_ne, decide_eq_true_eq, Bool.not_eq_true', or_assoc]

theorem putWindowWrite_malformed {data : List Byte} {pz : Bool} (hbad : ((s.module m).queue q).putBad off data.length = true ∨ pz = true) : ∃ t,
    exec (.putWindowWrite m q off data pz) s = .next t ∧ (t.module m).queue q = { (s.module m).queue q with badw := true } ∧
      (t.module m).aer = (s.module m).aer ++ (if pz then [1] else []) ∧ t.mem = s.mem := by
  have hrun : exec (.putWindowWrite m q off data pz) s = .next (let t := s.onQueue m q fun x => { x with badw := true }; if pz then t.raiseAer m 1 else t) := by
    rw [exec_putWindowWrite, execPutWindowWrite, hostReq_ok hpresent hturned]
    exact congrArg Host.Outcome.next ((if_neg (by omega)).trans (if_pos (by simpa using hbad)))
  have hqueue := queue_onQueue s m q fun x => { x with badw := true }
  have haer := aer_onQueue (m := m) s q fun x => { x with badw := true }
  refine ⟨_, hrun, ?_⟩
  cases pz with
  | false => exact ⟨hqueue, haer.trans (by simp), rfl⟩
  | true =>
    have hraised := module_onModule (s.onQueue m q fun x => { x with badw := true }) m fun x => { x with aer := x.aer ++ [1] }
    exact ⟨(congrArg (Module.queue · q) hraised).trans hqueue, (congrArg Module.aer hraised).trans (congrArg (· ++ [1]) haer), rfl⟩

theorem putWindowWrite_word {data : List Byte} {v p : Nat} {t u : State} (h8 : off % 8 = 0) (hlength : data.length = 8)
    (hin : off + 8 ≤ 128 * 2 ^ ((s.module m).queue q).sizelog) (hen : ((s.module m).queue q).en = true) :
    let dom := ((s.module m).queue q).dom; let va := (((s.module m).queue q).base.toNat + off) % 2 ^ 64
    s.unitAct m dom va (.touch true) none = (.ok v, t) → t.unitAct m dom va .probe none = (.ok p, u) →
    exec (.putWindowWrite m q off data false) s = .next (if bit p 0 then u.onQueue m q fun x => { x with coll := min 0xFFFF (x.coll + 1) }
      else (u.unitAct m dom va (.stf (ofBytes data)) none).2) := by
  intro dom va htouch hprobe
  have hgood : ¬((s.module m).queue q).putBad off data.length = true := by
    rw [putBad_iff, hlength, hen]
    simp
    omega
  rw [exec_putWindowWrite, execPutWindowWrite, hostReq_ok hpresent hturned]
  refine congrArg Host.Outcome.next ((if_neg (by omega)).trans ((if_neg (by simpa using hgood)).trans ?_))
  rw [hlength]
  show s.putWindowWord m q dom va (ofBytes (data.take 8)) = _
  rw [List.take_of_length_le (by omega)]
  unfold State.putWindowWord
  simp only [htouch, hprobe]

theorem qstatWrite_eq (v : Word) : exec (.qstatWrite m q v) s = .next (s.onQueue m q fun y => { y with
    coll := (v.extractLsb' 48 16).toNat, refd := (v.extractLsb' 32 16).toNat, badw := y.badw && !v.getLsbD 17, flt := y.flt && !v.getLsbD 16 }) := by
  rw [exec_qstatWrite, execQstatWrite, hostReq_ok hpresent hturned]
  refine congrArg Host.Outcome.next ((if_neg (by omega)).trans ?_)
  simp only [field_toNat, bit_toNat]
end
end

/-! The device-memory BAR (03 R49, R50). -/

section
variable {s : State} {m : Nat} (hpresent : s.present.contains m = true) (hturned : (s.module m).turnedAway = none)
include hpresent hturned

section
variable {off len : Nat} (hend : off + len ≤ 2 ^ 40) (hlen : len ≤ 4096)
include hend hlen

theorem deviceMemoryRead_eq : let a := m * 2 ^ 40 + off
    exec (.deviceMemoryRead m off len) s = .next (if !(s.module m).booted then s.answerHost m .ok (List.replicate len 0)
      else if s.meetsDead a len then s.answerHost m .abort []
      else s.answerHost m (if s.mem.poison.any fun w => rangesMeet (8 * w) 8 a len then .poisoned else .ok) ((List.range len).map fun i => s.mem.byte (a + i))) := by
  rw [exec_deviceMemoryRead, execDeviceMemoryRead, hostReq_ok hpresent hturned]
  exact congrArg Host.Outcome.next (if_neg (by simp; omega))

omit hpresent hturned hend hlen in
/-- A read that meets no poison is good, and one that holds a byte of a poisoned word is poisoned. -/
theorem readPoison_spec (a len : Nat) : let bad := s.mem.poison.any fun w => rangesMeet (8 * w) 8 a len
    (s.mem.poison = [] → bad = false) ∧ ∀ j < len, (a + j) / 8 ∈ s.mem.poison → bad = true := by
  refine ⟨fun h => by rw [h]; rfl, fun j hj hpoison => List.any_eq_true.mpr ⟨_, hpoison, ?_⟩⟩
  simp only [rangesMeet, Bool.and_eq_true, decide_eq_true_eq]
  omega
end

theorem deviceMemoryWrite_unbooted {off : Nat} {data : List Byte} {pz : Bool} (hbooted : (s.module m).booted = false) :
    exec (.deviceMemoryWrite m off data pz) s = .next s := by
  rw [exec_deviceMemoryWrite, execDeviceMemoryWrite, hostReq_ok hpresent hturned]
  exact congrArg Host.Outcome.next (if_pos (by simp [hbooted]))

section
variable {off : Nat} (hend : off + 8 ≤ 2 ^ 40) (hbooted : (s.module m).booted = true) (hlive : s.meetsDead (m * 2 ^ 40 + off) 8 = false)
include hend hbooted hlive

theorem deviceMemoryWrite_word {data : List Byte} (h8 : off % 8 = 0) (hlength : data.length = 8) (pz : Bool) : let a := m * 2 ^ 40 + off
    exec (.deviceMemoryWrite m off data pz) s = .next (if pz then (s.barWord m a 8 (ofBytes data) pz).raiseAer m 1 else s.barWord m a 8 (ofBytes data) pz) := by
  intro a
  have hword : s.barWords m a pz 9 data = s.barWord m a 8 (ofBytes data) pz := by
    have hn : min data.length (8 - a % 8) = 8 := by omega
    have hnil : data.drop 8 = [] := List.drop_eq_nil_of_le (by omega)
    rw [State.barWords, hn, List.take_of_length_le (by omega), hnil]
    · rfl
    · exact fun h => by rw [h] at hlength; contradiction
  rw [exec_deviceMemoryWrite, execDeviceMemoryWrite, hostReq_ok hpresent hturned]
  refine congrArg Host.Outcome.next ((if_neg (by simp [hbooted]; omega)).trans ((if_neg (by rw [hlength]; exact Bool.eq_false_iff.mp hlive)).trans ?_))
  rw [hlength]
  show (let t := s.barWords m a pz 9 data; if pz then t.raiseAer m 1 else t) = _
  rw [hword]

omit hpresent hturned hend hbooted hlive in
theorem barWord_poisoned (a v : Nat) : s.barWord m a 8 v true = (s.withMem (s.mem.setPoison (wordOf a) true)).logError m 2 0 1 (8 * wordOf a % 2 ^ 40) := rfl

/-- An AtomicOp that completes at its word (03 R49). -/
theorem completerAtomicop_eq {op : HostAtomic} {v : Nat} {t : State} (h8 : off % 8 = 0) (hsize : (hostOp op).1 = 8) (hok : hostOpSize op = true) : let a := m * 2 ^ 40 + off
    s.performOp a false false (insideReq (m * 2 ^ 14) 0 off (hostOp op).2) = (.data v, t) → exec (.completerAtomicop m off op) s = .next (t.answerHost m .ok (toBytes 8 v)) := by
  intro a hperform
  rw [exec_completerAtomicop, execCompleterAtomicop, hostReq_ok hpresent hturned]
  dsimp only
  rw [hsize, if_neg (by simp [hok]; omega), if_neg (by rw [hbooted]; decide), show s.meetsDead (barAddr m off) 8 = false from hlive, if_neg (by decide)]
  have hp : s.performOp (barAddr m off) false false (insideReq (m * 2 ^ 14) 0 off (hostOp op).2) = (.data v, t) := hperform
  rw [hp]
end
end

/-- What an atomic leaves at a word without poison (12 R296). -/
theorem performOp_atom {s : State} {a t : Nat} {k : AtomKind} {r : Req} (hop : r.op = .atom k 8 t) (hsound : s.mem.poisoned (a / 8) = false) :
    s.performOp a false false r = (.data (s.mem.read a 8), s.withMem ((s.mem.write a 8 (atomResult k 8 (s.mem.read a 8) t)).setPoison (wordOf a) false)) := by
  simp [State.performOp, hop, State.consume, State.storeBytes, wordOf, hsound]

theorem performOp_cas {s : State} {a c v : Nat} {r : Req} (hop : r.op = .cas 8 c v) (hsound : s.mem.poisoned (a / 8) = false) :
    s.performOp a false false r = (.data (s.mem.read a 8), if s.mem.read a 8 = c % 2 ^ 64 then s.withMem ((s.mem.write a 8 v).setPoison (wordOf a) false) else s) := by
  simp [State.performOp, hop, State.consume, State.storeBytes, wordOf, hsound]
  split <;> rfl

/-- Memory without poison at a word takes what stands there. -/
theorem takes_read {mem : Memory} {a : Nat} (hsound : mem.poisoned (a / 8) = false) : mem.takes mem a 8 (mem.read a 8) := by
  refine ⟨fun _ x => ?_, fun w => ?_⟩
  · split
    case isTrue hx =>
      have hbytes : (List.range 8).map (fun i => BitVec.ofNat 8 (mem.read a 8 / 256 ^ i)) = (List.range 8).map fun i => mem.byte (a + i) :=
        (toBytes_eq_map ..).symm.trans (toBytes_read mem a 8)
      have hx' := List.map_inj_left.mp hbytes (x - a) (List.mem_range.mpr (by omega))
      rw [hx', show a + (x - a) = x by omega]
    case isFalse => rfl
  · by_cases hw : w = a / 8
    · simp [hw, hsound]
    · simp [hw]

theorem aer_logError (s : State) (m kind dom count place : Nat) : ((s.logError m kind dom count place).module m).aer = (s.module m).aer := by
  unfold State.logError State.raiseMsix
  rw [module_onModule, module_onModule]

/-- A write with poison: the word is poisoned, logged and reported through AER (03 R50). -/
theorem poisonedWrite_spec (s : State) (m a v : Nat) : let t := (s.barWord m a 8 v true).raiseAer m 1; let x := s.module m
    (∀ b, t.mem.byte b = s.mem.byte b) ∧ s.mem.sameFull t.mem ∧ (∀ j, t.mem.poisoned j = (decide (j = a / 8) || s.mem.poisoned j)) ∧
      (t.module m).aer = x.aer ++ [1] ∧ (t.module m).msix = x.msix ++ [1] ∧ ∃ n, (t.module m).log =
        (if x.log.length < 1024 then x.log else x.log.drop 1) ++ [[BitVec.ofNat 64 (2 * 2 ^ 56 + 1), BitVec.ofNat 64 (8 * (a / 8) % 2 ^ 40), 0, n]] := by
  dsimp only
  obtain ⟨⟨n, hlog⟩, hmsix⟩ := logError_facts (s.withMem (s.mem.setPoison (a / 8) true)) m 2 0 1 (8 * (a / 8) % 2 ^ 40)
  have haer := aer_logError (s.withMem (s.mem.setPoison (a / 8) true)) m 2 0 1 (8 * (a / 8) % 2 ^ 40)
  rw [barWord_poisoned]
  unfold wordOf State.raiseAer
  rw [module_onModule]
  exact ⟨fun _ => rfl, fun _ => rfl, fun j => (Memory.poisoned_setPoison s.mem _ j _).trans (by by_cases h : j = a / 8 <;> simp [h]), congrArg (· ++ [1]) haer, hmsix, n, hlog⟩

/-- What an AtomicOp of the host comes to at a word without poison: the old value is answered, the new one stored (03 R49). -/
structure AtomicDone (s : State) (a : Nat) (op : HostAtomic) (v : Nat) (t : State) : Prop where
  size : (hostOp op).1 = 8
  carried : hostOpSize op = true
  performs : ∀ m off, s.performOp a false false (insideReq (m * 2 ^ 14) 0 off (hostOp op).2) = (.data (s.mem.read a 8), t)
  takes : s.mem.takes t.mem a 8 v
  same : s.mem.sameFull t.mem

section
variable {s : State} {a : Nat} (hsound : s.mem.poisoned (a / 8) = false)
include hsound

theorem atomicDone_fetchAdd (c : Nat) : ∃ t, AtomicDone s a (.fetchAdd 8 c) ((s.mem.read a 8 + c) % 2 ^ 64) t := by
  have hresult : atomResult .add 8 (s.mem.read a 8) c = (s.mem.read a 8 + c) % 2 ^ 64 := Nat.add_mod_mod ..
  refine ⟨_, rfl, rfl, fun m off => performOp_atom rfl hsound, ?_, same_write s.mem a 8 _⟩
  rw [← hresult]
  exact takes_write s.mem a 8 _

theorem atomicDone_swap (c : Nat) : ∃ t, AtomicDone s a (.swap 8 c) (c % 2 ^ 64) t :=
  ⟨_, rfl, rfl, fun _ _ => performOp_atom rfl hsound, takes_write s.mem a 8 _, same_write s.mem a 8 _⟩

theorem atomicDone_cas (c z : Nat) : ∃ t, AtomicDone s a (.cas 8 c z) (if s.mem.read a 8 = c % 2 ^ 64 then z else s.mem.read a 8) t := by
  refine ⟨_, rfl, rfl, fun m off => performOp_cas rfl hsound, ?_, ?_⟩
  · split
    · exact takes_write s.mem a 8 z
    · exact takes_read hsound
  · split
    · exact same_write s.mem a 8 z
    · exact fun _ => rfl
end

/-! Completions of the device's own requests (07 R156, R157). -/

section
variable {s : State} {m n : Nat}

/-- A module whose endpoint has one request less outstanding. -/
def settled (n : Nat) (x : Machine.Module) : Machine.Module := { x with outstanding := listDel x.outstanding n }

/-- An answer of the endpoint on its way to a core (07 R156). -/
theorem answerOwner_core {t : State} {h : HostReq} (howner : h.owner = .core) (hreaches : t.reaches m (cidKey h.req.cid) = true) (a : Ans) (code : Nat) :
    ∃ port, t.answerOwner m h a code = { t with net := t.net ++ [⟨endpointKey m, cidKey h.req.cid, 1, port, false, .ans h.req.cid h.req.tag h.req.posted a⟩] } := by
  have hkey : keyModule (endpointKey m) = m := by
    unfold keyModule endpointKey
    omega
  unfold State.answerOwner
  rw [howner]
  exact sendAns_eq (by rw [hkey]; exact hreaches)

section
variable (hpresent : s.present.contains m = true) (hd3 : (s.module m).d3hot = false) (c : HostStatus) (ws : List (Nat × Byte))
include hpresent hd3

theorem hostCompletion_unexpected (hnone : (s.module m).outstanding[n]? = none) : exec (.hostCompletion m n c ws) s = .next ((s.hostWrites m ws).raiseAer m 2) := by
  have hnone' : ((s.hostWrites m ws).module m).outstanding[n]? = none := hnone
  rw [exec_hostCompletion, execHostCompletion, if_neg (by rw [hpresent, hd3]; decide)]
  dsimp only
  rw [hnone']

theorem hostCompletion_expected {h : HostReq} (hsome : (s.module m).outstanding[n]? = some h) : let u := (s.hostWrites m ws).onModule m (settled n)
    let p := u.completed m h c
    exec (.hostCompletion m n c ws) s = .next (p.2.answerOwner m h p.1 (ladleCode h c p.1)) := by
  have hsome' : ((s.hostWrites m ws).module m).outstanding[n]? = some h := hsome
  rw [exec_hostCompletion, execHostCompletion, if_neg (by rw [hpresent, hd3]; decide)]
  dsimp only
  rw [hsome']
  rfl
end

/-- What the completion of a load says (07 R156, R182). -/
theorem completed_load {t : State} {h : HostReq} {z : Nat} (hop : h.req.op = .load z) :
    (t.mem.poisoned (hostAddr m h.addr / 8) = false → t.completed m h .ok = (.data (t.mem.read (hostAddr m h.addr) z), t)) ∧
    t.completed m h .unsupported = (.fault Cause.hostReadUr, t) ∧ t.completed m h .abort = (.fault Cause.hostReadCa, t) ∧
    (h.tol = false → t.completed m h .poisoned = (.fault Cause.poison, t)) := by
  refine ⟨fun hsound => ?_, ?_, ?_, fun htol => ?_⟩
  · simp [State.completed, hop, State.performOp, State.consume, wordOf, hsound]
  · simp [State.completed, hop]
  · simp [State.completed, hop]
  · simp [State.completed, hop, htol]

theorem hostCompletionTimeout_load {h : HostReq} {z : Nat} (hd3 : (s.module m).d3hot = false) (hsome : (s.module m).outstanding[n]? = some h)
    (hop : h.req.op = .load z) (b : Bool) :
    exec (.hostCompletionTimeout m n b) s = .next (((s.onModule m (settled n)).raiseAer m 3).answerOwner m h (.fault Cause.hostTimeout) Cause.hostTimeout) := by
  rw [exec_hostCompletionTimeout, execHostCompletionTimeout, hsome]
  dsimp only
  rw [hd3, if_neg (by decide), hop]
  rfl
end

end Sys2Proof.HostProofs
end

section
/-!
PROOFS. The launch unit and dispatch (03 R52 to R57, R63; 04 R97; 15 R355, R356): O45.
-/
namespace Sys2Proof.DispatchProofs
open Sys2Proof Sys2Proof.Machine Sys2Proof.Laws Sys2Proof.LaunchProofs Sys2Proof.PlaceProofs Sys2Proof.MailboxProofs Sys2Proof.ResetProofs

theorem tag_of_domain? {s : State} {m dom k : Nat} {d : Domain} (h : s.domain? m dom = some (k, d)) : d.tag = dom := by
  unfold State.domain? at h
  split at h
  case isTrue => contradiction
  case isFalse => simpa using List.find?_some h

/-- The descriptor of a record without a class table is read, and nothing else (01 R10). -/
theorem behind_entry {s t : State} {m q dom : Nat} {ws : List Word} {e : Word} (hread : s.unitWords m q dom [(ws.getD 0 0).toNat] = (.words [e], t))
    (htable : ws.getD 8 0 = 0) : s.behind m q dom ws = .found (some e.toNat) (some []) t := by
  unfold State.behind
  rw [hread, htable]
  rfl

/-! Taking a slot (03 R52). -/

/-- The VA of the slot that CONS names (03 R52). -/
def slotVa (y : Queue) : Nat := (y.base.toNat + 128 * (y.cons % 2 ^ y.sizelog)) % 2 ^ 64

section
variable {s : State} {m q k : Nat} {d : Domain} (hq : q < 64) (htakes : (s.module m).takes q = true) (hdom : s.domain? m ((s.module m).queue q).dom = some (k, d))
include hq htakes hdom

theorem launchSlotTake_fails {c : Nat} {t : State} : let y := (s.module m).queue q
    s.unitAct m y.dom (slotVa y + 120) .waitf none = (.fail c, t) → exec (.launchSlotTake m q) s = .next (t.stopQueue m q c (slotVa y + 120)) := by
  intro y hwait
  unfold slotVa at hwait
  rw [exec_launchSlotTake, execLaunchSlotTake]
  dsimp only
  rw [if_neg (by simp [htakes]; omega), hdom]
  dsimp only
  rw [hwait]
  rfl

theorem launchSlotTake_takes {v : Nat} {ws : List Word} {t u : State} : let y := (s.module m).queue q
    s.unitAct m y.dom (slotVa y + 120) .waitf none = (.ok v, t) → t.unitWords m q y.dom ((List.range 16).map fun k => slotVa y + 8 * k) = (.words ws, u) →
      exec (.launchSlotTake m q) s = .next (u.takeRecord m q d (slotVa y) ws) := by
  intro y hwait hread
  unfold slotVa at hwait hread
  rw [exec_launchSlotTake, execLaunchSlotTake]
  dsimp only
  rw [if_neg (by simp [htakes]; omega), hdom]
  dsimp only
  rw [hwait]
  dsimp only
  rw [hread]
  rfl
end

/-- A queue that has counted a slot and latched its record, or refused it (03 R52 step 4). -/
def taken (ws : List Word) (e : Word) (refusal : Option Nat) (y : Queue) : Queue :=
  let z := { y with cons := (y.cons + 1) % 2 ^ 32, gathered := [] }
  match refusal with
  | none => { z with latch := some ⟨ws, e, y.cons⟩ }
  | some c => z.refuse y.cons c (ws.getD 2 0)

theorem takeRecord_eq {s t u : State} {m q slot : Nat} {d : Domain} {ws r : List Word} {e : Word} (hread : s.unitWords m q d.tag [(ws.getD 0 0).toNat] = (.words [e], t))
    (htable : ws.getD 8 0 = 0) (hempty : t.unitEmpty m d.tag ((List.range 16).map fun k => slot + 8 * k) = (.words r, u)) :
    s.takeRecord m q d slot ws = u.onQueue m q (taken ws e (recordRefusal d d.tag ws (some e.toNat) true)) := by
  unfold State.takeRecord
  rw [behind_entry hread htable]
  dsimp only
  unfold State.slotTaken
  rw [hempty]
  dsimp only [Option.getD_some, Option.isSome_some]
  rw [BitVec.ofNat_toNat, BitVec.setWidth_eq]
  rfl

/-! Refusals and faults (03 R56, R57). -/

/-- A queue whose refusal has been put. -/
def refusalPut (y : Queue) : Queue := { y with refusal := none }

section
variable {s : State} {m q : Nat} (hd3 : (s.module m).d3hot = false)
include hd3

section
variable {r : RefusedPut} (hrefusal : ((s.module m).queue q).refusal = some r)
include hrefusal

theorem launchRefusalPut_ok {v : Nat} {t : State} (hput : s.unitAct m ((s.module m).queue q).dom r.compl.toNat (.stf (0xFF * 2 ^ 56 + r.code % 256)) none = (.ok v, t)) :
    exec (.launchRefusalPut m q) s = .next (t.onQueue m q refusalPut) := by
  rw [exec_launchRefusalPut, execLaunchRefusalPut]
  dsimp only
  rw [hrefusal]
  dsimp only [refusalWord]
  rw [hd3, if_neg (by decide), hput]
  rfl

theorem launchRefusalPut_fails {c : Nat} {t : State}
    (hput : s.unitAct m ((s.module m).queue q).dom r.compl.toNat (.stf (0xFF * 2 ^ 56 + r.code % 256)) none = (.fail c, t)) :
    exec (.launchRefusalPut m q) s = .next ((t.onQueue m q refusalPut).queueRecord m q c r.compl r.seq r.code) := by
  rw [exec_launchRefusalPut, execLaunchRefusalPut]
  dsimp only
  rw [hrefusal]
  dsimp only [refusalWord]
  rw [hd3, if_neg (by decide), hput]
  rfl
end

theorem launchQueueFault_eq {c : Nat} {va : Word} {r : List (Nat × Word)} (hfaulted : ((s.module m).queue q).faulted = (c, va) :: r) :
    exec (.launchQueueFault m q) s =
      .next ((s.onQueue m q fun x => { x with flt := true, faulted := r }).queueRecord m q c va ((s.module m).queue q).cons 0) := by
  rw [exec_launchQueueFault, execLaunchQueueFault]
  dsimp only
  rw [hfaulted]
  dsimp only
  rw [hd3, if_neg (by decide)]
end

/-! Dispatch (03 R63; 04 R97). -/

theorem startRoots_modules (s : State) (cid c : Nat) (l : Latched) (id : Nat) : (s.startRoots cid c l id).modules = s.modules := by
  refine List.foldlRecOn _ _ (motive := fun t : State => t.modules = s.modules) rfl fun t ht i _ => ?_
  split
  · exact ht
  · exact (startTask_modules ..).trans ht

theorem wipeRange_modules (s : State) (lo hi : Nat) : (s.wipeRange lo hi).modules = s.modules :=
  List.foldlRecOn (motive := fun t : State => t.modules = s.modules) _ (fun s (e : WaitEntry) => s.sendAns e.replyTo e.req .shutter) rfl fun _ ht _ _ => ht

theorem prepareCore_modules (s : State) (cid : Nat) (l : Latched) (id : Nat) : (s.prepareCore cid l id).modules = s.modules := by
  unfold State.prepareCore
  dsimp only
  split
  · rfl
  · exact wipeRange_modules ..

theorem claim_modules (s : State) (cl dom : Nat) : (s.claim cl dom).modules = s.modules := by
  unfold State.claim
  dsimp only
  split
  · rfl
  · split
    · rfl
    · exact wipeRange_modules ..

/-- A module on which a launch has been placed (03 R64). -/
def placed (q : Nat) (l : Latched) (cores : List Nat) (id : Nat) (x : Machine.Module) : Machine.Module :=
  { x with nextLaunch := id + 1, launches := x.launches ++ [⟨id, q, l.dom, l.rec_, cores, false, false⟩] }

/-- A launch that is placed enters its module's list of launches, and no module changes otherwise. -/
theorem module_startLaunch (s : State) (m q : Nat) (l : Latched) (cores : List Nat) :
    (s.startLaunch m q l cores).module m = placed q l cores (s.module m).nextLaunch (s.module m) := by
  have hmodules : (s.startLaunch m q l cores).modules = (s.onModule m (placed q l cores (s.module m).nextLaunch)).modules := by
    unfold State.startLaunch
    refine List.foldlRecOn _ _ (motive := fun t : State => t.modules = _) ?_ fun t ht k _ => (startRoots_modules ..).trans ht
    have hprepared : ∀ u : State, (cores.foldl (fun t k => t.prepareCore k l (s.module m).nextLaunch) u).modules = u.modules := fun u =>
      List.foldlRecOn cores _ (motive := fun t : State => t.modules = u.modules) rfl fun t ht k _ => (prepareCore_modules ..).trans ht
    split
    · exact List.foldlRecOn _ _ (motive := fun t : State => t.modules = _) (hprepared _) fun t ht k _ => (claim_modules ..).trans ht
    · exact hprepared _
  exact (congrArg (fun t => Tab.get Module.fresh t m) hmodules).trans (module_onModule ..)

/-- A queue whose latched record is refused (03 R57, R64). -/
def refusedLatch (l : Latched) (code : Nat) (y : Queue) : Queue := { y with latch := none, gathered := [] }.refuse l.seq code (l.rec_.getD 2 0)

section
variable {s t : State} {m q lv k : Nat} {l : Latched} {d : Domain} {e : Word} (hread : s.unitWords m q l.dom [l.word 0] = (.words [e], t)) (htable : l.word 8 = 0)
include hread htable

theorem behind_latched : s.behind m q l.dom l.rec_ = .found (some e.toNat) (some []) t :=
  behind_entry hread (BitVec.eq_of_toNat_eq htable)

theorem dispatchOf_refused {c : Nat} (hrefused : recordRefusal d d.tag l.rec_ (some e.toNat) true = some c) :
    s.dispatchOf m q lv l d = t.onQueue m q (refusedLatch l c) := by
  unfold State.dispatchOf
  rw [behind_latched hread htable]
  dsimp only [Option.isSome_some]
  rw [hrefused]
  rfl

/-- A latched record with what its dispatch read. -/
def readLatch (l : Latched) (e : Word) : Latched := { l with rec_ := l.rec_.take 16, desc := e }

/-- A queue between its reads. -/
def readDone (y : Queue) : Queue := { y with gathered := [] }

/-- A queue whose latch is empty. -/
def unlatched (y : Queue) : Queue := { y with latch := none }

theorem dispatchOf_checked (hgood : recordRefusal d d.tag l.rec_ (some e.toNat) true = none) : let u := t.onQueue m q readDone
    s.dispatchOf m q lv l d = (u.place m (readLatch l e)).elim u fun cores =>
      ((u.onQueue m q unlatched).onModule m fun x => x.dispatched q lv ((u.eligibleLatches m).map fun e => e.2.prio)).startLaunch m q (readLatch l e) cores := by
  have hlatch : { l with rec_ := l.rec_.take 16 ++ (some ([] : List Word)).getD [], desc := BitVec.ofNat 64 ((some e.toNat).getD 0) } = readLatch l e := by
    simp [readLatch]
  unfold State.dispatchOf
  rw [behind_latched hread htable]
  dsimp only [Option.isSome_some]
  rw [hgood]
  dsimp only
  rw [hlatch]
  split
  case h_1 hplace => rw [show (t.onQueue m q readDone).place m (readLatch l e) = none from hplace]; rfl
  case h_2 cores hplace => rw [show (t.onQueue m q readDone).place m (readLatch l e) = some cores from hplace]; rfl
end

section
variable {s : State} {m : Nat} (hd3 : (s.module m).d3hot = false) (hclaimed : s.claimed m = [])
include hd3 hclaimed

theorem dispatch_none (hselect : s.selectLatch m = none) : exec (.dispatch m) s = .next s := by
  rw [exec_dispatch, execDispatch, hd3, if_neg (by decide), hclaimed]
  dsimp only [List.foldl_nil]
  rw [hselect]

theorem dispatch_some {q lv k : Nat} {l : Latched} {d : Domain} (hselect : s.selectLatch m = some (q, l, lv)) (hdom : s.domain? m l.dom = some (k, d)) :
    exec (.dispatch m) s = .next (s.dispatchOf m q lv l d) := by
  rw [exec_dispatch, execDispatch, hd3, if_neg (by decide), hclaimed]
  dsimp only [List.foldl_nil]
  rw [hselect]
  dsimp only
  rw [hdom]
end

/-- A module after a dispatch: the latch is empty, and the launch is listed under the next number. -/
theorem places_spec (u : State) (m q lv : Nat) (ls : List Nat) (z : Latched) (cores : List Nat) :
    let t := ((u.onQueue m q unlatched).onModule m fun x => x.dispatched q lv ls).startLaunch m q z cores; let x := u.module m
    (t.module m).queue q = { x.queue q with latch := none } ∧ (t.module m).nextLaunch = x.nextLaunch + 1 ∧
      (t.module m).launches = x.launches ++ [⟨x.nextLaunch, q, z.dom, z.rec_, cores, false, false⟩] := by
  dsimp only
  rw [module_startLaunch, module_onModule]
  unfold State.onQueue
  rw [module_onModule]
  exact ⟨Tab.get_set_same .., rfl, rfl⟩

/-! The end of a launch (15 R355, R356). -/

/-- A module without the launch with a number. -/
def withoutLaunch (id : Nat) (x : Machine.Module) : Machine.Module := { x with launches := x.launches.filter fun y => y.id != id }

theorem putCompletion_ok {s t : State} {m v : Nat} {z : Launch}
    (hput : s.unitAct m z.dom (z.rec_.getD 2 0).toNat (.stf (z.rec_.getD 3 0).toNat) none = (.ok v, t)) :
    s.putCompletion m z = some (t.onModule m (withoutLaunch z.id)) := by
  unfold State.putCompletion
  dsimp only
  rw [hput]
  rfl

section
variable {s : State} {m n : Nat} {z : Launch} (hfind : (s.module m).launches.find? (fun y => y.id == n) = some z) (hd3 : (s.module m).d3hot = false)
include hfind hd3

theorem launchComplete_eq : let y := (s.module m).queue z.queue
    exec (.launchComplete m n) s = .next (if s.unbinding m z.dom then s
      else if z.putPending then (if y.flt || !y.faulted.isEmpty || (s.module m).recordWaits z.queue then s else (s.putCompletion m z).getD s)
      else if !z.complete then s else ((s.retireLaunch m z).putCompletion m z).getD s) := by
  rw [exec_launchComplete, execLaunchComplete, hfind]
  dsimp only
  rw [hd3, Bool.false_or]

theorem launchComplete_unbinding (h : s.unbinding m z.dom = true) : exec (.launchComplete m n) s = .next s :=
  (launchComplete_eq hfind hd3).trans (congrArg Host.Outcome.next (if_pos h))

theorem launchComplete_incomplete (hpending : z.putPending = false) (hcomplete : z.complete = false) : exec (.launchComplete m n) s = .next s := by
  rw [launchComplete_eq hfind hd3, hpending, hcomplete]
  simp

variable (hunbinding : s.unbinding m z.dom = false)
include hunbinding

theorem launchComplete_puts {v : Nat} {t : State} (hpending : z.putPending = false) (hcomplete : z.complete = true)
    (hput : (s.retireLaunch m z).unitAct m z.dom (z.rec_.getD 2 0).toNat (.stf (z.rec_.getD 3 0).toNat) none = (.ok v, t)) :
    exec (.launchComplete m n) s = .next (t.onModule m (withoutLaunch z.id)) := by
  rw [launchComplete_eq hfind hd3, hunbinding, hpending, hcomplete, putCompletion_ok hput]
  rfl

theorem launchComplete_retries {v : Nat} {t : State} (hpending : z.putPending = true) (hflt : ((s.module m).queue z.queue).flt = false)
    (hfaulted : ((s.module m).queue z.queue).faulted = []) (hwaits : (s.module m).recordWaits z.queue = false)
    (hput : s.unitAct m z.dom (z.rec_.getD 2 0).toNat (.stf (z.rec_.getD 3 0).toNat) none = (.ok v, t)) :
    exec (.launchComplete m n) s = .next (t.onModule m (withoutLaunch z.id)) := by
  rw [launchComplete_eq hfind hd3, hunbinding, hpending, hflt, hfaulted, hwaits, putCompletion_ok hput]
  rfl
end

/-- A launch marked when nothing of it is left (15 R355). -/
def marked (s : State) (m : Nat) (l : Launch) : Launch := { l with complete := l.complete || !(s.hasTask m l.id || s.hasWork m l.id) }

theorem launches_markComplete (s : State) (m : Nat) (x : Machine.Module) : (s.markComplete m x).launches = x.launches.map (marked s m) := by
  refine List.map_congr_left fun l _ => ?_
  unfold marked
  split
  case isTrue h => simp [h]
  case isFalse h => simp [h]

theorem get_map_entry {α : Type} (d : α) (f : Nat × α → Nat × α) (hf : ∀ p, (f p).1 = p.1) (t : Tab α) (k : Nat) (hd : (f (k, d)).2 = d) :
    Tab.get d (t.map f) k = (f (k, Tab.get d t k)).2 := by
  induction t with
  | nil => exact hd.symm
  | cons p r ih =>
    obtain ⟨j, v⟩ := p
    rw [List.map_cons, ← Prod.mk.eta (p := f (j, v)), hf, Tab.get, Tab.get, ih]
    split
    case isTrue h => rw [show j = k from h]
    case isFalse => rfl

/-- A module with its number, marked when one of its launches was not complete. -/
def watchEntry (s : State) (p : Nat × Machine.Module) : Nat × Machine.Module := if p.2.launches.any fun l => !l.complete then (p.1, s.markComplete p.1 p.2) else p

theorem launches_watchEntry (s : State) (p : Nat × Machine.Module) : (watchEntry s p).2.launches = p.2.launches.map (marked s p.1) := by
  unfold watchEntry
  split
  case isTrue => exact launches_markComplete ..
  case isFalse hall =>
    symm
    refine List.map_congr_left (g := id) (fun l hl => ?_) |>.trans (List.map_id _)
    have hcomplete : l.complete = true := by
      rw [← Bool.not_eq_false]
      exact fun h => hall (List.any_eq_true.mpr ⟨l, hl, by simpa using h⟩)
    unfold marked
    rw [hcomplete, Bool.true_or, ← hcomplete]
    rfl

/-- The launches of a module after the watch of 15 R355. -/
theorem launches_watchLaunches (s : State) (m : Nat) : (s.watchLaunches.module m).launches = (s.module m).launches.map (marked s m) := by
  have hkey : ∀ p, (watchEntry s p).1 = p.1 := fun p => by
    unfold watchEntry
    split <;> rfl
  have hfresh : (watchEntry s (m, Module.fresh)).2 = Module.fresh := rfl
  have hentry := get_map_entry Module.fresh (watchEntry s) hkey s.modules m hfresh
  exact (congrArg Module.launches hentry).trans (launches_watchEntry ..)

end Sys2Proof.DispatchProofs
end

section
/-!
PROOFS. The spawn queue, evicted contexts, messages, threads that arrive and service threads (04 R98 to R100; 07 R175; 12 R303, R304; 14 R333,
R338): O45.
-/
namespace Sys2Proof.TaskProofs
open Sys2Proof Sys2Proof.Machine Sys2Proof.Laws Sys2Proof.LaunchProofs Sys2Proof.PlaceProofs Sys2Proof.HostProofs Sys2Proof.DispatchProofs

/-! The spawn queue (04 R98, R99). -/

/-- The task of a queue entry before it has a slot (12 R300). -/
def queuedTask (s : State) (a : QTask) : Thread :=
  { newTask a.dom a.launch (s.launchSc a.launch) a.va.toNat a.desc.toNat (descWin a.desc.toNat) with
    origin := if a.withFuture then 2 else 1
    future := a.future }

theorem startQueued_eq {s : State} {c k base : Nat} {a : QTask} (hroom : (s.core c).room 4 (descWin a.desc.toNat) = some (k, base)) :
    s.startQueued c a = s.startTask c k base (queuedTask s a) [a.arg, a.future] := by
  unfold State.startQueued
  dsimp only
  rw [hroom]
  rfl

/-- Slot `k` of core `c` holds the task of a queue entry, and the rest of a cluster's queue is `r` (04 R98). -/
def Started (s : State) (cl : Nat) (a : QTask) (r : List QTask) (t : State) (c k base : Nat) : Prop :=
  let e := a.desc.toNat; let th := t.thread c k
  (t.cluster cl).spawn = r ∧ th.st = .ready ∧ th.pc = descPc a.va.toNat e ∧ th.tsw = descTsw e ∧ th.win = descWin e ∧ th.base = base ∧
    th.dom = a.dom ∧ th.launch = a.launch ∧ th.future = a.future ∧ t.mem = s.mem ∧
    ∀ j < descWin e, t.gOf c k j = if j = 0 then a.arg else if j = 1 then a.future else 0

theorem started_startTask {s u : State} {cl c k base : Nat} {a : QTask} {r : List QTask} (hspawn : (u.cluster cl).spawn = r) (hmem : u.mem = s.mem) :
    Started s cl a r (u.startTask c k base (queuedTask u a) [a.arg, a.future]) c k base := by
  obtain ⟨cs, hcs⟩ := startTask_cores u c k base (queuedTask u a) [a.arg, a.future]
  have hregs : ∀ j, [a.arg, a.future].getD j 0 = if j = 0 then a.arg else if j = 1 then a.future else 0 := fun j => by
    match j with
    | 0 | 1 => rfl
    | j + 2 => rfl
  unfold Started
  rw [thread_startTask]
  refine ⟨?_, rfl, rfl, rfl, rfl, rfl, rfl, rfl, rfl, ?_, fun j hj => (gOf_startTask u c k base (queuedTask u a) _ hj).trans (hregs j)⟩
  · rw [hcs]
    exact hspawn
  · rw [hcs]
    exact hmem

theorem spawn_dropHead {s : State} {cl : Nat} {a : QTask} {r : List QTask} (hspawn : (s.cluster cl).spawn = a :: r) : ((s.dropHead cl).cluster cl).spawn = r := by
  unfold State.dropHead
  rw [cluster_onEng', hspawn]
  rfl

theorem spawnQueuePlace_eq {s : State} {cl c k base : Nat} {a : QTask} {r : List QTask} (hspawn : (s.cluster cl).spawn = a :: r) (hcore : s.coreFor cl a = some c)
    (hroom : (s.core c).room 4 (descWin a.desc.toNat) = some (k, base)) :
    exec (.spawnQueuePlace cl) s = .next ((s.dropHead cl).startTask c k base (queuedTask (s.dropHead cl) a) [a.arg, a.future]) := by
  rw [exec_spawnQueuePlace, execSpawnQueuePlace, hspawn]
  dsimp only
  rw [hcore]
  exact congrArg Host.Outcome.next (startQueued_eq hroom)

/-! Eviction and restore (14 R337 to R339). -/

/-- The context that an eviction by the scheduler saves (14 R339). -/
def evictedContext (s : State) (c k : Nat) : Context := ⟨c, (s.core c).ctxSerial, k, true, false, (s.thread c k).saved, s.regsOf c k⟩

/-- A context that is stored stands in the store, spilled or not (14 R337). -/
theorem storeContext_spec (s : State) (k : Context) : ∃ ctxs, s.storeContext k = { s with ctxs := ctxs } ∧ (k ∈ ctxs ∨ { k with spilled := true } ∈ ctxs) := by
  unfold State.storeContext
  dsimp only
  split
  · exact ⟨_, rfl, .inl (by simp)⟩
  · split
    · exact ⟨_, rfl, .inl (by simp)⟩
    · exact ⟨_, rfl, .inr (by simp)⟩

/-- A cluster that a thread waits for no longer (14 R339). -/
def withoutThread (c k : Nat) (x : Cluster) : Cluster :=
  { x with eng := { x.eng with lwait := x.eng.lwait.filter (· != threadName c k), ladle := x.eng.ladle.filter fun q => !q.2.heldFor c k } }

theorem cluster_leaveQueues (s : State) (c k cl : Nat) : (s.leaveQueues c k).cluster cl = withoutThread c k (s.cluster cl) :=
  get_map_snd (withoutThread c k) Cluster.fresh s.clusters cl

theorem spawn_leaveQueues (s : State) (c k cl : Nat) : ((s.leaveQueues c k).cluster cl).spawn = (s.cluster cl).spawn := by
  rw [cluster_leaveQueues]
  rfl

/-- What an eviction leaves: the context in its store, memory, and the spawn queues. -/
theorem evict_spec (s : State) (c k cl : Nat) : let t := (s.evict c k true).2
    t.mem = s.mem ∧ (t.cluster cl).spawn = (s.cluster cl).spawn ∧ (evictedContext s c k ∈ t.ctxs ∨ { evictedContext s c k with spilled := true } ∈ t.ctxs) := by
  obtain ⟨ctxs, hstore, hmem⟩ := storeContext_spec s (evictedContext s c k)
  have hevict : ∃ cs, (s.evict c k true).2 = { (s.storeContext (evictedContext s c k)).leaveQueues c k with cores := cs } := ⟨_, rfl⟩
  obtain ⟨cs, hcs⟩ := hevict
  rw [hcs, hstore]
  exact ⟨rfl, spawn_leaveQueues { s with ctxs := ctxs } c k cl, hmem⟩

/-- Nothing is evicted for an arrival while no core holds one (04 R99). -/
theorem schedulerEvict_eq {s : State} {cl c k : Nat} {a : QTask} {r : List QTask} (hspawn : (s.cluster cl).spawn = a :: r)
    (hheld : ∀ c ∈ clusterCores cl, (s.core c).held = []) (hfull : ∀ c ∈ s.taskCores cl a, (s.core c).room 4 (descWin a.desc.toNat) = none)
    (hvictim : s.evictionFor (s.taskCores cl a) 4 (descWin a.desc.toNat) = some (c, k)) (hleave : s.mayLeave c k = true) :
    exec (.schedulerEvict cl) s = .next (((s.evict c k true).2.dropHead cl).startQueued c a) := by
  have hwindow : ∀ x ∈ clusterCores cl, s.heldWindow x = none := fun x hx => by
    unfold State.heldWindow
    rw [hheld x hx]
  rw [exec_schedulerEvict, execSchedulerEvict]
  split
  case h_1 c' k' hfound =>
    obtain ⟨x, hx, hsome⟩ := List.exists_of_findSome?_eq_some hfound
    simp [hwindow x hx] at hsome
  case h_2 =>
    rw [hspawn]
    dsimp only
    rw [if_neg (by simpa using hfull), hvictim]
    exact congrArg Host.Outcome.next (if_pos hleave)

/-- A context without a region or a wait is restored as it was saved (14 R338). -/
theorem restore_eq {s : State} {k : Context} (hckpt : k.th.ckpt = none) (hwait : k.th.wait = .none) (slot base : Nat) :
    s.restore k slot base = (s.dropContext k).putThread k.cid slot base k.th k.regs := by
  have hnone : (((s.dropContext k).putThread k.cid slot base k.th k.regs).thread k.cid slot).wait = .none :=
    (congrArg Thread.wait (thread_putThread ..)).trans hwait
  unfold State.restore
  rw [hckpt]
  dsimp only
  rw [if_neg (by simp)]
  unfold State.settleWait
  rw [hnone]

theorem contextRestore_eq {s : State} {cl slot base : Nat} {k : Context} (hd3 : (s.module (clusterModule cl)).d3hot = false)
    (hfirst : (clusterCores cl).findSome? s.restorable = some k) (hroom : s.restoreRoom k = some (slot, base)) :
    exec (.contextRestore cl) s = .next (s.restore k slot base) := by
  rw [exec_contextRestore, execContextRestore, hd3, if_neg (by decide), hfirst]
  dsimp only
  rw [hroom]

/-! Messages (12 R303, R304; 04 R100). -/

/-- A core at which a message is looked at: nothing holds it back, and the core is its domain's to use (04 R100; 14 R347, R348). -/
structure Looked (s : State) (g : Message) : Prop where
  d3hot : (s.module (cidModule g.dst)).d3hot = false
  shut : s.shuttered g.dst = false
  held : (s.core g.dst).held = []
  fused : s.fused g.dst = false
  available : s.clusterAvailable (cidCluster g.dst) g.dom = true
  foreign : s.coreForeign g.dst g.dom = false

theorem Looked.passes {s : State} {g : Message} (h : Looked s g) :
    ¬((s.module (cidModule g.dst)).d3hot || s.shuttered g.dst || s.holdsMessage g.dst) = true ∧ ¬s.fused g.dst = true ∧
      ¬(!s.clusterAvailable (cidCluster g.dst) g.dom || s.coreForeign g.dst g.dom) = true := by
  have hnone : s.holdsMessage g.dst = false := by
    unfold State.holdsMessage
    rw [h.held]
    rfl
  rw [h.d3hot, h.shut, hnone, h.fused, h.available, h.foreign]
  decide

section
variable {s : State} {n src dst vc : Nat} {port : Option Nat} {crossed : Bool} {g : Message}
  (hdeliverable : s.deliverable n = some ⟨src, dst, vc, port, crossed, .message g⟩) (hlooked : Looked s g)
include hdeliverable hlooked

theorem messageArrival_unserved (hserved : (s.takePacket n).served g = .unserved) :
    exec (.messageArrival n) s = .next ((s.takePacket n).messageFailed (cidModule g.dst) Cause.noHandler g) := by
  obtain ⟨hwait, hfused, hforeign⟩ := hlooked.passes
  rw [exec_messageArrival, execMessageArrival, receive_eq hdeliverable]
  refine congrArg Host.Outcome.next ((if_neg hwait).trans ((if_neg hfused).trans ((if_neg hforeign).trans ?_)))
  rw [hserved]

theorem messageArrival_waits (hserved : (s.takePacket n).served g = .waits) : exec (.messageArrival n) s = .next s := by
  obtain ⟨hwait, hfused, hforeign⟩ := hlooked.passes
  rw [exec_messageArrival, execMessageArrival, receive_eq hdeliverable]
  refine congrArg Host.Outcome.next ((if_neg hwait).trans ((if_neg hfused).trans ((if_neg hforeign).trans ?_)))
  rw [hserved]

variable {va e : Nat} {l : Nat × Nat} (hserved : (s.takePacket n).served g = .entry va e l)
include hserved

theorem messageArrival_held (hstart : (s.takePacket n).startMessage g va e l = none) :
    exec (.messageArrival n) s = .next ((s.takePacket n).onCore g.dst fun c => { c with held := c.held ++ [.msg src g va e l] }) := by
  obtain ⟨hwait, hfused, hforeign⟩ := hlooked.passes
  rw [exec_messageArrival, execMessageArrival, receive_eq hdeliverable]
  refine congrArg Host.Outcome.next ((if_neg hwait).trans ((if_neg hfused).trans ((if_neg hforeign).trans ?_)))
  rw [hserved]
  dsimp only
  rw [hstart]

theorem messageArrival_starts {t : State} (hstart : (s.takePacket n).startMessage g va e l = some t) : exec (.messageArrival n) s = .next t := by
  obtain ⟨hwait, hfused, hforeign⟩ := hlooked.passes
  rw [exec_messageArrival, execMessageArrival, receive_eq hdeliverable]
  refine congrArg Host.Outcome.next ((if_neg hwait).trans ((if_neg hfused).trans ((if_neg hforeign).trans ?_)))
  rw [hserved]
  dsimp only
  rw [hstart]
end

/-- The task that serves a message, before it has a slot (12 R304). -/
def messageTask (s : State) (g : Message) (va e : Nat) (tl : Nat × Nat) : Thread :=
  { newTask g.dom (s.messageLaunch g.dst g.dom tl) (s.launchSc (s.messageLaunch g.dst g.dom tl)) va e (descWin e) with origin := 3, cls := g.cls }

section
variable {s : State} {g : Message} (hready : (s.restorable g.dst).isSome = false)
include hready

theorem startMessage_none {e : Nat} (va : Nat) (l : Nat × Nat) (hroom : (s.core g.dst).room 0 (descWin e) = none) : s.startMessage g va e l = none := by
  unfold State.startMessage
  rw [hready, if_neg (by decide), hroom]
  rfl

theorem startMessage_some {e k base : Nat} (va : Nat) (l : Nat × Nat) (hroom : (s.core g.dst).room 0 (descWin e) = some (k, base)) :
    s.startMessage g va e l = some (s.startTask g.dst k base (messageTask s g va e l) g.payload) := by
  unfold State.startMessage
  rw [hready, if_neg (by decide), hroom]
  rfl
end

/-! Threads that arrive (07 R175). -/

/-- A migrating thread as it lands: READY from the core's next cycle, without a region. -/
def landed (s : State) (g : Migrant) : Thread := { g.th with st := .ready, pipe := (s.core g.dst).cyc, ckpt := none }

section
variable {s : State} {n src dst vc : Nat} {port : Option Nat} {crossed : Bool}

theorem migrationLanding_lands {g : Migrant} {k base : Nat} (hdeliverable : s.deliverable n = some ⟨src, dst, vc, port, crossed, .migrate g⟩) (hnamed : g.anyCore = false)
    (hd3 : (s.module (cidModule g.dst)).d3hot = false) (hshut : s.shuttered g.dst = false) (hheld : (s.core g.dst).held = [])
    (hopen : s.coreOpen g.dst g.th.dom = true) (hready : ((s.takePacket n).restorable g.dst).isSome = false)
    (hroom : ((s.takePacket n).core g.dst).room 0 g.th.win = some (k, base)) : let u := s.takePacket n
    exec (.migrationLanding n) s = .next ((u.putThread g.dst k base (landed u g) g.regs).sendRaw (cidModule g.dst) (coreSource g.dst) (cidKey g.srcCid) 3
      (.migAck g.srcCid g.srcSlot)) := by
  have hcore : (s.takePacket n).landingCore g = some g.dst := by
    unfold State.landingCore
    rw [hnamed]
    rfl
  have hnone : s.holdsMigrant g.dst = false := by
    unfold State.holdsMigrant
    rw [hheld]
    rfl
  have hland : (s.takePacket n).land g.dst g = some (((s.takePacket n).putThread g.dst k base (landed (s.takePacket n) g) g.regs).sendRaw (cidModule g.dst)
      (coreSource g.dst) (cidKey g.srcCid) 3 (.migAck g.srcCid g.srcSlot)) := by
    unfold State.land
    rw [hready, if_neg (by decide), hroom]
    rfl
  rw [exec_migrationLanding, execMigrationLanding, receive_eq hdeliverable]
  dsimp only
  rw [hcore]
  refine congrArg Host.Outcome.next ((if_neg (by rw [hd3, hshut, hnone, hopen]; decide)).trans ?_)
  rw [hland]

theorem migrationAck_frees {c k d : Nat} (hdeliverable : s.deliverable n = some ⟨src, dst, vc, port, crossed, .migAck c k⟩)
    (hwait : (s.thread c k).wait = .core (.migrate d)) : exec (.migrationAck n) s = .next ((s.takePacket n).onThread c k fun _ => Thread.fresh) := by
  rw [exec_migrationAck, execMigrationAck, receive_eq hdeliverable]
  dsimp only
  rw [show ((s.takePacket n).thread c k).wait = .core (.migrate d) from hwait]
end

/-! Service threads (14 R333). -/

/-- A domain whose service thread is a thread. -/
def served (uid : Nat) (d : Domain) : Domain := { d with service := some uid, wantService := false }

/-- The service thread of a domain before it has a slot: it is privileged. -/
def serviceTask (dom va e : Nat) : Thread := { newTask dom none false va e (descWin e) with svc := true }.setTswBit 13 true

theorem k_serviceTask (dom va e : Nat) : (serviceTask dom va e).k = true := by
  unfold serviceTask Thread.k Thread.tswBit
  rw [getLsbD_setTswBit]
  rfl

theorem k_placed (t : Thread) (uid base : Nat) : ({ t with uid := uid, base := base } : Thread).k = t.k := rfl

section
variable {s t : State} {m slot e : Nat} {d : Domain} (hslot : Tab.find (s.module m).domains slot = some d) (hwant : d.wantService = true) (hnone : d.service = none)
  (hunbinding : d.unbinding = false) (hread : s.readWhole (m * 2 ^ 14) d.tag d.set.service.toNat 8 = (.ok e, t)) (hdesc : descBad e = false)
include hslot hwant hnone hunbinding hread hdesc

/-- The service thread starts on one of the cores that may take it (log entry 22). -/
theorem serviceThreadStart_starts (hcores : t.serviceCores m d.tag (descWin e) ≠ []) : ∃ c ∈ t.serviceCores m d.tag (descWin e), ∃ k base u,
    u = { t with tick := t.tick + 1 } ∧
    exec (.serviceThreadStart m slot) s = .next ((u.startTask c k base (serviceTask d.tag d.set.service.toNat e) []).onDomain m d.tag (served (u.uids + 1))) := by
  let cores := t.serviceCores m d.tag (descWin e)
  have hlt : (t.free 333).1 % cores.length < cores.length := Nat.mod_lt _ (List.length_pos_iff.mpr hcores)
  obtain ⟨c, hc⟩ : ∃ c, cores[(t.free 333).1 % cores.length]? = some c := ⟨_, List.getElem?_eq_getElem hlt⟩
  have hin : c ∈ cores := List.mem_of_getElem? hc
  obtain ⟨⟨k, base⟩, hroom⟩ : ∃ p, (t.core c).room 4 (descWin e) = some p := by
    have hfit := (List.mem_filter.mp hin).2
    simp only [Bool.and_eq_true] at hfit
    exact Option.isSome_iff_exists.mp hfit.2
  refine ⟨c, hin, k, base, _, rfl, ?_⟩
  rw [exec_serviceThreadStart, execServiceThreadStart, hslot]
  dsimp only
  rw [hwant, hnone, hunbinding, if_neg (by decide), hread]
  dsimp only
  rw [hdesc, if_neg (by decide)]
  dsimp only [State.free]
  rw [show cores[(Config.freeWord 333 t.tick).toNat % cores.length]? = some c from hc]
  dsimp only
  rw [show (State.core { t with tick := t.tick + 1 } c).room 4 (descWin e) = some (k, base) from hroom]
  dsimp only
  rw [startTask_uids]
  rfl
end

/-! The obligation, from one lemma for each step. -/

/-- Settles O45: each clause from the lemma about its request or step. -/
theorem hostAndLaunches : Obligations.HostAndLaunches := by
  unfold Obligations.HostAndLaunches
  intro m q n off cl slot s x y ends queue reply mem aer bar w
  refine ⟨?host, ?completion, ?take, ?unit, launches_watchLaunches s m, ?spawn, ?restore, ?arrivals, ?service⟩
  case host =>
    intro hpresent
    refine ⟨fun st data pz len op v hturned i hi => ?_, fun hturned => ⟨fun hq => ⟨?_, ?_, ?_⟩, ?read, ?write, ?atomic⟩⟩
    · have hgives : ∀ {k : State → State}, exec i s = .next (s.hostRequest m k) →
          ends i fun t => reply t = ⟨st, []⟩ ∧ mem t ∧ queue t = y ∧ t.cores = s.cores := fun hrun => by
        refine ⟨_, hrun.trans (congrArg Host.Outcome.next (hostRequest_turnedAway hpresent hturned _)), ?_⟩
        obtain ⟨hreply, hqueue⟩ := answerHost_facts (s := s) (m := m) st []
        exact ⟨hreply, rfl, hqueue q, rfl⟩
      simp only [List.mem_cons, List.not_mem_nil, or_false] at hi
      obtain rfl | rfl | rfl | rfl | rfl | rfl := hi
      · exact hgives (exec_putWindowWrite ..)
      · exact hgives (exec_deviceMemoryRead ..)
      · exact hgives (exec_deviceMemoryWrite ..)
      · exact hgives (exec_completerAtomicop ..)
      · exact hgives (exec_qstatWrite ..)
      · exact hgives (exec_registerWrite ..)
    · intro data pz hbad
      obtain ⟨t, hrun, hqueue, haer, hmem⟩ := putWindowWrite_malformed hpresent hturned hq (off := off) (data := data) (pz := pz)
        (by rw [putBad_iff]; exact hbad.symm)
      exact ⟨t, hrun, hqueue, haer, hmem⟩
    · intro data v p t1 t2 h8 hlength hin hen va i htouch hprobe
      have hrun := putWindowWrite_word hpresent hturned hq h8 hlength hin hen htouch hprobe
      refine ⟨fun hfull => ⟨_, hrun.trans (congrArg Host.Outcome.next (if_pos (by simpa [bit] using hfull))), queue_onQueue .., rfl⟩,
        fun hempty => hrun.trans (congrArg Host.Outcome.next (if_neg (by simp [bit, hempty])))⟩
    · exact fun v => ⟨_, qstatWrite_eq hpresent hturned hq v, rfl, queue_onQueue ..⟩
    case read =>
      intro len hend hlen i
      have hread := deviceMemoryRead_eq hpresent hturned hend hlen
      refine ⟨fun hbooted => ⟨_, hread.trans (congrArg Host.Outcome.next (if_pos (by rw [show (s.module m).booted = false from hbooted]; rfl))),
        (answerHost_facts ..).1, rfl⟩, fun hbooted hdead => ?_, fun hbooted hlive => ?_⟩
      · have hgo : ¬(!(s.module m).booted) = true := by rw [show (s.module m).booted = true from hbooted]; decide
        exact ⟨_, hread.trans (congrArg Host.Outcome.next ((if_neg hgo).trans (if_pos hdead))), (answerHost_facts ..).1, rfl⟩
      · have hgo : ¬(!(s.module m).booted) = true := by rw [show (s.module m).booted = true from hbooted]; decide
        have hreply := (answerHost_facts (s := s) (m := m) (if s.mem.poison.any fun w => rangesMeet (8 * w) 8 bar len then .poisoned else .ok)
          ((List.range len).map fun j => s.mem.byte (bar + j))).1
        obtain ⟨hsound, hpoisoned⟩ := readPoison_spec (s := s) bar len
        refine ⟨_, hread.trans (congrArg Host.Outcome.next ((if_neg hgo).trans (if_neg (Bool.eq_false_iff.mp hlive)))), congrArg HostReply.data hreply, rfl,
          fun h => (congrArg HostReply.status hreply).trans (if_neg (Bool.eq_false_iff.mp (hsound h))),
          fun j hj hin => (congrArg HostReply.status hreply).trans (if_pos (hpoisoned j hj hin))⟩
    case write =>
      intro data pz i
      refine ⟨fun hbooted => deviceMemoryWrite_unbooted hpresent hturned hbooted, fun h8 hend hlength hbooted hlive => ⟨fun hpz => ?_, fun hpz => ?_⟩⟩
      · subst hpz
        exact ⟨_, (deviceMemoryWrite_word hpresent hturned hend hbooted hlive h8 hlength false).trans (congrArg Host.Outcome.next (if_neg (by decide))),
          takes_write s.mem bar 8 _, same_write s.mem bar 8 _⟩
      · subst hpz
        have hspec := poisonedWrite_spec s m bar (ofBytes data)
        rw [show 8 * (bar / 8) % 2 ^ 40 = off by omega] at hspec
        exact ⟨_, (deviceMemoryWrite_word hpresent hturned hend hbooted hlive h8 hlength true).trans (congrArg Host.Outcome.next (if_pos rfl)), hspec⟩
    case atomic =>
      intro op v hbooted h8 hend hlive hsound old hop
      obtain ⟨t, ht⟩ : ∃ t, AtomicDone s bar op v t := by
        obtain ⟨c, hc⟩ | ⟨c, z, rfl, rfl⟩ := hop
        · simp only [List.mem_cons, List.not_mem_nil, or_false, Prod.mk.injEq] at hc
          obtain ⟨rfl, rfl⟩ | ⟨rfl, rfl⟩ := hc
          · exact atomicDone_fetchAdd hsound c
          · exact atomicDone_swap hsound c
        · exact atomicDone_cas hsound c z
      exact ⟨_, completerAtomicop_eq hpresent hturned hend hbooted hlive h8 ht.size ht.carried (ht.performs m off), ht.takes, ht.same, (answerHost_facts ..).1⟩
  case completion =>
    intro hpresent hd3 c ws u i
    refine ⟨fun hnone => ⟨_, hostCompletion_unexpected hpresent hd3 c ws hnone, congrArg Module.aer (module_onModule ..), rfl⟩, ?_⟩
    intro h hsome howner hreaches replies z hop
    have hsettled := module_onModule u m (settled n)
    have hreach : (u.onModule m (settled n)).reaches m (cidKey h.req.cid) = true := (reaches_on u m (settled n) rfl ..).trans hreaches
    have hreply : ∀ {a}, (u.onModule m (settled n)).completed m h c = (a, u.onModule m (settled n)) → replies i u a := fun {a} hcompleted => by
      obtain ⟨port, hanswer⟩ := answerOwner_core howner hreach a (ladleCode h c a)
      have hrun := hostCompletion_expected hpresent hd3 c ws hsome
      dsimp only at hrun
      rw [hcompleted] at hrun
      exact ⟨_, hrun.trans (congrArg Host.Outcome.next hanswer), rfl, congrArg Module.outstanding hsettled, port, rfl⟩
    obtain ⟨hok, hunsupported, habort, hpoison⟩ := completed_load (m := m) (t := u.onModule m (settled n)) hop
    refine ⟨fun hc hsound => hreply (hc ▸ hok hsound), fun hc => hreply (hc ▸ hunsupported), fun hc => hreply (hc ▸ habort),
      fun hc htol => hreply (hc ▸ hpoison htol), fun b => ?_⟩
    have hreach' : ((s.onModule m (settled n)).raiseAer m 3).reaches m (cidKey h.req.cid) = true :=
      (reaches_on _ m (fun x => { x with aer := x.aer ++ [3] }) rfl ..).trans ((reaches_on s m (settled n) rfl ..).trans hreaches)
    obtain ⟨port, hanswer⟩ := answerOwner_core howner hreach' (.fault Cause.hostTimeout) Cause.hostTimeout
    refine ⟨_, (hostCompletionTimeout_load hd3 hsome hop b).trans (congrArg Host.Outcome.next hanswer), rfl, ?_, port, rfl⟩
    have hraised := module_onModule (s.onModule m (settled n)) m fun x => { x with aer := x.aer ++ [3] }
    exact (congrArg Module.outstanding hraised).trans (congrArg Module.outstanding (module_onModule s m (settled n)))
  case take =>
    intro k d hq htakes hdom slot i
    have htag : d.tag = y.dom := tag_of_domain? hdom
    refine ⟨fun c t1 hwait => ⟨_, launchSlotTake_fails hq htakes hdom hwait, queue_onQueue ..⟩, ?_⟩
    intro v ws e t1 t2 t3 t4 r hwait hwords hentry htable hempty z counts
    have hrun : exec i s = .next (t4.onQueue m q (taken ws e (recordRefusal d d.tag ws (some e.toNat) true))) := by
      refine (launchSlotTake_takes hq htakes hdom hwait hwords).trans (congrArg Host.Outcome.next (takeRecord_eq ?_ htable hempty))
      rw [htag]
      exact hentry
    refine ⟨fun hgood => ⟨_, hrun, rfl, ?_⟩, fun c hbad => ⟨_, hrun, rfl, ?_⟩⟩
    · rw [hgood]
      exact queue_onQueue ..
    · rw [hbad]
      exact queue_onQueue ..
  case unit =>
    intro hd3
    refine ⟨fun r hrefusal => ?refusal, fun c va r hfaulted => ?fault, fun hclaimed => ?dispatch, fun z hfind => ?complete⟩
    case refusal =>
      intro put i
      refine ⟨fun v t1 hput => ⟨_, launchRefusalPut_ok hd3 hrefusal hput, rfl, queue_onQueue ..⟩,
        fun c t1 hput => ⟨_, launchRefusalPut_fails hd3 hrefusal hput, rfl, queue_onQueue ..⟩⟩
    case fault =>
      exact ⟨_, launchQueueFault_eq hd3 hfaulted, rfl, queue_onQueue ..⟩
    case dispatch =>
      intro i
      refine ⟨fun hselect => dispatch_none hd3 hclaimed hselect, ?_⟩
      intro l lv k d e t1 hselect hdom htable hread u z
      have hrun := dispatch_some hd3 hclaimed hselect hdom
      have hu : queue u = readDone ((t1.module m).queue q) := queue_onQueue ..
      refine ⟨fun c hbad => ⟨_, hrun.trans (congrArg Host.Outcome.next (dispatchOf_refused hread htable hbad)), rfl, ?_⟩, fun hgood => ?_⟩
      · rw [hu]
        exact queue_onQueue ..
      · have hchecked := hrun.trans (congrArg Host.Outcome.next (dispatchOf_checked hread htable hgood))
        refine ⟨fun hplace => ?_, fun cores hplace => ⟨_, ?_, places_spec u m q lv ((u.eligibleLatches m).map fun e => e.2.prio) z cores⟩⟩
        · exact hchecked.trans (congrArg Host.Outcome.next (by rw [show (t1.onQueue m q readDone).place m (readLatch l e) = none from hplace]; rfl))
        · exact hchecked.trans (congrArg Host.Outcome.next (by rw [show (t1.onQueue m q readDone).place m (readLatch l e) = some cores from hplace]; rfl))
    case complete =>
      intro i put gone
      refine ⟨fun h => launchComplete_unbinding hfind hd3 h, fun hp hc => launchComplete_incomplete hfind hd3 hp hc, fun hun => ⟨?_, ?_⟩⟩
      · intro v t1 hp hc hput
        exact ⟨_, launchComplete_puts hfind hd3 hun hp hc hput, congrArg Module.launches (module_onModule ..), rfl⟩
      · intro v t1 hp hflt hfaulted hwaits hput
        exact ⟨_, launchComplete_retries hfind hd3 hun hp hflt hfaulted hwaits hput, congrArg Module.launches (module_onModule ..), rfl⟩
  case spawn =>
    intro a r hspawn e win started
    refine ⟨fun cid k base hcore hroom => ⟨_, spawnQueuePlace_eq hspawn hcore hroom, started_startTask (spawn_dropHead hspawn) rfl⟩, ?_⟩
    intro cid k j base hheld hfull hvictim hleave hroom
    obtain ⟨hmem, hqueue, hstored⟩ := evict_spec s cid k cl
    have hrun := (schedulerEvict_eq hspawn hheld hfull hvictim hleave).trans (congrArg Host.Outcome.next (startQueued_eq hroom))
    refine ⟨_, hrun, started_startTask (spawn_dropHead (hqueue.trans hspawn)) hmem, ?_⟩
    obtain ⟨cs, hcs⟩ := startTask_cores ((s.evict cid k true).2.dropHead cl) cid j base (queuedTask ((s.evict cid k true).2.dropHead cl) a) [a.arg, a.future]
    rw [hcs]
    exact hstored.elim (fun hin => ⟨_, hin, rfl, rfl, rfl, rfl, rfl⟩) fun hin => ⟨_, hin, rfl, rfl, rfl, rfl, rfl⟩
  case restore =>
    intro k slot base hd3 hfirst hroom hckpt hwait
    obtain ⟨cs, hcs⟩ := putThread_cores (s.dropContext k) k.cid slot base k.th k.regs
    refine ⟨_, (contextRestore_eq hd3 hfirst hroom).trans (congrArg Host.Outcome.next (restore_eq hckpt hwait slot base)), thread_putThread .., ?_,
      mem_putThread .., fun j hj => gOf_putThread _ _ _ _ _ _ hj⟩
    rw [hcs]
    rfl
  case arrivals =>
    rintro ⟨src, dst, vc, port, crossed, body⟩ hdeliverable u
    refine ⟨?message, ?migration, ?ack⟩
    case message =>
      rintro g rfl hd3 hshut hheld hfused havailable hforeign i
      have hlooked : Looked s g := ⟨hd3, hshut, hheld, hfused, havailable, hforeign⟩
      refine ⟨fun hserved => messageArrival_unserved hdeliverable hlooked hserved, fun hserved => messageArrival_waits hdeliverable hlooked hserved, ?_⟩
      intro va e l hserved hready
      refine ⟨fun hroom => ?_, fun k base hroom => ?_⟩
      · refine ⟨_, messageArrival_held hdeliverable hlooked hserved (startMessage_none hready va l hroom), ?_, rfl, rfl⟩
        rw [State.core_onCore_same]
        exact congrArg (· ++ [Arrival.msg src g va e l]) hheld
      · refine ⟨_, messageArrival_starts hdeliverable hlooked hserved (startMessage_some hready va l hroom), ?_⟩
        obtain ⟨cs, hcs⟩ := startTask_cores u g.dst k base (messageTask u g va e l) g.payload
        dsimp only
        rw [thread_startTask]
        refine ⟨rfl, rfl, rfl, rfl, rfl, rfl, ?_, ?_, fun j hj => gOf_startTask u g.dst k base (messageTask u g va e l) g.payload hj⟩
        · rw [hcs]
          rfl
        · rw [hcs]
    case migration =>
      rintro g k base rfl hnamed hd3 hshut hheld hopen hready hroom
      refine ⟨_, migrationLanding_lands hdeliverable hnamed hd3 hshut hheld hopen hready hroom, thread_putThread .., ?_, mem_putThread .., ?_⟩
      · exact fun j hj => gOf_putThread u g.dst k base (landed u g) g.regs hj
      · obtain ⟨cs, hcs⟩ := putThread_cores u g.dst k base (landed u g) g.regs
        rw [hcs]
        exact ⟨_, rfl⟩
    case ack =>
      rintro c k d rfl hwait
      exact ⟨_, migrationAck_frees hdeliverable hwait, State.thread_onThread_same .., rfl, rfl⟩
  case service =>
    intro d e t1 hslot hwant hnone hunbinding hread hdesc hcores
    obtain ⟨c, hin, k, base, u, rfl, hrun⟩ := serviceThreadStart_starts hslot hwant hnone hunbinding hread hdesc hcores
    obtain ⟨cs, hcs⟩ := startTask_cores { t1 with tick := t1.tick + 1 } c k base (serviceTask d.tag d.set.service.toNat e) []
    refine ⟨_, hrun, ?_, c, hin, k, ?_⟩
    · rw [hcs]
      rfl
    · dsimp only
      rw [State.onDomain, ResetProofs.thread_onModule, thread_startTask]
      exact ⟨rfl, rfl, (k_placed ..).trans (k_serviceTask ..), rfl, rfl⟩

end Sys2Proof.TaskProofs
end
section
/-!
PROOFS. Translation tables and walks (04 R91 to R94, R393), and an operation performed at its home (12 R282 to R297; 07 R155 to R158, R178 to R183): O44.
-/
namespace Sys2Proof.WalkProofs
open Sys2Proof Sys2Proof.Machine Sys2Proof.Laws Sys2Proof.LaunchProofs Sys2Proof.HostProofs

/-! Table entries (04 R92, R93). -/

theorem toNat_ofNat_read (mem : Memory) (a : Nat) : (BitVec.ofNat 64 (mem.read a 8)).toNat = mem.read a 8 := by
  rw [BitVec.toNat_ofNat, Nat.mod_eq_of_lt (read_lt mem a 8)]

theorem levelIndex_eq {level : Nat} (input : Nat) (h : level ≤ 3) :
    levelIndex level input = if level = 0 then input / 2 ^ 16 % 32 else input / 2 ^ (12 + 9 * level) % 512 := by
  match level, h with
  | 0, _ | 1, _ | 2, _ | 3, _ => rfl

theorem pageSize_eq {level : Nat} (h : level < 3) : pageSize level = 2 ^ (if level = 0 then 16 else 12 + 9 * level) := by
  match level, h with
  | 0, _ | 1, _ | 2, _ => rfl

theorem nodeSize_eq {level : Nat} (h : level ≠ 0) : nodeSize (level - 1) = 2 ^ (if level = 1 then 8 else 12) := by
  unfold nodeSize
  by_cases h1 : level = 1
  · rw [if_pos (by omega), if_pos h1]
    rfl
  · rw [if_neg (by omega), if_neg h1]
    rfl

section
variable (host : Bool) {level : Nat} (e : Word)

/-- The address that an entry holds (04 R92). -/
def entryAddr : Nat := (e.extractLsb' 0 52).toNat

/-- A leaf entry that keeps R92 and R93. -/
def LeafOk (level : Nat) : Prop :=
  level ≠ 3 ∧ e.extractLsb' 52 4 = 0 ∧ entryAddr e % 2 ^ (if level = 0 then 16 else 12 + 9 * level) = 0 ∧ (host = true → e.getLsbD 61 = true) ∧
    (e.getLsbD 61 = false → entryAddr e < 2 ^ 31) ∧ (host = false → e.getLsbD 61 = true → e.getLsbD 59 = false)

/-- A non-leaf entry that keeps R92 and R93. -/
def NodeOk (level : Nat) : Prop :=
  level ≠ 0 ∧ e.extractLsb' 52 4 = 0 ∧ e.extractLsb' 57 4 = 0 ∧ e.getLsbD 61 = host ∧ entryAddr e < 2 ^ 36 ∧
    entryAddr e % 2 ^ (if level = 1 then 8 else 12) = 0

theorem field_low_addr (k : Nat) (h : k ≤ 52) : field e.toNat 0 k = entryAddr e % 2 ^ k := by
  rw [entryAddr, ← field_toNat, field, field, Nat.mod_mod_of_dvd _ (Nat.pow_dvd_pow 2 h)]

theorem field_high_addr (k : Nat) (h : k ≤ 52) : field e.toNat k (52 - k) = entryAddr e / 2 ^ k := by
  have hsplit : 2 ^ 52 = 2 ^ k * 2 ^ (52 - k) := by rw [← Nat.pow_add, Nat.add_sub_cancel' h]
  rw [entryAddr, ← field_toNat, field, field, Nat.pow_zero, Nat.div_one, hsplit, Nat.mod_mul_right_div_self]

theorem leafBad_eq_false_iff (hlevel : level ≤ 3) : leafBad host level e.toNat = false ↔ LeafOk host e level := by
  have hsite : field e.toNat 52 4 = 0 ↔ e.extractLsb' 52 4 = 0 := (FloatScalarProofs.extract_eq_zero_iff e 52 4).symm
  have hhigh : field e.toNat 31 21 = 0 ↔ entryAddr e < 2 ^ 31 := by
    rw [field_high_addr e 31 (by decide), Nat.div_eq_zero_iff_lt (by decide)]
  have haddr : field e.toNat 0 52 = entryAddr e := field_toNat ..
  by_cases h3 : level = 3
  · simp [leafBad, LeafOk, h3]
  · have hpage := pageSize_eq (level := level) (by omega)
    simp only [leafBad, LeafOk, bit_toNat, haddr, hpage, Bool.or_eq_false_iff, Bool.and_eq_false_iff, Bool.not_eq_false', decide_eq_false_iff_not,
      bne_eq_false_iff_eq, ne_eq, hsite, hhigh, imp_iff_not_or, Bool.not_eq_true, Bool.not_eq_false, and_assoc, or_assoc]
    tauto

theorem flags_eq_zero_iff : e.extractLsb' 57 4 = 0 ↔ e.getLsbD 60 = false ∧ e.getLsbD 59 = false ∧ e.getLsbD 58 = false ∧ e.getLsbD 57 = false := by
  constructor
  · intro h
    have hbit : ∀ i < 4, e.getLsbD (57 + i) = false := fun i hi => by simpa [hi] using congrArg (fun v => v.getLsbD i) h
    exact ⟨hbit 3 (by decide), hbit 2 (by decide), hbit 1 (by decide), hbit 0 (by decide)⟩
  · rintro ⟨h60, h59, h58, h57⟩
    ext i hi
    match i, hi with
    | 0, _ | 1, _ | 2, _ | 3, _ => simpa

theorem nodeBad_eq_false_iff : nodeBad host level e.toNat = false ↔ NodeOk host e level := by
  have hsite : field e.toNat 52 4 = 0 ↔ e.extractLsb' 52 4 = 0 := (FloatScalarProofs.extract_eq_zero_iff e 52 4).symm
  have hhigh : field e.toNat 36 16 = 0 ↔ entryAddr e < 2 ^ 36 := by
    rw [field_high_addr e 36 (by decide), Nat.div_eq_zero_iff_lt (by decide)]
  by_cases h0 : level = 0
  · simp [nodeBad, NodeOk, h0]
  · have hlow : entryAddr e % 2 ^ 36 % 2 ^ (if level = 1 then 8 else 12) = entryAddr e % 2 ^ (if level = 1 then 8 else 12) :=
      Nat.mod_mod_of_dvd _ (Nat.pow_dvd_pow 2 (by split <;> decide))
    simp only [nodeBad, NodeOk, bit_toNat, nodeSize_eq h0, field_low_addr e 36 (by decide), hlow, Bool.or_eq_false_iff, decide_eq_false_iff_not,
      bne_eq_false_iff_eq, ne_eq, hsite, hhigh, flags_eq_zero_iff, and_assoc]
end

/-! Walks (04 R393 step 4). -/

section
variable (mem : Memory) (m stack input node level : Nat) (host : Bool)

/-- Where the entry of a node at a level stands for an input address (04 R92). -/
def entryAt : Nat :=
  let place := node + 8 * (if level = 0 then input / 2 ^ 16 % 32 else input / 2 ^ (12 + 9 * level) % 512)
  dramAddr m stack (place / 2 ^ 31 % 32) (place % 2 ^ 31)

/-- One level of a walk: what its entry says (04 R393 step 4). -/
theorem walk_succ (h : level ≤ 3) : let a := entryAt m stack input node level; let e : Word := BitVec.ofNat 64 (mem.read a 8)
    walk mem m stack host input (level + 1) node = if mem.poisoned (a / 8) then .error Cause.poison else if !e.getLsbD 63 then .error Cause.notPresent
      else if e.getLsbD 56 then (if leafBad host level e.toNat then .error Cause.badPte else .ok ⟨e.toNat, pageSize level⟩)
      else if nodeBad host level e.toNat then .error Cause.badPte else walk mem m stack host input level (field e.toNat 0 36) := by
  dsimp only
  rw [walk, levelIndex_eq input h, ← bit_toNat, ← bit_toNat, toNat_ofNat_read]
  rfl

variable {mem m stack input node level} {e : Word} (h : level ≤ 3) (he : BitVec.ofNat 64 (mem.read (entryAt m stack input node level) 8) = e)
include h

theorem walk_poisoned (hpoison : mem.poisoned (entryAt m stack input node level / 8) = true) :
    walk mem m stack host input (level + 1) node = .error Cause.poison := by
  rw [walk_succ _ _ _ _ _ _ _ h, if_pos hpoison]

include he
variable (hsound : mem.poisoned (entryAt m stack input node level / 8) = false)
include hsound

theorem walk_notPresent (hp : e.getLsbD 63 = false) : walk mem m stack host input (level + 1) node = .error Cause.notPresent := by
  rw [walk_succ _ _ _ _ _ _ _ h, he, hsound, hp]
  rfl

variable (hp : e.getLsbD 63 = true)
include hp

theorem walk_leaf (hleaf : e.getLsbD 56 = true) : walk mem m stack host input (level + 1) node =
    if leafBad host level e.toNat then .error Cause.badPte else .ok ⟨e.toNat, pageSize level⟩ := by
  rw [walk_succ _ _ _ _ _ _ _ h, he, hsound, hp, hleaf]
  rfl

theorem walk_node (hnode : e.getLsbD 56 = false) : walk mem m stack host input (level + 1) node =
    if nodeBad host level e.toNat then .error Cause.badPte else walk mem m stack host input level (field e.toNat 0 36) := by
  rw [walk_succ _ _ _ _ _ _ _ h, he, hsound, hp, hnode]
  rfl

theorem walk_leafOk (hleaf : e.getLsbD 56 = true) (hok : LeafOk host e level) :
    walk mem m stack host input (level + 1) node = .ok ⟨e.toNat, 2 ^ (if level = 0 then 16 else 12 + 9 * level)⟩ := by
  have h3 : level ≠ 3 := hok.1
  rw [walk_leaf host h he hsound hp hleaf, (leafBad_eq_false_iff host e h).mpr hok, pageSize_eq (by omega)]
  rfl

theorem walk_leafBad (hleaf : e.getLsbD 56 = true) (hbad : ¬LeafOk host e level) : walk mem m stack host input (level + 1) node = .error Cause.badPte := by
  rw [walk_leaf host h he hsound hp hleaf, if_pos]
  rwa [← leafBad_eq_false_iff host e h, Bool.not_eq_false] at hbad

theorem walk_nodeOk (hnode : e.getLsbD 56 = false) (hok : NodeOk host e level) :
    walk mem m stack host input (level + 1) node = walk mem m stack host input level (entryAddr e) := by
  obtain ⟨-, -, -, -, haddr, -⟩ := id hok
  rw [walk_node host h he hsound hp hnode, (nodeBad_eq_false_iff host e).mpr hok, field_low_addr e 36 (by decide), Nat.mod_eq_of_lt haddr]
  rfl

theorem walk_nodeBad (hnode : e.getLsbD 56 = false) (hbad : ¬NodeOk host e level) : walk mem m stack host input (level + 1) node = .error Cause.badPte := by
  rw [walk_node host h he hsound hp hnode, if_pos]
  rwa [← nodeBad_eq_false_iff host e, Bool.not_eq_false] at hbad
end

/-! The root of a table and a page that is not cached (04 R393 steps 1 to 3, R94). -/

section
variable {s : State} {l : Lookup} {dom : Nat}

theorem homeRoot_unbound (h : s.domain? l.m dom = none) : s.homeRoot dom l = .error Cause.protection := by
  unfold State.homeRoot
  rw [h]

theorem homeRoot_bound {d : Nat × Domain} (h : s.domain? l.m dom = some d) (hadmits : l.tb = .host ∨ s.admitsChannel l.m d.2.set l.stack l.ch = true) :
    (∀ a, rootOf d.2 l.tb l.stack = some a → s.homeRoot dom l = .ok a) ∧ (rootOf d.2 l.tb l.stack = none → s.homeRoot dom l = .error Cause.notPresent) := by
  have hadmitted : ¬(l.tb != .host && !s.admitsChannel l.m d.2.set l.stack l.ch) = true := by
    rcases hadmits with h | h <;> simp [h]
  have htable : s.homeRoot dom l = s.tableRoot dom l := by
    unfold State.homeRoot
    rw [h]
    exact if_neg hadmitted
  rw [htable, State.tableRoot, h]
  dsimp only
  exact ⟨fun a ha => by rw [ha], fun hnone => by rw [hnone]⟩
end

/-! A request at its home (04 R80, R393). -/

section
variable {s : State} {n hint dst : Nat} {p : Packet} {r : Req}

theorem homeAccessRequest_eq (hdeliverable : s.deliverable n = some p) (hbody : p.body = .req r) (hlctl : ∀ f h, r.op ≠ .lctl f h)
    (hparts : ∀ a m d t u, r.op ≠ .parts a m d t u) (hd3 : (s.module (keyModule p.dst)).d3hot = false) :
    exec (.homeAccessRequest n hint) s = .next (answerFrom p.dst r ((s.takePacket n).atHome p.dst hint r)) := by
  obtain ⟨src, dst, vc, port, crossed, body⟩ := p
  obtain rfl : body = .req r := hbody
  rw [exec_homeAccessRequest, execHomeAccessRequest, receive_eq hdeliverable]
  refine congrArg Host.Outcome.next ?_
  dsimp only
  split
  case h_1 f h hop => exact absurd hop (hlctl f h)
  case h_2 a m d t u hop => exact absurd hop (hparts a m d t u)
  case h_3 => rw [hd3, if_neg (by decide)]

theorem atHome_eq (hcode : r.op.supported (s.module (keyModule dst)).code = true) (horder : r.op ≠ .orderRead) :
    (∀ l, s.lookup r.cid r.dom (targetOf r.cid r.va) = some l → s.atHome dst hint r = s.atTable dst hint l r) ∧
    (s.lookup r.cid r.dom (targetOf r.cid r.va) = none →
      s.atHome dst hint r = s.atCluster (targetOf r.cid r.va) (fun cl i => s.statusWord cl r.dom i) r) := by
  unfold State.atHome
  rw [hcode, if_neg (by decide)]
  split
  case h_1 hop => exact absurd hop horder
  case h_2 =>
    dsimp only
    exact ⟨fun l hl => by rw [hl], fun hnone => by rw [hnone]⟩

/-- A request whose page is not cached waits for a walk (04 R94). -/
theorem atTable_waits {l : Lookup} {root : Nat} (hroot : s.homeRoot r.dom l = .ok root)
    (hcached : s.cached (unitOf l.m l.stack l.tb) r.dom l.tb.code l.input = none) :
    s.atTable dst hint l r = (none, { s with walks := s.walks ++ [walkOf r.dom l dst r] }) := by
  have hmiss : s.cached (walkOf r.dom l dst r).unit r.dom l.tb.code l.input = none := hcached
  unfold State.atTable
  dsimp only
  rw [hroot, hmiss]
end

/-! The answer of a home (04 R78, R79). -/

theorem answerFrom_some {src : Nat} {r : Req} {t : State} {a : Ans} (h : ∀ b x y, a ≠ .begun b x y) :
    answerFrom src r (some a, t) = t.sendAns src r a := by
  unfold answerFrom
  split
  case h_1 b x y _ _ hsome _ => exact absurd (Option.some.inj hsome) (h b x y)
  case h_2 hsome _ => rw [Option.some.inj hsome]
  case h_3 hnone _ => contradiction

/-! A walk that ends (04 R94). -/

theorem unitShare_self (s : State) (unit dom size : Nat) (share : DomainSettings → Nat) : (s.unitShare unit dom size share).2 dom = true := by
  unfold State.unitShare
  dsimp only
  generalize (if unit % 17 = 16 then [] else (s.module (unit / 17)).domains.filter fun p => p.2.set.partitioned) = parts
  split
  case h_1 => exact beq_self_eq_true dom
  case h_2 hnone => simpa using hnone

section
variable {s : State} {w : Walk} (hwalks : s.walks = [w]) (hd3 : (s.module (keyModule w.src)).d3hot = false)
  (hshare : 0 < (s.unitShare w.unit w.dom 128 DomainSettings.walkShare).1)
include hwalks hd3 hshare

/-- The one walk there is ends. -/
theorem translationWalkDone_eq : exec (.translationWalkDone 0) s =
    .next (State.walked { s with tick := s.tick + 1, walks := [] } (Config.freeWord 179 s.tick).toNat w) := by
  have hpages : s.walkedPages w.unit w.dom = [(w.dom, w.table, w.page)] := by
    unfold State.walkedPages
    simp [hwalks, unitShare_self]
  have hfor : w.isFor w.unit w.dom w.table w.page = true := by simp [Walk.isFor]
  have htaken : (!((s.walkedPages w.unit w.dom).take (s.unitShare w.unit w.dom 128 DomainSettings.walkShare).1).contains (w.dom, w.table, w.page)) = false := by
    obtain ⟨k, hk⟩ := Nat.exists_eq_add_of_lt hshare
    rw [hpages, hk]
    simp
  have hmine : [w].filter (fun x => x.isFor w.unit w.dom w.table w.page) = [w] := List.filter_cons_of_pos hfor
  have hrest : [w].filter (fun x => !x.isFor w.unit w.dom w.table w.page) = [] := List.filter_cons_of_neg (by simp [hfor])
  rw [exec_translationWalkDone, execTranslationWalkDone, hwalks]
  refine congrArg Host.Outcome.next ?_
  dsimp only [List.getElem?_cons_zero, State.free]
  rw [hd3, htaken, if_neg (by decide), hwalks, hmine, hrest]
  rfl
end

/-- A cache changes what it holds and draws a free value, and nothing else (04 R94; log entry 9). -/
theorem cache_eq (s : State) (unit dom tb input : Nat) (l : Leaf) : ∃ tlb tick, s.cache unit dom tb input l = { s with tlb := tlb, tick := tick } := by
  unfold State.cache
  dsimp only
  split
  case isTrue => exact ⟨_, _, rfl⟩
  case isFalse =>
    split
    case h_1 => exact ⟨_, _, rfl⟩
    case h_2 => exact ⟨_, _, rfl⟩

section
variable {s : State} {w : Walk} {l : Lookup} (hint : Nat) (hlookup : s.lookup w.req.cid w.req.dom (targetOf w.req.cid w.req.va) = some l)
include hlookup

/-- A walk that finds no leaf (04 R94, R393 step 4). -/
theorem walked_fault {c : Nat} (h : s.homeRoot w.req.dom l = .error c ∨ ∃ root, s.homeRoot w.req.dom l = .ok root ∧ s.walkFrom l root = .error c) :
    s.walked hint w = s.sendAns w.src w.req (.fault c) := by
  unfold State.walked
  rw [hlookup]
  obtain hroot | ⟨root, hroot, hwalk⟩ := h
  · dsimp only
    rw [hroot]
  · dsimp only
    rw [hroot]
    dsimp only
    rw [hwalk]

/-- A walk that finds a leaf: the request goes on with it, whatever the unit has cached (04 R94). -/
theorem walked_leaf {root : Nat} {lf : Leaf} (hroot : s.homeRoot w.req.dom l = .ok root) (hwalk : s.walkFrom l root = .ok lf) :
    ∃ tlb tick, s.walked hint w = answerFrom w.src w.req (State.afterLeaf { s with tlb := tlb, tick := tick } w.src hint l lf w.req) := by
  unfold State.walked
  rw [hlookup]
  dsimp only
  rw [hroot]
  dsimp only
  rw [hwalk]
  dsimp only
  split
  case isTrue => exact ⟨s.tlb, s.tick, rfl⟩
  case isFalse =>
    obtain ⟨tlb, tick, hcache⟩ := cache_eq s w.unit w.req.dom l.tb.code l.input lf
    exact ⟨tlb, tick, by rw [hcache]⟩
end

/-! What a leaf allows (04 R393 steps 5 to 7). -/

theorem bit_eq_testBit (n k : Nat) : bit n k = n.testBit k := by
  rw [Nat.testBit_eq_decide_div_mod_eq, bit, beq_eq_decide]

/-- An access that SC does not send back: ordered, a TOUCH, or neither page nor request under SC (07 R168, R169; log entry 58). -/
def Ordered (sc : Bool) (r : Req) : Prop := r.ordered = true ∨ (∃ f, r.op = .touch f) ∨ sc = false ∧ r.sc = false

theorem scRefused_eq_false_iff (sc : Bool) (r : Req) : scRefused sc r = false ↔ Ordered sc r := by
  have htouch : (match r.op with | .touch _ => true | _ => false) = true ↔ ∃ f, r.op = .touch f := by
    cases r.op <;> simp
  unfold scRefused Ordered
  rw [← htouch, Bool.and_eq_false_iff, Bool.and_eq_false_iff, Bool.or_eq_false_iff, Bool.not_eq_false', Bool.not_eq_false']
  tauto

/-- An access that no refresh sends back: a marked resend, or one to another bank (07 R179). -/
def Unrefreshed (s : State) (a : Nat) (r : Req) : Prop := r.resend = true ∨ Tab.find s.refreshing (a / 2 ^ 31) ≠ some (Config.bankOf (a % 2 ^ 31))

theorem refreshed_eq_false_iff {a : Nat} (ha : a < 2 ^ 60) (s : State) (r : Req) : s.refreshed a r = false ↔ Unrefreshed s a r := by
  have hdram : isDramAddr a = true := decide_eq_true ha
  simp only [State.refreshed, Unrefreshed, hdram, Bool.true_and, Bool.and_eq_false_iff, Bool.not_eq_false', beq_eq_false_iff_ne]

theorem clampHint_spec (h : Nat) : 16 ≤ clampHint h ∧ clampHint h ≤ 1024 := by
  unfold clampHint
  omega

section
variable {s : State} {src hint : Nat} {l : Lookup} {lf : Leaf} {r : Req}

theorem afterLeaf_dead (h : lf.pte.testBit 59 = true) : s.afterLeaf src hint l lf r = (some (.fault Cause.deadPage), s) := by
  have hcheck : leafCheck lf r.op.kind = some Cause.deadPage := if_pos ((bit_eq_testBit ..).trans h)
  unfold State.afterLeaf
  rw [hcheck]

variable (hlive : lf.pte.testBit 59 = false)
include hlive

theorem afterLeaf_readOnly (hkind : r.op.kind ≠ .read) (h : lf.pte.testBit 62 = false) :
    s.afterLeaf src hint l lf r = (some (.fault Cause.writeProtect), s) := by
  have hcheck : leafCheck lf r.op.kind = some Cause.writeProtect := by
    rw [leafCheck, bit_eq_testBit, bit_eq_testBit, hlive, h]
    simp [hkind]
  unfold State.afterLeaf
  rw [hcheck]

/-- An access that its leaf admits goes on at its word of DRAM. -/
theorem afterLeaf_dram (hadmits : r.op.kind = .read ∨ lf.pte.testBit 62 = true) (hdram : lf.pte.testBit 61 = false) :
    s.afterLeaf src hint l lf r = s.atLocation l.m src hint (.dram (dramAddr l.m l.stack l.ch (lf.pte % 2 ^ 31 + l.input % lf.size))
      (lf.pte.testBit 58) (lf.pte.testBit 57) (lf.pte.testBit 60)) r := by
  have hcheck : leafCheck lf r.op.kind = none := by
    rw [leafCheck, bit_eq_testBit, bit_eq_testBit, hlive]
    obtain h | h := hadmits <;> simp [h]
  unfold State.afterLeaf Leaf.locate
  rw [hcheck]
  simp only [bit_eq_testBit, hdram, field, Nat.pow_zero, Nat.div_one]
  rfl
end

section
variable {s : State} {m src hint a : Nat} {tol subn sc : Bool} {r : Req}

theorem atLocation_scRetry (h : ¬Ordered sc r) : s.atLocation m src hint (.dram a tol subn sc) r = (some .scRetry, s) := by
  rw [← scRefused_eq_false_iff, Bool.not_eq_false] at h
  exact if_pos h

variable (hordered : Ordered sc r)
include hordered

theorem atLocation_touch {f : Bool} (hop : r.op = .touch f) : s.atLocation m src hint (.dram a tol subn sc) r = (some .ok, s) := by
  unfold State.atLocation
  dsimp only
  rw [(scRefused_eq_false_iff sc r).mpr hordered, hop]
  rfl

variable (hop : ∀ f, r.op ≠ .touch f)
include hop

theorem atLocation_eq : s.atLocation m src hint (.dram a tol subn sc) r =
    if s.refreshed a r then (some (.refresh (clampHint hint)), s) else s.homePerform a src tol subn r := by
  unfold State.atLocation
  dsimp only
  rw [(scRefused_eq_false_iff sc r).mpr hordered, if_neg (by decide)]
  split
  case h_1 f h => exact absurd h (hop f)
  case h_2 => rfl

variable (ha : a < 2 ^ 60)
include ha

theorem atLocation_refresh (h : ¬Unrefreshed s a r) : s.atLocation m src hint (.dram a tol subn sc) r = (some (.refresh (clampHint hint)), s) := by
  rw [← refreshed_eq_false_iff ha, Bool.not_eq_false] at h
  exact (atLocation_eq hordered hop).trans (if_pos h)

theorem atLocation_performs (h : Unrefreshed s a r) : s.atLocation m src hint (.dram a tol subn sc) r = s.homePerform a src tol subn r := by
  rw [atLocation_eq hordered hop, (refreshed_eq_false_iff ha s r).mpr h]
  rfl
end

/-- `t` has the walks, the packets and the paths of `s` (04 R78, R94). -/
structure KeepsPaths (s t : State) : Prop where
  walks : t.walks = s.walks
  net : t.net = s.net
  reaches : ∀ m d, t.reaches m d = s.reaches m d

/-! An operation at its word (12 R282 to R297; 07 R156, R158, R182, R183). -/

/-- The operations other than WAITV, a wake and TOUCH: those that their condition alone lets be performed at their word (12 R282). -/
def direct : Op → Bool
  | .waitv _ | .wake _ | .touch _ => false
  | _ => true

section
variable {s : State} {a src : Nat} {tol subn : Bool} {r : Req} {op : Op} (hop : r.op = op)

section
variable (hstore : isStoreAddr a = false) (hdirect : direct op = true)
include hop hstore hdirect

theorem homePerform_direct : s.homePerform a src tol subn r =
    if condition s.mem (a / 8) false op then
      (some (s.performOp a tol subn r).1, if op.changesP && (s.performOp a tol subn r).1 != .fault Cause.poison then
        (s.performOp a tol subn r).2.serveAll (a / 8) else (s.performOp a tol subn r).2)
    else s.joinList a src tol subn r := by
  unfold State.homePerform wordOf
  rw [hop, hstore]
  cases op with
  | waitv | wake | touch => contradiction
  | _ => rfl

theorem homePerform_performs {x : Ans} {t : State} (hcond : condition s.mem (a / 8) false op = true) (hperform : s.performOp a tol subn r = (x, t))
    (hserved : op.changesP = true → t.waitq = []) : s.homePerform a src tol subn r = (some x, t) := by
  have hserve : op.changesP = true → t.serveAll (a / 8) = t := fun h => serve_none (by simp [State.watched, hserved h]) _
  rw [homePerform_direct hop hstore hdirect, if_pos hcond, hperform]
  cases hchanges : op.changesP with
  | false => rfl
  | true => simp [hserve hchanges]

theorem homePerform_joins (hcond : condition s.mem (a / 8) false op = false) : s.homePerform a src tol subn r = s.joinList a src tol subn r := by
  rw [homePerform_direct hop hstore hdirect, hcond]
  rfl
end

theorem joinList_room (h : s.poolRoom a r.dom = true) :
    s.joinList a src tol subn r = (none, { s with waitq := s.waitq ++ [⟨a / 8, (poolOf a).1, src, r, src, tol, subn⟩] }) := if_pos h

theorem joinList_full (hdirect : direct r.op = true) (h : s.poolRoom a r.dom = false) : s.joinList a src tol subn r = (some .noList, s) := by
  unfold State.joinList
  rw [h]
  split
  case isTrue => contradiction
  case isFalse =>
    split
    case h_1 v hop => rw [hop] at hdirect; contradiction
    case h_2 => rfl
end

section
variable {s : State} {a : Nat} {tol subn : Bool} {r : Req}

theorem storeBytes_word (v dom : Nat) : s.storeBytes a 8 v dom tol subn = some (s.withMem ((s.mem.write a 8 v).setPoison (a / 8) false)) := by
  unfold State.storeBytes
  rw [if_neg (by simp)]
  rfl

theorem performOp_store {v : Nat} (hop : r.op = .store 8 v) :
    s.performOp a tol subn r = (.ok, s.withMem ((s.mem.write a 8 v).setPoison (a / 8) false)) := by
  unfold State.performOp
  rw [hop]
  dsimp only
  rw [storeBytes_word]

theorem performOp_load_refused {z : Nat} (hop : r.op = .load z) (hpoison : s.mem.poisoned (a / 8) = true) :
    s.performOp a false subn r = (.fault Cause.poison, s) := by
  unfold State.performOp
  rw [hop]
  dsimp only
  rw [consume_no, if_pos hpoison]

theorem performOp_load_substituted {z : Nat} (hop : r.op = .load z) (hpoison : s.mem.poisoned (a / 8) = true) :
    s.performOp a true subn r = (.data (substitute subn z), s.countSubst a r.dom) := by
  have hconsume : s.consume a z r.dom true subn = (some (substitute subn z), s.countSubst a r.dom) := if_pos hpoison
  unfold State.performOp
  rw [hop]
  dsimp only
  rw [hconsume]

/-- A substitution is counted and perhaps logged (07 R182). -/
theorem countSubst_eq (s : State) (a dom : Nat) : (∃ substs, s.countSubst a dom = { s with substs := substs }) ∨
    ∃ substs m k d n p, s.countSubst a dom = State.logError { s with substs := substs } m k d n p := by
  unfold State.countSubst
  dsimp only
  split
  case h_1 =>
    split
    case isTrue => exact .inr ⟨_, _, _, _, _, _, rfl⟩
    case isFalse => exact .inl ⟨_, rfl⟩
  case h_2 => exact .inr ⟨_, _, _, _, _, _, rfl⟩

theorem keepsPaths_countSubst (s : State) (a dom : Nat) : KeepsPaths s (s.countSubst a dom) := by
  obtain ⟨substs, h⟩ | ⟨substs, m, k, d, n, p, h⟩ := countSubst_eq s a dom
  · rw [h]
    exact ⟨rfl, rfl, fun _ _ => rfl⟩
  · rw [h]
    exact ⟨rfl, rfl, fun _ _ => (reaches_on _ _ _ rfl _ _).trans (reaches_on _ _ _ rfl _ _)⟩

theorem countSubst_mem (s : State) (a dom : Nat) : (s.countSubst a dom).mem = s.mem ∧ (s.countSubst a dom).waitq = s.waitq := by
  obtain ⟨substs, h⟩ | ⟨substs, m, k, d, n, p, h⟩ := countSubst_eq s a dom
  · rw [h]
    exact ⟨rfl, rfl⟩
  · rw [h]
    exact ⟨rfl, rfl⟩

section
variable (hsound : s.mem.poisoned (a / 8) = false)
include hsound

theorem consume_sound (n dom : Nat) : s.consume a n dom tol subn = (some (s.mem.read a n), s) := by
  unfold State.consume wordOf
  rw [hsound]
  rfl

theorem storeBytes_sound (n v dom : Nat) : s.storeBytes a n v dom tol subn = some (s.withMem ((s.mem.write a n v).setPoison (a / 8) false)) := by
  unfold State.storeBytes wordOf
  rw [hsound]
  rfl

theorem performOp_load {z : Nat} (hop : r.op = .load z) : s.performOp a tol subn r = (.data (s.mem.read a z), s) := by
  unfold State.performOp
  rw [hop]
  dsimp only
  rw [consume_sound hsound]

theorem performOp_ldf (hop : r.op = .ldf) : s.performOp a tol subn r = (.data (s.mem.read a 8), s) := by
  unfold State.performOp
  rw [hop]
  dsimp only
  rw [consume_sound hsound]

theorem performOp_ldt (hop : r.op = .ldt) : s.performOp a tol subn r = (.data (s.mem.read a 8), s.withMem (s.mem.setFull (a / 8) false)) := by
  unfold State.performOp
  rw [hop]
  dsimp only
  rw [consume_sound hsound]
  rfl

theorem performOp_store_part {z v : Nat} (hop : r.op = .store z v) :
    s.performOp a tol subn r = (.ok, s.withMem ((s.mem.write a z v).setPoison (a / 8) false)) := by
  unfold State.performOp
  rw [hop]
  dsimp only
  rw [storeBytes_sound hsound]

theorem performOp_atomic {k : AtomKind} {t : Nat} (hop : r.op = .atom k 8 t) : s.performOp a tol subn r =
    (.data (s.mem.read a 8), s.withMem ((s.mem.write a 8 (atomResult k 8 (s.mem.read a 8) t)).setPoison (a / 8) false)) := by
  unfold State.performOp wordOf
  rw [hop]
  dsimp only
  rw [consume_sound hsound]
  dsimp only
  rw [storeBytes_word, hsound]
  rfl

theorem performOp_compare_eq {c v : Nat} (hop : r.op = .cas 8 c v) (h : s.mem.read a 8 = c % 2 ^ 64) : s.performOp a tol subn r =
    (.data (s.mem.read a 8), s.withMem ((s.mem.write a 8 v).setPoison (a / 8) false)) := by
  unfold State.performOp wordOf
  rw [hop]
  dsimp only
  rw [if_neg (by decide), consume_sound hsound]
  dsimp only
  rw [if_pos h, storeBytes_word, hsound]
  rfl

theorem performOp_compare_ne {c v : Nat} (hop : r.op = .cas 8 c v) (h : s.mem.read a 8 ≠ c % 2 ^ 64) : s.performOp a tol subn r = (.data (s.mem.read a 8), s) := by
  unfold State.performOp
  rw [hop]
  dsimp only
  rw [if_neg (by decide), consume_sound hsound]
  dsimp only
  rw [if_neg h]
end
end

/-! The end of a walk with a leaf (04 R94). -/

/-- The one walk of `s` ends, no walk is left, its request is answered `x`, and `q` holds of the state (04 R94). -/
def Answers (s : State) (w : Walk) (x : Ans) (q : State → Prop) : Prop :=
  ∃ t, exec (.translationWalkDone 0) s = .next t ∧ t.walks = [] ∧ q t ∧
    ∃ port, t.net = s.net ++ [⟨w.src, cidKey w.req.cid, 1, port, false, .ans w.req.cid w.req.tag w.req.posted x⟩]

/-- The state in which the request of the one walk goes on: no walk is left, and what the units cache and the values drawn are free. -/
def afterWalk (s : State) (tlb : List Tlb) (tick : Nat) : State := { s with walks := [], tlb := tlb, tick := tick }

section
variable {s : State} {w : Walk} (hwalks : s.walks = [w]) (hd3 : (s.module (keyModule w.src)).d3hot = false)
  (hshare : 0 < (s.unitShare w.unit w.dom 128 DomainSettings.walkShare).1) {l : Lookup} (hlookup : s.lookup w.req.cid w.req.dom (targetOf w.req.cid w.req.va) = some l)
include hwalks hd3 hshare hlookup

theorem translationWalkDone_fault (hreaches : s.reaches (keyModule w.src) (cidKey w.req.cid) = true) {c : Nat}
    (h : s.homeRoot w.req.dom l = .error c ∨ ∃ root, s.homeRoot w.req.dom l = .ok root ∧ s.walkFrom l root = .error c) :
    Answers s w (.fault c) fun t => t.tlb = s.tlb ∧ t.mem = s.mem := by
  obtain ⟨port, hsent⟩ := sendAns_eq (s := afterWalk s s.tlb (s.tick + 1)) (a := .fault c) hreaches
  exact ⟨_, (translationWalkDone_eq hwalks hd3 hshare).trans (congrArg Host.Outcome.next
    ((walked_fault (s := afterWalk s s.tlb (s.tick + 1)) _ hlookup h).trans hsent)), rfl, ⟨rfl, rfl⟩, port, rfl⟩

theorem translationWalkDone_leaf {root : Nat} {lf : Leaf} (hroot : s.homeRoot w.req.dom l = .ok root) (hwalk : s.walkFrom l root = .ok lf) :
    ∃ tlb tick hint, exec (.translationWalkDone 0) s = .next (answerFrom w.src w.req ((afterWalk s tlb tick).afterLeaf w.src hint l lf w.req)) := by
  obtain ⟨tlb, tick, hwalked⟩ := walked_leaf (s := afterWalk s s.tlb (s.tick + 1)) (Config.freeWord 179 s.tick).toNat hlookup hroot hwalk
  exact ⟨tlb, tick, _, (translationWalkDone_eq hwalks hd3 hshare).trans (congrArg Host.Outcome.next hwalked)⟩
end

theorem answers_of_run {s v : State} {w : Walk} {tlb : List Tlb} {tick : Nat} {x : Ans} {q : State → Prop}
    (hrun : exec (.translationWalkDone 0) s = .next (answerFrom w.src w.req (some x, v))) (hreaches : s.reaches (keyModule w.src) (cidKey w.req.cid) = true)
    (hkeeps : KeepsPaths (afterWalk s tlb tick) v) (hq : ∀ net, q { v with net := net }) (hbegun : ∀ b y z, x ≠ .begun b y z) : Answers s w x q := by
  obtain ⟨port, hsent⟩ := sendAns_eq (s := v) (a := x) ((hkeeps.reaches ..).trans hreaches)
  refine ⟨_, hrun, ?_⟩
  rw [answerFrom_some hbegun, hsent]
  exact ⟨hkeeps.walks, hq _, port, congrArg (· ++ _) hkeeps.net⟩

/-! Presence of a word (12 R281, R285 to R297). -/

theorem presence_setFull (mem : Memory) (a : Nat) (b : Bool) : mem.presence (mem.setFull (a / 8) b) a b := fun w => Memory.full_setFull mem _ w b

/-- Memory with a word written and its presence set (12 R286). -/
def filled (mem : Memory) (a v : Nat) : Memory := ((mem.write a 8 v).setPoison (a / 8) false).setFull (a / 8) true

theorem takes_filled (mem : Memory) (a v : Nat) : mem.takes (filled mem a v) a 8 v := takes_write mem a 8 v

theorem presence_filled (mem : Memory) (a v : Nat) : mem.presence (filled mem a v) a true := fun w => by
  have hsame : ((mem.write a 8 v).setPoison (a / 8) false).full w = mem.full w := same_write mem a 8 v w
  rw [filled, Memory.full_setFull, hsame]

section
variable {s : State} {a : Nat} {tol subn : Bool} {r : Req}

theorem performOp_waitf (hop : r.op = .waitf) : s.performOp a tol subn r = (.ok, s) := by
  unfold State.performOp
  rw [hop]

theorem performOp_waite (hop : r.op = .waite) : s.performOp a tol subn r = (.ok, s) := by
  unfold State.performOp
  rw [hop]

theorem performOp_sete (hop : r.op = .sete) : s.performOp a tol subn r = (.ok, s.withMem (s.mem.setFull (a / 8) false)) := by
  unfold State.performOp
  rw [hop]
  rfl

theorem performOp_setf (hop : r.op = .setf) : s.performOp a tol subn r = (.ok, s.withMem (s.mem.setFull (a / 8) true)) := by
  unfold State.performOp
  rw [hop]
  rfl

theorem performOp_stf {v : Nat} (hop : r.op = .stf v) : s.performOp a tol subn r = (.ok, s.withMem (filled s.mem a v)) := by
  unfold State.performOp
  rw [hop]
  rfl

theorem performOp_stp {v : Nat} (hop : r.op = .stp v) : s.performOp a tol subn r = (.ok, s.withMem (filled s.mem a v)) := by
  unfold State.performOp
  rw [hop]
  rfl
end

theorem watched_nil {s : State} (h : s.waitq = []) (w : Nat) : s.watched w = false := by
  unfold State.watched
  rw [h]
  rfl

theorem performOp_probe {s : State} {a : Nat} {tol subn : Bool} {r : Req} (hop : r.op = .probe) (hnone : s.waitq = []) :
    s.performOp a tol subn r = (.data (if s.mem.full (a / 8) then 1 else 0), s) := by
  unfold State.performOp wordOf
  rw [hop]
  dsimp only
  rw [watched_nil hnone]
  cases s.mem.full (a / 8) <;> rfl

/-- An operation that waits for an empty word finds one (12 R282). -/
theorem condition_empty {mem : Memory} {w : Nat} {op : Op} (h : ¬mem.full w = true) (hop : condition mem w false op = !mem.full w) :
    condition mem w false op = true := by
  rw [hop, Bool.eq_false_of_not_eq_true h]
  rfl

theorem condition_direct {mem : Memory} {w : Nat} {op : Op} (h : (op = .ldf ∨ op = .ldt ∨ op = .waitf) ∧ ¬mem.full w = true ∨
    ((∃ x, op = .stp x) ∨ op = .waite) ∧ mem.full w = true) : condition mem w false op = false ∧ direct op = true := by
  rw [Bool.not_eq_true] at h
  obtain ⟨rfl | rfl | rfl, hempty⟩ | ⟨⟨x, rfl⟩ | rfl, hfull⟩ := h
  · exact ⟨hempty, rfl⟩
  · exact ⟨hempty, rfl⟩
  · exact ⟨hempty, rfl⟩
  · exact ⟨congrArg not hfull, rfl⟩
  · exact ⟨congrArg not hfull, rfl⟩

/-- The request of the one walk of `s` is performed at the word of `a`; what the units cache then and the values drawn are `tlb` and `tick` (04 R94, R393). -/
structure Located (s : State) (tlb : List Tlb) (tick : Nat) (w : Walk) (a : Nat) (tol subn : Bool) : Prop where
  run : direct w.req.op = true → exec (.translationWalkDone 0) s =
    .next (answerFrom w.src w.req ((afterWalk s tlb tick).homePerform a w.src tol subn w.req))
  reaches : s.reaches (keyModule w.src) (cidKey w.req.cid) = true
  place : isStoreAddr a = false

section
variable {s : State} {tlb : List Tlb} {tick : Nat} {w : Walk} {a : Nat} {tol subn : Bool} (h : Located s tlb tick w a tol subn)
include h

theorem Located.performs {op : Op} {x : Ans} {u : State} {q : State → Prop} (hop : w.req.op = op) (hdirect : direct op = true)
    (hcond : condition s.mem (a / 8) false op = true) (hperform : (afterWalk s tlb tick).performOp a tol subn w.req = (x, u))
    (hserved : op.changesP = true → u.waitq = []) (hkeeps : KeepsPaths (afterWalk s tlb tick) u) (hq : ∀ net, q { u with net := net })
    (hbegun : ∀ b y z, x ≠ .begun b y z) : Answers s w x q := by
  have hrun := h.run (hop ▸ hdirect)
  rw [homePerform_performs (s := afterWalk s tlb tick) hop h.place hdirect hcond hperform hserved] at hrun
  exact answers_of_run hrun h.reaches hkeeps hq hbegun

variable {op : Op} {x : Ans} (hop : w.req.op = op)
include hop

theorem Located.stores {z y : Nat} (hdirect : direct op = true) (hcond : condition s.mem (a / 8) false op = true)
    (hperform : (afterWalk s tlb tick).performOp a tol subn w.req = (x, (afterWalk s tlb tick).withMem ((s.mem.write a z y).setPoison (a / 8) false)))
    (hkeepsP : op.changesP = false) (hbegun : ∀ b y z, x ≠ .begun b y z) :
    Answers s w x fun t => s.mem.takes t.mem a z y ∧ s.mem.sameFull t.mem :=
  h.performs hop hdirect hcond hperform (fun hchanges => absurd (hchanges.symm.trans hkeepsP) nofun) ⟨rfl, rfl, fun _ _ => rfl⟩
    (fun _ => ⟨takes_write .., same_write s.mem a z y⟩) hbegun

theorem Located.marks {b : Bool} (hdirect : direct op = true) (hcond : condition s.mem (a / 8) false op = true)
    (hperform : (afterWalk s tlb tick).performOp a tol subn w.req = (x, (afterWalk s tlb tick).withMem (s.mem.setFull (a / 8) b))) (hnone : s.waitq = [])
    (hbegun : ∀ b y z, x ≠ .begun b y z) :
    Answers s w x fun t => (s.mem.wf = true → ∀ x, t.mem.byte x = s.mem.byte x) ∧ s.mem.presence t.mem a b :=
  h.performs hop hdirect hcond hperform (fun _ => hnone) ⟨rfl, rfl, fun _ _ => rfl⟩ (fun _ => ⟨fun _ _ => rfl, presence_setFull s.mem a b⟩) hbegun

theorem Located.fills {y : Nat} (hdirect : direct op = true) (hcond : condition s.mem (a / 8) false op = true)
    (hperform : (afterWalk s tlb tick).performOp a tol subn w.req = (x, (afterWalk s tlb tick).withMem (filled s.mem a y))) (hnone : s.waitq = [])
    (hbegun : ∀ b y z, x ≠ .begun b y z) : Answers s w x fun t => s.mem.takes t.mem a 8 y ∧ s.mem.presence t.mem a true :=
  h.performs hop hdirect hcond hperform (fun _ => hnone) ⟨rfl, rfl, fun _ _ => rfl⟩
    (fun _ => ⟨takes_filled s.mem a y, presence_filled s.mem a y⟩) hbegun
end

section
variable {s : State} {tlb : List Tlb} {tick : Nat} {w : Walk} {a : Nat} {tol subn : Bool} (h : Located s tlb tick w a tol subn)
include h

theorem Located.add {x : Nat} (hop : w.req.op = .atom .add 8 x) (hsound : s.mem.poisoned (a / 8) = false) : Answers s w (.data (s.mem.read a 8))
    fun t => s.mem.takes t.mem a 8 ((s.mem.read a 8 + x) % 2 ^ 64) ∧ s.mem.sameFull t.mem := by
  have hsound' : (afterWalk s tlb tick).mem.poisoned (a / 8) = false := hsound
  have hadd : atomResult .add 8 (s.mem.read a 8) x = (s.mem.read a 8 + x) % 2 ^ 64 := Nat.add_mod_mod ..
  rw [← hadd]
  exact h.stores hop rfl rfl (performOp_atomic hsound' hop) rfl nofun

theorem Located.exchanges {x : Nat} (hop : w.req.op = .atom .xchg 8 x) (hsound : s.mem.poisoned (a / 8) = false) : Answers s w (.data (s.mem.read a 8))
    fun t => s.mem.takes t.mem a 8 (x % 2 ^ 64) ∧ s.mem.sameFull t.mem := by
  have hsound' : (afterWalk s tlb tick).mem.poisoned (a / 8) = false := hsound
  have hxchg : atomResult .xchg 8 (s.mem.read a 8) x = x % 2 ^ 64 := rfl
  rw [← hxchg]
  exact h.stores hop rfl rfl (performOp_atomic hsound' hop) rfl nofun

theorem Located.compares {c x : Nat} (hop : w.req.op = .cas 8 c x) (hsound : s.mem.poisoned (a / 8) = false) : Answers s w (.data (s.mem.read a 8))
    fun t => s.mem.takes t.mem a 8 (if s.mem.read a 8 = c % 2 ^ 64 then x else s.mem.read a 8) ∧ s.mem.sameFull t.mem := by
  have hsound' : (afterWalk s tlb tick).mem.poisoned (a / 8) = false := hsound
  split
  case isTrue heq => exact h.stores hop rfl rfl (performOp_compare_eq hsound' hop heq) rfl nofun
  case isFalse hne =>
    exact h.performs hop rfl rfl (performOp_compare_ne hsound' hop hne) nofun ⟨rfl, rfl, fun _ _ => rfl⟩ (fun _ => ⟨takes_read hsound, fun _ => rfl⟩) nofun

/-- An operation whose condition fails joins the list of its word when there is room (12 R287, R291). -/
theorem Located.joins (hdirect : direct w.req.op = true) (hcond : condition s.mem (a / 8) false w.req.op = false) :
    (s.poolRoom a w.req.dom = true → ∃ t, exec (.translationWalkDone 0) s = .next t ∧ t.walks = [] ∧ t.mem = s.mem ∧ t.net = s.net ∧
      ∃ e, t.waitq = s.waitq ++ [e] ∧ e.word = a / 8 ∧ e.req = w.req ∧ e.tol = tol ∧ e.subn = subn) ∧
    (s.poolRoom a w.req.dom = false → Answers s w .noList fun t => t.mem = s.mem ∧ t.waitq = s.waitq) := by
  have hrun := h.run hdirect
  rw [homePerform_joins (s := afterWalk s tlb tick) rfl h.place hdirect hcond] at hrun
  refine ⟨fun hroom => ?_, fun hroom => ?_⟩
  · rw [joinList_room (s := afterWalk s tlb tick) hroom] at hrun
    exact ⟨_, hrun, rfl, rfl, rfl, _, rfl, rfl, rfl, rfl, rfl⟩
  · rw [joinList_full (s := afterWalk s tlb tick) hdirect hroom] at hrun
    exact answers_of_run hrun h.reaches ⟨rfl, rfl, fun _ _ => rfl⟩ (fun _ => ⟨rfl, rfl⟩) nofun
end

/-- Settles O44: the entries of a walk and the root each from their lemma, then what a leaf allows, then each operation at its word. -/
theorem dramHomeAccesses : Obligations.DramHomeAccesses := by
  unfold Obligations.DramHomeAccesses
  intro n hint m stack input node level host s w l r ends index place at_ e page nodeBits ht result addr leafOk nodeOk
  refine ⟨fun hlevel => ?entries, homeRoot_unbound, fun d hdom hadmits => ?root, fun p root hdeliverable hbody hop hcode hd3 hlookup hroot hcached => ?miss, ?leaf⟩
  case entries =>
    refine ⟨walk_poisoned host hlevel, fun hsound => ⟨walk_notPresent host hlevel rfl hsound, fun hp => ⟨fun hleaf => ⟨?_, ?_⟩, fun hnode => ⟨?_, ?_⟩⟩⟩⟩
    · exact walk_leafOk host hlevel rfl hsound hp hleaf
    · exact walk_leafBad host hlevel rfl hsound hp hleaf
    · exact walk_nodeOk host hlevel rfl hsound hp hnode
    · exact walk_nodeBad host hlevel rfl hsound hp hnode
  case root =>
    obtain ⟨hsome, hnone⟩ := homeRoot_bound (dom := r.dom) hdom hadmits
    show _ = match rootOf d.2 l.tb l.stack with
      | some a => Except.ok a
      | none => Except.error Cause.notPresent
    cases hroot : rootOf d.2 l.tb l.stack with
    | some a => exact hsome a hroot
    | none => exact hnone hroot
  case miss =>
    have hrun := homeAccessRequest_eq (hint := hint) hdeliverable hbody (fun f h => (hop f h 0).1) (fun a b c d f => (hop a b c).2.2 d f) hd3
    have hhome := (atHome_eq (s := s.takePacket n) (hint := hint) hcode (hop 0 0 0).2.1).1 l hlookup
    rw [hhome.trans (atTable_waits (s := s.takePacket n) (dst := p.dst) (hint := hint) hroot hcached)] at hrun
    exact ⟨_, hrun, rfl, rfl, rfl⟩
  case leaf =>
    intro root lf a tol subn sc hwalks hd3 hshare hreaches hlookup hroot hwalk hdram hattributes ha hlt done same word v takes bytes p full ordered ready
    obtain ⟨htol, hsubn, hsc⟩ := hattributes
    obtain ⟨tlb, tick, hint', hrun⟩ := translationWalkDone_leaf hwalks hd3 hshare hlookup hroot hwalk
    have hanswers : ∀ {x q}, (afterWalk s tlb tick).afterLeaf w.src hint' l lf r = (some x, afterWalk s tlb tick) →
        (∀ net, q { afterWalk s tlb tick with net := net }) → (∀ b y z, x ≠ .begun b y z) → done x q := fun hleaf =>
      answers_of_run (hrun.trans (congrArg (fun y => Host.Outcome.next (answerFrom w.src w.req y)) hleaf)) hreaches ⟨rfl, rfl, fun _ _ => rfl⟩
    have hrefl : KeepsPaths (afterWalk s tlb tick) (afterWalk s tlb tick) := ⟨rfl, rfl, fun _ _ => rfl⟩
    have hsame : ∀ net, same { afterWalk s tlb tick with net := net } := fun _ => ⟨rfl, rfl⟩
    refine ⟨fun hdead => hanswers (afterLeaf_dead hdead) hsame nofun, fun hlive => ⟨fun hkind hread => ?_, fun hadmits => ?_⟩⟩
    · exact hanswers (afterLeaf_readOnly hlive hkind hread) hsame nofun
    have hlocation : (afterWalk s tlb tick).afterLeaf w.src hint' l lf r = (afterWalk s tlb tick).atLocation l.m w.src hint' (.dram a tol subn sc) r := by
      rw [afterLeaf_dram hlive hadmits hdram, ha, htol, hsubn, hsc]
    refine ⟨fun hunordered => ?_, fun hordered hop hnot => ?_, fun f hop => ?_, fun hready => ?_⟩
    · exact hanswers (hlocation.trans (atLocation_scRetry hunordered)) hsame nofun
    · have hrefresh := atLocation_refresh (s := afterWalk s tlb tick) (m := l.m) (src := w.src) (hint := hint') (tol := tol) (subn := subn) hordered hop hlt
        fun h => hnot ⟨hordered, h⟩
      exact ⟨_, (clampHint_spec hint').1, (clampHint_spec hint').2, hanswers (hlocation.trans hrefresh) hsame nofun⟩
    · exact hanswers (hlocation.trans (atLocation_touch (.inr (.inl ⟨f, hop⟩)) hop)) hsame nofun
    obtain ⟨hordered, hunrefreshed⟩ := hready
    have hstore : isStoreAddr a = false := by
      rw [isStoreAddr, decide_eq_false (by omega)]
      rfl
    have hlocated : Located s tlb tick w a tol subn := by
      refine ⟨fun hdirect => hrun.trans ?_, hreaches, hstore⟩
      rw [hlocation, atLocation_performs (s := afterWalk s tlb tick) hordered (fun f h => by rw [h] at hdirect; contradiction) hlt hunrefreshed]
    refine ⟨fun hpoison z hop => ⟨fun hrefuses => ?_, fun hsubstitutes => ?_⟩, fun x hop haligned => ?_, fun hsound => ?sound⟩
    · exact hlocated.performs hop rfl rfl (hrefuses ▸ performOp_load_refused hop hpoison) nofun hrefl hsame nofun
    · have hcounted := countSubst_mem (afterWalk s tlb tick) a r.dom
      have hvalue : substitute subn z = if subn then 2 ^ (8 * z) - 1 else 0 := by rw [substitute, Nat.pow_mul]
      rw [← hvalue]
      exact hlocated.performs hop rfl rfl (hsubstitutes ▸ performOp_load_substituted hop hpoison) nofun (keepsPaths_countSubst ..) (fun _ => hcounted) nofun
    · exact hlocated.stores hop rfl rfl (performOp_store hop) rfl nofun
    have hsound' : (afterWalk s tlb tick).mem.poisoned (a / 8) = false := hsound
    refine ⟨fun z hop => ?_, fun z x hop hz hfits => ?_, fun haligned => ?aligned⟩
    · exact hlocated.performs hop rfl rfl (performOp_load hsound' hop) nofun hrefl hsame nofun
    · exact hlocated.stores hop rfl rfl (performOp_store_part hsound' hop) rfl nofun
    have hv : v = s.mem.read a 8 := congrArg (s.mem.read · 8) (by omega)
    clear_value v
    subst hv
    refine ⟨fun x hop => hlocated.add hop hsound, fun x hop => hlocated.exchanges hop hsound, fun c x hop => hlocated.compares hop hsound,
      fun hfull => ⟨fun hop => ?_, fun hop => ?_⟩,
      fun hop hempty => ?_, fun hnone => ⟨fun hop => ?_, fun hop hfull => ?_, fun x hop => ?_, fun x hop hempty => ?_, fun hop => ?_, fun hop => ?_⟩,
      fun hwaits => ?_⟩
    · exact hlocated.performs hop rfl hfull (performOp_ldf hsound' hop) nofun hrefl hsame nofun
    · exact hlocated.performs hop rfl hfull (performOp_waitf hop) nofun hrefl hsame nofun
    · exact hlocated.performs hop rfl (condition_empty hempty rfl) (performOp_waite hop) nofun hrefl hsame nofun
    · exact hlocated.performs hop rfl rfl (performOp_probe hop hnone) nofun hrefl hsame nofun
    · exact hlocated.marks hop rfl hfull (performOp_ldt hsound' hop) hnone nofun
    · exact hlocated.fills hop rfl rfl (performOp_stf hop) hnone nofun
    · exact hlocated.fills hop rfl (condition_empty hempty rfl) (performOp_stp hop) hnone nofun
    · exact hlocated.marks hop rfl rfl (performOp_sete hop) hnone nofun
    · exact hlocated.marks hop rfl rfl (performOp_setf hop) hnone nofun
    · obtain ⟨hcond, hdirect⟩ := condition_direct hwaits
      exact hlocated.joins hdirect hcond

end Sys2Proof.WalkProofs
end
section
/-!
PROOFS. Requests of other cores at a core's local memory (04 R87, 07 R154, 14 R347), and what reaches a core: answers, the settling of journal
entries, requests sent again (07 R154, R159, R160, R168, R179; 12 R288 to R291): O43.
-/
namespace Sys2Proof.ReplyProofs
open Sys2Proof Sys2Proof.Machine Sys2Proof.Laws Sys2Proof.LaunchProofs Sys2Proof.WalkProofs

/-! A core's local memory as the home of a remote request. -/

theorem remote_offset_lt {cid va c off : Nat} (h : targetOf cid va = .remote c off) : off < 2 ^ 19 := by
  have hfield : field va 0 19 < 2 ^ 19 := Nat.mod_lt _ (by decide)
  unfold targetOf at h
  dsimp only at h
  split at h
  case h_3 =>
    obtain ⟨-, rfl⟩ := Target.remote.inj h
    exact hfield
  case h_4 =>
    split at h
    · split at h <;> contradiction
    · split at h <;> contradiction
  all_goals contradiction

theorem localAddr_isStoreAddr {h off : Nat} (hcid : h < 2 ^ 26) (hoff : off < 2 ^ 19) : isStoreAddr (localAddr h off) = false := by
  rw [isStoreAddr, localAddr, decide_eq_false (by omega)]
  rfl

section
variable {s : State} {c off : Nat} {r : Req}

theorem atLocal_shut (hother : r.cid ≠ c) (h : s.shuttered c = true) : s.atLocal c off true r = (some .shutter, s) := if_pos (by simp [hother, h])

variable (hopen : s.shuttered c = false)
include hopen

theorem atLocal_refused (h : admitted (s.core c).prgn r.dom .remote none off r.op.kind = false) :
    s.atLocal c off true r = (some (.fault Cause.protection), s) := by
  rw [State.atLocal, if_neg (by simp [hopen]), if_pos (by simp [h])]

theorem atLocal_performs (h : admitted (s.core c).prgn r.dom .remote none off r.op.kind = true) (htouch : ∀ f, r.op ≠ .touch f) :
    s.atLocal c off true r = s.homePerform (localAddr c off) (cidKey c) false false r := by
  rw [State.atLocal, if_neg (by simp [hopen]), if_neg (by simp [h])]
  split
  case h_1 f hop => exact absurd hop (htouch f)
  case h_2 => rfl
end

/-- `t` has the packets `before` and the answer `a` to `r` (04 R79). -/
def Answered (before : List Packet) (src : Nat) (r : Req) (a : Ans) (t : State) : Prop :=
  ∃ port, t.net = before ++ [⟨src, cidKey r.cid, 1, port, false, .ans r.cid r.tag r.posted a⟩]

/-- The loads and stores. -/
def loadOrStore : Op → Bool
  | .load _ | .store _ _ => true
  | _ => false

theorem ne_of_loadOrStore {op x : Op} (h : loadOrStore op = true) (hx : loadOrStore x = false) : op ≠ x := fun heq => by
  rw [heq, hx] at h
  contradiction

theorem supported_of_loadOrStore {op : Op} (h : loadOrStore op = true) (code : Nat) : op.supported code = true := by
  cases op with
  | load | store => rfl
  | _ => contradiction

/-- A load or store from another core, taken at local memory (04 R80, R81). -/
structure Remote (s : State) (n hint : Nat) (p : Packet) (r : Req) (h off : Nat) : Prop where
  run : loadOrStore r.op = true → exec (.homeAccessRequest n hint) s = .next (answerFrom p.dst r ((s.takePacket n).atLocal h off true r))
  reaches : s.reaches (keyModule p.dst) (cidKey r.cid) = true
  place : isStoreAddr (localAddr h off) = false

theorem remote_of_request {s : State} {n hint c off : Nat} {p : Packet} {r : Req} (hdeliverable : s.deliverable n = some p) (hbody : p.body = .req r)
    (htarget : targetOf r.cid r.va = .remote c off) (hfused : s.fused (s.resolveCid r.cid c) = false) (hcid : s.resolveCid r.cid c < 2 ^ 26)
    (hd3 : (s.module (keyModule p.dst)).d3hot = false) (hreaches : s.reaches (keyModule p.dst) (cidKey r.cid) = true) :
    Remote s n hint p r (s.resolveCid r.cid c) off := by
  refine ⟨fun hop => ?_, hreaches, localAddr_isStoreAddr hcid (remote_offset_lt htarget)⟩
  have hnone : (s.takePacket n).lookup r.cid r.dom (targetOf r.cid r.va) = none := by
    rw [htarget]
    rfl
  have hhome := (atHome_eq (s := s.takePacket n) (dst := p.dst) (hint := hint) (supported_of_loadOrStore hop _)
    (ne_of_loadOrStore hop rfl)).2 hnone
  rw [homeAccessRequest_eq hdeliverable hbody (fun _ _ => ne_of_loadOrStore hop rfl) (fun _ _ _ _ _ => ne_of_loadOrStore hop rfl) hd3, hhome, htarget]
  have hsite : (s.takePacket n).fused ((s.takePacket n).resolveCid r.cid c) = false := hfused
  unfold State.atCluster
  dsimp only
  rw [hsite]
  rfl

section
variable {s : State} {n hint h off : Nat} {p : Packet} {r : Req} (hremote : Remote s n hint p r h off)
include hremote

theorem Remote.answers (hop : loadOrStore r.op = true) {a : Ans} {t : State} {q : State → Prop}
    (hlocal : (s.takePacket n).atLocal h off true r = (some a, t)) (hkeeps : KeepsPaths (s.takePacket n) t) (hq : ∀ net, q { t with net := net })
    (hbegun : ∀ b x y, a ≠ .begun b x y) :
    ∃ t, exec (.homeAccessRequest n hint) s = .next t ∧ Answered (s.takePacket n).net p.dst r a t ∧ q t := by
  obtain ⟨port, hsent⟩ := sendAns_eq (s := t) (a := a) ((hkeeps.reaches ..).trans hremote.reaches)
  refine ⟨_, hremote.run hop, ?_⟩
  rw [hlocal, answerFrom_some hbegun, hsent]
  exact ⟨⟨port, congrArg (· ++ _) hkeeps.net⟩, hq _⟩

/-- A request that is refused leaves memory as it is. -/
theorem Remote.refused (hop : loadOrStore r.op = true) {a : Ans} (hlocal : (s.takePacket n).atLocal h off true r = (some a, s.takePacket n))
    (hbegun : ∀ b x y, a ≠ .begun b x y) :
    ∃ t, exec (.homeAccessRequest n hint) s = .next t ∧ Answered (s.takePacket n).net p.dst r a t ∧ t.mem = s.mem :=
  hremote.answers hop hlocal ⟨rfl, rfl, fun _ _ => rfl⟩ (fun _ => rfl) hbegun

variable (hopen : s.shuttered h = false)
include hopen

theorem Remote.loads {z : Nat} (hop : r.op = .load z) (hmay : admitted (s.core h).prgn r.dom .remote none off .read = true)
    (hsound : s.mem.poisoned (localAddr h off / 8) = false) :
    ∃ t, exec (.homeAccessRequest n hint) s = .next t ∧ Answered (s.takePacket n).net p.dst r (.data (s.mem.read (localAddr h off) z)) t ∧ t.mem = s.mem := by
  have hlocal := atLocal_performs (s := s.takePacket n) (r := r) hopen (by rw [hop]; exact hmay) (by rw [hop]; nofun)
  rw [homePerform_performs (s := s.takePacket n) hop hremote.place rfl rfl (performOp_load (s := s.takePacket n) hsound hop) nofun] at hlocal
  exact hremote.refused (by rw [hop]; rfl) hlocal nofun

theorem Remote.stores {v : Nat} (hop : r.op = .store 8 v) (hmay : admitted (s.core h).prgn r.dom .remote none off .write = true) :
    ∃ t, exec (.homeAccessRequest n hint) s = .next t ∧ Answered (s.takePacket n).net p.dst r .ok t ∧
      s.mem.takes t.mem (localAddr h off) 8 v ∧ s.mem.sameFull t.mem := by
  have hlocal := atLocal_performs (s := s.takePacket n) (r := r) hopen (by rw [hop]; exact hmay) (by rw [hop]; nofun)
  rw [homePerform_performs (s := s.takePacket n) hop hremote.place rfl rfl (performOp_store hop) nofun] at hlocal
  exact hremote.answers (by rw [hop]; rfl) hlocal ⟨rfl, rfl, fun _ _ => rfl⟩ (fun _ => ⟨takes_write .., same_write s.mem _ 8 v⟩) nofun
end

/-! Answers to parked instructions (07 R154, 12 R288). -/

theorem memoryReply_eq {s : State} {n cid tag : Nat} {p : Packet} {a : Ans} (hdeliverable : s.deliverable n = some p) (hbody : p.body = .ans cid tag false a)
    (hawake : (s.module (cidModule cid)).d3hot = false) : exec (.memoryReply n) s = .next ((s.takePacket n).takeAnswer cid tag a) := by
  obtain ⟨src, dst, vc, port, crossed, body⟩ := p
  obtain rfl : body = .ans cid tag false a := hbody
  rw [exec_memoryReply, execMemoryReply, receive_eq hdeliverable]
  dsimp only
  rw [hawake]
  rfl

theorem reclock_eq (t : Thread) (now : Nat) : ∃ retry issue, t.reclock now = { t with retry0 := retry, issue0 := issue } := by
  unfold Thread.reclock
  dsimp only
  split
  case h_1 =>
    split
    case isTrue => exact ⟨_, _, rfl⟩
    case isFalse => exact ⟨_, _, rfl⟩
  case h_2 =>
    split
    case isTrue => exact ⟨_, _, rfl⟩
    case isFalse => exact ⟨_, _, rfl⟩

/-- A thread whose one request is answered with data: only its wait and the count of its wait change. -/
theorem heard_data {t : Thread} {cid tag now v : Nat} {f : Finish} {x : Access} (hwait : t.wait = .mem f [x] false) (hawaits : x.awaits cid tag = true) :
    ∃ retry issue, t.heard cid tag now (.data v) =
      { t with wait := .mem f [{ x with st := .done (.data v) }] false, retry0 := retry, issue0 := issue } := by
  have hheard : x.heard now (.data v) = { x with st := .done (.data v) } := by
    rw [Access.heard, if_neg (by simp)]
    rfl
  have hunits : (t.onUnits fun us => us.map fun u => if u.awaits cid tag then u.heard now (.data v) else u) =
      { t with wait := .mem f [{ x with st := .done (.data v) }] false } := by
    unfold Thread.onUnits
    rw [hwait]
    simp only [List.map_cons, List.map_nil, hawaits, if_true, hheard]
  rw [Thread.heard, hunits]
  exact reclock_eq ..

theorem slotAwaiting_awaits {s : State} {cid tag k : Nat} {x : Access} (h : s.slotAwaiting cid tag = some (k, x)) : x.awaits cid tag = true := by
  obtain ⟨q, -, hq⟩ := List.exists_of_findSome?_eq_some h
  obtain ⟨u, hfind, hu⟩ := Option.map_eq_some_iff.mp hq
  obtain ⟨-, rfl⟩ := Prod.mk.inj hu
  exact List.find?_some hfind

theorem hear_plain (s : State) (cid dom : Nat) {op : Op} (a : Ans) (h : ∀ q, op ≠ .query q) : s.hear cid dom op a = (a, s) := by
  unfold State.hear
  split
  case h_1 q _ => exact absurd rfl (h q)
  case h_2 q _ => exact absurd rfl (h q)
  case h_3 => rfl

theorem gOf_retireAt (s : State) (c k j : Nat) : (s.retireAt c k).gOf c k j = s.gOf c k j := by
  rw [State.gOf, State.retireAt, State.rf_onThread, State.thread_onThread_same]
  rfl

theorem thread_retireAt (s : State) (c k : Nat) :
    (s.retireAt c k).thread c k = { s.thread c k with pc := (s.thread c k).pc + 4, issue0 := none, gathered := [] } := State.thread_onThread_same ..

/-- A wait for one word whose data have come: the register takes them and the thread goes on behind the instruction (12 R285). -/
theorem settleWait_word {s : State} {cid k d v : Nat} {x : Access} {ab : Bool} (hwait : (s.thread cid k).wait = .mem (.word d) [x] ab)
    (hdone : x.st = .done (.data v)) : s.settleWait cid k = ((s.onThread cid k Thread.unpark).setGOf cid k d (BitVec.ofNat 64 v)).retireAt cid k := by
  have hanswer : x.answer = some (.data v) := by rw [Access.answer, hdone]
  have hcause : x.cause = none := by rw [Access.cause, hdone]
  have hdata : x.data = v := by rw [Access.data, hdone]
  simp [State.settleWait, hwait, hanswer, State.finishWait, failedUnit, hcause, State.writeBack, hdata]

section
variable {s : State} {cid tag k : Nat} (hfetch : s.slotFetching cid tag = none)
include hfetch

theorem takeAnswer_plain {x : Access} (a : Ans) (hslot : s.slotAwaiting cid tag = some (k, x)) (hop : ∀ q, x.req.op ≠ .query q) :
    s.takeAnswer cid tag a = (s.onThread cid k fun t => t.heard cid tag (s.core cid).cyc a).settleWait cid k := by
  unfold State.takeAnswer
  dsimp only
  rw [hfetch, hslot]
  dsimp only
  rw [hear_plain s cid _ a hop]

theorem takeAnswer_nobody (a : Ans) (hslot : s.slotAwaiting cid tag = none) (hcontext : s.contextAwaiting cid tag = none) : s.takeAnswer cid tag a = s := by
  unfold State.takeAnswer
  rw [hfetch, hslot, hcontext]

theorem takeAnswer_word {d v : Nat} {x : Access} (hslot : s.slotAwaiting cid tag = some (k, x)) (hwait : (s.thread cid k).wait = .mem (.word d) [x] false)
    (hop : ∀ q, x.req.op ≠ .query q) : let t := s.takeAnswer cid tag (.data v); let th := s.thread cid k
    t.gOf cid k d = BitVec.ofNat 64 v ∧ (t.thread cid k).pc = th.pc + 4 ∧ (t.thread cid k).st = th.from_ ∧ (t.thread cid k).wait = .none ∧
      t.mem = s.mem ∧ t.net = s.net := by
  obtain ⟨retry, issue, hheard⟩ := heard_data (now := (s.core cid).cyc) (v := v) hwait (slotAwaiting_awaits hslot)
  have hanswered := State.thread_onThread_same s cid k fun t => t.heard cid tag (s.core cid).cyc (.data v)
  rw [hheard] at hanswered
  dsimp only
  rw [takeAnswer_plain hfetch _ hslot hop, settleWait_word (congrArg Thread.wait hanswered) rfl, gOf_retireAt, State.gOf_setGOf, if_pos rfl,
    thread_retireAt, State.thread_setGOf, State.thread_onThread_same, State.thread_onThread_same, hheard]
  exact ⟨rfl, rfl, rfl, rfl, rfl, rfl⟩
end

/-! The settling of a journal entry (07 R159, R160). -/

/-- A core whose journal is empty. -/
def drained (s : State) (cid : Nat) : State := s.onCore cid fun c => { c with journal := [] }

theorem journal_drained (s : State) (cid : Nat) : ((drained s cid).core cid).journal = [] := by
  rw [drained, State.core_onCore_same]

theorem thread_drained (s : State) (cid k : Nat) : (drained s cid).thread cid k = s.thread cid k := by
  rw [State.thread, drained, State.core_onCore_same]
  rfl

theorem wakeEntries_keeps (s : State) (cid k : Nat) : let t := s.wakeEntries cid k
    (t.core cid).journal = (s.core cid).journal ∧ (t.thread cid k).held = (s.thread cid k).held ∧ t.mem = s.mem := by
  dsimp only
  unfold State.wakeEntries
  split
  case h_1 =>
    split
    case isTrue => exact ⟨rfl, rfl, rfl⟩
    case isFalse =>
      rw [State.thread_onThread_same, State.core_onThread, if_pos rfl]
      exact ⟨rfl, rfl, rfl⟩
  case h_2 => exact ⟨rfl, rfl, rfl⟩

theorem journalEntrySettle_eq {s : State} {n cid tag : Nat} {p : Packet} {a : Ans} {e : JEntry} (hdeliverable : s.deliverable n = some p)
    (hawake : (s.module (cidModule cid)).d3hot = false) (hbody : p.body = .ans cid tag true a) (hentry : (s.core cid).entryOf tag = some e)
    (hdone : ∀ now backoff, a.after now backoff = (.done a, backoff)) : exec (.journalEntrySettle n) s = .next ((s.takePacket n).settleEntry cid e a) := by
  obtain ⟨src, dst, vc, port, crossed, body⟩ := p
  obtain rfl : body = .ans cid tag true a := hbody
  have hentry' : ((s.takePacket n).core cid).entryOf tag = some e := hentry
  rw [exec_journalEntrySettle, execJournalEntrySettle, receive_eq hdeliverable]
  dsimp only
  rw [hawake, hentry', if_neg (by decide)]
  dsimp only
  rw [hdone]

section
variable {s : State} {cid : Nat} {e : JEntry} (hjournal : (s.core cid).journal = [e])
include hjournal

theorem entryOf_only : (s.core cid).entryOf e.req.tag = some e := by
  simp [Core.entryOf, hjournal]

/-- The one entry of a journal is freed. -/
theorem pumpJournal_freed : ((s.onCore cid fun c => { c with journal := c.journal.filter fun x => x.req.tag != e.req.tag }).pumpJournal cid) = drained s cid := by
  have hfreed : (s.onCore cid fun c => { c with journal := c.journal.filter fun x => x.req.tag != e.req.tag }) = drained s cid := by
    have hnone : [e].filter (fun x => x.req.tag != e.req.tag) = [] := List.filter_cons_of_neg (by simp)
    rw [State.onCore, hjournal, hnone]
    rfl
  rw [hfreed, State.pumpJournal, journal_drained, State.pumpFrom, drained, onCore_onCore]

theorem settleEntry_performed : let t := s.settleEntry cid e .ok
    ((t.core cid).journal = [] ∧ t.mem = s.mem) ∧ (t.thread cid e.slot).held = (s.thread cid e.slot).held := by
  dsimp only
  unfold State.settleEntry
  dsimp only
  rw [pumpJournal_freed hjournal]
  obtain ⟨hfree, hheld, hmem⟩ := wakeEntries_keeps (drained s cid) cid e.slot
  exact ⟨⟨hfree.trans (journal_drained ..), hmem⟩, hheld.trans (congrArg Thread.held (thread_drained ..))⟩

/-- A refused store is delivered to its thread (07 R160). -/
theorem settleEntry_refused {c : Nat} (hdiscard : e.discard = false) (hregion : e.region = false) : let t := s.settleEntry cid e (.fault c)
    ((t.core cid).journal = [] ∧ t.mem = s.mem) ∧
      (t.thread cid e.slot).held = (s.thread cid e.slot).held ++ [⟨Cause.storeRefused, e.req.va, some (e.kind, e.num)⟩] := by
  dsimp only
  unfold State.settleEntry
  dsimp only
  rw [pumpJournal_freed hjournal, State.refuse, hdiscard, hregion, if_neg (by decide), if_neg (by decide)]
  obtain ⟨hfree, hheld, hmem⟩ := wakeEntries_keeps ((drained s cid).onThread cid e.slot fun t =>
    { t with held := t.held ++ [⟨Cause.storeRefused, e.req.va, some (e.kind, e.num)⟩] }) cid e.slot
  rw [State.core_onThread, if_pos rfl] at hfree
  rw [State.thread_onThread_same, thread_drained] at hheld
  exact ⟨⟨hfree.trans (journal_drained ..), hmem⟩, hheld⟩
end

/-! Requests sent again (07 R154, R168, R179; 12 R291). -/

/-- The counts of a domain's resends with one more for a reason (14 R326). -/
def counted (k : Retry) (r : Retries) : Retries :=
  let up := fun (n : Nat) => min 0xFFFF (n + 1)
  match k with
  | .refresh => { r with refresh := up r.refresh }
  | .sc => { r with sc := up r.sc }
  | .noList => { r with noList := up r.noList }
  | .shutter => { r with shutter := up r.shutter }

theorem retries_countRetry (s : State) (cid dom : Nat) (k : Retry) :
    Tab.get ⟨0, 0, 0, 0⟩ ((s.countRetry cid dom k).core cid).retries dom = counted k (Tab.get ⟨0, 0, 0, 0⟩ (s.core cid).retries dom) := by
  rw [State.countRetry, State.core_onCore_same]
  dsimp only
  rw [Tab.get_set_same]
  cases k <;> rfl

/-- A core with its entry sent again, ordered. -/
def resent (s : State) (cid : Nat) (e : JEntry) (k : Retry) : State :=
  s.onCore cid fun c => c.onEntry e.req.tag fun x => { x with req := e.req.again k true, st := .out, scHold := x.scHold || k == .sc }

theorem ready_ordered {k : Retry} {due now : Nat} (h : due ≤ now) : k.ready due now true = true := by
  cases k with
  | refresh | noList => exact decide_eq_true h
  | sc | shutter => rfl

theorem dispatchReq_reached {s : State} {r : Req} (h : s.reaches (cidModule r.cid) (s.reqKey r) = true) :
    ∃ port, s.dispatchReq r = { s with net := s.net ++ [⟨coreSource r.cid, s.reqKey r, r.vc, port, false, .req r⟩] } := by
  rw [State.dispatchReq, State.sendReq, if_pos h]
  exact ⟨_, rfl⟩

section
variable {s : State} {cid : Nat} {e : JEntry} {k : Retry} {due : Nat} (hjournal : (s.core cid).journal = [e]) (hst : e.st = .again k due)
  (hdue : due ≤ (s.core cid).cyc)
include hjournal hst hdue

/-- The one entry of a journal is sent again, ordered since nothing stands before it. -/
theorem resendEntry_only : s.resendEntry cid e.req.tag k = some (resent s cid e k, e.req.again k true) := by
  have hordered : (((s.core cid).pending e.slot).takeWhile fun x => x.req.tag != e.req.tag).isEmpty = true := by
    simp [Core.pending, hjournal]
  unfold State.resendEntry
  dsimp only
  rw [entryOf_only hjournal]
  dsimp only
  rw [hordered, hst]
  dsimp only
  rw [if_pos (by simp [ready_ordered hdue])]
  rfl

theorem resend_only (hawake : (s.module (cidModule cid)).d3hot = false) (hcid : e.req.cid = cid) (hreaches : s.reaches (cidModule cid) (s.reqKey e.req) = true) :
    let t := s.resend cid e.req.tag k
    (∃ r q, t.net = s.net ++ [q] ∧ q.dst = s.reqKey e.req ∧ q.body = .req r ∧ r.op = e.req.op ∧ r.va = e.req.va ∧ r.tag = e.req.tag ∧
      (k = .refresh → r.resend = true) ∧ (k = .sc → r.ordered = true)) ∧
    Tab.get ⟨0, 0, 0, 0⟩ (t.core cid).retries e.req.dom = counted k (Tab.get ⟨0, 0, 0, 0⟩ (s.core cid).retries e.req.dom) := by
  obtain ⟨port, hsent⟩ := dispatchReq_reached (s := (resent s cid e k).countRetry cid e.req.dom k) (r := e.req.again k true) (hcid ▸ hreaches)
  have hresend : s.resend cid e.req.tag k = ((resent s cid e k).countRetry cid e.req.dom k).dispatchReq (e.req.again k true) := by
    unfold State.resend
    rw [hawake, resendEntry_only hjournal hst hdue]
    rfl
  dsimp only
  rw [hresend, hsent]
  refine ⟨⟨e.req.again k true, _, rfl, rfl, rfl, rfl, rfl, rfl, fun hk => ?_, fun _ => Bool.or_true _⟩, ?_⟩
  · rw [Req.again, hk]
    exact Bool.or_true _
  · have hretries : ((resent s cid e k).core cid).retries = (s.core cid).retries := by
      rw [resent, State.core_onCore_same]
      rfl
    rw [← hretries]
    exact retries_countRetry ..
end

/-! A cancel at a home (12 R290). -/

section
variable {s : State} {n cid tag dom va : Nat} {p : Packet} (hdeliverable : s.deliverable n = some p) (hbody : p.body = .cancel cid tag dom va)
  (hd3 : (s.module (keyModule p.dst)).d3hot = false)
include hdeliverable hbody hd3

theorem waitCancel_eq : exec (.waitCancel n) s = .next ((s.takePacket n).cancelAt cid tag) := by
  obtain ⟨src, dst, vc, port, crossed, body⟩ := p
  obtain rfl : body = .cancel cid tag dom va := hbody
  rw [exec_waitCancel, execWaitCancel, receive_eq hdeliverable]
  dsimp only
  rw [hd3]
  rfl

theorem waitCancel_only {e : WaitEntry} (hwaitq : s.waitq = [e]) (htag : e.req.hasTag cid tag = true) (hposted : e.req.posted = false)
    (hreaches : s.reaches (keyModule e.replyTo) (cidKey cid) = true) :
    ∃ t, exec (.waitCancel n) s = .next t ∧ t.waitq = [] ∧ Answered (s.takePacket n).net e.replyTo e.req .cancelled t ∧ t.mem = s.mem := by
  have hcid : e.req.cid = cid := by simpa using (Bool.and_eq_true_iff.mp htag).1
  have hfind : (s.takePacket n).waitq.find? (fun e => e.req.hasTag cid tag && !e.req.posted) = some e := by
    show s.waitq.find? _ = _
    simp [hwaitq, htag, hposted]
  have hdrop : dropEntry e (s.takePacket n).waitq = [] := by
    show dropEntry e s.waitq = _
    rw [hwaitq]
    exact if_pos rfl
  obtain ⟨port, hsent⟩ := sendAns_eq (s := { s.takePacket n with waitq := [] }) (a := .cancelled) (hcid ▸ hreaches)
  have hcancel : (s.takePacket n).cancelAt cid tag = State.sendAns { s.takePacket n with waitq := [] } e.replyTo e.req .cancelled := by
    unfold State.cancelAt
    rw [hfind]
    dsimp only
    rw [hdrop]
  exact ⟨_, (waitCancel_eq hdeliverable hbody hd3).trans (congrArg Host.Outcome.next (hcancel.trans hsent)), rfl, ⟨port, rfl⟩, rfl⟩

theorem waitCancel_nobody (hwaitq : s.waitq = []) (hwalks : s.walks = []) : exec (.waitCancel n) s = .next (s.takePacket n) := by
  have hnone : (s.takePacket n).waitq.find? (fun e => e.req.hasTag cid tag && !e.req.posted) = none := congrArg (List.find? _) hwaitq
  have hnone' : (s.takePacket n).walks.find? (fun w => w.req.hasTag cid tag && !w.req.posted) = none := congrArg (List.find? _) hwalks
  rw [waitCancel_eq hdeliverable hbody hd3]
  unfold State.cancelAt
  rw [hnone, hnone']
end

end Sys2Proof.ReplyProofs
end
section
/-!
PROOFS. Refresh, the scrubber and packets that cross their links (04 R78, R79; 07 R178, R179, R181; 14 R354): O43.
-/
namespace Sys2Proof.RefreshProofs
open Sys2Proof Sys2Proof.Machine Sys2Proof.Laws Sys2Proof.CopyProofs

/-- `t` has one more entry in the error log of module `m` than `s`, and its interrupt (14 R354). -/
def Logs (s : State) (m kind count place : Nat) (t : State) : Prop :=
  ∃ x, (t.module m).log = (if (s.module m).log.length < 1024 then (s.module m).log else (s.module m).log.drop 1) ++
    [[BitVec.ofNat 64 (kind * 2 ^ 56 + count), BitVec.ofNat 64 place, 0, x]] ∧ (t.module m).msix = (s.module m).msix ++ [1]

theorem logs_logError (s : State) (m kind place : Nat) {count : Nat} (h : count < 2 ^ 32) : Logs s m kind count place (s.logError m kind 0 count place) := by
  obtain ⟨⟨x, hlog⟩, hmsix⟩ := logError_facts s m kind 0 count place
  refine ⟨x, ?_, hmsix⟩
  rw [hlog, Nat.mod_eq_of_lt h, Nat.zero_mod, Nat.zero_mul, Nat.add_zero]

theorem contains_setHot (l : List Nat) (n j : Nat) (hot : Bool) :
    (if hot then setInsert l n else setErase l n).contains j = if j = n then hot else l.contains j := by
  rw [Bool.eq_iff_iff]
  cases hot <;> by_cases h : j = n <;> simp [mem_setInsert, mem_setErase, h]

section
variable {s : State} {m stack : Nat} (hpresent : s.present.contains m = true) (hstack : stack < 16)
include hpresent hstack

/-! Refresh (07 R178, R179). -/

theorem dramRefresh_find {ch : Nat} (hch : ch < 32) (bank : Option Nat) : ∃ t, exec (.dramRefresh m stack ch bank) s = .next t ∧
    (∀ j, Tab.find t.refreshing j = if j = (m * 16 + stack) * 32 + ch then bank else Tab.find s.refreshing j) ∧ t.mem = s.mem := by
  rw [exec_dramRefresh]
  unfold execDramRefresh
  rw [hpresent, decide_eq_false (by omega), decide_eq_false (by omega)]
  cases bank with
  | some b => exact ⟨_, rfl, fun j => Tab.find_set .., rfl⟩
  | none => exact ⟨_, rfl, fun j => find_del .., rfl⟩

theorem refreshRateChange_logs {hot : Bool} (h : s.hotStacks.contains (m * 16 + stack) = !hot) : ∃ t, exec (.refreshRateChange m stack hot) s = .next t ∧
    (∀ j, t.hotStacks.contains j = if j = m * 16 + stack then hot else s.hotStacks.contains j) ∧ Logs s m (if hot then 5 else 6) 1 stack t := by
  have hguard : (decide (16 ≤ stack) || !s.present.contains m || s.hotStacks.contains (m * 16 + stack) == hot) = false := by
    rw [hpresent, h, decide_eq_false (by omega)]
    cases hot <;> rfl
  rw [exec_refreshRateChange, execRefreshRateChange]
  dsimp only
  rw [hguard]
  exact ⟨_, rfl, fun j => contains_setHot s.hotStacks _ j hot, logs_logError _ m _ stack (by decide)⟩

/-! The scrubber (07 R181). -/

section
variable {ch off : Nat} (hch : ch < 32) (hoff : off < 2 ^ 31) (hlive : s.isDead (dramAddr m stack ch (off / 8 * 8)) = false)
  (hsound : s.mem.poisoned (dramAddr m stack ch (off / 8 * 8) / 8) = false)
include hch hoff hlive hsound

theorem scrubWord_guard : (decide (16 ≤ stack) || decide (32 ≤ ch) || decide (2 ^ 31 ≤ off) || !s.present.contains m || s.isDead (dramAddr m stack ch (off / 8 * 8)) ||
    s.mem.poisoned (wordOf (dramAddr m stack ch (off / 8 * 8)))) = false := by
  rw [wordOf, hpresent, hlive, hsound, decide_eq_false (by omega), decide_eq_false (by omega), decide_eq_false (by omega)]
  rfl

theorem scrubWord_clean : exec (.scrubWord m stack ch off .clean) s = .next s := by
  rw [exec_scrubWord, execScrubWord]
  dsimp only
  rw [scrubWord_guard hpresent hstack hch hoff hlive hsound]
  rfl

theorem scrubWord_correctable : exec (.scrubWord m stack ch off .correctable) s =
    .next (s.countCorrected m ((m * 16 + stack) * 32 + ch) (dramAddr m stack ch (off / 8 * 8))) := by
  rw [exec_scrubWord, execScrubWord]
  dsimp only
  rw [scrubWord_guard hpresent hstack hch hoff hlive hsound]
  rfl

theorem scrubWord_uncorrectable : let a := dramAddr m stack ch (off / 8 * 8)
    ∃ t, exec (.scrubWord m stack ch off .uncorrectable) s = .next t ∧ (∀ j, t.mem.poisoned j = (decide (j = a / 8) || s.mem.poisoned j)) ∧
      s.mem.sameFull t.mem ∧ (∀ x, t.mem.byte x = s.mem.byte x) ∧ Logs s m 2 1 (a % 2 ^ 40) t := by
  rw [exec_scrubWord, execScrubWord]
  dsimp only
  rw [scrubWord_guard hpresent hstack hch hoff hlive hsound]
  refine ⟨_, rfl, fun j => (Memory.poisoned_setPoison s.mem _ j true).trans ?_, fun _ => rfl, fun _ => rfl,
    logs_logError (s.withMem (s.mem.setPoison (dramAddr m stack ch (off / 8 * 8) / 8) true)) m 2 _ (by decide)⟩
  by_cases h : j = dramAddr m stack ch (off / 8 * 8) / 8 <;> simp [wordOf, h]
end
end

theorem countCorrected_below {s : State} {c : Nat} (m a : Nat) (h : Tab.get 0 s.corrected c < 1023) : let t := s.countCorrected m c a
    Tab.get 0 t.corrected c = Tab.get 0 s.corrected c + 1 ∧ t.mem = s.mem ∧ t.modules = s.modules := by
  dsimp only
  rw [State.countCorrected, if_pos (by omega)]
  exact ⟨Tab.get_set_same .., rfl, rfl⟩

/-- The 1,024th corrected error of a channel is logged, and its count starts again (07 R181). -/
theorem countCorrected_full {s : State} {c : Nat} (m a : Nat) (h : Tab.get 0 s.corrected c = 1023) : let t := s.countCorrected m c a
    Tab.get 0 t.corrected c = 0 ∧ t.mem = s.mem ∧ Logs s m 1 1024 (a % 2 ^ 40) t := by
  dsimp only
  rw [State.countCorrected, if_neg (by omega)]
  exact ⟨Tab.get_set_same .., rfl, logs_logError { s with corrected := Tab.set s.corrected c 0 } m 1 _ (by decide)⟩

/-! A packet crosses its link (04 R78, R79). -/

section
variable {s : State} {n : Nat} {q : Packet} (hq : s.net[n]? = some q) (hlink : q.onLink = true)
  (hfirst : ∀ x ∈ s.net.take n, x.src = q.src → x.dst = q.dst → x.vc = q.vc → x.onLink = false)
include hq hlink hfirst

theorem linkPacketReceive_eq : exec (.linkPacketReceive n) s = .next (if 6 ≤ q.vc
    then (s.onPort (keyModule q.dst) (q.port.getD 0) fun x => { x with errors := x.errors + 1 }).takePacket n
    else { s with net := s.net.set n { q with crossed := true } }) := by
  have hbefore : (s.net.take n).any (fun x => x.src == q.src && x.dst == q.dst && x.vc == q.vc && x.onLink) = false := by
    rw [List.any_eq_false]
    intro x hx
    simp only [Bool.and_eq_true, beq_iff_eq, not_and, Bool.not_eq_true, and_imp]
    exact hfirst x hx
  rw [exec_linkPacketReceive, execLinkPacketReceive, hq]
  dsimp only
  rw [hlink, hbefore, listSet_eq_set]
  rfl

theorem linkPacketReceive_crosses (hvc : q.vc < 6) : ∃ t, exec (.linkPacketReceive n) s = .next t ∧
    (∀ j, t.net[j]? = if j = n then some { q with crossed := true } else s.net[j]?) ∧ t.mem = s.mem := by
  obtain ⟨hn, -⟩ := List.getElem?_eq_some_iff.mp hq
  refine ⟨_, linkPacketReceive_eq hq hlink hfirst, ?_⟩
  rw [if_neg (by omega)]
  refine ⟨fun j => ?_, rfl⟩
  by_cases h : j = n
  · rw [if_pos h, h, List.getElem?_set_self hn]
  · rw [if_neg h, List.getElem?_set_ne (Ne.symm h)]

theorem linkPacketReceive_drops (hvc : 6 ≤ q.vc) : ∃ t, exec (.linkPacketReceive n) s = .next t ∧ t.net = (s.takePacket n).net ∧ t.mem = s.mem := by
  refine ⟨_, linkPacketReceive_eq hq hlink hfirst, ?_⟩
  rw [if_pos hvc]
  exact ⟨rfl, rfl⟩
end

end Sys2Proof.RefreshProofs
end
section
/-!
PROOFS. The core cycle, asynchronous traps and wait limits (06 R130, R131; 12 R290; 14 R326 to R328, R336): O43.
-/
namespace Sys2Proof.CycleProofs
open Sys2Proof Sys2Proof.Machine Sys2Proof.Laws Sys2Proof.WalkProofs Sys2Proof.ReplyProofs Sys2Proof.RefreshProofs

/-! The start of a cycle (06 R131). -/

theorem core_onEng (s : State) (cl c : Nat) (f : Engines → Engines) : (s.onEng cl f).core c = s.core c := rfl

/-- What tidying leaves of a core: its slots, of which those that do not run are out of the pipeline, and all but two of its queues (07 R159). -/
theorem tidy_core (s : State) (cid : Nat) : (∃ jwait ckwait, (s.tidy cid).core cid = { s.core cid with
    jwait := jwait
    ckwait := ckwait
    slots := (s.core cid).slots.map fun (p : Nat × Thread) => (p.1, if p.2.st.runs then p.2 else { p.2 with pipe := (s.core cid).cyc }) }) ∧
    (s.tidy cid).mem = s.mem := by
  unfold State.tidy
  dsimp only
  split
  case isTrue =>
    rw [core_onEng, State.core_onCore_same, State.core_onCore_same]
    exact ⟨⟨_, _, rfl⟩, rfl⟩
  case isFalse =>
    rw [State.core_onCore_same, State.core_onCore_same]
    exact ⟨⟨_, _, rfl⟩, rfl⟩

section
variable {s : State} {cid : Nat} (hslots : (s.core cid).slots = [])
include hslots

theorem wakeCore_empty : s.wakeCore cid = s := by
  rw [State.wakeCore, hslots]
  rfl

theorem choose_empty : s.choose cid = none := by
  have hnone : s.eligible cid = [] := by
    rw [State.eligible, hslots]
    rfl
  unfold State.choose
  dsimp only
  rw [hnone]
  rfl
end

theorem serveHeld_none {s : State} {cid : Nat} (h : (s.core cid).held = []) : s.serveHeld cid = s := by
  unfold State.serveHeld
  rw [h]

/-- The state at the start of a core's cycle, when its threads have been woken (06 R131). -/
def begun (s : State) (cid : Nat) : State := ((s.onCore cid fun c => { c with cyc := c.cyc + 1 }).tidy cid).wakeCore cid

theorem begun_eq (s : State) (cid : Nat) : ((s.onCore cid fun c => { c with cyc := c.cyc + 1 }).tidy cid).wakeCore cid = begun s cid := rfl

theorem coreCycle_stopped {s : State} {cid : Nat} (h : s.coreRuns cid = false) : exec (.coreCycle cid) s = .next s := by
  rw [exec_coreCycle, execCoreCycle, h]
  rfl

section
variable {s : State} {cid : Nat} (hruns : s.coreRuns cid = true)
include hruns

theorem coreCycle_idle (hchoose : (begun s cid).choose cid = none) : exec (.coreCycle cid) s = .next ((begun s cid).serveHeld cid) := by
  rw [exec_coreCycle, execCoreCycle, hruns]
  dsimp only
  rw [begun_eq, hchoose]
  rfl

/-- A core with no thread and no arrival only counts its cycle. -/
theorem coreCycle_empty (hslots : (s.core cid).slots = []) (hheld : (s.core cid).held = []) :
    ∃ t, exec (.coreCycle cid) s = .next t ∧ (t.core cid).cyc = (s.core cid).cyc + 1 ∧ t.mem = s.mem := by
  obtain ⟨⟨jwait, ckwait, hcore⟩, hmem⟩ := tidy_core (s.onCore cid fun c => { c with cyc := c.cyc + 1 }) cid
  rw [State.core_onCore_same, hslots] at hcore
  have hslots' := congrArg Core.slots hcore
  have hbegun : begun s cid = (s.onCore cid fun c => { c with cyc := c.cyc + 1 }).tidy cid := wakeCore_empty hslots'
  refine ⟨_, coreCycle_idle hruns (hbegun ▸ choose_empty hslots'), ?_⟩
  rw [hbegun, serveHeld_none ((congrArg Core.held hcore).trans hheld), hcore]
  exact ⟨rfl, hmem⟩
end

/-! Issue (05 R103, 06 R131). -/

theorem dispatchReq_net (s : State) (r : Req) : ∃ net, s.dispatchReq r = { s with net := net } := by
  unfold State.dispatchReq State.sendReq
  split
  case isTrue => exact ⟨_, rfl⟩
  case isFalse => exact ⟨_, rfl⟩

/-- What asking for a sector leaves alone: memory, the thread that issues, the order of issue, and of its thread all but what is fetched (05 R103). -/
structure KeepsTurn (s t : State) (cid k : Nat) : Prop where
  mem : t.mem = s.mem
  cur : t.cur = s.cur
  last : (t.core cid).last = (s.core cid).last
  pipe : (t.thread cid k).pipe = (s.thread cid k).pipe
  pc : (t.thread cid k).pc = (s.thread cid k).pc

section
variable {s t : State} {cid k : Nat}

theorem KeepsTurn.trans {u : State} (h : KeepsTurn s t cid k) (h' : KeepsTurn t u cid k) : KeepsTurn s u cid k :=
  ⟨h'.mem.trans h.mem, h'.cur.trans h.cur, h'.last.trans h.last, h'.pipe.trans h.pipe, h'.pc.trans h.pc⟩

theorem keepsTurn_dispatchReq (s : State) (r : Req) (cid k : Nat) : KeepsTurn s (s.dispatchReq r) cid k := by
  obtain ⟨net, hsent⟩ := dispatchReq_net s r
  rw [hsent]
  exact ⟨rfl, rfl, rfl, rfl, rfl⟩

theorem keepsTurn_newTag (s : State) (cid k : Nat) : KeepsTurn s (s.newTag cid).2 cid k := by
  have hthread : (s.newTag cid).2.thread cid k = s.thread cid k := by
    rw [newTag_eq, State.thread, State.core_onCore_same]
    rfl
  refine ⟨rfl, rfl, ?_, congrArg Thread.pipe hthread, congrArg Thread.pc hthread⟩
  rw [newTag_eq, State.core_onCore_same]

theorem keepsTurn_onThread (s : State) (cid k : Nat) (f : Thread → Thread) (hpipe : ∀ t, (f t).pipe = t.pipe) (hpc : ∀ t, (f t).pc = t.pc) :
    KeepsTurn s (s.onThread cid k f) cid k := by
  refine ⟨rfl, rfl, ?_, ?_, ?_⟩
  · rw [State.core_onThread, if_pos rfl]
  · rw [State.thread_onThread_same, hpipe]
  · rw [State.thread_onThread_same, hpc]
end

theorem askSector_keeps (s : State) (cid k a : Nat) : KeepsTurn s (s.askSector cid k a) cid k := by
  unfold State.askSector
  split
  case isTrue => exact ⟨rfl, rfl, rfl, rfl, rfl⟩
  case isFalse =>
    exact ((keepsTurn_newTag s cid k).trans (keepsTurn_dispatchReq ..)).trans (keepsTurn_onThread _ cid k _ (fun _ => rfl) fun _ => rfl)

theorem askNext_keeps (s : State) (cid k : Nat) : KeepsTurn s (s.askNext cid k) cid k := by
  unfold State.askNext
  dsimp only
  split
  case isTrue => exact askSector_keeps ..
  case isFalse => exact ⟨rfl, rfl, rfl, rfl, rfl⟩

theorem shift_marked (t : Thread) (pipe : Nat) : ({ t with yield := false, pipe := pipe } : Thread).shift = { t.shift with yield := false, pipe := pipe } := by
  unfold Thread.shift
  dsimp only
  split
  case h_1 => split <;> rfl
  case h_2 => rfl

theorem shift_pc (t : Thread) : t.shift.pc = t.pc := by
  unfold Thread.shift
  dsimp only
  split
  case h_1 => split <;> rfl
  case h_2 => rfl

/-- A core whose slot `k` has been chosen: it is out of the pipeline for eight cycles (06 R130, R131). -/
def chosen (v : State) (cid k : Nat) : State :=
  (v.onCore cid fun c => { c with last := k }).onThread cid k fun t => { t with yield := false, pipe := (v.core cid).cyc + 8 }

theorem thread_chosen (v : State) (cid k : Nat) :
    (chosen v cid k).thread cid k = { v.thread cid k with yield := false, pipe := (v.core cid).cyc + 8 } := by
  rw [chosen, State.thread_onThread_same, State.thread, State.core_onCore_same]
  rfl

section
variable {s : State} {cid k : Nat}

theorem takeDue_none (hdue : (s.thread cid k).due = false) (n : Nat) : s.takeDue cid k n = s := by
  cases n with
  | zero => rfl
  | succ n => simp [State.takeDue, hdue]

/-- A turn of a thread whose next instruction stands in its buffers: it issues. -/
theorem turn_issues (hruns : (s.thread cid k).st.runs = true) (hdue : (s.thread cid k).due = false) (hfetch : ∀ a, (s.thread cid k).shift.fetch ≠ .need a) :
    s.turn cid k = { State.askNext { s.onThread cid k Thread.shift with cur := (cid, k) } cid k with issuing := true } := by
  have hthread : State.thread { s.onThread cid k Thread.shift with cur := (cid, k) } cid k = (s.thread cid k).shift := State.thread_onThread_same ..
  unfold State.turn
  dsimp only
  rw [takeDue_none hdue, hruns, hthread]
  rw [if_neg (by decide)]
  split
  case h_1 a ha => exact absurd ha (hfetch a)
  case h_2 => rfl

/-- The chosen slot has its turn after the arrivals of the core (06 R131). -/
theorem coreCycle_turn (hruns : s.coreRuns cid = true) (hchoose : (begun s cid).choose cid = some (k, none)) :
    exec (.coreCycle cid) s = .next ((chosen ((begun s cid).serveHeld cid) cid k).turn cid k) := by
  have hcyc (v : State) : ((v.onCore cid fun c => { c with last := k }).core cid).cyc = (v.core cid).cyc := by rw [State.core_onCore_same]
  rw [exec_coreCycle, execCoreCycle, hruns]
  dsimp only
  rw [begun_eq, hchoose, if_neg (by decide)]
  dsimp only
  rw [hcyc, chosen]

theorem turn_chosen {v : State} (hruns : (v.thread cid k).st.runs = true) (hdue : (v.thread cid k).due = false) (hfetch : ∀ a, (v.thread cid k).shift.fetch ≠ .need a) :
    let t := (chosen v cid k).turn cid k
    t.issuing = true ∧ t.cur = (cid, k) ∧ (t.core cid).last = k ∧ (t.thread cid k).pipe = (v.core cid).cyc + 8 ∧
      (t.thread cid k).pc = (v.thread cid k).pc ∧ t.mem = v.mem := by
  have hthread := thread_chosen v cid k
  have hturn : (chosen v cid k).turn cid k = _ := turn_issues (by rw [hthread]; exact hruns) (by rw [hthread]; exact hdue)
    (by rw [hthread, shift_marked]; exact hfetch)
  obtain ⟨hmem, hcur, hlast, hpipe, hpc⟩ := askNext_keeps { (chosen v cid k).onThread cid k Thread.shift with cur := (cid, k) } cid k
  have hshift : State.thread { (chosen v cid k).onThread cid k Thread.shift with cur := (cid, k) } cid k =
      { (v.thread cid k).shift with yield := false, pipe := (v.core cid).cyc + 8 } := by
    rw [← shift_marked, ← hthread]
    exact State.thread_onThread_same ..
  have hlast' : (State.core { (chosen v cid k).onThread cid k Thread.shift with cur := (cid, k) } cid).last = k := by
    show (((chosen v cid k).onThread cid k Thread.shift).core cid).last = k
    rw [State.core_onThread, if_pos rfl, chosen, State.core_onThread, if_pos rfl, State.core_onCore_same]
  dsimp only
  rw [hturn]
  exact ⟨rfl, hcur, hlast.trans hlast', hpipe.trans (congrArg Thread.pipe hshift), hpc.trans ((congrArg Thread.pc hshift).trans (shift_pc _)), hmem⟩
end

/-! Asynchronous traps (06 R129; 14 R327, R328, R336). -/

/-- An entry of the trap table that names an in-thread handler (14 R324). -/
theorem ttblInThread_of {e : Word} (hlow : e.extractLsb' 0 2 = 1) (hhigh : e.extractLsb' 2 62 ≠ 0) : ttblInThread e = true := by
  have hmod : e.toNat % 4 = 1 := by simpa using congrArg BitVec.toNat hlow
  have hdiv : e.toNat / 4 ≠ 0 := fun h => hhigh (by
    rw [FloatScalarProofs.extract_eq_zero_iff]
    show e.toNat / 4 % 2 ^ 62 = 0
    rw [h, Nat.zero_mod])
  have hpc : ttblPc e ≠ 0 := fun h => by
    have hzero := congrArg BitVec.toNat h
    rw [ttblPc, BitVec.toNat_ofNat, Nat.mod_eq_of_lt (by omega)] at hzero
    exact hdiv (by simpa using hzero)
  rw [ttblInThread, hmod]
  simpa using hpc

/-- A thread whose oldest pending trap is out of its list, with the numbers of the store that was refused, if it reports one (07 R160). -/
def taken (t : Thread) (a : Async) (r : List Async) : Thread :=
  { t with
    held := r
    jkind := (a.refused.map Prod.fst).getD t.jkind
    jentry := (a.refused.map Prod.snd).getD t.jentry }

theorem taken_refused (t : Thread) {a : Async} (r : List Async) {x : Nat × Nat} (h : a.refused = some x) :
    (taken t a r).jkind = x.1 ∧ (taken t a r).jentry = x.2 := by
  rw [taken, h]
  exact ⟨rfl, rfl⟩

section
variable {s : State} {cid k : Nat} {a : Async} {r : List Async} (hheld : (s.thread cid k).held = a :: r)
include hheld

theorem takeHeld_eq : s.takeHeld cid k =
    (s.onThread cid k fun t => taken t a r).take cid k a.cause true (s.thread cid k).pc (BitVec.ofNat 64 a.detail) := by
  unfold State.takeHeld
  rw [hheld]
  dsimp only
  rw [State.thread_onThread_same]
  cases hrefused : a.refused with
  | none => simp [taken, hrefused]
  | some x => simp [taken, hrefused]

variable (hdepth : (s.thread cid k).trap.tdepth ≤ 1)
include hdepth

theorem asyncTrapEntry_eq (hruns : s.coreRuns cid = true) (hstep : s.mayStep cid k = true) (hst : (s.thread cid k).st.runs = true) :
    exec (.asyncTrapEntry cid k) s = .next (s.takeHeld cid k) := by
  have hdue : (s.thread cid k).due = true := by
    simp [Thread.due, hheld]
    omega
  rw [exec_asyncTrapEntry, execAsyncTrapEntry]
  dsimp only
  rw [hdue, hruns, hstep, hst, if_neg (by decide), if_pos rfl]

/-- The handler's thread after the trap (14 R327). -/
theorem takeHeld_thread {e : Word} (he : (s.core cid).ttbl (s.thread cid k).dom (causeClass a.cause) = e) (hlow : e.extractLsb' 0 2 = 1)
    (hhigh : e.extractLsb' 2 62 ≠ 0) : (s.takeHeld cid k).thread cid k =
      { ((taken (s.thread cid k) a r).push true a.cause (s.thread cid k).pc (BitVec.ofNat 64 a.detail)).dropFetch with
        pc := e &&& ~~~3, st := .trap, wait := .none, issue0 := none } ∧ (s.takeHeld cid k).mem = s.mem := by
  have hentry : ((s.onThread cid k fun t => taken t a r).core cid).ttbl ((s.onThread cid k fun t => taken t a r).thread cid k).dom (causeClass a.cause) = e := by
    rw [State.thread_onThread_same, State.core_onThread, if_pos rfl]
    exact he
  rw [takeHeld_eq hheld, take_handler, hentry, ttblPc, div4, State.thread_onThread_same, State.thread_onThread_same]
  · exact ⟨rfl, rfl⟩
  · rw [State.thread_onThread_same]
    show (s.thread cid k).trap.tdepth ≠ 2
    omega
  · rw [hentry]
    exact ttblInThread_of hlow hhigh
end

/-! The limit of a wait (12 R290, 14 R335). -/

section
variable {s : State} {cid k : Nat} (hruns : s.coreRuns cid = true) (hlimit : (s.thread cid k).limitPassed (s.core cid).cyc = true)
  (hwait : (s.thread cid k).wait = .core .idle) (hcontexts : s.contextsOf cid k = [])
include hruns hlimit hwait hcontexts

/-- A thread that waits for nothing but its limit goes on behind its instruction. -/
theorem wlimExpiry_idle : exec (.wlimExpiry cid k) s = .next ((s.onThread cid k Thread.unpark).retireAt cid k) := by
  have hexpired : s.expireSlot cid k = (s.onThread cid k Thread.unpark).retireAt cid k := by
    unfold State.expireSlot
    dsimp only
    rw [hwait]
  have hnone : ((s.onThread cid k Thread.unpark).retireAt cid k).contextsOf cid k = [] := hcontexts
  rw [exec_wlimExpiry, execWlimExpiry]
  dsimp only
  rw [hruns, hlimit, if_neg (by decide), if_pos rfl, hexpired, hnone]
  rfl
end

/-- Settles O43: each step from the lemma that says what it comes to, in the order of the statement. -/
theorem homesAndCores : Obligations.HomesAndCores := by
  unfold Obligations.HomesAndCores
  intro n hint cid tag k m stack ch s p u here core th awake ends answered logs
  refine ⟨fun r c off hhere hbody htarget => ?remote, ?walk, fun hhere hawake hfetch => ?reply, fun e a hhere hawake hbody hjournal htag => ?settle, ?resend,
    fun dom va hhere hbody hd3 => ?cancel, fun hpresent hstack => ?refresh, coreCycle_stopped, fun hruns => coreCycle_empty hruns, ?turn, ?async, ?limit, ?link⟩
  case remote =>
    intro h i hfused hcid hd3 hreaches
    have hremote : Remote s n hint p r h off := remote_of_request hhere hbody htarget hfused hcid hd3 hreaches
    refine ⟨fun z hop => ⟨fun hother hshut => ?_, fun hopen hmay => ?_, fun hopen hmay hsound => hremote.loads hopen hop hmay hsound⟩,
      fun v hop hopen hmay => hremote.stores hopen hop hmay⟩
    · exact hremote.refused (by rw [hop]; rfl) (atLocal_shut hother hshut) nofun
    · exact hremote.refused (by rw [hop]; rfl) (atLocal_refused hopen (by rw [hop]; exact hmay)) nofun
  case walk =>
    intro w l c hwalks hd3 hshare hlookup hreaches hfault
    obtain ⟨t, hrun, hended, ⟨htlb, hmem⟩, hanswered⟩ := translationWalkDone_fault hwalks hd3 hshare hlookup hreaches hfault
    exact ⟨t, hrun, hended, htlb, hmem, hanswered⟩
  case reply =>
    refine ⟨fun v d x hbody hslot hwait hout hop => ?_, fun a hbody hslot hcontext => ?_⟩
    · exact ⟨_, memoryReply_eq hhere hbody hawake, takeAnswer_word (s := s.takePacket n) hfetch hslot hwait hop⟩
    · rw [memoryReply_eq hhere hbody hawake, takeAnswer_nobody (s := s.takePacket n) hfetch a hslot hcontext]
  case settle =>
    have hentry : core.entryOf tag = some e := htag ▸ entryOf_only hjournal
    refine ⟨?_, ?_⟩
    · rintro rfl
      exact ⟨_, journalEntrySettle_eq hhere hawake hbody hentry fun _ _ => rfl, settleEntry_performed (s := s.takePacket n) hjournal⟩
    · rintro c rfl hdiscard hregion
      exact ⟨_, journalEntrySettle_eq hhere hawake hbody hentry fun _ _ => rfl, settleEntry_refused (s := s.takePacket n) hjournal hdiscard hregion⟩
  case resend =>
    intro x hx e due hawake hjournal htag hcid hst hdue hreaches
    subst htag
    obtain ⟨hsent, hcount⟩ := resend_only hjournal hst hdue hawake hcid hreaches
    have hexec : exec x.2.1 s = .next (s.resend cid e.req.tag x.1) ∧ ∀ r, x.2.2 r = counted x.1 r := by
      simp only [List.mem_cons, List.not_mem_nil, or_false] at hx
      obtain rfl | rfl | rfl | rfl := hx
      · exact ⟨rfl, fun _ => rfl⟩
      · exact ⟨rfl, fun _ => rfl⟩
      · exact ⟨rfl, fun _ => rfl⟩
      · exact ⟨rfl, fun _ => rfl⟩
    exact ⟨_, hexec.1, hsent, hcount.trans (hexec.2 _).symm⟩
  case cancel =>
    exact ⟨fun e hwaitq htag hposted hreaches => waitCancel_only hhere hbody hd3 hwaitq htag hposted hreaches, waitCancel_nobody hhere hbody hd3⟩
  case refresh =>
    refine ⟨fun hch bank => dramRefresh_find hpresent hstack hch bank, fun hot hhot => refreshRateChange_logs hpresent hstack hhot,
      fun off hch hoff hlive hsound => ⟨scrubWord_clean hpresent hstack hch hoff hlive hsound, fun hcount => ?_, fun hcount => ?_,
        scrubWord_uncorrectable hpresent hstack hch hoff hlive hsound⟩⟩
    · exact ⟨_, scrubWord_correctable hpresent hstack hch hoff hlive hsound, countCorrected_below _ _ hcount⟩
    · exact ⟨_, scrubWord_correctable hpresent hstack hch hoff hlive hsound, countCorrected_full _ _ hcount⟩
  case turn =>
    intro hruns w hchoose v hst hdue hfetch
    exact ⟨_, coreCycle_turn hruns hchoose, turn_chosen hst hdue hfetch⟩
  case async =>
    intro a r hruns hstep hst hheld hdepth e hlow hhigh
    obtain ⟨hthread, hmem⟩ := takeHeld_thread hheld hdepth (e := e) rfl hlow hhigh
    refine ⟨_, asyncTrapEntry_eq hheld hdepth hruns hstep hst, ?_⟩
    dsimp only
    rw [hthread]
    refine ⟨rfl, rfl, rfl, rfl, div4 _, rfl, rfl, rfl, fun x hx => taken_refused _ r hx, hmem⟩
  case limit =>
    intro hruns hlimit hwait hcontexts
    refine ⟨_, wlimExpiry_idle hruns hlimit hwait hcontexts, ?_⟩
    dsimp only
    rw [thread_retireAt, State.thread_onThread_same]
    exact ⟨rfl, rfl, rfl, rfl⟩
  case link =>
    intro q hq hlink hfirst
    exact ⟨linkPacketReceive_crosses hq hlink hfirst, linkPacketReceive_drops hq hlink hfirst⟩

end Sys2Proof.CycleProofs
end

section
/-!
PROOFS. Instruction words: what a form of the opcode map makes from the fields of a word, and that each entry of the decoder's tables writes the
fields that it reads (05 R105 to R117).
-/
namespace Sys2Proof

/-- The term `i` is an instruction of a form of format A whose operands stand in the fields as `d`, `s` and `t` (05 R106, R111). -/
def FormA.Makes (i : Instr) (d s t : Nat) : FormA → Prop
  | .dst f => ∃ x y z : Reg, i = f x y z ∧ d = x ∧ s = y ∧ t = z
  | .ds f => ∃ x y : Reg, i = f x y ∧ d = x ∧ s = y ∧ t = 0
  | .st f => ∃ y z : Reg, i = f y z ∧ d = 0 ∧ s = y ∧ t = z
  | .s f => ∃ y : Reg, i = f y ∧ d = 0 ∧ s = y ∧ t = 0
  | .d f => ∃ x : Reg, i = f x ∧ d = x ∧ s = 0 ∧ t = 0
  | .bare j => i = j ∧ d = 0 ∧ s = 0 ∧ t = 0
  | .pst f => ∃ (p : Pred) (y z : Reg), i = f p y z ∧ d = 16 * p ∧ s = y ∧ t = z
  | .ppp f => ∃ p q r : Pred, i = f p q r ∧ d = 16 * p ∧ s = 16 * q ∧ t = 16 * r
  | .pp f => ∃ p q : Pred, i = f p q ∧ d = 16 * p ∧ s = 16 * q ∧ t = 0
  | .p f => ∃ p : Pred, i = f p ∧ d = 16 * p ∧ s = 0 ∧ t = 0
  | .fs f => ∃ (g : Fmt) (y : Reg), i = f g y ∧ d = 8 * g ∧ s = y ∧ t = 0
  | .df f => ∃ (x : Reg) (g : Fmt), i = f x g ∧ d = x ∧ s = 8 * g ∧ t = 0
  | .dsBit f => ∃ (x y : Reg) (b : Bool), i = f x y b ∧ d = x ∧ s = y ∧ t = b.toNat
  | .sBit f => ∃ (y : Reg) (b : Bool), i = f y b ∧ d = 0 ∧ s = y ∧ t = b.toNat
  | .bit f => ∃ b : Bool, i = f b ∧ d = 0 ∧ s = 0 ∧ t = b.toNat
  | .bad => False

/-- The same for format V, with the fields `d`, `s`, `t`, `m` and `y` (05 R108, R116). -/
def FormV.Makes (i : Instr) (d s t m y : Nat) : FormV → Prop
  | .dst f => ∃ (a b c : Grp) (p : Pred) (k : Ty), i = f a b c p k ∧ d = a ∧ s = b ∧ t = c ∧ m = p ∧ y = k.code
  | .ds f => ∃ (a b : Grp) (p : Pred) (k : Ty), i = f a b p k ∧ d = a ∧ s = b ∧ t = 0 ∧ m = p ∧ y = k.code
  | .pst f => ∃ (a : Pred) (b c : Grp) (p : Pred) (k : Ty), i = f a b c p k ∧ d = 2 * a ∧ s = b ∧ t = c ∧ m = p ∧ y = k.code
  | .cvt f => ∃ (a b : Grp) (x : Ty) (p : Pred) (k : Ty), i = f a b x p k ∧ d = a ∧ s = b ∧ t = x.code ∧ m = p ∧ y = k.code
  | .half f => ∃ (a b : Grp) (h : Fin 2) (p : Pred) (k : Ty), i = f a b h p k ∧ d = a ∧ s = b ∧ t = h ∧ m = p ∧ y = k.code
  | .bad => False

/-- The same for format VM, with the fields `d`, `s`, `t` and `m` (08 R199, R204, R208). -/
def FormVM.Makes (i : Instr) (d s t m : Nat) : FormVM → Prop
  | .block f => ∃ (g : Grp) (x : Reg) (p : Pred), i = f g x p ∧ d = g ∧ s = x ∧ t = 0 ∧ m = p
  | .strided f => ∃ (g : Grp) (x y : Reg) (p : Pred), i = f g x y p ∧ d = g ∧ s = x ∧ t = y ∧ m = p
  | .indexed f => ∃ (g : Grp) (x : Reg) (v : Grp) (z : Bool) (p : Pred), i = f g x v z p ∧ d = g ∧ s = x ∧ t = 8 * v + z.toNat ∧ m = p
  | .noMask f => ∃ (g : Grp) (x y : Reg), i = f g x y ∧ d = g ∧ s = x ∧ t = y ∧ m = 0
  | .bad => False

/-- The forms of the majors of format A (05 R114 to R117). -/
noncomputable def tableA : Nat → Option (List FormA)
  | 0x01 => some formsInt | 0x0C => some formsCmp | 0x0E => some formsPred | 0x14 => some formsJump | 0x15 => some formsCtl
  | 0x17 => some formsFdm | 0x1E => some formsPres | 0x1F => some formsMsync | 0x20 => some (formsAtom .w64)
  | 0x21 => some (formsAtom .w32) | 0x22 => some formsAcas | 0x23 => some formsLctl | 0x24 => some formsWait
  | 0x25 => some formsTask | 0x30 => some (formsFs .w32) | 0x31 => some (formsFs .w64) | 0x32 => some formsFcmp
  | 0x33 => some formsFcvt | 0x34 => some formsSys | 0x36 => some formsMctl | 0x37 => some formsXctl | _ => none

/-- The forms of the majors of format V (05 R116). -/
def tableV : Nat → Option (List FormV)
  | 0x28 => some formsVint | 0x29 => some formsVflt | 0x2A => some formsVcmp | 0x2C => some formsVperm | 0x2E => some formsVcvt
  | _ => none

/-- The forms of the majors 0x2B and 0x2F of format VM (05 R116). -/
def tableVM : Nat → Option (List FormVM)
  | 0x2B => some formsVmem | 0x2F => some formsVstrm | _ => none

/-- A property of the entries of a list with their numbers, counted from `n`. -/
def FromNumber {α : Type} (P : Nat → α → Prop) : Nat → List α → Prop
  | _, [] => True
  | n, a :: r => P n a ∧ FromNumber P (n + 1) r

/-- The words of what the `fn`-th form of major `op` makes are its fields. -/
def FormA.Writes (op fn : Nat) : FormA → Prop
  | .dst f => ∀ x y z, (f x y z).words = (encA op x y z fn, 0)
  | .ds f => ∀ x y, (f x y).words = (encA op x y 0 fn, 0)
  | .st f => ∀ y z, (f y z).words = (encA op 0 y z fn, 0)
  | .s f => ∀ y, (f y).words = (encA op 0 y 0 fn, 0)
  | .d f => ∀ x, (f x).words = (encA op x 0 0 fn, 0)
  | .bare i => i.words = (encA op 0 0 0 fn, 0)
  | .pst f => ∀ p y z, (f p y z).words = (encA op (16 * p) y z fn, 0)
  | .ppp f => ∀ p q r, (f p q r).words = (encA op (16 * p) (16 * q) (16 * r) fn, 0)
  | .pp f => ∀ p q, (f p q).words = (encA op (16 * p) (16 * q) 0 fn, 0)
  | .p f => ∀ p, (f p).words = (encA op (16 * p) 0 0 fn, 0)
  | .fs f => ∀ g y, (f g y).words = (encA op (8 * g) y 0 fn, 0)
  | .df f => ∀ x g, (f x g).words = (encA op x (8 * g) 0 fn, 0)
  | .dsBit f => (∀ x y, (f x y false).words = (encA op x y 0 fn, 0)) ∧ ∀ x y, (f x y true).words = (encA op x y 1 fn, 0)
  | .sBit f => (∀ y, (f y false).words = (encA op 0 y 0 fn, 0)) ∧ ∀ y, (f y true).words = (encA op 0 y 1 fn, 0)
  | .bit f => (f false).words = (encA op 0 0 0 fn, 0) ∧ (f true).words = (encA op 0 0 1 fn, 0)
  | .bad => True

/-- The same for format V. -/
def FormV.Writes (op fn : Nat) : FormV → Prop
  | .dst f => ∀ a b c p y, (f a b c p y).words = (encV op a b c p y.code fn, 0)
  | .ds f => ∀ a b p y, (f a b p y).words = (encV op a b 0 p y.code fn, 0)
  | .pst f => ∀ a b c p y, (f a b c p y).words = (encV op (2 * a) b c p y.code fn, 0)
  | .cvt f => ∀ a b x p y, (f a b x p y).words = (encV op a b x.code p y.code fn, 0)
  | .half f => ∀ a b h p y, (f a b h p y).words = (encV op a b h p y.code fn, 0)
  | .bad => True

/-- The same for format VM. -/
def FormVM.Writes (op fn : Nat) : FormVM → Prop
  | .block f => ∀ g x p, (f g x p).words = (encVM op g x 0 p fn, 0)
  | .strided f => ∀ g x y p, (f g x y p).words = (encVM op g x y p fn, 0)
  | .indexed f => ∀ g x v z p, (f g x v z p).words = (encVM op g x (8 * v + z.toNat) p fn, 0)
  | .noMask f => ∀ g x y, (f g x y).words = (encVM op g x y 0 fn, 0)
  | .bad => True

end Sys2Proof

namespace Sys2Proof.EncodingProofs

/-! Fields and operands. -/

theorem field_lt (w lo len : Nat) : field w lo len < 2 ^ len := Nat.mod_lt _ (Nat.two_pow_pos len)

@[simp] theorem reg_val (r : Reg) : reg r.val = r := Fin.ofNat_val_eq_self r
@[simp] theorem prd_val (p : Pred) : prd p.val = p := Fin.ofNat_val_eq_self p
@[simp] theorem grp_val (g : Grp) : grp g.val = g := Fin.ofNat_val_eq_self g
@[simp] theorem six_val (n : Fin 64) : six n.val = n := Fin.ofNat_val_eq_self n
@[simp] theorem tyOf_code (y : Ty) : tyOf y.code = y := by cases y <;> rfl
@[simp] theorem reg_field_val (w lo : Nat) : (reg (field w lo 7)).val = field w lo 7 := Nat.mod_eq_of_lt (field_lt w lo 7)
@[simp] theorem prd_field_val (w lo : Nat) : (prd (field w lo 3)).val = field w lo 3 := Nat.mod_eq_of_lt (field_lt w lo 3)
@[simp] theorem grp_field_val (w lo : Nat) : (grp (field w lo 4)).val = field w lo 4 := Nat.mod_eq_of_lt (field_lt w lo 4)
@[simp] theorem six_field_val (w lo : Nat) : (six (field w lo 6)).val = field w lo 6 := Nat.mod_eq_of_lt (field_lt w lo 6)
theorem ofNat_field_toNat (w lo len : Nat) : (BitVec.ofNat len (field w lo len)).toNat = field w lo len :=
  (BitVec.toNat_ofNat _ _).trans (Nat.mod_eq_of_lt (field_lt w lo len))
theorem code_lt (y : Ty) : y.code < 8 := by cases y <;> decide

theorem eq_reg {n : Nat} (h : n < 128) : n = (reg n).val := (Nat.mod_eq_of_lt h).symm
theorem eq_grp {n : Nat} (h : n < 16) : n = (grp n).val := (Nat.mod_eq_of_lt h).symm
theorem eq_prd {n : Nat} (h : n < 8) : n = (prd n).val := (Nat.mod_eq_of_lt h).symm
/-- A register field that holds a predicate in its upper bits. -/
theorem eq_prd_shifted {n : Nat} (h : n < 128) (h0 : n % 16 = 0) : n = 16 * (prd (n / 16)).val := by
  rw [← eq_prd] <;> omega
/-- A register field that holds a format register in its upper bits. -/
theorem eq_grp_shifted {n : Nat} (h : n < 128) (h0 : n % 8 = 0) : n = 8 * (grp (n / 8)).val := by
  rw [← eq_grp] <;> omega
theorem eq_flag {n : Nat} (h : n / 2 = 0) : n = (n % 2 == 1).toNat := by
  obtain rfl | rfl : n = 0 ∨ n = 1 := by omega
  all_goals rfl
/-- A number that is read as a flag is that flag. -/
theorem flag_of_lt_two {n : Nat} (h : n < 2) : (n == 1).toNat = n := by
  obtain rfl | rfl : n = 0 ∨ n = 1 := by omega
  all_goals rfl
theorem eq_code {n : Nat} (h : n < 8) : n = (tyOf n).code := by
  interval_cases n <;> rfl

/-- A word is accepted when its operands keep R111 and the fields it does not use are 0. -/
theorem finish_eq_ok {rsv : Nat} {i j : Instr} : finish rsv i = .ok j ↔ j.wf = true ∧ rsv = 0 ∧ i = j := by
  unfold finish
  split
  · split
    · simp only [Decoded.ok.injEq]
      exact ⟨fun h => ⟨h ▸ ‹_›, ‹_›, h⟩, fun h => h.2.2⟩
    · simp [*]
  · simp only [reduceCtorEq, false_iff]
    rintro ⟨h, -, rfl⟩
    contradiction

/-! What a form reads is what it makes. -/

theorem makes_of_readA {F : FormA} {d s t fn : Nat} {i : Instr} (hd : d < 128) (hs : s < 128) (ht : t < 128)
    (h : F.read ⟨d, s, t, fn⟩ = .ok i) : i.wf = true ∧ F.Makes i d s t := by
  cases F
  case bad => cases h
  all_goals
    obtain ⟨hwf, hrsv, rfl⟩ := finish_eq_ok.mp h
    refine ⟨hwf, ?_⟩
    simp only at hrsv
  case dst => exact ⟨_, _, _, rfl, eq_reg hd, eq_reg hs, eq_reg ht⟩
  case ds => exact ⟨_, _, rfl, eq_reg hd, eq_reg hs, hrsv⟩
  case st => exact ⟨_, _, rfl, hrsv, eq_reg hs, eq_reg ht⟩
  case s => exact ⟨_, rfl, by omega, eq_reg hs, by omega⟩
  case d => exact ⟨_, rfl, eq_reg hd, by omega, by omega⟩
  case bare => exact ⟨rfl, by omega, by omega, by omega⟩
  case pst => exact ⟨_, _, _, rfl, eq_prd_shifted hd hrsv, eq_reg hs, eq_reg ht⟩
  case ppp => exact ⟨_, _, _, rfl, eq_prd_shifted hd (by omega), eq_prd_shifted hs (by omega), eq_prd_shifted ht (by omega)⟩
  case pp => exact ⟨_, _, rfl, eq_prd_shifted hd (by omega), eq_prd_shifted hs (by omega), by omega⟩
  case p => exact ⟨_, rfl, eq_prd_shifted hd (by omega), by omega, by omega⟩
  case fs => exact ⟨_, _, rfl, eq_grp_shifted hd (by omega), eq_reg hs, by omega⟩
  case df => exact ⟨_, _, rfl, eq_reg hd, eq_grp_shifted hs (by omega), by omega⟩
  case dsBit => exact ⟨_, _, _, rfl, eq_reg hd, eq_reg hs, eq_flag hrsv⟩
  case sBit => exact ⟨_, _, rfl, by omega, eq_reg hs, eq_flag (by omega)⟩
  case bit => exact ⟨_, rfl, by omega, by omega, eq_flag (by omega)⟩

theorem readA_of_makes {F : FormA} {d s t fn : Nat} {i : Instr} (hwf : i.wf = true) (h : F.Makes i d s t) :
    F.read ⟨d, s, t, fn⟩ = .ok i := by
  cases F
  case bad => cases h
  case bare => obtain ⟨rfl, rfl, rfl, rfl⟩ := h; exact finish_eq_ok.mpr ⟨hwf, rfl, rfl⟩
  case dst | pst | ppp => obtain ⟨x, y, z, rfl, rfl, rfl, rfl⟩ := h; exact finish_eq_ok.mpr ⟨hwf, by simp⟩
  case ds | st | pp | fs | df => obtain ⟨x, y, rfl, rfl, rfl, rfl⟩ := h; exact finish_eq_ok.mpr ⟨hwf, by simp⟩
  case s | d | p => obtain ⟨x, rfl, rfl, rfl, rfl⟩ := h; exact finish_eq_ok.mpr ⟨hwf, by simp⟩
  case dsBit => obtain ⟨x, y, b, rfl, rfl, rfl, rfl⟩ := h; cases b <;> exact finish_eq_ok.mpr ⟨hwf, by simp⟩
  case sBit => obtain ⟨x, b, rfl, rfl, rfl, rfl⟩ := h; cases b <;> exact finish_eq_ok.mpr ⟨hwf, by simp⟩
  case bit => obtain ⟨b, rfl, rfl, rfl, rfl⟩ := h; cases b <;> exact finish_eq_ok.mpr ⟨hwf, by simp⟩

theorem makes_of_readV {F : FormV} {w : Nat} {i : Instr} (h : F.read w = .ok i) :
    i.wf = true ∧ F.Makes i (field w 22 4) (field w 18 4) (field w 14 4) (field w 11 3) (field w 8 3) := by
  have hm := eq_prd (field_lt w 11 3)
  have hy := eq_code (field_lt w 8 3)
  have hd := eq_grp (field_lt w 22 4)
  have hs := eq_grp (field_lt w 18 4)
  have ht := eq_grp (field_lt w 14 4)
  cases F
  case bad => cases h
  case half =>
    rw [FormV.read] at h
    split at h
    case isFalse => cases h
    case isTrue hlt =>
      obtain ⟨hwf, -, rfl⟩ := finish_eq_ok.mp h
      exact ⟨hwf, _, _, _, _, _, rfl, hd, hs, (Nat.mod_eq_of_lt hlt).symm, hm, hy⟩
  all_goals
    obtain ⟨hwf, hrsv, rfl⟩ := finish_eq_ok.mp h
    refine ⟨hwf, ?_⟩
  case dst => exact ⟨_, _, _, _, _, rfl, hd, hs, ht, hm, hy⟩
  case ds => exact ⟨_, _, _, _, rfl, hd, hs, hrsv, hm, hy⟩
  case pst => exact ⟨_, _, _, _, _, rfl, by rw [← eq_prd (field_lt w 23 3)]; simp only [field] at *; omega, hs, ht, hm, hy⟩
  case cvt => exact ⟨_, _, _, _, _, rfl, hd, hs, by rw [← eq_code (field_lt w 14 3)]; simp only [field] at *; omega, hm, hy⟩

theorem readV_of_makes {F : FormV} {w : Nat} {i : Instr} (hwf : i.wf = true)
    (h : F.Makes i (field w 22 4) (field w 18 4) (field w 14 4) (field w 11 3) (field w 8 3)) : F.read w = .ok i := by
  cases F
  case bad => cases h
  case dst =>
    obtain ⟨a, b, c, p, k, rfl, hd, hs, ht, hm, hy⟩ := h
    exact finish_eq_ok.mpr ⟨hwf, rfl, by simp [*]⟩
  case ds =>
    obtain ⟨a, b, p, k, rfl, hd, hs, ht, hm, hy⟩ := h
    exact finish_eq_ok.mpr ⟨hwf, ht, by simp [*]⟩
  case pst =>
    obtain ⟨a, b, c, p, k, rfl, hd, hs, ht, hm, hy⟩ := h
    have h23 : field w 23 3 = a := by simp only [field] at *; omega
    exact finish_eq_ok.mpr ⟨hwf, by simp only [field] at *; omega, by simp [*]⟩
  case cvt =>
    obtain ⟨a, b, x, p, k, rfl, hd, hs, ht, hm, hy⟩ := h
    have hx := code_lt x
    have h14 : field w 14 3 = x.code := by simp only [field] at *; omega
    exact finish_eq_ok.mpr ⟨hwf, by simp only [field] at *; omega, by simp [*]⟩
  case half =>
    obtain ⟨a, b, x, p, k, rfl, hd, hs, ht, hm, hy⟩ := h
    rw [FormV.read, if_pos (ht ▸ x.isLt)]
    exact finish_eq_ok.mpr ⟨hwf, rfl, by simp [*]⟩

theorem makes_of_readVM {F : FormVM} {w : Nat} {i : Instr} (h : F.read w = .ok i) :
    i.wf = true ∧ F.Makes i (field w 22 4) (field w 15 7) (field w 8 7) (field w 5 3) := by
  have hd := eq_grp (field_lt w 22 4)
  have hs := eq_reg (field_lt w 15 7)
  have ht := eq_reg (field_lt w 8 7)
  have hm := eq_prd (field_lt w 5 3)
  cases F
  case bad => cases h
  all_goals
    obtain ⟨hwf, hrsv, rfl⟩ := finish_eq_ok.mp h
    refine ⟨hwf, ?_⟩
  case block => exact ⟨_, _, _, rfl, hd, hs, hrsv, hm⟩
  case strided => exact ⟨_, _, _, _, rfl, hd, hs, ht, hm⟩
  case noMask => exact ⟨_, _, _, rfl, hd, hs, ht, hrsv⟩
  case indexed =>
    refine ⟨_, _, _, _, _, rfl, hd, hs, ?_, hm⟩
    rw [flag_of_lt_two (field_lt w 8 1), ← eq_grp (field_lt w 11 4)]
    simp only [field] at *
    omega

theorem readVM_of_makes {F : FormVM} {w : Nat} {i : Instr} (hwf : i.wf = true)
    (h : F.Makes i (field w 22 4) (field w 15 7) (field w 8 7) (field w 5 3)) : F.read w = .ok i := by
  cases F
  case bad => cases h
  case block =>
    obtain ⟨g, x, p, rfl, hd, hs, ht, hm⟩ := h
    exact finish_eq_ok.mpr ⟨hwf, ht, by simp [*]⟩
  case strided =>
    obtain ⟨g, x, y, p, rfl, hd, hs, ht, hm⟩ := h
    exact finish_eq_ok.mpr ⟨hwf, rfl, by simp [*]⟩
  case noMask =>
    obtain ⟨g, x, y, rfl, hd, hs, ht, hm⟩ := h
    exact finish_eq_ok.mpr ⟨hwf, hm, by simp [*]⟩
  case indexed =>
    obtain ⟨g, x, v, z, p, rfl, hd, hs, ht, hm⟩ := h
    have hz := Bool.toNat_lt z
    have h11 : field w 11 4 = v := by simp only [field] at *; omega
    have h8 : field w 8 1 = z.toNat := by simp only [field] at *; omega
    exact finish_eq_ok.mpr ⟨hwf, by simp only [field] at *; omega, by cases z <;> simp [*]⟩

/-! The fields of a word. -/

theorem fields_encA {op d s t fn : Nat} (hop : op < 64) (hd : d < 128) (hs : s < 128) (ht : t < 128) (hfn : fn < 32) :
    encA op d s t fn < 2 ^ 32 ∧ field (encA op d s t fn) 26 6 = op ∧ fieldsA (encA op d s t fn) = ⟨d, s, t, fn⟩ := by
  simp only [fieldsA, field, encA, FieldsA.mk.injEq]
  omega
theorem encA_fields {w : Nat} (hw : w < 2 ^ 32) :
    encA (field w 26 6) (field w 19 7) (field w 12 7) (field w 5 7) (field w 0 5) = w := by
  simp only [field, encA]
  omega
theorem fields_encV {op d s t m y fn : Nat} (hop : op < 64) (hd : d < 16) (hs : s < 16) (ht : t < 16) (hm : m < 8) (hy : y < 8)
    (hfn : fn < 256) : let w := encV op d s t m y fn
    w < 2 ^ 32 ∧ field w 26 6 = op ∧ field w 22 4 = d ∧ field w 18 4 = s ∧ field w 14 4 = t ∧ field w 11 3 = m ∧ field w 8 3 = y ∧
      field w 0 8 = fn := by
  simp only [field, encV]
  omega
theorem encV_fields {w : Nat} (hw : w < 2 ^ 32) :
    encV (field w 26 6) (field w 22 4) (field w 18 4) (field w 14 4) (field w 11 3) (field w 8 3) (field w 0 8) = w := by
  simp only [field, encV]
  omega
theorem fields_encVM {op d s t m fn : Nat} (hop : op < 64) (hd : d < 16) (hs : s < 128) (ht : t < 128) (hm : m < 8) (hfn : fn < 32) :
    let w := encVM op d s t m fn
    w < 2 ^ 32 ∧ field w 26 6 = op ∧ field w 22 4 = d ∧ field w 15 7 = s ∧ field w 8 7 = t ∧ field w 5 3 = m ∧ field w 0 5 = fn := by
  simp only [field, encVM]
  omega
theorem encVM_fields {w : Nat} (hw : w < 2 ^ 32) :
    encVM (field w 26 6) (field w 22 4) (field w 15 7) (field w 8 7) (field w 5 3) (field w 0 5) = w := by
  simp only [field, encVM]
  omega

/-! The tables against the encoder. -/

theorem fromNumber_get {α : Type} {P : Nat → α → Prop} {l : List α} {n k : Nat} {a : α} (h : FromNumber P n l) (hk : l[k]? = some a) :
    P (n + k) a := by
  induction l generalizing n k with
  | nil => cases hk
  | cons b r ih =>
    cases k with
    | zero => cases hk; exact h.1
    | succ k => rw [show n + (k + 1) = n + 1 + k by omega]; exact ih h.2 hk

/-- The word of an instruction that a form makes. -/
theorem words_of_makesA {op fn d s t : Nat} {F : FormA} {i : Instr} (hF : F.Writes op fn) (h : F.Makes i d s t) :
    i.words = (encA op d s t fn, 0) := by
  cases F
  case bad => cases h
  case bare => obtain ⟨rfl, rfl, rfl, rfl⟩ := h; exact hF
  case dst | pst | ppp => obtain ⟨x, y, z, rfl, rfl, rfl, rfl⟩ := h; exact hF x y z
  case ds | st | pp | fs | df => obtain ⟨x, y, rfl, rfl, rfl, rfl⟩ := h; exact hF x y
  case s | d | p => obtain ⟨x, rfl, rfl, rfl, rfl⟩ := h; exact hF x
  case dsBit => obtain ⟨x, y, b, rfl, rfl, rfl, rfl⟩ := h; cases b; exacts [hF.1 x y, hF.2 x y]
  case sBit => obtain ⟨x, b, rfl, rfl, rfl, rfl⟩ := h; cases b; exacts [hF.1 x, hF.2 x]
  case bit => obtain ⟨b, rfl, rfl, rfl, rfl⟩ := h; cases b; exacts [hF.1, hF.2]

theorem words_of_makesV {op fn d s t m y : Nat} {F : FormV} {i : Instr} (hF : F.Writes op fn) (h : F.Makes i d s t m y) :
    i.words = (encV op d s t m y fn, 0) := by
  cases F
  case bad => cases h
  case ds => obtain ⟨a, b, p, k, rfl, rfl, rfl, rfl, rfl, rfl⟩ := h; exact hF a b p k
  all_goals obtain ⟨a, b, c, p, k, rfl, rfl, rfl, rfl, rfl, rfl⟩ := h; exact hF a b c p k

theorem words_of_makesVM {op fn d s t m : Nat} {F : FormVM} {i : Instr} (hF : F.Writes op fn) (h : F.Makes i d s t m) :
    i.words = (encVM op d s t m fn, 0) := by
  cases F
  case bad => cases h
  case block | noMask => obtain ⟨g, x, y, rfl, rfl, rfl, rfl, rfl⟩ := h; exact hF g x y
  case strided => obtain ⟨g, x, y, p, rfl, rfl, rfl, rfl, rfl⟩ := h; exact hF g x y p
  case indexed => obtain ⟨g, x, v, z, p, rfl, rfl, rfl, rfl, rfl⟩ := h; exact hF g x v z p

/-- Every entry of a table is the form of its own word; the numbers of the entries fit FN. -/
theorem tableA_writes {op : Nat} {l : List FormA} (hl : tableA op = some l) :
    op < 0x38 ∧ l.length ≤ 32 ∧ FromNumber (FormA.Writes op) 0 l := by
  unfold tableA at hl
  split at hl
  all_goals cases hl
  all_goals simp [FromNumber, FormA.Writes, Instr.words, formsInt, formsCmp, formsPred, formsJump, formsCtl, formsFdm, formsPres,
    formsMsync, formsAtom, formsAcas, formsLctl, formsWait, formsTask, formsFs, formsFcmp, formsFcvt, formsSys, formsMctl,
    formsXctl, Width.atomMajor, Width.floatMajor]
theorem tableV_writes {op : Nat} {l : List FormV} (hl : tableV op = some l) :
    op < 0x38 ∧ l.length ≤ 256 ∧ FromNumber (FormV.Writes op) 0 l := by
  unfold tableV at hl
  split at hl
  all_goals cases hl
  all_goals simp [FromNumber, FormV.Writes, Instr.words, formsVint, formsVflt, formsVcmp, formsVperm, formsVcvt]
theorem tableVM_writes {op : Nat} {l : List FormVM} (hl : tableVM op = some l) :
    op < 0x38 ∧ l.length ≤ 32 ∧ FromNumber (FormVM.Writes op) 0 l := by
  unfold tableVM at hl
  split at hl
  all_goals cases hl
  all_goals simp [FromNumber, FormVM.Writes, Instr.words, formsVmem, formsVstrm]

end Sys2Proof.EncodingProofs
end

section
/-!
PROOFS. A word that decodes to an instruction is the word of that instruction (05 R101, R105 to R117): one lemma for each part of the decoder.
-/
namespace Sys2Proof.EncodingProofs

/-! A word put together again from its fields. -/

theorem encI_fields {w op : Nat} (hop : field w 26 6 = op) (hw : w < 2 ^ 32) :
    encI op (field w 19 7) (field w 12 7) (field w 0 12) = w := by
  simp only [field, encI] at *
  omega
theorem encM_fields {w op : Nat} (hop : field w 26 6 = op) (hw : w < 2 ^ 32) :
    encM op (field w 19 7) (field w 12 7) (field w 3 9) (field w 0 3) = w := by
  simp only [field, encM] at *
  omega
theorem encU_fields {w op : Nat} (hop : field w 26 6 = op) (hw : w < 2 ^ 32) : encU op (field w 19 7) (field w 0 19) = w := by
  simp only [field, encU] at *
  omega
theorem encI_two_fields {w op : Nat} (hop : field w 26 6 = op) (hw : w < 2 ^ 32) :
    encI op (field w 19 7) (field w 12 7) (field w 6 6 * 2 ^ 6 + field w 0 6) = w := by
  simp only [field, encI] at *
  omega
theorem encA_pred_fields {w op : Nat} (hop : field w 26 6 = op) (hw : w < 2 ^ 32) (h3 : field w 3 2 = 0) :
    encA op (field w 19 7) (field w 12 7) (field w 5 7) (field w 0 3) = w := by
  simp only [field, encA] at *
  omega
theorem jump_fields {w op : Nat} (hop : field w 26 6 = op) (hw : w < 2 ^ 32) : op * 2 ^ 26 + field w 0 26 = w := by
  simp only [field] at *
  omega

theorem field_eq_one {w lo : Nat} (h : ¬field w lo 1 = 0) : field w lo 1 = 1 := by
  have := field_lt w lo 1
  omega
theorem pred_branch_fields {w op k : Nat} (hop : field w 26 6 = op) (hw : w < 2 ^ 32) (hk : field w 22 1 = k) :
    op * 2 ^ 26 + field w 23 3 * 2 ^ 23 + k * 2 ^ 22 + field w 0 22 = w := by
  simp only [field] at *
  omega
theorem reg_branch_fields {w op k : Nat} (hop : field w 26 6 = op) (hw : w < 2 ^ 32) (hk : field w 18 1 = k) :
    op * 2 ^ 26 + field w 19 7 * 2 ^ 19 + k * 2 ^ 18 + field w 0 18 = w := by
  simp only [field] at *
  omega
theorem encV_fmtp_fields {w op : Nat} (hop : field w 26 6 = op) (hw : w < 2 ^ 32) (h0 : field w 0 14 = 0) :
    encV op (field w 22 4) (field w 18 4) (field w 14 4) 0 0 0 = w := by
  simp only [field, encV] at *
  omega
theorem encI_trap_fields {w op : Nat} (hop : field w 26 6 = op) (hw : w < 2 ^ 32) (h4 : field w 4 8 = 0) (h19 : field w 19 7 = 0)
    (h12 : field w 12 7 = 0) : encI op 0 0 (field w 0 4) = w := by
  simp only [field, encI] at *
  omega
theorem encQ_fields {v : Nat} (hv : v < 2 ^ 32) (h17 : field v 17 8 = 0) (h0 : field v 0 16 = 0) :
    encQ (field v 25 7) (field v 16 1) = v := by
  simp only [field, encQ] at *
  omega
theorem encQ_fields_two {v : Nat} (hv : v < 2 ^ 32) (h18 : field v 18 7 = 0) (h0 : field v 0 16 = 0) :
    encQ (field v 25 7) (2 * field v 17 1 + field v 16 1) = v := by
  simp only [field, encQ] at *
  omega

/-! The parts of the decoder. -/

theorem code_of_sizeOf? {n : Nat} {z : Size} (h : sizeOf? n = some z) : z.code = n := by
  unfold sizeOf? at h
  split at h
  all_goals cases h
  all_goals rfl
theorem code_of_scopeOf? {n : Nat} {c : Scope} (h : scopeOf? n = some c) : c.code = n := by
  unfold scopeOf? at h
  split at h
  all_goals cases h
  all_goals rfl
theorem code_of_bwidthOf? {n : Nat} {b : BWidth} (h : bwidthOf? n = some b) : b.code = n := by
  unfold bwidthOf? at h
  split at h
  all_goals cases h
  all_goals rfl

/-- The entry of a table that a read which gives an instruction went by. -/
theorem listed {α : Type} {l : List α} {n : Nat} {a : α} (h : l[n]?.getD a ≠ a) : l[n]? = some (l[n]?.getD a) := by
  cases hl : l[n]? with
  | none => rw [hl] at h; exact absurd rfl h
  | some b => rfl

theorem pick_words {i : Instr} {w op : Nat} {l : List FormA} (hop : field w 26 6 = op) (hl : tableA op = some l) (hw : w < 2 ^ 32)
    (h : pick l w = .ok i) : i.wf = true ∧ i.words = (w, 0) := by
  obtain ⟨-, -, hwrites⟩ := tableA_writes hl
  obtain ⟨hwf, hmk⟩ := makes_of_readA (field_lt w 19 7) (field_lt w 12 7) (field_lt w 5 7) h
  have hfn : (fieldsA w).fn = field w 0 5 := rfl
  have hF := fromNumber_get hwrites (listed (a := .bad) (n := field w 0 5) fun hbad => by rw [pick, hfn, hbad] at h; cases h)
  rw [Nat.zero_add] at hF
  refine ⟨hwf, (words_of_makesA hF hmk).trans ?_⟩
  rw [← hop, encA_fields hw]

theorem pickV_words {i : Instr} {w op : Nat} {l : List FormV} (hop : field w 26 6 = op) (hl : tableV op = some l) (hw : w < 2 ^ 32)
    (h : pickV l w = .ok i) : i.wf = true ∧ i.words = (w, 0) := by
  obtain ⟨-, -, hwrites⟩ := tableV_writes hl
  obtain ⟨hwf, hmk⟩ := makes_of_readV h
  have hF := fromNumber_get hwrites (listed (a := .bad) (n := field w 0 8) fun hbad => by rw [pickV, hbad] at h; cases h)
  rw [Nat.zero_add] at hF
  refine ⟨hwf, (words_of_makesV hF hmk).trans ?_⟩
  rw [← hop, encV_fields hw]

theorem pickVM_words {i : Instr} {w op : Nat} {l : List FormVM} (hop : field w 26 6 = op) (hl : tableVM op = some l) (hw : w < 2 ^ 32)
    (h : pickVM l w = .ok i) : i.wf = true ∧ i.words = (w, 0) := by
  obtain ⟨-, -, hwrites⟩ := tableVM_writes hl
  obtain ⟨hwf, hmk⟩ := makes_of_readVM h
  have hF := fromNumber_get hwrites (listed (a := .bad) (n := field w 0 5) fun hbad => by rw [pickVM, hbad] at h; cases h)
  rw [Nat.zero_add] at hF
  refine ⟨hwf, (words_of_makesVM hF hmk).trans ?_⟩
  rw [← hop, encVM_fields hw]

theorem decShi_words {w : Nat} {i : Instr} (hw : w < 2 ^ 32) (hop : field w 26 6 = 6) (h : decShi w = .ok i) :
    i.wf = true ∧ i.words = (w, 0) := by
  obtain ⟨hwf, hrsv, rfl⟩ := finish_eq_ok.mp h
  refine ⟨hwf, ?_⟩
  have hI := encI_fields hop hw
  have hn : field w 0 12 = field w 10 2 * 2 ^ 10 + field w 0 6 := by simp only [field] at *; omega
  rw [hn] at hI
  have hk := field_lt w 10 2
  generalize field w 10 2 = k at hk hI ⊢
  interval_cases k
  all_goals simpa [Instr.words] using hI

theorem decCmpi_words {w : Nat} {i : Instr} (hw : w < 2 ^ 32) (hop : field w 26 6 = 13) (h : decCmpi w = .ok i) :
    i.wf = true ∧ i.words = (w, 0) := by
  have hI := encI_fields hop hw
  have hd : field w 19 7 = 16 * field w 23 3 + field w 19 4 := by simp only [field]; omega
  rw [hd] at hI
  unfold decCmpi at h
  dsimp only at h
  split at h
  case h_11 => cases h
  all_goals
    rename_i hk
    cases h
    rw [hk] at hI
    exact ⟨rfl, by simp only [Instr.words, prd_field_val, reg_field_val, ofNat_field_toNat, hI]⟩

theorem decFence_words {w : Nat} {i : Instr} (hw : w < 2 ^ 32) (hop : field w 26 6 = 0x1F) (hfn : field w 0 5 = 0) (h : decFence w = .ok i) :
    i.wf = true ∧ i.words = (w, 0) := by
  unfold decFence at h
  split at h
  case h_2 => cases h
  case h_1 c hc =>
    obtain ⟨hwf, hrsv, rfl⟩ := finish_eq_ok.mp h
    have hA := encA_fields hw
    rw [hop, hfn, show field w 19 7 = 0 by omega, show field w 12 7 = 0 by omega,
      show field w 5 7 = field w 5 3 by simp only [field] at *; omega] at hA
    exact ⟨hwf, by rw [Instr.words, code_of_scopeOf? hc, hA]⟩

theorem decSend_words {w : Nat} {i : Instr} (hw : w < 2 ^ 32) (hop : field w 26 6 = 0x25) (hfn : field w 0 5 = 3) (h : decSend w = .ok i) :
    i.wf = true ∧ i.words = (w, 0) := by
  unfold decSend at h
  split at h
  case isFalse => cases h
  case isTrue hn =>
    split at h
    case isTrue => cases h
    case isFalse ht =>
      cases h
      have hval : (Fin.ofNat 9 (field w 19 7)).val = field w 19 7 := Nat.mod_eq_of_lt (by omega)
      have hA := encA_fields hw
      rw [hop, hfn] at hA
      refine ⟨?_, by simp only [Instr.words, hval, reg_field_val, hA]⟩
      simp only [Instr.wf, hval, reg_field_val, decide_eq_true_eq]
      omega

theorem decRstr_words {w : Nat} {i : Instr} (hw : w < 2 ^ 32) (hop : field w 26 6 = 0x34) (hfn : field w 0 5 = 2) (h : decRstr w = .ok i) :
    i.wf = true ∧ i.words = (w, 0) := by
  have hA := encA_fields hw
  rw [hop, hfn] at hA
  unfold decRstr at h
  dsimp only at h
  split at h
  case h_4 => cases h
  all_goals
    rename_i hk
    obtain ⟨hwf, hrsv, rfl⟩ := finish_eq_ok.mp h
    rw [show field w 5 7 = field w 5 2 by simp only [field] at *; omega, hk] at hA
    exact ⟨hwf, by simp only [Instr.words, reg_field_val, hA]⟩

theorem decSized_words {w op : Nat} {i : Instr} {f : Reg → Reg → BitVec 9 → Size → Instr} (hw : w < 2 ^ 32) (hop : field w 26 6 = op)
    (hwf : ∀ d s o z, (f d s o z).wf = true) (hf : ∀ d s o z, (f d s o z).words = (encM op d s o.toNat z.code, 0)) (h : decSized f w = .ok i) :
    i.wf = true ∧ i.words = (w, 0) := by
  unfold decSized at h
  split at h
  case h_2 => cases h
  case h_1 z hz =>
    cases h
    refine ⟨hwf _ _ _ _, ?_⟩
    rw [hf, reg_field_val, reg_field_val, ofNat_field_toNat, code_of_sizeOf? hz, encM_fields hop hw]

theorem decPresence_words {w op : Nat} {i : Instr} {f : Reg → Reg → BitVec 9 → Instr} (hw : w < 2 ^ 32) (hop : field w 26 6 = op)
    (hwf : ∀ d s o, (f d s o).wf = true) (hf : ∀ d s o, (f d s o).words = (encM op d s o.toNat 3, 0)) (h : decPresence f w = .ok i) :
    i.wf = true ∧ i.words = (w, 0) := by
  unfold decPresence at h
  split at h
  case isFalse => cases h
  case isTrue hz =>
    cases h
    refine ⟨hwf _ _ _, ?_⟩
    rw [hf, reg_field_val, reg_field_val, ofNat_field_toNat]
    have hM := encM_fields hop hw
    rw [hz] at hM
    rw [hM]

theorem decVmov_words {w : Nat} {i : Instr} (hw : w < 2 ^ 32) (hop : field w 26 6 = 0x2D) (h : decVmov w = .ok i) :
    i.wf = true ∧ i.words = (w, 0) := by
  have hVM := encVM_fields hw
  rw [hop] at hVM
  unfold decVmov at h
  split at h
  case h_1 hfn =>
    split at h
    case h_2 => cases h
    case h_1 b hb =>
      obtain ⟨hwf, -, rfl⟩ := finish_eq_ok.mp h
      rw [hfn] at hVM
      exact ⟨hwf, by simp only [Instr.words, grp_field_val, reg_field_val, prd_field_val, code_of_bwidthOf? hb, hVM]⟩
  case h_2 hfn | h_3 hfn =>
    obtain ⟨hwf, g, x, y, rfl, hd, hs, ht, hm⟩ := makes_of_readVM h
    rw [hfn, hd, hs, ht, hm] at hVM
    exact ⟨hwf, by rw [← hVM]; rfl⟩
  case h_4 hfn =>
    split at h
    case isFalse => cases h
    case isTrue hr =>
      obtain ⟨hwf, hrsv, rfl⟩ := finish_eq_ok.mp h
      rw [hfn, hrsv] at hVM
      exact ⟨hwf, by simp only [Instr.words, flag_of_lt_two hr, reg_field_val, prd_field_val, hVM]⟩
  case h_5 => cases h

theorem decX_words {w v : Nat} {i : Instr} (hw : w < 2 ^ 32) (hv : v < 2 ^ 32) (h : decX w v = .ok i) :
    i.wf = true ∧ i.words = (w, v) := by
  have hA := encA_fields hw
  unfold decX at h
  dsimp only at h
  split at h
  case h_11 => cases h
  all_goals
    rename_i hop hfn
    obtain ⟨hwf, hrsv, rfl⟩ := finish_eq_ok.mp h
    rw [hop, hfn] at hA
    refine ⟨hwf, ?_⟩
    simp only [Instr.words, reg_field_val, flag_of_lt_two (field_lt v _ 1)]
  case h_2 =>
    rw [show field w 5 7 = 0 by omega] at hA
    rw [hA, encQ_fields hv (by omega) (by omega)]
  case h_10 => rw [hA, encQ_fields_two hv (by omega) (by omega)]
  all_goals rw [hA, encQ_fields hv (by omega) (by omega)]

/-! The decoder. -/

theorem words_one {i : Instr} {w v op : Nat} (hop : field w 26 6 = op) (hlt : op < 0x38) (h : i.wf = true ∧ i.words = (w, 0)) :
    i.wf = true ∧ i.words = (w, if twoWords w then v else 0) := by
  rwa [twoWords, hop, if_neg (by simpa using hlt)]
theorem words_two {i : Instr} {w v op : Nat} (hop : field w 26 6 = op) (hle : 0x38 ≤ op) (h : i.wf = true ∧ i.words = (w, v)) :
    i.wf = true ∧ i.words = (w, if twoWords w then v else 0) := by
  rwa [twoWords, hop, if_pos (by simpa using hle)]

/-- A decoded word is the word of its instruction, and word 1 counts for the majors that have one (05 R101). In the split, `h_n` is major `n` up
to 0x3A, `h_59` is 0x3C and `h_60` the majors that are not assigned. -/
theorem words_of_decode {w v : Nat} {i : Instr} (hw : w < 2 ^ 32) (hv : v < 2 ^ 32) (h : decode w v = .ok i) :
    i.wf = true ∧ i.words = (w, if twoWords w then v else 0) := by
  unfold decode at h
  dsimp only at h
  split at h
  case h_1 hop | h_12 hop | h_14 hop | h_20 hop | h_21 hop | h_23 hop | h_30 hop | h_32 hop | h_33 hop | h_34 hop | h_35 hop |
      h_36 hop | h_48 hop | h_49 hop | h_50 hop | h_51 hop | h_54 hop | h_55 hop =>
    exact words_one hop (by decide) (pick_words hop rfl hw h)
  case h_40 hop | h_41 hop | h_42 hop | h_44 hop | h_46 hop => exact words_one hop (by decide) (pickV_words hop rfl hw h)
  case h_43 hop | h_47 hop => exact words_one hop (by decide) (pickVM_words hop rfl hw h)
  case h_56 hop | h_57 hop | h_58 hop | h_59 hop => exact words_two hop (by decide) (decX_words hw hv h)
  case h_6 hop => exact words_one hop (by decide) (decShi_words hw hop h)
  case h_13 hop => exact words_one hop (by decide) (decCmpi_words hw hop h)
  case h_24 hop | h_25 hop => exact words_one hop (by decide) (decSized_words hw hop (fun _ _ _ _ => rfl) (fun _ _ _ _ => rfl) h)
  case h_26 hop | h_27 hop | h_28 hop | h_29 hop =>
    exact words_one hop (by decide) (decPresence_words hw hop (fun _ _ _ => rfl) (fun _ _ _ => rfl) h)
  case h_45 hop => exact words_one hop (by decide) (decVmov_words hw hop h)
  case h_31 hop =>
    split at h
    case isTrue hfn => exact words_one hop (by decide) (decFence_words hw hop hfn h)
    case isFalse => exact words_one hop (by decide) (pick_words hop rfl hw h)
  case h_37 hop =>
    split at h
    case isTrue hfn => exact words_one hop (by decide) (decSend_words hw hop hfn h)
    case isFalse => exact words_one hop (by decide) (pick_words hop rfl hw h)
  case h_52 hop =>
    split at h
    case isTrue hfn => exact words_one hop (by decide) (decRstr_words hw hop hfn h)
    case isFalse => exact words_one hop (by decide) (pick_words hop rfl hw h)
  case h_60 => cases h
  case h_2 hop | h_3 hop | h_4 hop | h_5 hop =>
    cases h
    exact words_one hop (by decide) ⟨rfl, by simp only [Instr.words, reg_field_val, ofNat_field_toNat, encI_fields hop hw]⟩
  case h_7 hop | h_8 hop =>
    cases h
    exact words_one hop (by decide) ⟨rfl, by simp only [Instr.words, reg_field_val, ofNat_field_toNat, encU_fields hop hw]⟩
  case h_9 hop | h_10 hop | h_11 hop =>
    cases h
    exact words_one hop (by decide) ⟨rfl, by simp only [Instr.words, reg_field_val, six_field_val, encI_two_fields hop hw]⟩
  case h_15 hop =>
    obtain ⟨hwf, hrsv, rfl⟩ := finish_eq_ok.mp h
    exact words_one hop (by decide) ⟨rfl, by simp only [Instr.words, reg_field_val, prd_field_val, encA_pred_fields hop hw hrsv]⟩
  case h_16 hop | h_17 hop =>
    cases h
    exact words_one hop (by decide) ⟨rfl, by simp only [Instr.words, ofNat_field_toNat, jump_fields hop hw]⟩
  case h_18 hop =>
    split at h
    case isTrue hn =>
      cases h
      exact words_one hop (by decide) ⟨rfl, by simp only [Instr.words, prd_field_val, ofNat_field_toNat, pred_branch_fields hop hw hn]⟩
    case isFalse hn =>
      cases h
      have hbranch := pred_branch_fields hop hw (field_eq_one hn)
      exact words_one hop (by decide) ⟨rfl, by simp only [Instr.words, prd_field_val, ofNat_field_toNat, hbranch]⟩
  case h_19 hop =>
    split at h
    case isTrue hn =>
      cases h
      exact words_one hop (by decide) ⟨rfl, by simp only [Instr.words, reg_field_val, ofNat_field_toNat, reg_branch_fields hop hw hn]⟩
    case isFalse hn =>
      cases h
      have hbranch := reg_branch_fields hop hw (field_eq_one hn)
      exact words_one hop (by decide) ⟨rfl, by simp only [Instr.words, reg_field_val, ofNat_field_toNat, hbranch]⟩
  case h_22 hop =>
    obtain ⟨hwf, hrsv, rfl⟩ := finish_eq_ok.mp h
    exact words_one hop (by decide) ⟨rfl, by simp only [Instr.words, grp_field_val, encV_fmtp_fields hop hw hrsv]⟩
  case h_38 hop | h_39 hop =>
    obtain ⟨hwf, hrsv, rfl⟩ := finish_eq_ok.mp h
    have hI := encI_fields hop hw
    rw [hrsv] at hI
    exact words_one hop (by decide) ⟨hwf, by simp only [Instr.words, reg_field_val, ofNat_field_toNat, hI]⟩
  case h_53 hop =>
    obtain ⟨hwf, hrsv, rfl⟩ := finish_eq_ok.mp h
    have hval : (Fin.ofNat 16 (field w 0 4)).val = field w 0 4 := Nat.mod_eq_of_lt (field_lt w 0 4)
    exact words_one hop (by decide) ⟨rfl, by simp only [Instr.words, hval, encI_trap_fields hop hw (by omega) (by omega) (by omega)]⟩

end Sys2Proof.EncodingProofs
end

section
/-!
PROOFS. The words of a well-formed instruction decode to it, in whatever form they are handed over; the obligations O55 and O56.
-/
namespace Sys2Proof.EncodingProofs

/-! Words of the formats. -/

theorem fields_encI {op d s n : Nat} (hop : op < 64) (hd : d < 128) (hs : s < 128) (hn : n < 4096) : let w := encI op d s n
    w < 2 ^ 32 ∧ field w 26 6 = op ∧ field w 19 7 = d ∧ field w 12 7 = s ∧ field w 0 12 = n := by
  simp only [field, encI]
  omega
theorem fields_encU {op d n : Nat} (hop : op < 64) (hd : d < 128) (hn : n < 2 ^ 19) : let w := encU op d n
    w < 2 ^ 32 ∧ field w 26 6 = op ∧ field w 19 7 = d ∧ field w 0 19 = n := by
  simp only [field, encU]
  omega
theorem fields_encM {op d s o z : Nat} (hop : op < 64) (hd : d < 128) (hs : s < 128) (ho : o < 512) (hz : z < 8) : let w := encM op d s o z
    w < 2 ^ 32 ∧ field w 26 6 = op ∧ field w 19 7 = d ∧ field w 12 7 = s ∧ field w 3 9 = o ∧ field w 0 3 = z := by
  simp only [field, encM]
  omega
/-- Word 1 of format X (05 R105). -/
theorem fields_encQ {q b : Nat} (hq : q < 128) (hb : b < 4) : let v := encQ q b
    v < 2 ^ 32 ∧ field v 25 7 = q ∧ field v 16 1 = b % 2 ∧ field v 17 8 = b / 2 ∧ field v 17 1 = b / 2 ∧ field v 18 7 = 0 ∧
      field v 0 16 = 0 := by
  simp only [field, encQ]
  omega

/-! Fields within fields. -/

theorem shift_fields {w k n : Nat} (hn : n < 64) (h : field w 0 12 = k * 2 ^ 10 + n) :
    field w 10 2 = k ∧ field w 6 4 = 0 ∧ field w 0 6 = n := by
  simp only [field] at *
  omega

theorem two_six_fields {w p l : Nat} (hl : l < 64) (h : field w 0 12 = p * 2 ^ 6 + l) : field w 6 6 = p ∧ field w 0 6 = l := by
  simp only [field] at *
  omega

theorem shifted_pred_fields {w p k : Nat} (hk : k < 16) (h : field w 19 7 = 16 * p + k) : field w 23 3 = p ∧ field w 19 4 = k := by
  simp only [field] at *
  omega

theorem action_fields {w k : Nat} (hk : k < 3) (h : field w 5 7 = k) : field w 5 2 = k ∧ field w 7 5 = 0 := by
  simp only [field] at *
  omega

theorem trap_fields {w n : Nat} (hn : n < 16) (h : field w 0 12 = n) : field w 4 8 = 0 ∧ field w 0 4 = n := by
  simp only [field] at *
  omega

theorem flag_lt (b : Bool) : b.toNat < 4 := by cases b <;> decide
theorem flag_mod (b : Bool) : (b.toNat % 2 == 1) = b := by cases b <;> rfl
theorem flag_div (b : Bool) : b.toNat / 2 = 0 := by cases b <;> rfl
theorem sizeOf?_code (z : Size) : sizeOf? z.code = some z := by cases z <;> rfl
theorem scopeOf?_code (c : Scope) : scopeOf? c.code = some c := by cases c <;> rfl
theorem bwidthOf?_code (b : BWidth) : bwidthOf? b.code = some b := by cases b <;> rfl

/-! What decodes from its own words. -/

/-- The words of an instruction fit 32 bits each and decode to it; a one-word instruction has no word 1. -/
structure Encodes (i : Instr) : Prop where
  fits : i.words.1 < 2 ^ 32
  fits_second : i.words.2 < 2 ^ 32
  decodes : decode i.words.1 i.words.2 = .ok i
  no_second : twoWords i.words.1 = false → i.words.2 = 0

theorem encodes_one {i : Instr} {w : Nat} (hi : i.words = (w, 0)) (hw : w < 2 ^ 32) (h : decode w 0 = .ok i) : Encodes i := by
  constructor
  all_goals rw [hi]
  exacts [hw, by norm_num, h, fun _ => rfl]

theorem encodes_two {i : Instr} {w v : Nat} (hi : i.words = (w, v)) (hw : w < 2 ^ 32) (hv : v < 2 ^ 32) (htwo : twoWords w = true)
    (h : decode w v = .ok i) : Encodes i := by
  constructor
  all_goals rw [hi]
  exacts [hw, hv, h, fun hone => absurd (htwo.symm.trans hone) (by decide)]

/-- What the decoder does with a major that has a table: the form of the entry FN reads the word. -/
theorem decode_tableA {w v op : Nat} {l : List FormA} {F : FormA} (hop : field w 26 6 = op) (hl : tableA op = some l)
    (hF : l[(fieldsA w).fn]? = some F) (hbad : F ≠ .bad) : decode w v = F.read (fieldsA w) := by
  have hpick : pick l w = F.read (fieldsA w) := by rw [pick, hF]; rfl
  rw [← hpick]
  have hfn : (fieldsA w).fn = field w 0 5 := rfl
  unfold tableA at hl
  split at hl
  all_goals cases hl
  case h_8 | h_14 | h_19 =>
    simp only [decode, hop]
    rw [if_neg]
    intro h0
    rw [hfn, h0] at hF
    cases hF
    contradiction
  all_goals simp only [decode, hop]

theorem decode_tableV {w v op : Nat} {l : List FormV} {F : FormV} (hop : field w 26 6 = op) (hl : tableV op = some l)
    (hF : l[field w 0 8]? = some F) : decode w v = F.read w := by
  have hpick : pickV l w = F.read w := by rw [pickV, hF]; rfl
  rw [← hpick]
  unfold tableV at hl
  split at hl
  all_goals cases hl
  all_goals simp only [decode, hop]

theorem decode_tableVM {w v op : Nat} {l : List FormVM} {F : FormVM} (hop : field w 26 6 = op) (hl : tableVM op = some l)
    (hF : l[field w 0 5]? = some F) : decode w v = F.read w := by
  have hpick : pickVM l w = F.read w := by rw [pickVM, hF]; rfl
  rw [← hpick]
  unfold tableVM at hl
  split at hl
  all_goals cases hl
  all_goals simp only [decode, hop]

theorem makesA_lt {F : FormA} {i : Instr} {d s t : Nat} (h : F.Makes i d s t) : d < 128 ∧ s < 128 ∧ t < 128 := by
  cases F
  case bad => cases h
  case bare => obtain ⟨-, rfl, rfl, rfl⟩ := h; omega
  case dst | pst | ppp => obtain ⟨x, y, z, -, rfl, rfl, rfl⟩ := h; omega
  case ds | st | pp | fs | df => obtain ⟨x, y, -, rfl, rfl, rfl⟩ := h; omega
  case s | d | p => obtain ⟨x, -, rfl, rfl, rfl⟩ := h; omega
  case dsBit => obtain ⟨x, y, b, -, rfl, rfl, rfl⟩ := h; have := Bool.toNat_lt b; omega
  case sBit => obtain ⟨x, b, -, rfl, rfl, rfl⟩ := h; have := Bool.toNat_lt b; omega
  case bit => obtain ⟨b, -, rfl, rfl, rfl⟩ := h; have := Bool.toNat_lt b; omega

theorem makesV_lt {F : FormV} {i : Instr} {d s t m y : Nat} (h : F.Makes i d s t m y) : d < 16 ∧ s < 16 ∧ t < 16 ∧ m < 8 ∧ y < 8 := by
  cases F
  case bad => cases h
  case ds => obtain ⟨a, b, p, k, -, rfl, rfl, rfl, rfl, rfl⟩ := h; have := code_lt k; omega
  case cvt => obtain ⟨a, b, x, p, k, -, rfl, rfl, rfl, rfl, rfl⟩ := h; have := code_lt k; have := code_lt x; omega
  all_goals obtain ⟨a, b, c, p, k, -, rfl, rfl, rfl, rfl, rfl⟩ := h; have := code_lt k; omega

theorem makesVM_lt {F : FormVM} {i : Instr} {d s t m : Nat} (h : F.Makes i d s t m) : d < 16 ∧ s < 128 ∧ t < 128 ∧ m < 8 := by
  cases F
  case bad => cases h
  case block | noMask => obtain ⟨g, x, y, -, rfl, rfl, rfl, rfl⟩ := h; omega
  case strided => obtain ⟨g, x, y, p, -, rfl, rfl, rfl, rfl⟩ := h; omega
  case indexed => obtain ⟨g, x, v, z, p, -, rfl, rfl, rfl, rfl⟩ := h; have := Bool.toNat_lt z; omega

/-- An instruction that an entry of a table makes. -/
theorem encodesA {i : Instr} {op fn d s t : Nat} {l : List FormA} {F : FormA} (hi : i.words = (encA op d s t fn, 0))
    (hl : tableA op = some l) (hF : l[fn]? = some F) (hmk : F.Makes i d s t) (hwf : i.wf = true) : Encodes i := by
  obtain ⟨hop, hlen, -⟩ := tableA_writes hl
  obtain ⟨hd, hs, ht⟩ := makesA_lt hmk
  have hfn := (List.getElem?_eq_some_iff.mp hF).1
  obtain ⟨hlt, h26, hfields⟩ := fields_encA (show op < 64 by omega) hd hs ht (show fn < 32 by omega)
  refine encodes_one hi hlt ?_
  rw [decode_tableA h26 hl (by rw [hfields]; exact hF) (by rintro rfl; exact hmk), hfields]
  exact readA_of_makes hwf hmk

theorem encodesV {i : Instr} {op fn d s t m y : Nat} {l : List FormV} {F : FormV} (hi : i.words = (encV op d s t m y fn, 0))
    (hl : tableV op = some l) (hF : l[fn]? = some F) (hmk : F.Makes i d s t m y) (hwf : i.wf = true) : Encodes i := by
  obtain ⟨hop, hlen, -⟩ := tableV_writes hl
  obtain ⟨hd, hs, ht, hm, hy⟩ := makesV_lt hmk
  have hfn := (List.getElem?_eq_some_iff.mp hF).1
  obtain ⟨hlt, h26, h22, h18, h14, h11, h8, h0⟩ := fields_encV (show op < 64 by omega) hd hs ht hm hy (show fn < 256 by omega)
  refine encodes_one hi hlt ?_
  rw [decode_tableV h26 hl (by rw [h0]; exact hF)]
  exact readV_of_makes hwf (by rwa [h22, h18, h14, h11, h8])

theorem encodesVM {i : Instr} {op fn d s t m : Nat} {l : List FormVM} {F : FormVM} (hi : i.words = (encVM op d s t m fn, 0))
    (hl : tableVM op = some l) (hF : l[fn]? = some F) (hmk : F.Makes i d s t m) (hwf : i.wf = true) : Encodes i := by
  obtain ⟨hop, hlen, -⟩ := tableVM_writes hl
  obtain ⟨hd, hs, ht, hm⟩ := makesVM_lt hmk
  have hfn := (List.getElem?_eq_some_iff.mp hF).1
  obtain ⟨hlt, h26, h22, h15, h8, h5, h0⟩ := fields_encVM (show op < 64 by omega) hd hs ht hm (show fn < 32 by omega)
  refine encodes_one hi hlt ?_
  rw [decode_tableVM h26 hl (by rw [h0]; exact hF)]
  exact readVM_of_makes hwf (by rwa [h22, h15, h8, h5])

theorem tableA_atom (w : Width) : tableA w.atomMajor = some (formsAtom w) := by cases w <;> rfl
theorem tableA_float (w : Width) : tableA w.floatMajor = some (formsFs w) := by cases w <;> rfl

/-! An instruction whose major the decoder reads field by field: it decodes from every word with the fields that its own word has. -/

theorem encodesI {i : Instr} {op d s n : Nat} (hi : i.words = (encI op d s n, 0)) (hop : op < 64) (hd : d < 128) (hs : s < 128)
    (hn : n < 4096) (hdec : ∀ w, field w 26 6 = op → field w 19 7 = d → field w 12 7 = s → field w 0 12 = n → decode w 0 = .ok i) :
    Encodes i := by
  obtain ⟨hlt, h26, h19, h12, h0⟩ := fields_encI hop hd hs hn
  exact encodes_one hi hlt (hdec _ h26 h19 h12 h0)

theorem encodesU {i : Instr} {op d n : Nat} (hi : i.words = (encU op d n, 0)) (hop : op < 64) (hd : d < 128) (hn : n < 2 ^ 19)
    (hdec : ∀ w, field w 26 6 = op → field w 19 7 = d → field w 0 19 = n → decode w 0 = .ok i) : Encodes i := by
  obtain ⟨hlt, h26, h19, h0⟩ := fields_encU hop hd hn
  exact encodes_one hi hlt (hdec _ h26 h19 h0)

theorem encodes_jump {i : Instr} {op n : Nat} (hi : i.words = (op * 2 ^ 26 + n, 0)) (hop : op < 64) (hn : n < 2 ^ 26)
    (hdec : ∀ w, field w 26 6 = op → field w 0 26 = n → decode w 0 = .ok i) : Encodes i :=
  encodes_one hi (by omega) (hdec _ (by simp only [field]; omega) (by simp only [field]; omega))

theorem encodes_pred_branch {i : Instr} {op p k n : Nat} (hi : i.words = (op * 2 ^ 26 + p * 2 ^ 23 + k * 2 ^ 22 + n, 0)) (hop : op < 64)
    (hp : p < 8) (hk : k < 2) (hn : n < 2 ^ 22)
    (hdec : ∀ w, field w 26 6 = op → field w 23 3 = p → field w 22 1 = k → field w 0 22 = n → decode w 0 = .ok i) : Encodes i :=
  encodes_one hi (by omega) (hdec _ (by simp only [field]; omega) (by simp only [field]; omega) (by simp only [field]; omega)
    (by simp only [field]; omega))

theorem encodes_reg_branch {i : Instr} {op s k n : Nat} (hi : i.words = (op * 2 ^ 26 + s * 2 ^ 19 + k * 2 ^ 18 + n, 0)) (hop : op < 64)
    (hs : s < 128) (hk : k < 2) (hn : n < 2 ^ 18)
    (hdec : ∀ w, field w 26 6 = op → field w 19 7 = s → field w 18 1 = k → field w 0 18 = n → decode w 0 = .ok i) : Encodes i :=
  encodes_one hi (by omega) (hdec _ (by simp only [field]; omega) (by simp only [field]; omega) (by simp only [field]; omega)
    (by simp only [field]; omega))

theorem encodesM {i : Instr} {op d s o z : Nat} (hi : i.words = (encM op d s o z, 0)) (hop : op < 64) (hd : d < 128) (hs : s < 128)
    (ho : o < 512) (hz : z < 8)
    (hdec : ∀ w, field w 26 6 = op → field w 19 7 = d → field w 12 7 = s → field w 3 9 = o → field w 0 3 = z → decode w 0 = .ok i) :
    Encodes i := by
  obtain ⟨hlt, h26, h19, h12, h3, h0⟩ := fields_encM hop hd hs ho hz
  exact encodes_one hi hlt (hdec _ h26 h19 h12 h3 h0)

theorem encodes_fieldsA {i : Instr} {op d s t fn : Nat} (hi : i.words = (encA op d s t fn, 0)) (hop : op < 64) (hd : d < 128) (hs : s < 128)
    (ht : t < 128) (hfn : fn < 32)
    (hdec : ∀ w, field w 26 6 = op → field w 19 7 = d → field w 12 7 = s → field w 5 7 = t → field w 0 5 = fn → decode w 0 = .ok i) :
    Encodes i := by
  obtain ⟨hlt, h26, hfields⟩ := fields_encA hop hd hs ht hfn
  obtain ⟨h19, h12, h5, h0⟩ := FieldsA.mk.inj hfields
  exact encodes_one hi hlt (hdec _ h26 h19 h12 h5 h0)

theorem encodes_fieldsVM {i : Instr} {op d s t m fn : Nat} (hi : i.words = (encVM op d s t m fn, 0)) (hop : op < 64) (hd : d < 16)
    (hs : s < 128) (ht : t < 128) (hm : m < 8) (hfn : fn < 32)
    (hdec : ∀ w, field w 26 6 = op → field w 22 4 = d → field w 15 7 = s → field w 8 7 = t → field w 5 3 = m → field w 0 5 = fn →
      decode w 0 = .ok i) : Encodes i := by
  obtain ⟨hlt, h26, h22, h15, h8, h5, h0⟩ := fields_encVM hop hd hs ht hm hfn
  exact encodes_one hi hlt (hdec _ h26 h22 h15 h8 h5 h0)

theorem decode_decX {w v op : Nat} (h : field w 26 6 = op) (hop : op = 0x38 ∨ op = 0x39 ∨ op = 0x3A ∨ op = 0x3C) : decode w v = decX w v := by
  obtain rfl | rfl | rfl | rfl := hop
  all_goals simp only [decode, h]

theorem encodesX {i : Instr} {op d s t fn q b : Nat} (hi : i.words = (encA op d s t fn, encQ q b))
    (hop : op = 0x38 ∨ op = 0x39 ∨ op = 0x3A ∨ op = 0x3C) (hd : d < 128) (hs : s < 128) (ht : t < 128) (hfn : fn < 32) (hq : q < 128)
    (hb : b < 4)
    (hdec : ∀ w v, field w 26 6 = op → field w 19 7 = d → field w 12 7 = s → field w 5 7 = t → field w 0 5 = fn → field v 25 7 = q →
      field v 16 1 = b % 2 → field v 17 8 = b / 2 → field v 0 16 = 0 → decX w v = .ok i) : Encodes i := by
  obtain ⟨hlt, h26, hfields⟩ := fields_encA (show op < 64 by omega) hd hs ht hfn
  obtain ⟨h19, h12, h5, h0⟩ := FieldsA.mk.inj hfields
  obtain ⟨hltQ, h25, h16, h17, -, -, h0'⟩ := fields_encQ hq hb
  refine encodes_two hi hlt hltQ ?_ ((decode_decX h26 hop).trans (hdec _ _ h26 h19 h12 h5 h0 h25 h16 h17 h0'))
  rw [twoWords, h26, decide_eq_true_eq]
  omega

theorem encodes_qtile (d s t q : Reg) (c r : Bool) : Encodes (.qtile d s t q c r) := by
  have hb : 2 * r.toNat + c.toNat < 4 := by cases c <;> cases r <;> decide
  obtain ⟨hlt, h26, hfields⟩ := fields_encA (op := 0x3C) (fn := 0) (by decide) d.isLt s.isLt t.isLt (by decide)
  obtain ⟨h19, h12, h5, h0⟩ := FieldsA.mk.inj hfields
  obtain ⟨hltQ, h25, h16, -, h17, h18, h0'⟩ := fields_encQ q.isLt hb
  have hc : ((2 * r.toNat + c.toNat) % 2 == 1) = c := by cases c <;> cases r <;> rfl
  have hr : ((2 * r.toNat + c.toNat) / 2 == 1) = r := by cases c <;> cases r <;> rfl
  refine encodes_two rfl hlt hltQ (by rw [twoWords, h26]; rfl) ?_
  rw [decode_decX h26 (by decide)]
  simp only [decX, h26, h19, h12, h5, h0, h25, h16, h17, h18, h0', hc, hr, reg_val]
  rfl

theorem encodes_fmtp (a b c : Fmt) : Encodes (.fmtp a b c) := by
  obtain ⟨hlt, h26, h22, h18, h14, h11, h8, h0⟩ :=
    fields_encV (op := 0x16) (m := 0) (y := 0) (fn := 0) (by decide) a.isLt b.isLt c.isLt (by decide) (by decide) (by decide)
  refine encodes_one rfl hlt ?_
  have hrsv : field (encV 0x16 a b c 0 0 0) 0 14 = 0 := by simp only [field] at *; omega
  simp only [decode, h26, h22, h18, h14, hrsv, grp_val]
  rfl

/-- Every instruction that some word encodes decodes from its own words: by the form of its major's table, or field by field. -/
theorem encodes_of_wf {i : Instr} (h : i.wf = true) : Encodes i := by
  cases i with
  | add | sub | mul | mulh | mulhn | div | divn | rem | remn | and | or | xor | andn | shl | shr | shra | rotl | min | max
  | minn | maxn | lea2 | lea4 | lea8 | addw | mulw | absd | acas64 | acas32 | acas128 | waitv | waken | spawnf | cfgh | mdrain =>
    exact encodesA rfl rfl rfl ⟨_, _, _, rfl, rfl, rfl, rfl⟩ h
  | clz | ctz | popc | brev | bswap | probe | lstat | wake1 | wakea | f32to64 | f64to32 | f32toh16 | h16tof32 | f32tobf | bftof32
  | fclass32 | fclass64 | evict | jdrop | mzero | mwait | mpoll | mring | xjoin | xstat | xwait =>
    exact encodesA rfl rfl rfl ⟨_, _, rfl, rfl, rfl, rfl⟩ h
  | cmpeq | cmpne | cmplt | cmple | cmpltn | cmplen | tstnz | tstz | pand | por | pxor | pandn
  | fceq32 | fclt32 | fcle32 | fcun32 | fceq64 | fclt64 | fcle64 | fcun64 =>
    exact encodesA rfl rfl rfl ⟨_, _, _, rfl, rfl, rfl, rfl⟩ h
  | pnot | pmov | fdset | fdget | spawn => exact encodesA rfl rfl rfl ⟨_, _, rfl, rfl, rfl, rfl⟩ h
  | pall | pnone | jr | jrl | sete | setf | waitf | waite | rbegin | pref | migr | rabort | lresume | lcancel | tend | tself | invpg
  | fqpop | mstat => exact encodesA rfl rfl rfl ⟨_, rfl, rfl, rfl, rfl⟩ h
  | ret | nop | yield | brk | jsync | rcommit | tret | halt | idle | domsw => exact encodesA rfl rfl rfl ⟨rfl, rfl, rfl, rfl⟩ h
  | livem => exact encodesA rfl rfl rfl ⟨_, _, _, rfl, rfl, rfl, rfl⟩ h
  | touch => exact encodesA rfl rfl rfl ⟨_, _, rfl, rfl, rfl, rfl⟩ h
  | xleave => exact encodesA rfl rfl rfl ⟨_, rfl, rfl, rfl, rfl⟩ h
  | pmarkDead | shutOff => exact encodesA rfl rfl rfl ⟨_, false, rfl, rfl, rfl, rfl⟩ h
  | pmarkLive | shutOn => exact encodesA rfl rfl rfl ⟨_, true, rfl, rfl, rfl, rfl⟩ h
  | aadd w | aand w | aor w | axor w | amin w | amax w | aminn w | amaxn w | axchg w | aincw w | afadd w | afmin w | afmax w =>
    exact encodesA rfl (tableA_atom w) rfl ⟨_, _, _, rfl, rfl, rfl, rfl⟩ h
  | adecp w | aaddP w | aandP w | aorP w | axorP w | aminP w | amaxP w | aminnP w | amaxnP w | axchgP w | aincwP w | afaddP w
  | afminP w | afmaxP w => exact encodesA rfl (tableA_atom w) rfl ⟨_, _, rfl, rfl, rfl, rfl⟩ h
  | adecpP w => exact encodesA rfl (tableA_atom w) rfl ⟨_, rfl, rfl, rfl, rfl⟩ h
  | fadd w | fsub w | fmul w | fdiv w | fmin w | fmax w | fma w =>
    exact encodesA rfl (tableA_float w) rfl ⟨_, _, _, rfl, rfl, rfl, rfl⟩ h
  | fsqrt w | fabs w | fneg w | fcvti w | fcvtf w => exact encodesA rfl (tableA_float w) rfl ⟨_, _, rfl, rfl, rfl, rfl⟩ h
  | vadd | vsub | vmul | vmulh | vmin | vmax | vand | vor | vxor | vshl | vshr | vshra | vsadd | vssub | vmadd | vsel | vfadd | vfsub
  | vfmul | vfma | vfdiv | vfmin | vfmax | vceq | vcne | vclt | vcle | vcltn | vclen | vfceq | vfclt | vfcle | vfcun | vperm | vslide
  | vcvt | vexpn | vqnt | vpack | vunpk => exact encodesV rfl rfl rfl ⟨_, _, _, _, _, rfl, rfl, rfl, rfl, rfl, rfl⟩ h
  | vabs | vneg | vpopc | vclz | vfsqrt | vfabs | vfneg | vrcp | vrsq | vexp2 | vlog2 | vfrnd | vredadd | vredmin | vredmax | vfredadd
  | vscan | vcompr | vexpd => exact encodesV rfl rfl rfl ⟨_, _, _, _, rfl, rfl, rfl, rfl, rfl, rfl⟩ h
  | vld | vst | vldf | vstp | vldb | visect | vunion | vdiff => exact encodesVM rfl rfl rfl ⟨_, _, _, rfl, rfl, rfl, rfl, rfl⟩ h
  | vlds | vsts => exact encodesVM rfl rfl rfl ⟨_, _, _, _, rfl, rfl, rfl, rfl, rfl⟩ h
  | vgath | vscat => exact encodesVM rfl rfl rfl ⟨_, _, _, _, _, rfl, rfl, rfl, rfl, rfl⟩ h
  | addi d s n | andi d s n | ori d s n | xori d s n =>
    exact encodesI rfl (by decide) d.isLt s.isLt n.isLt fun w h26 h19 h12 h0 => by simp [decode, h26, h19, h12, h0]
  | shli d s n | shri d s n | shrai d s n | rotli d s n =>
    refine encodesI rfl (by decide) d.isLt s.isLt (by omega) fun w h26 h19 h12 h0 => ?_
    obtain ⟨h10, h6, h0⟩ := shift_fields n.isLt h0
    simp [decode, decShi, finish_eq_ok, h, h26, h19, h12, h10, h6, h0]
  | bfx d s p l | bfxs d s p l | bfi d s p l =>
    refine encodesI rfl (by decide) d.isLt s.isLt (by omega) fun w h26 h19 h12 h0 => ?_
    obtain ⟨h6, h0⟩ := two_six_fields l.isLt h0
    simp [decode, h26, h19, h12, h6, h0]
  | cmpeqi p s n | cmpnei p s n | cmplti p s n | cmplei p s n | cmpgti p s n | cmpgei p s n | cmpltni p s n | cmpleni p s n
  | cmpgtni p s n | cmpgeni p s n =>
    refine encodesI rfl (by decide) (by omega) s.isLt n.isLt fun w h26 h19 h12 h0 => ?_
    obtain ⟨h23, h19⟩ := shifted_pred_fields (by decide) h19
    simp [decode, decCmpi, h26, h23, h19, h12, h0]
  | srd d r => exact encodesI rfl (by decide) d.isLt (by decide) r.isLt fun w h26 h19 h12 h0 => by simp [decode, finish_eq_ok, h, h26, h19, h12, h0]
  | swr s r => exact encodesI rfl (by decide) (by decide) s.isLt r.isLt fun w h26 h19 h12 h0 => by simp [decode, finish_eq_ok, h, h26, h19, h12, h0]
  | trap n =>
    refine encodesI rfl (by decide) (by decide) (by decide) (by omega) fun w h26 h19 h12 h0 => ?_
    obtain ⟨h4, h0⟩ := trap_fields n.isLt h0
    simp [decode, finish_eq_ok, h, h26, h19, h12, h4, h0]
  | movi d n | movs d n => exact encodesU rfl (by decide) d.isLt n.isLt fun w h26 h19 h0 => by simp [decode, h26, h19, h0]
  | br x | call x => exact encodes_jump rfl (by decide) x.isLt fun w h26 h0 => by simp [decode, h26, h0]
  | bp p x | bnp p x =>
    exact encodes_pred_branch rfl (by decide) p.isLt (by decide) x.isLt fun w h26 h23 h22 h0 => by simp [decode, h26, h23, h22, h0]
  | bz s x | bnz s x =>
    exact encodes_reg_branch rfl (by decide) s.isLt (by decide) x.isLt fun w h26 h19 h18 h0 => by simp [decode, h26, h19, h18, h0]
  | ld d s o z | st d s o z =>
    exact encodesM rfl (by decide) d.isLt s.isLt o.isLt (by cases z <;> decide) fun w h26 h19 h12 h3 h0 => by
      simp [decode, decSized, sizeOf?_code, h26, h19, h12, h3, h0]
  | ldf d s o | ldt d s o | stp d s o | stf d s o =>
    exact encodesM rfl (by decide) d.isLt s.isLt o.isLt (by decide) fun w h26 h19 h12 h3 h0 => by simp [decode, decPresence, h26, h19, h12, h3, h0]
  | sel d s t p =>
    refine encodes_fieldsA rfl (by decide) d.isLt s.isLt t.isLt (by omega) fun w h26 h19 h12 h5 h0 => ?_
    have h3 : field w 3 2 = 0 ∧ field w 0 3 = p := by simp only [field] at *; omega
    simp [decode, finish_eq_ok, h, h26, h19, h12, h5, h3]
  | fence c =>
    have hc : c.code < 8 := by cases c <;> decide
    refine encodes_fieldsA rfl (by decide) (by decide) (by decide) (by omega) (by decide) fun w h26 h19 h12 h5 h0 => ?_
    have h53 : field w 5 3 = c.code ∧ field w 8 4 = 0 := by simp only [field] at *; omega
    simp [decode, decFence, scopeOf?_code, finish_eq_ok, h, h26, h19, h12, h53, h0]
  | send n s t =>
    refine encodes_fieldsA rfl (by decide) (by omega) s.isLt t.isLt (by decide) fun w h26 h19 h12 h5 h0 => ?_
    have hle : n.val ≤ 8 := by omega
    have ht : ¬(n.val = 0 ∧ t.val ≠ 0) := by simpa [Instr.wf, or_iff_not_imp_left] using h
    simp only [decode, h26, h0, decSend, h19, h12, h5, if_pos, if_pos hle, if_neg ht, reg_val, Fin.ofNat_val_eq_self]
  | rstrResume d s | rstrHandle d s | rstrKill d s =>
    refine encodes_fieldsA rfl (by decide) d.isLt s.isLt (by decide) (by decide) fun w h26 h19 h12 h5 h0 => ?_
    obtain ⟨h52, h7⟩ := action_fields (by decide) h5
    simp [decode, decRstr, finish_eq_ok, h, h26, h19, h12, h52, h7, h0]
  | vbcast d s b m =>
    refine encodes_fieldsVM rfl (by decide) d.isLt s.isLt (by cases b <;> decide) m.isLt (by decide) fun w h26 h22 h15 h8 h5 h0 => ?_
    simp [decode, decVmov, bwidthOf?_code, finish_eq_ok, h, h26, h22, h15, h8, h5, h0]
  | vins d s t | vext d s t =>
    refine encodes_fieldsVM rfl (by decide) d.isLt s.isLt t.isLt (by decide) (by decide) fun w h26 h22 h15 h8 h5 h0 => ?_
    simp only [decode, h26, decVmov, h0]
    exact readVM_of_makes h ⟨_, _, _, rfl, h22, h15, h8, h5⟩
  | vmovp s r p =>
    refine encodes_fieldsVM rfl (by decide) (by decide) s.isLt (by cases r <;> decide) p.isLt (by decide) fun w h26 h22 h15 h8 h5 h0 => ?_
    cases r
    all_goals simp [decode, decVmov, finish_eq_ok, h, h26, h22, h15, h8, h5, h0]
  | fmtp a b c => exact encodes_fmtp a b c
  | mma d s t q b | mmat d s t q b | xmmaChain d s t q b | xmmaRing d s t q b | lcopyCopy d s t q b | lcopyFill d s t q b
  | lcopyReduce d s t q b | lcopyGather d s t q b =>
    refine encodesX rfl (by decide) d.isLt s.isLt t.isLt (by decide) q.isLt (flag_lt b) fun w v h26 h19 h12 h5 h0 h25 h16 h17 h0' => ?_
    simp only [decX, h26, h19, h12, h5, h0, h25, h16, h17, h0', flag_mod, flag_div, reg_val, finish_eq_ok, h, and_self]
  | mmag d s q b =>
    refine encodesX rfl (by decide) d.isLt s.isLt (by decide) (by decide) q.isLt (flag_lt b) fun w v h26 h19 h12 h5 h0 h25 h16 h17 h0' => ?_
    simp only [decX, h26, h19, h12, h5, h0, h25, h16, h17, h0', flag_mod, flag_div, reg_val, finish_eq_ok, h, and_self]
  | qtile d s t q c r => exact encodes_qtile d s t q c r
  | _ => cases h

/-! The bytes that memory holds. -/

/-- The four bytes of an instruction word, the lowest address first (05 R101). -/
theorem leNat_bytes {w : Nat} (hw : w < 2 ^ 32) : leNat ((List.range 4).map fun k => BitVec.ofNat 8 (w / 2 ^ (8 * k))) = w := by
  simp only [List.range, List.range.loop, List.map, leNat, BitVec.toNat_ofNat]
  omega

theorem decodeBytes_encode {i : Instr} (h : Encodes i) : decodeBytes (encode i) = .ok i := by
  obtain ⟨hfits, hfits2, hdec, hone⟩ := h
  unfold decodeBytes encode
  dsimp only
  split
  · rw [List.take_left' (by simp), List.drop_left' (by simp), List.take_of_length_le (by simp), leNat_bytes hfits, leNat_bytes hfits2, hdec]
  case isFalse hw =>
    rw [List.take_of_length_le (by simp), List.drop_of_length_le (by simp), leNat_bytes hfits]
    rw [hone (by simpa using hw)] at hdec
    exact hdec

theorem length_encode (i : Instr) : (encode i).length = if twoWords i.words.1 then 8 else 4 := by
  unfold encode
  dsimp only
  split
  all_goals simp

theorem decodeTableWord_words {i : Instr} (h : Encodes i) (n : Nat) : decodeTableWord n (i.words.1 + 2 ^ 32 * i.words.2) = some i := by
  obtain ⟨hfits, hfits2, hdec, -⟩ := h
  have hlo : field (i.words.1 + 2 ^ 32 * i.words.2) 0 32 = i.words.1 := by simp only [field]; omega
  have hhi : field (i.words.1 + 2 ^ 32 * i.words.2) 32 32 = i.words.2 := by simp only [field]; omega
  rw [decodeTableWord, hlo, hhi, hdec]
  rfl

/-- Settles O55: a word decodes by the form that its fields select, and that form writes the same fields. -/
theorem encodingsAgree : Obligations.EncodingsAgree := by
  unfold Obligations.EncodingsAgree
  refine ⟨fun i hwf => ?_, fun i w v hw hv h => ?_⟩
  · have h := encodes_of_wf hwf
    exact ⟨h.fits, h.fits_second, h.decodes, decodeBytes_encode h, length_encode i, decodeTableWord_words h⟩
  · obtain ⟨hwf, hwords⟩ := words_of_decode hw hv h
    exact ⟨hwf, by rw [hwords], fun htwo => by rw [hwords, if_pos htwo]⟩

/-- Settles O56: the decoder evaluated on each word. -/
theorem specWordsDecode : Obligations.SpecWordsDecode := by
  unfold Obligations.SpecWordsDecode
  repeat' apply And.intro
  all_goals rfl

end Sys2Proof.EncodingProofs
end

section
/-!
PROOFS. The checks at issue (05 R106, R112, R113; 02 R34): what every instruction does first, and the obligation O1.
-/
namespace Sys2Proof.IssueProofs
open Sys2Proof Sys2Proof.Machine

/-- What an instruction does first: the checks of 05 R112 on its own class and registers, then those of its descriptors; `k` is the rest. -/
def Gated (i : Instr) : Prop :=
  ∃ (x : Prefix) (k : State → State), (x = .plain ↔ i.afterPrefix = false) ∧
    ∀ s, exec i s = .next (issue i.privileged x i.named (fun t => checkFormats (i.formats t.thr) k t) s)

theorem gated_plain {i : Instr} {k : State → State} (ha : i.afterPrefix = false) (hf : ∀ t, i.formats t = [])
    (he : ∀ s, exec i s = .next (issue i.privileged .plain i.named k s)) : Gated i := by
  refine ⟨.plain, k, iff_of_true rfl ha, fun s => ?_⟩
  simp only [he, hf]
  rfl

theorem gated_vector {i : Instr} {y : Ty} {k : State → State} (hp : i.privileged = false) (ha : i.afterPrefix = (y == .x8))
    (he : ∀ s, exec i s = .next (vissue y i.named (fun t => checkFormats (i.formats t.thr) k t) s)) : Gated i := by
  refine ⟨if y = .x8 then .consumer else .plain, k, ?_, fun s => by rw [he, hp]; rfl⟩
  rw [ha]
  cases y
  all_goals decide

theorem gated_vector_unformatted {i : Instr} {y : Ty} {k : State → State} (hp : i.privileged = false)
    (ha : i.afterPrefix = (y == .x8)) (hf : ∀ t, i.formats t = []) (he : ∀ s, exec i s = .next (vissue y i.named k s)) : Gated i := by
  refine gated_vector (k := k) hp ha fun s => ?_
  simp only [he, hf]
  rfl

theorem gated_after {i : Instr} {x : Prefix} {k : State → State} (hx : x ≠ .plain) (ha : i.afterPrefix = true)
    (he : ∀ s, exec i s = .next (issue i.privileged x i.named (fun t => checkFormats (i.formats t.thr) k t) s)) : Gated i :=
  ⟨x, k, iff_of_false hx (by simp [ha]), he⟩

/-- Every instruction of the map, and every privileged one, begins with the checks: by its class. -/
theorem gated {i : Instr} (h : i.wf = true ∨ i.privileged = true) : Gated i := by
  cases i with
  | add | sub | mul | mulh | mulhn | div | divn | rem | remn | and | or | xor | andn | shl | shr | shra | rotl | min | max | minn
  | maxn | lea2 | lea4 | lea8 | addw | mulw | clz | ctz | popc | brev | bswap | absd | addi | andi | ori | xori | shli | shri
  | shrai | rotli | movi | movs | bfx | bfxs | bfi | cmpeq | cmpne | cmplt | cmple | cmpltn | cmplen | tstnz | tstz | cmpeqi
  | cmpnei | cmplti | cmplei | cmpgti | cmpgei | cmpltni | cmpleni | cmpgtni | cmpgeni | pand | por | pxor | pandn | pnot | pmov
  | pall | pnone | sel | br | call | bp | bnp | bz | bnz | jr | jrl | ret | nop | yield | brk | fmtp | fdset | fdget | ld | st | ldf
  | ldt | stp | stf | sete | setf | probe | waitf | waite | fence | jsync | rbegin | rcommit | pref | migr | livem | touch | rabort
  | aadd | aand | aor | axor | amin | amax | aminn | amaxn | axchg | adecp | aincw | afadd | afmin | afmax | aaddP | aandP | aorP
  | axorP | aminP | amaxP | aminnP | amaxnP | axchgP | adecpP | aincwP | afaddP | afminP | afmaxP | acas64 | acas32 | acas128
  | lstat | lresume | lcancel | waitv | wake1 | wakea | waken | spawn | spawnf | tend | send | tself | vld | vst | vlds | vsts
  | vgath | vscat | vldf | vstp | vldb | vbcast | vins | vext | vmovp | visect | vunion | vdiff | fadd | fsub | fmul | fdiv | fsqrt
  | fmin | fmax | fabs | fneg | fma | fcvti | fcvtf | fceq32 | fclt32 | fcle32 | fcun32 | fceq64 | fclt64 | fcle64 | fcun64
  | f32to64 | f64to32 | f32toh16 | h16tof32 | f32tobf | bftof32 | fclass32 | fclass64 | evict | rstrResume | rstrHandle | rstrKill
  | halt | idle | invpg | pmarkDead | pmarkLive | shutOff | shutOn | jdrop | cfgh | domsw | fqpop | trap | mzero | mdrain | mwait
  | mpoll | mring | mstat | xjoin | xleave | xstat | xwait | mma | mmag | mmat | xmmaChain | xmmaRing | lcopyCopy | lcopyFill
  | lcopyReduce | lcopyGather =>
    exact gated_plain rfl (fun _ => rfl) fun s => rfl
  | vadd | vsub | vmul | vmulh | vmin | vmax | vand | vor | vxor | vshl | vshr | vshra | vabs | vneg | vsadd | vssub | vpopc | vclz
  | vmadd | vsel | vrcp | vrsq | vexp2 | vlog2 | vfrnd | vceq | vcne | vclt | vcle | vcltn | vclen | vperm | vredadd | vredmin
  | vredmax | vfredadd | vscan | vcompr | vexpd | vslide =>
    exact gated_vector_unformatted rfl rfl (fun _ => rfl) fun s => rfl
  | vfadd | vfsub | vfmul | vfma | vfdiv | vfsqrt | vfmin | vfmax | vfabs | vfneg | vfceq | vfclt | vfcle | vfcun =>
    exact gated_vector rfl rfl fun s => rfl
  | srd | swr | tret => exact gated_after (x := .neutral) (by decide) rfl fun s => rfl
  | qtile | vcvt | vexpn | vqnt => exact gated_after (x := .consumer) (by decide) rfl fun s => rfl
  | vpack d s t m y | vunpk d s t m y =>
    cases y
    all_goals exact gated_after (x := .consumer) (by decide) rfl fun s => rfl
  | _ => obtain h | h := h <;> cases h

/-- The first descriptor of a list that is not legal. -/
theorem checkFormats_illegal {l r : List Nat} {d : Nat} {k : State → State} {s : State} (hl : ∀ x ∈ l, (narrowOf x).legal = true)
    (hd : (narrowOf d).legal = false) : checkFormats (l ++ d :: r) k s = s.trap Cause.illegalFormat (BitVec.ofNat 64 d) := by
  have hfind : (l ++ d :: r).find? (fun d => !(narrowOf d).legal) = some d := by
    rw [List.find?_append, List.find?_eq_none.mpr (by simpa using hl), Option.none_or, List.find?_cons_of_pos (by simp [hd])]
  unfold checkFormats
  rw [hfind]

/-- Settles O1: an instruction begins with the checks, and each check traps where those before it pass. -/
theorem issueChecksTrap : Obligations.IssueChecksTrap := by
  unfold Obligations.IssueChecksTrap
  intro i s
  refine ⟨fun hpriv hk => ?_, fun hwf =>
    ⟨fun hmode => ⟨fun hafter hpp => ?_, fun r hpp hr hwin hmin => ?_⟩, fun hadm l r d hf hl hd => ?_⟩⟩
  · obtain ⟨x, k, -, he⟩ := gated (.inr hpriv)
    rw [he, hpriv, issue_privilege hk]
  all_goals obtain ⟨x, k, hx, he⟩ := gated (.inl hwf)
  · rw [he, hx.mpr hafter, issue_stray hmode hpp]
  · rw [he, issue_window hmode (fun h => hpp (hx.mp h)) hr hwin hmin]
  · obtain ⟨hmode, hpp, hregs⟩ := hadm
    rw [he, issue_acts hmode (fun h => hpp (hx.mp h)) hregs, hf, checkFormats_illegal hl hd]

end Sys2Proof.IssueProofs
end

section
/-!
PROOFS. What a step of the machine executes (05 R101 to R104, R112) and what it ends with (14 R351, 15 R355); the obligation O57.
-/
namespace Sys2Proof.StepProofs
open Sys2Proof Sys2Proof.Machine

/-! The fetch (05 R101 to R103). -/

theorem fetchOne_words {t : Thread} {a : Nat} {x : Sector} (hfetch : fetchable a = true) (hsector : t.sectorOf a = some x)
    (hfault : x.fault = none) (hclean : x.poisoned.getD (a % 64 / 8) false = false) :
    t.fetchOne a = .words (x.words.getD (a % 64 / 4) 0) 0 := by
  simp only [Thread.fetchOne, hfetch, hsector, hfault, hclean, Bool.not_true, Bool.false_eq_true, if_false]

theorem fetchOne_need {t : Thread} {a : Nat} (hfetch : fetchable a = true) (hsector : t.sectorOf a = none) :
    t.fetchOne a = .need (a / 64 * 64) := by
  simp only [Thread.fetchOne, hfetch, hsector, Bool.not_true, Bool.false_eq_true, if_false]

theorem fetch_one {t : Thread} {w v : Nat} (h : t.fetchOne t.pc.toNat = .words w v) (htwo : twoWords w = false) : t.fetch = .words w 0 := by
  simp only [Thread.fetch, h, htwo, Bool.false_eq_true, if_false]

theorem fetch_two {t : Thread} {w v x y : Nat} (h : t.fetchOne t.pc.toNat = .words w x) (htwo : twoWords w = true)
    (h2 : t.fetchOne (t.pc + 4).toNat = .words v y) : t.fetch = .words w v := by
  simp only [Thread.fetch, h, htwo, if_true, h2]

theorem fetch_need {t : Thread} {a : Nat} (h : t.fetchOne t.pc.toNat = .need a) : t.fetch = .need a := by
  simp only [Thread.fetch, h]

/-! The step (05 R112 steps 1 to 3). -/

/-- The state with its thread no longer marked as the one that issues. -/
def unmarked (σ : State) : State := { σ with issuing := false }

/-- The state in which an instruction acts: its words stand in `ir` (05 R112 step 2). -/
def issued (σ : State) (w v : Nat) : State := { unmarked σ with ir := irOf w v }

/-- What becomes of a thread whose words have been fetched (05 R112 step 3). -/
def fate (u : State) : Decoded → Issued
  | .ok i => .run i u
  | .illegal => .done (u.trap Cause.illegal u.irWord)
  | .reserved => .done (u.trap Cause.reserved u.irWord)

theorem issueNow_words {σ : State} {w v : Nat} (hruns : (unmarked σ).thr.st.runs = true) (hfetch : (unmarked σ).thr.fetch = .words w v) :
    σ.issueNow = fate (issued σ w v) (decode w v) := by
  rw [State.issueNow]
  refine (if_pos hruns).trans ?_
  rw [show ({ σ with issuing := false } : State) = unmarked σ from rfl, hfetch]
  dsimp only
  cases decode w v
  all_goals rfl

theorem issueNow_need {σ : State} {a : Nat} (hruns : (unmarked σ).thr.st.runs = true) (hfetch : (unmarked σ).thr.fetch = .need a) :
    σ.issueNow = .done (unmarked σ) := by
  rw [State.issueNow]
  refine (if_pos hruns).trans ?_
  rw [show ({ σ with issuing := false } : State) = unmarked σ from rfl, hfetch]

theorem step_run {σ t : State} {i : Instr} (hissuing : σ.issuing = true) (h : σ.issueNow = .run i t) : step σ = settle (exec i t) := by
  rw [step, if_pos hissuing, h]

theorem step_done {σ t : State} (hissuing : σ.issuing = true) (h : σ.issueNow = .done t) : step σ = settle (.next t) := by
  rw [step, if_pos hissuing, h]

theorem step_agenda {σ : State} {i : Instr} {r : List Instr} (hissuing : σ.issuing = false) (hagenda : σ.agenda = i :: r)
    (hstep : isStep i = true) : step σ = settle (exec i { σ with agenda := r, tick := σ.tick + 1 }) := by
  have hnext : σ.nextStep = (some i, { σ with agenda := r, tick := σ.tick + 1 }) := by
    simp only [State.nextStep, hagenda, hstep, if_true]
  rw [step, if_neg (by simp [hissuing]), hnext]

/-! What every step ends with (15 R355, 14 R351). -/

theorem module_watchLaunches (s : State) (m : Nat) :
    s.watchLaunches.module m = { s.module m with launches := (s.module m).launches.map (DispatchProofs.marked s m) } := by
  have hmod : s.watchLaunches.module m = (DispatchProofs.watchEntry s (m, s.module m)).2 :=
    DispatchProofs.get_map_entry Module.fresh (DispatchProofs.watchEntry s)
      (fun p => by unfold DispatchProofs.watchEntry; split <;> rfl) s.modules m rfl
  have hrest : ∀ p, (DispatchProofs.watchEntry s p).2 = { p.2 with launches := (DispatchProofs.watchEntry s p).2.launches } := fun p => by
    unfold DispatchProofs.watchEntry
    split <;> rfl
  rw [hmod, hrest, DispatchProofs.launches_watchEntry]

theorem module_watchAsleep (s : State) (m : Nat) : s.watchAsleep.module m =
    { s.module m with domains := (s.module m).domains.map fun q => (q.1, q.2.watch (s.asleepNow m q.2.tag)) } :=
  DispatchProofs.get_map_entry Module.fresh (fun p => (p.1, { p.2 with
      domains := p.2.domains.map fun q => (q.1, q.2.watch (s.asleepNow p.1 q.2.tag)) })) (fun _ => rfl) s.modules m rfl

theorem watch_cases (d : Domain) (out : Bool) : d.watch out =
    if out = true ∧ d.asleep = false then { d with asleep := true, rises := d.rises ++ [d.falls] }
    else if out = false ∧ d.asleep = true then { d with asleep := false, falls := d.falls + 1 } else d := by
  simp only [Domain.watch, Bool.and_eq_true, Bool.not_eq_true']

/-- Settles O57: the words that the buffers hold are the words fetched, what they decode to is what issues, and what is added around the
execution writes the launches and the outputs alone. -/
theorem stepRunsDecodedInstruction : Obligations.StepRunsDecodedInstruction := by
  unfold Obligations.StepRunsDecodedInstruction
  refine ⟨?issue, fun σ hissuing hruns hfetchable hsector => ?wait, fun t => ?settle,
    fun σ i r hissuing hagenda hstep => step_agenda hissuing hagenda hstep⟩
  case issue =>
    intro σ x y t pc pd w two v u hissuing hruns hfetchable hsector hfault hclean htwo
    have hone := fetchOne_words hfetchable hsector hfault hclean
    have hfetch : t.fetch = .words w v := by
      cases h : two with
      | false =>
        have hv : v = 0 := if_neg (by simp [h])
        rw [hv]
        exact fetch_one hone h
      | true =>
        obtain ⟨hfetchable2, hsector2, hfault2, hclean2⟩ := htwo h
        have hv : v = y.words.getD (pd % 64 / 4) 0 := if_pos h
        rw [hv]
        exact fetch_two hone h (fetchOne_words hfetchable2 hsector2 hfault2 hclean2)
    have hnow {r : Decoded} (h : decode w v = r) : σ.issueNow = fate u r := h ▸ issueNow_words hruns hfetch
    exact ⟨fun i h => step_run hissuing (hnow h), fun h => step_done hissuing (hnow h), fun h => step_done hissuing (hnow h)⟩
  case wait => exact step_done hissuing (issueNow_need hruns (fetch_need (fetchOne_need hfetchable hsector)))
  case settle =>
    refine ⟨t.watchLaunches, t.watchLaunches.watchAsleep, rfl, rfl, rfl, fun m => ⟨module_watchLaunches t m, ?_⟩⟩
    rw [module_watchAsleep, module_watchLaunches]
    simp only [watch_cases]

end Sys2Proof.StepProofs
end

section
/-!
PROOFS. The scalar integer instructions, immediates and bit fields, compares, predicates and SEL (06 R135, R142 to R149): what each operation of the
model makes of its words, then the obligations O2 to O5.
-/
namespace Sys2Proof.ScalarProofs
open Sys2Proof Sys2Proof.Machine Sys2Proof.Laws Sys2Proof.LaunchProofs Sys2Proof.WalkProofs

/-! Products, shifts and extensions (06 R143). -/

theorem extract_ofInt (n : Int) : (BitVec.ofInt 128 n).extractLsb' 64 64 = highOf n := by
  refine BitVec.eq_of_toNat_eq ?_
  rw [BitVec.extractLsb'_toNat, BitVec.toNat_ofInt, highOf, BitVec.toNat_ofInt, Nat.shiftRight_eq_div_pow]
  omega

theorem highOf_signed (a b : Word) : highOf (a.toInt * b.toInt) = (a.signExtend 128 * b.signExtend 128).extractLsb' 64 64 := by
  rw [← extract_ofInt, BitVec.ofInt_mul]; rfl

theorem highOf_natural (a b : Word) : highOf (a.toNat * b.toNat) = (a.setWidth 128 * b.setWidth 128).extractLsb' 64 64 := by
  rw [← extract_ofInt, BitVec.ofInt_mul, BitVec.ofInt_natCast, BitVec.ofInt_natCast, BitVec.ofNat_toNat, BitVec.ofNat_toNat]

/-- The shift amount of a register is its low six bits (06 R143). -/
theorem amountOf_eq (b : Word) : amountOf b = (b.extractLsb' 0 6).toNat := by
  rw [BitVec.extractLsb'_toNat, Nat.shiftRight_zero]; rfl

theorem shl_amount (a b : Word) : a <<< amountOf b = a <<< (b.extractLsb' 0 6) := by
  rw [amountOf_eq]; rfl

theorem shr_amount (a b : Word) : a >>> amountOf b = a >>> (b.extractLsb' 0 6) := by
  rw [amountOf_eq]; rfl

theorem shra_amount (a b : Word) : a.sshiftRight (amountOf b) = a.sshiftRight' (b.extractLsb' 0 6) := by
  rw [amountOf_eq]; rfl

theorem rotlWord_amount (a b : Word) : rotlWord a (amountOf b) = a.rotateLeft (b.extractLsb' 0 6).toNat := by
  rw [rotlWord, amountOf_eq, Nat.mod_eq_of_lt (b.extractLsb' 0 6).isLt]

theorem ofInt_sextNat {w : Nat} (hw : 0 < w) (n : Nat) : BitVec.ofInt 64 (sextNat w n) = (BitVec.ofNat w n).signExtend 64 := by
  have hmod : sextNat w n = sextNat w (n % 2 ^ w) := by rw [sextNat, sextNat, Nat.mod_mod]
  have hofNat : BitVec.ofNat w (n % 2 ^ w) = BitVec.ofNat w n :=
    BitVec.eq_of_toNat_eq (by rw [BitVec.toNat_ofNat, BitVec.toNat_ofNat, Nat.mod_mod])
  rw [hmod, sext_eq w _ hw (Nat.mod_lt _ (Nat.two_pow_pos w)), hofNat]; rfl

theorem wordOf32_eq (v : Word) : wordOf32 v = (v.setWidth 32).signExtend 64 := by
  rw [wordOf32, ofInt_sextNat (by decide), BitVec.ofNat_toNat]

/-! Minima and maxima (06 R143). -/

theorem toInt_le_or_eq (a b : Word) : a.toInt ≤ b.toInt ↔ a.slt b = true ∨ a = b := by
  rw [BitVec.slt_iff_toInt_lt, ← BitVec.toInt_inj]
  exact le_iff_lt_or_eq

theorem toNat_le_or_eq (a b : Word) : a.toNat ≤ b.toNat ↔ a < b ∨ a = b := by
  rw [BitVec.lt_def, ← BitVec.toNat_inj]
  exact le_iff_lt_or_eq

theorem pick_of_or_eq {a b : Word} {p q : Prop} [Decidable p] [Decidable q] (h : p ↔ q ∨ a = b) :
    (if p then a else b) = (if q then a else b) ∧ (if p then b else a) = (if q then b else a) := by
  by_cases hq : q
  · simp [h.mpr (.inl hq), hq]
  · by_cases hab : a = b
    · simp [hab]
    · simp [show ¬p from fun hp => (h.mp hp).elim hq hab, hq]

theorem min_max_signed (a b : Word) : (if a.toInt ≤ b.toInt then a else b) = (if a.slt b then a else b) ∧
    (if a.toInt ≤ b.toInt then b else a) = (if a.slt b then b else a) :=
  pick_of_or_eq (toInt_le_or_eq a b)

theorem min_max_natural (a b : Word) : (if a.toNat ≤ b.toNat then a else b) = (if a < b then a else b) ∧
    (if a.toNat ≤ b.toNat then b else a) = (if a < b then b else a) :=
  pick_of_or_eq (toNat_le_or_eq a b)

theorem absd_toNat (a b : Word) : ((BitVec.ofNat 64 (a.toInt - b.toInt).natAbs).toNat : Int) =
    if a.toInt < b.toInt then b.toInt - a.toInt else a.toInt - b.toInt := by
  have ha := BitVec.toInt_lt (x := a)
  have hb := BitVec.toInt_lt (x := b)
  have ha' := BitVec.le_toInt a
  have hb' := BitVec.le_toInt b
  rw [BitVec.toNat_ofNat]
  split
  all_goals omega

/-! Bit counts and reversals (06 R143). -/

theorem clz_spec (a : Word) : let v := BitVec.ofNat 64 (clzNat 64 a.toNat)
    (a = 0 → v = 64) ∧ (a ≠ 0 → v.toNat < 64 ∧ a.getLsbD (63 - v.toNat) = true) ∧ ∀ i < 64, 64 - v.toNat ≤ i → a.getLsbD i = false := by
  intro v
  by_cases ha : a = 0
  · subst ha
    exact ⟨fun _ => rfl, fun h => absurd rfl h, fun i _ _ => by simp⟩
  have hne : a.toNat ≠ 0 := fun h => ha (BitVec.eq_of_toNat_eq h)
  have hlog : Nat.log2 a.toNat < 64 := (Nat.log2_lt hne).mpr a.isLt
  have hv : v.toNat = 63 - Nat.log2 a.toNat := by
    rw [BitVec.toNat_ofNat, clzNat, if_neg hne]
    omega
  refine ⟨fun h => absurd h ha, fun _ => ⟨by omega, ?_⟩, fun i _ hi => ?_⟩
  · rw [hv, show 63 - (63 - Nat.log2 a.toNat) = Nat.log2 a.toNat by omega, BitVec.getLsbD]
    exact Nat.testBit_log2 hne
  · rw [BitVec.getLsbD]
    refine Nat.testBit_lt_two_pow ((Nat.log2_lt hne).mp ?_)
    omega

/-- A word and its negation share the lowest set bit alone. -/
theorem and_neg_eq {a : Word} {k : Nat} (hk : a.getLsbD k = true) (hlow : ∀ j < k, a.getLsbD j = false) : a &&& (0 - a) = BitVec.twoPow 64 k := by
  refine BitVec.eq_of_getLsbD_eq fun i hi => ?_
  rw [zero_sub, BitVec.getLsbD_and, BitVec.getLsbD_neg, BitVec.getLsbD_twoPow]
  rcases lt_trichotomy i k with h | h | h
  · simp [hlow i h, Nat.ne_of_gt h]
  · subst h
    have hnone : ¬∃ j < i, a.getLsbD j = true := by
      rintro ⟨j, hj, hbit⟩
      rw [hlow j hj] at hbit
      cases hbit
    simp [hk, hnone, hi]
  · have hsome : ∃ j < i, a.getLsbD j = true := ⟨k, h, hk⟩
    simp [hsome, hi, Nat.ne_of_lt h]

theorem ctz_spec (a : Word) : let v := BitVec.ofNat 64 (ctzWord a)
    (a = 0 → v = 64) ∧ (a ≠ 0 → v.toNat < 64 ∧ a.getLsbD v.toNat = true) ∧ ∀ i < v.toNat, a.getLsbD i = false := by
  intro v
  by_cases ha : a = 0
  · subst ha
    exact ⟨fun _ => rfl, fun h => absurd rfl h, fun i _ => by simp⟩
  have hbit : ∃ k, a.getLsbD k = true := by
    by_contra hnone
    exact ha (BitVec.eq_of_getLsbD_eq fun i _ => by simpa using fun h => hnone ⟨i, h⟩)
  have hk := Nat.find_spec hbit
  have hlow : ∀ j < Nat.find hbit, a.getLsbD j = false := fun j hj => Bool.eq_false_iff.mpr (Nat.find_min hbit hj)
  have hlt : Nat.find hbit < 64 := BitVec.lt_of_getLsbD hk
  have hv : v.toNat = Nat.find hbit := by
    rw [BitVec.toNat_ofNat, ctzWord, if_neg ha, and_neg_eq hk hlow, BitVec.toNat_twoPow_of_lt hlt, Nat.log2_two_pow]
    omega
  rw [hv]
  exact ⟨fun h => absurd h ha, fun _ => ⟨hlt, hk⟩, hlow⟩

theorem popc_spec (a : Word) : (BitVec.ofNat 64 (popcNat 64 a.toNat)).toNat = ((List.range 64).filter fun i => a.getLsbD i).length := by
  have hle := List.length_filter_le (bit a.toNat ·) (List.range 64)
  rw [List.length_range] at hle
  rw [BitVec.toNat_ofNat, popcNat, Nat.mod_eq_of_lt (by omega)]
  simp only [bit_eq_testBit, BitVec.getLsbD]

/-- Digits of `w` bits written one after the other stand in reverse order. -/
theorem lane_foldl (w : Nat) (d : Nat → Nat) (hd : ∀ i, d i < 2 ^ w) (n i : Nat) (hi : i < n) :
    lane ((List.range n).foldl (fun acc j => 2 ^ w * acc + d j) 0) w i = d (n - 1 - i) := by
  induction n generalizing i with
  | zero => omega
  | succ n ih =>
    rw [List.range_succ, List.foldl_append, List.foldl_cons, List.foldl_nil, lane]
    cases i with
    | zero => rw [Nat.mul_zero, pow_zero, Nat.div_one, Nat.mul_add_mod, Nat.mod_eq_of_lt (hd n)]; rfl
    | succ i =>
      rw [show w * (i + 1) = w + w * i by ring, pow_add, ← Nat.div_div_eq_div_mul, Nat.mul_add_div (Nat.two_pow_pos w),
        Nat.div_eq_of_lt (hd n), Nat.add_zero, show n + 1 - 1 - (i + 1) = n - 1 - i by omega]
      exact ih i (by omega)

theorem brev_spec (a : Word) (i : Nat) (hi : i < 64) : (BitVec.ofNat 64 (brevNat a.toNat)).getLsbD i = a.getLsbD (63 - i) := by
  have hdigit : ∀ j, (bit a.toNat j).toNat < 2 ^ 1 := fun j => Bool.toNat_lt _
  have hlane : lane (brevNat a.toNat) 1 i = (bit a.toNat (63 - i)).toNat := lane_foldl 1 _ hdigit 64 i hi
  have hbit : lane (brevNat a.toNat) 1 i = ((brevNat a.toNat).testBit i).toNat := by
    rw [Nat.toNat_testBit, lane, Nat.one_mul, pow_one]
  rw [BitVec.getLsbD_ofNat, decide_eq_true hi, Bool.true_and, BitVec.getLsbD, ← bit_eq_testBit _ (63 - i)]
  have hinj : ∀ x z : Bool, x.toNat = z.toNat → x = z := by decide
  exact hinj _ _ (hbit.symm.trans hlane)

theorem bswap_spec (a : Word) (i : Nat) (hi : i < 8) :
    (BitVec.ofNat 64 (bswapNat a.toNat)).extractLsb' (8 * i) 8 = a.extractLsb' (8 * (7 - i)) 8 := by
  have hlane : lane (bswapNat a.toNat) 8 i = field a.toNat (8 * (7 - i)) 8 :=
    lane_foldl 8 _ (fun j => Nat.mod_lt _ (Nat.two_pow_pos 8)) 8 i hi
  refine BitVec.eq_of_toNat_eq ?_
  rw [field_ofNat _ _ _ (by omega), ← field_toNat]
  exact hlane

/-- Settles O2: the operations by the lemmas about them, the others as the table writes them. -/
theorem integerOperationResults : Obligations.IntegerOperationResults := by
  unfold Obligations.IntegerOperationResults
  refine ⟨fun d s t σ => ?_, fun d s σ => ?_⟩
  · intro a b
    exact ⟨puts_int (exec_add σ) rfl rfl rfl, puts_int (exec_sub σ) rfl rfl rfl, puts_int (exec_mul σ) rfl rfl rfl,
      puts_int (exec_mulh σ) rfl rfl (highOf_signed a b), puts_int (exec_mulhn σ) rfl rfl (highOf_natural a b),
      puts_int (exec_and σ) rfl rfl rfl, puts_int (exec_or σ) rfl rfl rfl, puts_int (exec_xor σ) rfl rfl rfl,
      puts_int (exec_andn σ) rfl rfl rfl, puts_int (exec_shl σ) rfl rfl (shl_amount a b), puts_int (exec_shr σ) rfl rfl (shr_amount a b),
      puts_int (exec_shra σ) rfl rfl (shra_amount a b), puts_int (exec_rotl σ) rfl rfl (rotlWord_amount a b),
      puts_int (exec_min σ) rfl rfl (min_max_signed a b).1, puts_int (exec_max σ) rfl rfl (min_max_signed a b).2,
      puts_int (exec_minn σ) rfl rfl (min_max_natural a b).1, puts_int (exec_maxn σ) rfl rfl (min_max_natural a b).2,
      puts_int (exec_lea2 σ) rfl rfl rfl, puts_int (exec_lea4 σ) rfl rfl rfl, puts_int (exec_lea8 σ) rfl rfl rfl,
      puts_int (exec_addw σ) rfl rfl (wordOf32_eq (a + b)), puts_int (exec_mulw σ) rfl rfl (wordOf32_eq (a * b)),
      ⟨_, absd_toNat a b, puts_int (exec_absd σ) rfl rfl rfl⟩⟩
  · intro a
    exact ⟨⟨_, clz_spec a, puts_un (exec_clz σ) rfl rfl rfl⟩, ⟨_, ctz_spec a, puts_un (exec_ctz σ) rfl rfl rfl⟩,
      ⟨_, popc_spec a, puts_un (exec_popc σ) rfl rfl rfl⟩, ⟨_, brev_spec a, puts_un (exec_brev σ) rfl rfl rfl⟩,
      ⟨_, bswap_spec a, puts_un (exec_bswap σ) rfl rfl rfl⟩⟩

/-! Division (06 R144). -/

theorem leads_div_zero {σ : State} {i : Instr} {d s t : Reg} {f : Word → Word → Word} (he : exec i σ = intDiv d s t f σ)
    (hn : [d.val, s.val, t.val] = i.named) (ha : i.afterPrefix = false) (ht : σ.g t = 0) : σ.leads i (σ.trap Cause.intDivZero 0) :=
  leads_plain he hn ha (if_pos ht)

theorem puts_div {σ : State} {i : Instr} {d s t : Reg} {f : Word → Word → Word} {v : Word} (he : exec i σ = intDiv d s t f σ)
    (hn : [d.val, s.val, t.val] = i.named) (ha : i.afterPrefix = false) (ht : σ.g t ≠ 0) (hv : f (σ.g s) (σ.g t) = v) : σ.puts i d v :=
  leads_plain he hn ha (by rw [if_neg ht, hv])

theorem ofInt_tdiv (a b : Word) : BitVec.ofInt 64 (Int.tdiv a.toInt b.toInt) = a.sdiv b := by
  refine BitVec.eq_of_toInt_eq ?_
  rw [BitVec.toInt_ofInt, BitVec.toInt_sdiv]

theorem ofInt_tmod (a b : Word) : BitVec.ofInt 64 (Int.tmod a.toInt b.toInt) = a.srem b := by
  rw [← BitVec.toInt_srem, BitVec.ofInt_toInt]

theorem ofNat_div (a b : Word) : BitVec.ofNat 64 (a.toNat / b.toNat) = a / b := by
  rw [← BitVec.toNat_udiv, BitVec.ofNat_toNat, BitVec.setWidth_eq]

theorem ofNat_mod (a b : Word) : BitVec.ofNat 64 (a.toNat % b.toNat) = a % b := by
  rw [← BitVec.toNat_umod, BitVec.ofNat_toNat, BitVec.setWidth_eq]

/-- Settles O3: the divisor is zero, or each quotient and remainder is the word's own. -/
theorem divisionResults : Obligations.DivisionResults := by
  unfold Obligations.DivisionResults
  intro d s t σ a b
  refine ⟨fun hb => ?_, fun hb => ?_⟩
  · exact ⟨leads_div_zero (exec_div σ) rfl rfl hb, leads_div_zero (exec_divn σ) rfl rfl hb, leads_div_zero (exec_rem σ) rfl rfl hb,
      leads_div_zero (exec_remn σ) rfl rfl hb⟩
  · exact ⟨puts_div (exec_div σ) rfl rfl hb (ofInt_tdiv a b), puts_div (exec_divn σ) rfl rfl hb (ofNat_div a b),
      puts_div (exec_rem σ) rfl rfl hb (ofInt_tmod a b), puts_div (exec_remn σ) rfl rfl hb (ofNat_mod a b)⟩

/-! Immediates, constants and bit fields (06 R145, R146). -/

theorem fieldWidth_eq (p l : Fin 64) : fieldWidth p l = min (if l = 0 then 64 else l.val) (64 - p.val) := by
  simp only [fieldWidth, Fin.val_eq_zero_iff]

theorem fieldWidth_pos (p l : Fin 64) : 0 < fieldWidth p l := by
  unfold fieldWidth
  split
  all_goals omega

/-- MOVS joins its immediate below the shifted register. -/
theorem shift_add_eq_or (a : Word) (j : BitVec 19) : a * 2 ^ 19 + j.setWidth 64 = (a <<< 19) ||| j.setWidth 64 := by
  have hmul : a * 2 ^ 19 = a <<< 19 := (BitVec.shiftLeft_eq_mul_twoPow a 19).symm
  rw [hmul]
  refine BitVec.add_eq_or_of_and_eq_zero _ _ (BitVec.eq_of_getLsbD_eq fun i _ => ?_)
  rw [BitVec.getLsbD_and, BitVec.getLsbD_shiftLeft, BitVec.getLsbD_setWidth]
  by_cases hi : i < 19
  · simp [hi]
  · rw [BitVec.getLsbD_of_ge j i (by omega)]; simp

theorem bfx_eq (a : Word) (p w : Nat) : BitVec.ofNat 64 (field a.toNat p w) = (a.extractLsb' p w).setWidth 64 := by
  rw [field_toNat, BitVec.ofNat_toNat]

theorem bfxs_eq (a : Word) (p : Nat) {w : Nat} (hw : 0 < w) : BitVec.ofInt 64 (sextNat w (a.toNat / 2 ^ p)) = (a.extractLsb' p w).signExtend 64 := by
  rw [ofInt_sextNat hw, ← Nat.shiftRight_eq_div_pow]; rfl

theorem getLsbD_putField (a b : Word) (p w k : Nat) (hk : k < 64) : (BitVec.ofNat 64 (putField b.toNat p w a.toNat)).getLsbD k =
    if p ≤ k ∧ k < p + w then a.getLsbD (k - p) else b.getLsbD k := by
  rw [BitVec.getLsbD_ofNat, decide_eq_true hk, Bool.true_and, testBit_putField]
  by_cases hlow : k < p
  · rw [if_pos hlow, if_neg (by omega)]; rfl
  · rw [if_neg hlow]
    by_cases hhigh : k < p + w
    · rw [if_pos hhigh, if_pos (by omega)]; rfl
    · rw [if_neg hhigh, if_neg (by omega)]; rfl

/-- Settles O4: the immediates as the table writes them, the fields by the lemmas about them. -/
theorem immediateAndFieldResults : Obligations.ImmediateAndFieldResults := by
  unfold Obligations.ImmediateAndFieldResults
  intro d s i j n p l σ a w
  have hw : fieldWidth p l = w := fieldWidth_eq p l
  have hrot : n.val % 64 = n.val := Nat.mod_eq_of_lt n.isLt
  refine ⟨puts_un (exec_addi σ) rfl rfl rfl, puts_un (exec_andi σ) rfl rfl rfl, puts_un (exec_ori σ) rfl rfl rfl,
    puts_un (exec_xori σ) rfl rfl rfl, puts_un (exec_shli σ) rfl rfl rfl, puts_un (exec_shri σ) rfl rfl rfl,
    puts_un (exec_shrai σ) rfl rfl rfl, puts_un (exec_rotli σ) rfl rfl (congrArg a.rotateLeft hrot), leads_plain (exec_movi σ) rfl rfl rfl,
    leads_plain (exec_movs σ) rfl rfl (by rw [← shift_add_eq_or]; rfl), puts_un (exec_bfx σ) rfl rfl (hw ▸ bfx_eq a p _),
    puts_un (exec_bfxs σ) rfl rfl (hw ▸ bfxs_eq a p (fieldWidth_pos p l)), ?_⟩
  exact ⟨_, fun k hk => hw ▸ getLsbD_putField a (σ.g d) p _ k hk, leads_plain (exec_bfi σ) rfl rfl rfl⟩

/-! Compares, predicates and SEL (06 R135, R147 to R149). -/

/-- Settles O5: each compare decides the condition of the table, and p0 reads all ones. -/
theorem compareAndSelectResults : Obligations.CompareAndSelectResults := by
  unfold Obligations.CompareAndSelectResults
  refine ⟨fun p s t i σ => ?_, fun d s t g a b σ => ?_⟩
  · intro a b u n
    exact ⟨decides_cmp (exec_cmpeq σ) rfl rfl beq_iff_eq, decides_cmp (exec_cmpne σ) rfl rfl bne_iff_ne,
      decides_cmp (exec_cmplt σ) rfl rfl decide_eq_true_iff, decides_cmp (exec_cmple σ) rfl rfl decide_eq_true_iff,
      decides_cmp (exec_cmpltn σ) rfl rfl decide_eq_true_iff, decides_cmp (exec_cmplen σ) rfl rfl decide_eq_true_iff,
      decides_cmp (exec_tstnz σ) rfl rfl bne_iff_ne, decides_cmp (exec_tstz σ) rfl rfl beq_iff_eq,
      decides_imm (exec_cmpeqi σ) rfl rfl beq_iff_eq, decides_imm (exec_cmpnei σ) rfl rfl bne_iff_ne,
      decides_imm (exec_cmplti σ) rfl rfl decide_eq_true_iff, decides_imm (exec_cmplei σ) rfl rfl decide_eq_true_iff,
      decides_imm (exec_cmpgti σ) rfl rfl decide_eq_true_iff, decides_imm (exec_cmpgei σ) rfl rfl decide_eq_true_iff,
      decides_imm (exec_cmpltni σ) rfl rfl decide_eq_true_iff, decides_imm (exec_cmpleni σ) rfl rfl decide_eq_true_iff,
      decides_imm (exec_cmpgtni σ) rfl rfl decide_eq_true_iff, decides_imm (exec_cmpgeni σ) rfl rfl decide_eq_true_iff⟩
  · intro x y
    have hp0 : s = 0 → x = BitVec.allOnes 64 := fun h => by
      subst h; rfl
    exact ⟨hp0, sets_pred (exec_pand σ) rfl rfl rfl, sets_pred (exec_por σ) rfl rfl rfl, sets_pred (exec_pxor σ) rfl rfl rfl,
      sets_pred (exec_pandn σ) rfl rfl rfl, sets_pred (exec_pnot σ) rfl rfl rfl, sets_pred (exec_pmov σ) rfl rfl rfl,
      sets_pred (exec_pall σ) rfl rfl rfl, sets_pred (exec_pnone σ) rfl rfl rfl, leads_plain (exec_sel σ) rfl rfl rfl⟩

end Sys2Proof.ScalarProofs
end

section
/-!
PROOFS. What an instruction leaves that stays in its thread (06 R142 to R152; 08 R185 to R203, R209 to R211): the updates of the issuing thread one by
one, the classes of instructions by the updates they make, and the obligation O14.
-/
namespace Sys2Proof.FrameProofs
open Sys2Proof Sys2Proof.Machine Sys2Proof.Laws Sys2Proof.FloatScalarProofs Sys2Proof.WalkProofs

/-! Updates of a thread. -/

/-- `u` is the thread `t` but for what an instruction may write of its thread, before it completes. -/
structure WithinThread (w : Writes) (t u : Thread) : Prop where
  rest : u = { t with preds := u.preds, fds := u.fds, tsw := u.tsw, live0 := u.live0, live1 := u.live1, yield := u.yield }
  preds : ∀ n, n ∉ w.preds → u.pred n = t.pred n
  fds : ∀ n, n ∉ w.fds → u.fd n = t.fd n
  tsw : u.tsw &&& ~~~w.tsw = t.tsw &&& ~~~w.tsw
  live : w.live = false → u.live0 = t.live0 ∧ u.live1 = t.live1
  yields : w.yields = false → u.yield = t.yield

variable {w : Writes} {t u v : Thread} {s r : State}

/-- A word holds the bits of the sticky flags, TSW[24:18] (06 R139). -/
def HoldsFlags (a : Word) : Prop := ∀ i, 18 ≤ i → i < 25 → a.getLsbD i = true

theorem holdsFlags_or (c : Word) : HoldsFlags (flagBits ||| c) := by
  intro i hlo hhi
  have hflags : ∀ i < 25, 18 ≤ i → flagBits.getLsbD i = true := by decide
  rw [BitVec.getLsbD_or, hflags i hhi hlo, Bool.true_or]

theorem holdsFlags_flagBits : HoldsFlags flagBits := by
  rw [← BitVec.or_zero (x := flagBits)]
  exact holdsFlags_or 0

theorem WithinThread.refl (w : Writes) (t : Thread) : WithinThread w t t :=
  ⟨rfl, fun _ _ => rfl, fun _ _ => rfl, rfl, fun _ => ⟨rfl, rfl⟩, fun _ => rfl⟩

theorem WithinThread.trans (h : WithinThread w t u) (h' : WithinThread w u v) : WithinThread w t v where
  rest := by rw [h'.rest, h.rest]
  preds n hn := (h'.preds n hn).trans (h.preds n hn)
  fds n hn := (h'.fds n hn).trans (h.fds n hn)
  tsw := h'.tsw.trans h.tsw
  live hw := ⟨(h'.live hw).1.trans (h.live hw).1, (h'.live hw).2.trans (h.live hw).2⟩
  yields hw := (h'.yields hw).trans (h.yields hw)

theorem withinThread_setPred {n : Nat} (hn : n ∈ w.preds) (a : Word) : WithinThread w t (t.setPred n a) := by
  have hrest : t.setPred n a = { t with preds := (t.setPred n a).preds } := by
    unfold Thread.setPred
    split
    all_goals rfl
  rw [hrest]
  refine ⟨rfl, fun k hk => ?_, fun _ _ => rfl, rfl, fun _ => ⟨rfl, rfl⟩, fun _ => rfl⟩
  rw [← hrest, Thread.pred_setPred_ne t n k a fun h => hk (h ▸ hn)]

theorem withinThread_setFd {n : Nat} (hn : n ∈ w.fds) (a : BitVec 32) : WithinThread w t (t.setFd n a) := by
  have hrest : t.setFd n a = { t with fds := (t.setFd n a).fds } := by
    unfold Thread.setFd
    split
    all_goals rfl
  rw [hrest]
  refine ⟨rfl, fun _ _ => rfl, fun k hk => ?_, rfl, fun _ => ⟨rfl, rfl⟩, fun _ => rfl⟩
  rw [← hrest, Thread.fd_setFd_ne t n k a fun h => hk (h ▸ hn)]

/-- TSW replaced by a word that differs in the writable bits alone. -/
theorem withinThread_tsw {a : Word} (h : ∀ i, w.tsw.getLsbD i = false → a.getLsbD i = t.tsw.getLsbD i) : WithinThread w t { t with tsw := a } := by
  refine ⟨rfl, fun _ _ => rfl, fun _ _ => rfl, BitVec.eq_of_getLsbD_eq fun i _ => ?_, fun _ => ⟨rfl, rfl⟩, fun _ => rfl⟩
  rw [BitVec.getLsbD_and, BitVec.getLsbD_and, BitVec.getLsbD_not]
  cases hi : w.tsw.getLsbD i with
  | false => rw [h i hi]
  | true => simp

theorem withinThread_raise (hw : HoldsFlags w.tsw) (f : Nat) : WithinThread w t (t.raise f) := by
  refine withinThread_tsw fun i hi => ?_
  have hbit : (f % 128 * 2 ^ 18).testBit i = false := by
    rw [Nat.testBit_mul_two_pow, show (128 : Nat) = 2 ^ 7 from rfl, Nat.testBit_mod_two_pow]
    by_cases hlow : 18 ≤ i
    · have hhigh : ¬i - 18 < 7 := fun h => by simp [hw i hlow (by omega)] at hi
      simp [hhigh]
    · simp [hlow]
  rw [BitVec.getLsbD_or, BitVec.getLsbD_ofNat, hbit, Bool.and_false, Bool.or_false]

theorem withinThread_clearPrefix (hw : w.tsw.getLsbD 0 = true) : WithinThread w t (t.setTswBit 0 false) := by
  refine withinThread_tsw fun i hi => ?_
  have hne : i ≠ 0 := fun h => by rw [h, hw] at hi; cases hi
  rw [show BitVec.ofNat 64 _ = (t.setTswBit 0 false).tsw from rfl, getLsbD_setTswBit, if_neg hne]
  split
  · rfl
  · rw [BitVec.getLsbD_of_ge _ _ (by omega)]

theorem withinThread_fields (hw : w.tsw = 0x1FFF) (a : Nat) : WithinThread w t { t with tsw := BitVec.ofNat 64 (putField t.tsw.toNat 0 13 a) } := by
  refine withinThread_tsw fun i hi => ?_
  have hlow : ¬i < 0 + 13 := fun h => by
    have htrue : ∀ k < 13, (0x1FFF : Word).getLsbD k = true := by decide
    rw [hw, htrue i (by omega)] at hi
    exact absurd hi (by decide)
  rw [BitVec.getLsbD_ofNat, testBit_putField, if_neg (by omega), if_neg hlow]
  by_cases hi64 : i < 64
  · simp [hi64, BitVec.getLsbD]
  · rw [BitVec.getLsbD_of_ge _ _ (by omega)]
    simp [hi64]

/-! Updates of the state. -/

/-- The state `r` is `s` but for what an instruction may write, before it completes. -/
structure Within (w : Writes) (s r : State) : Prop where
  others : s.keepsOthers r
  regs : s.keepsRegs r w.regs
  memory : r.mem = s.mem
  thr : WithinThread w s.thr r.thr

theorem Within.refl (w : Writes) (s : State) : Within w s s :=
  ⟨State.keepsOthers_refl s, fun _ _ => rfl, rfl, WithinThread.refl w _⟩

theorem Within.onThr (h : Within w s r) {f : Thread → Thread} (hf : WithinThread w r.thr (f r.thr)) : Within w s (r.onThr f) where
  others := State.keepsOthers_trans h.others (State.keepsOthers_onThr r f)
  regs := fun k hk => by rw [State.rf_onThr]; exact h.regs k hk
  memory := h.memory
  thr := by rw [State.thr_onThr]; exact h.thr.trans hf

theorem Within.setG (h : Within w s r) {k : Nat} (hk : k ∈ w.regs) (a : Word) : Within w s (r.setG k a) where
  others := State.keepsOthers_trans h.others (State.keepsOthers_setG r k a)
  regs := State.keepsRegs_trans h.regs (State.keepsRegs_setG r k a) (State.keepsOthers_cur h.others) (by rw [h.thr.rest])
    (fun _ hx => hx) (fun x hx => List.mem_singleton.mp hx ▸ hk)
  memory := h.memory
  thr := by rw [State.thr_setG]; exact h.thr

theorem Within.setP (h : Within w s r) {k : Nat} (hk : k ∈ w.preds) (a : Word) : Within w s (r.setP k a) :=
  h.onThr (withinThread_setPred hk a)

theorem Within.raised (h : Within w s r) (hw : HoldsFlags w.tsw) (f : Nat) : Within w s (r.raised f) :=
  h.onThr (withinThread_raise hw f)

theorem Within.setGrp (h : Within w s r) {d : Grp} (hd : ∀ x ∈ d.regs, x ∈ w.regs) (a : Nat) : Within w s (r.setGrp d a) := by
  unfold State.setGrp
  refine List.foldlRecOn (motive := Within w s) _ _ h fun q hq i hi => hq.setG (hd _ ?_) _
  exact List.mem_map.mpr ⟨i, hi, rfl⟩

theorem keepsOthers_retire (s : State) : s.keepsOthers s.retire := by
  unfold State.retire State.retireTo
  exact State.keepsOthers_onThr s _

/-- `i` ends at the next word with the frame of `w`. -/
def Completes (i : Instr) (w : Writes) (s : State) : Prop :=
  ∃ t, exec i s = .next t ∧ s.frame t w ∧ t.thr.pc = s.thr.pc + 4

/-- An instruction that has written within its bounds goes on at the next word. -/
theorem Within.completes (h : Within w s r) {i : Instr} (he : exec i s = .next r.retire) : Completes i w s := by
  have hpc : r.retire.thr.pc = s.thr.pc + 4 := by rw [State.thr_retire, h.thr.rest]
  have hregs : s.keepsRegs r.retire w.regs := fun k hk => by
    rw [State.retire, State.retireTo, State.rf_onThr, h.regs k hk]
  have hothers : s.keepsOthers r.retire := State.keepsOthers_trans h.others (keepsOthers_retire r)
  have hthr : s.keepsThread r.retire w := by
    refine ⟨?_, fun n hn => ?_, fun n hn => ?_, ?_, fun hl => ?_, fun hy => ?_⟩
    · rw [State.thr_retire, h.thr.rest]
    · rw [State.p, State.thr_retire, State.p, ← h.thr.preds n hn]; rfl
    · rw [State.thr_retire, ← h.thr.fds n hn]; rfl
    · rw [State.thr_retire, ← h.thr.tsw]
    · rw [State.thr_retire]; exact h.thr.live hl
    · rw [State.thr_retire]; exact h.thr.yields hy
  exact ⟨_, he, ⟨hothers, hregs, fun a => by rw [State.retire_mem, h.memory], hthr⟩, hpc⟩

/-! Scalar instructions, by what they end with. -/

section
variable {i : Instr} {k : State → State}

theorem completes_puts {d : Reg} {a : Word} (hadm : s.admits i) (h : s.puts i d a) : Completes i ⟨[d.val], [], [], 0, false, false⟩ s :=
  ((Within.refl _ s).setG (List.mem_singleton_self _) a).completes (h hadm)

theorem completes_sets {p : Pred} {a : Word} (hadm : s.admits i) (h : s.sets i p a) : Completes i ⟨[], [p.val], [], 0, false, false⟩ s :=
  ((Within.refl _ s).setP (List.mem_singleton_self _) a).completes (h hadm)

theorem completes_floats {d : Reg} {f : Nat} {a : Word} (hadm : s.admits i) (hfte : s.thr.fte = false)
    (h : s.signals i f fun u => (u.setG d a).retire) : Completes i ⟨[d.val], [], [], flagBits, false, false⟩ s :=
  (((Within.refl _ s).raised holdsFlags_flagBits f).setG (List.mem_singleton_self _) a).completes ((h hadm).1 (.inl hfte))

theorem completes_tests {p : Pred} {f : Nat} {a : Word} (hadm : s.admits i) (hfte : s.thr.fte = false)
    (h : s.signals i f fun u => (u.setP p a).retire) : Completes i ⟨[], [p.val], [], flagBits, false, false⟩ s :=
  (((Within.refl _ s).raised holdsFlags_flagBits f).setP (List.mem_singleton_self _) a).completes ((h hadm).1 (.inl hfte))

theorem completes_thread {f : Thread → Thread} (hadm : s.admits i) (hf : WithinThread w s.thr (f s.thr)) (h : s.leads i (s.onThr f).retire) :
    Completes i w s :=
  ((Within.refl w s).onThr hf).completes (h hadm)

/-- SRD, admitted, writes what the special register holds (06 R141). -/
theorem puts_srd (d : Reg) (n : BitVec 12) (s : State) : s.puts (.srd d n) d (s.special n.toNat) := by
  intro hadm
  obtain ⟨hpriv, -, hregs⟩ := hadm
  exact congrArg Host.Outcome.next (issue_acts hpriv nofun hregs)

theorem scalar_completes (hadm : s.admits i) (hfte : s.thr.fte = false) (hw : i.scalarWrites = some w)
    (hdiv : ∀ t, i.divisor = some t → s.g t ≠ 0) : Completes i w s := by
  cases i with
  | add | sub | mul | mulh | mulhn | and | or | xor | andn | shl | shr | shra | rotl | min | max | minn | maxn | lea2 | lea4 | lea8
  | addw | mulw | absd | sel | clz | ctz | popc | brev | bswap | addi | andi | ori | xori | shli | shri | shrai | rotli | bfx | bfxs
  | bfi | movi | movs | fdget =>
    cases hw
    exact completes_puts hadm (leads_plain rfl rfl rfl rfl)
  | div | divn | rem | remn =>
    cases hw
    exact completes_puts hadm (leads_plain rfl rfl rfl (if_neg (hdiv _ rfl)))
  | srd d n =>
    cases hw
    exact completes_puts hadm (puts_srd d n s)
  | cmpeq | cmpne | cmplt | cmple | cmpltn | cmplen | tstnz | tstz | cmpeqi | cmpnei | cmplti | cmplei | cmpgti | cmpgei | cmpltni
  | cmpleni | cmpgtni | cmpgeni | pand | por | pxor | pandn | pnot | pmov | pall | pnone =>
    cases hw
    exact completes_sets hadm (leads_plain rfl rfl rfl rfl)
  | nop =>
    cases hw
    exact (Within.refl _ s).completes (leads_plain (t := s.retire) rfl rfl rfl rfl hadm)
  | yield =>
    cases hw
    exact completes_thread hadm ⟨rfl, fun _ _ => rfl, fun _ _ => rfl, rfl, fun _ => ⟨rfl, rfl⟩, nofun⟩ (leads_plain rfl rfl rfl rfl)
  | livem =>
    cases hw
    exact completes_thread hadm ⟨rfl, fun _ _ => rfl, fun _ _ => rfl, rfl, nofun, fun _ => rfl⟩ (leads_plain rfl rfl rfl rfl)
  | fmtp =>
    cases hw
    exact completes_thread hadm (withinThread_fields rfl _) (leads_plain rfl rfl rfl rfl)
  | fdset =>
    cases hw
    exact completes_thread hadm (withinThread_setFd (List.mem_singleton_self _) _) (leads_plain rfl rfl rfl rfl)
  | fadd | fsub | fmul | fdiv | fmin | fmax | fma | fsqrt | fcvti | fcvtf | f32to64 | f64to32 | f32toh16 | h16tof32 | f32tobf | bftof32 =>
    cases hw
    exact completes_floats hadm hfte (signals_of_flagged (leads_plain rfl rfl rfl rfl))
  | fabs w d a =>
    cases hw
    exact completes_puts hadm (puts_fabs w d a s)
  | fneg w d a =>
    cases hw
    exact completes_puts hadm (puts_fneg w d a s)
  | fclass32 =>
    cases hw
    exact completes_puts hadm (puts_float (exec_fclass32 s) rfl rfl rfl)
  | fclass64 =>
    cases hw
    exact completes_puts hadm (puts_float (exec_fclass64 s) rfl rfl rfl)
  | fceq32 | fclt32 | fcle32 | fcun32 | fceq64 | fclt64 | fcle64 | fcun64 =>
    cases hw
    exact completes_tests hadm hfte (signals_of_flagged (leads_plain rfl rfl rfl rfl))
  | _ => cases hw

end

/-! Vector instructions that reach no memory, by what they end with. -/

section
variable {i : Instr} {y : Ty} {k : State → State} {d : Grp} {p : Pred}

theorem checkFormats_legal {l : List Nat} (h : ∀ d ∈ l, (narrowOf d).legal = true) : checkFormats l k s = k s := by
  have hfind : (l.find? fun d => !(narrowOf d).legal) = none := List.find?_eq_none.mpr (by simpa using h)
  unfold checkFormats
  rw [hfind]

theorem vissue_acts (hadm : s.admits i) (ha : i.afterPrefix = (y == .x8)) : vissue y i.named k s = k s := by
  obtain ⟨-, hpp, hregs⟩ := hadm
  refine issue_acts nofun (fun hplain => hpp ?_) hregs
  rw [ha, beq_eq_false_iff_ne]
  rintro rfl
  cases hplain

/-- An admitted instruction whose class and registers are checked acts. -/
theorem exec_vector (hadm : s.admits i) (ha : i.afterPrefix = (y == .x8))
    (he : exec i s = .next (vissue y i.named k s)) : exec i s = .next (k s) := by
  rw [he, vissue_acts hadm ha]

/-- An admitted instruction whose descriptors are legal acts. -/
theorem exec_formatted (hadm : s.admits i) (hleg : ∀ d ∈ i.formats s.thr, (narrowOf d).legal = true)
    (ha : i.afterPrefix = (y == .x8)) (he : exec i s = .next (vissue y i.named (fun t => checkFormats (i.formats t.thr) k t) s)) :
    exec i s = .next (k s) := by
  rw [he, vissue_acts hadm ha, checkFormats_legal hleg]

/-- An admitted consumer whose descriptors are legal acts. -/
theorem exec_consumer (hadm : s.admits i) (hleg : ∀ d ∈ i.formats s.thr, (narrowOf d).legal = true)
    (he : exec i s = .next (consume i.named (fun t => checkFormats (i.formats t.thr) k t) s)) : exec i s = .next (k s) := by
  obtain ⟨-, -, hregs⟩ := hadm
  rw [he, consume_acts hregs, checkFormats_legal hleg]

/-- Completing under a type writes PP when the type is x8 (05 R113). -/
theorem Within.vdone (h : Within w s r) (hw : y = .x8 → w.tsw.getLsbD 0 = true) (he : exec i s = .next (r.vdone y)) : Completes i w s := by
  by_cases hy : y = .x8
  · refine (h.onThr (f := fun t => t.setTswBit 0 false) (withinThread_clearPrefix (hw hy))).completes ?_
    rw [he, State.vdone, if_pos hy]; rfl
  · refine h.completes ?_
    rw [he, State.vdone, if_neg hy]

theorem Within.raised_of (h : Within w s r) {f : Nat} (hf : f = 0 ∨ HoldsFlags w.tsw) : Within w s (r.raised f) := by
  obtain rfl | hw := hf
  · exact h.onThr (by rw [raise_zero]; exact WithinThread.refl w _)
  · exact h.raised hw f

theorem laneFlags_quiet {n : Nat} {act : Nat → Bool} {f : Nat → Nat} (h : ∀ j, f j = 0) : laneFlags n act f = 0 := by
  unfold laneFlags
  refine List.foldlRecOn (motive := fun a => a = 0) _ _ rfl fun a ha j _ => ?_
  rw [h, ha, Nat.or_zero, ite_self]

theorem prefixBit (h : y = .x8) : (if y = .x8 then 1 else 0 : Word).getLsbD 0 = true := by
  rw [if_pos h]; rfl

theorem flags_prefixBit (h : y = .x8) : (flagBits ||| if y = .x8 then 1 else 0).getLsbD 0 = true := by
  rw [BitVec.getLsbD_or, prefixBit h, Bool.or_true]

/-- Flags, then a group, then completion. -/
theorem completes_group {f : Nat} {a : State → Nat} (hfte : s.thr.fte = false) (he : exec i s = .next r)
    (hr : r = s.flagged f fun u => (u.setGrp d (a u)).vdone y) (hd : d.regs = w.regs) (hy : y = .x8 → w.tsw.getLsbD 0 = true)
    (hf : f = 0 ∨ HoldsFlags w.tsw) : Completes i w s := by
  subst hr
  rw [flagged_continues (.inl hfte)] at he
  exact (((Within.refl w s).raised_of hf).setGrp (fun x hx => hd ▸ hx) _).vdone hy he

/-- A group written with no flag set. -/
theorem completes_quiet {f : Nat} {a : State → Nat} (hfte : s.thr.fte = false) (he : exec i s = .next r)
    (hr : r = s.flagged f fun u => (u.setGrp d (a u)).vdone y) (hf : f = 0) :
    Completes i ⟨d.regs, [], [], if y = .x8 then 1 else 0, false, false⟩ s :=
  completes_group hfte he hr rfl prefixBit (.inl hf)

/-- A group written, with flags. -/
theorem completes_flagging {f : Nat} {a : State → Nat} (hfte : s.thr.fte = false) (he : exec i s = .next r)
    (hr : r = s.flagged f fun u => (u.setGrp d (a u)).vdone y) :
    Completes i ⟨d.regs, [], [], flagBits ||| (if y = .x8 then 1 else 0), false, false⟩ s :=
  completes_group hfte he hr rfl flags_prefixBit (.inr (holdsFlags_or _))

/-- A group written by a consumer of any type (08 R200). -/
theorem completes_consumer {f : Nat} {a : State → Nat} (hfte : s.thr.fte = false) (he : exec i s = .next r)
    (hr : r = s.flagged f fun u => (u.setGrp d (a u)).clearPrefix.retire) :
    Completes i ⟨d.regs, [], [], flagBits ||| 1, false, false⟩ s :=
  completes_group (y := .x8) hfte he hr rfl (fun _ => flags_prefixBit (y := .x8) rfl) (.inr (holdsFlags_or _))

/-- A group written with no regard to the flags. -/
theorem completes_setGrp {a : Nat} (he : exec i s = .next r) (hr : r = (s.setGrp d a).vdone y) :
    Completes i ⟨d.regs, [], [], if y = .x8 then 1 else 0, false, false⟩ s :=
  ((Within.refl _ s).setGrp (fun _ hx => hx) a).vdone prefixBit (hr ▸ he)

/-- A compare of lanes into a predicate. -/
theorem completes_compare {m : Pred} {a b : Grp} {c : Nat → Nat → Bool × Nat} (hfte : s.thr.fte = false) (he : exec i s = .next r)
    (hr : r = vcmp p a b m y c s) (hp : p.val ∈ w.preds) (hy : y = .x8 → w.tsw.getLsbD 0 = true)
    (hf : (∀ x z, (c x z).2 = 0) ∨ HoldsFlags w.tsw) : Completes i w s := by
  subst hr
  rw [vcmp, flagged_continues (.inl hfte)] at he
  exact (((Within.refl w s).raised_of (hf.imp_left fun h => laneFlags_quiet fun j => h _ _)).setP hp _).vdone hy he

/-- The sum of the lanes of an integer type sets no flag (08 R197). -/
theorem laneSum_quiet (t : Thread) (l : List Nat) (hy : y.isInt = true) : (laneSum t y l).2 = 0 := by
  rw [laneSum, if_pos hy]

/-- A change of a lane's sign bit sets no flag (08 R190). -/
theorem signOp_quiet (n : Narrow) (b c d : Nat) : (if y = .x8 then (if n.s = 1 then (b, 0) else (c, 0)) else (d, 0) : Nat × Nat).2 = 0 := by
  split_ifs
  all_goals rfl

theorem vector_completes (hadm : s.admits i) (hfte : s.thr.fte = false) (hwf : i.wf = true) (hw : i.vectorWrites = some w)
    (hleg : ∀ d ∈ i.formats s.thr, (narrowOf d).legal = true) : Completes i w s := by
  cases i with
  | vadd | vsub | vmul | vmulh | vmin | vmax | vand | vor | vxor | vshl | vshr | vshra | vmadd | vabs | vneg | vpopc | vclz | vperm
  | vexpd | vslide =>
    cases hw
    exact completes_quiet hfte (exec_vector hadm rfl rfl) rfl (laneFlags_quiet fun _ => rfl)
  | vredmin | vredmax =>
    cases hw
    exact completes_quiet hfte (exec_vector hadm rfl rfl) rfl rfl
  | vredadd =>
    cases hw
    exact completes_quiet hfte (exec_vector hadm rfl rfl) rfl (laneSum_quiet _ _ hwf)
  | vfabs | vfneg =>
    cases hw
    exact completes_quiet hfte (exec_formatted hadm hleg rfl rfl) rfl (laneFlags_quiet fun _ => signOp_quiet _ _ _ _)
  | vsel | vcompr =>
    cases hw
    exact completes_setGrp (exec_vector hadm rfl rfl) rfl
  | vsadd | vssub | vrcp | vrsq | vexp2 | vlog2 | vfrnd | vfredadd | vscan =>
    cases hw
    exact completes_flagging hfte (exec_vector hadm rfl rfl) rfl
  | vfadd | vfsub | vfmul | vfma | vfdiv | vfmin | vfmax | vfsqrt =>
    cases hw
    exact completes_flagging hfte (exec_formatted hadm hleg rfl rfl) rfl
  | vceq | vcne | vclt | vcle | vcltn | vclen =>
    cases hw
    exact completes_compare hfte (exec_vector hadm rfl rfl) rfl (List.mem_singleton_self _) prefixBit (.inl fun _ _ => rfl)
  | vfceq | vfclt | vfcle | vfcun =>
    cases hw
    exact completes_compare hfte (exec_formatted hadm hleg rfl rfl) rfl (List.mem_singleton_self _) flags_prefixBit (.inr (holdsFlags_or _))
  | vcvt | vexpn | vqnt =>
    cases hw
    exact completes_consumer hfte (exec_consumer hadm hleg rfl) rfl
  | vpack d a b m y | vunpk d a b m y =>
    cases hw
    cases y
    all_goals exact completes_consumer hfte (exec_consumer hadm hleg rfl) rfl
  | vbcast d =>
    cases hw
    exact ((Within.refl _ s).setGrp (fun _ hx => hx) _).completes (plain_next rfl rfl rfl hadm)
  | vins d =>
    cases hw
    exact ((Within.refl _ s).setG (List.mem_map.mpr ⟨_, List.mem_range.mpr (Nat.mod_lt _ (by decide)), rfl⟩) _).completes
      (plain_next rfl rfl rfl hadm)
  | vext =>
    cases hw
    exact completes_puts hadm (leads_plain rfl rfl rfl rfl)
  | vmovp a toPred p =>
    cases toPred with
    | true =>
      cases hw
      exact completes_sets hadm (leads_plain rfl rfl rfl rfl)
    | false =>
      cases hw
      exact completes_puts hadm (leads_plain rfl rfl rfl rfl)
  | _ => cases hw

end

/-- Settles O14: the scalar and the vector instructions by the updates that each class makes. -/
theorem scalarAndVectorFrames : Obligations.ScalarAndVectorFrames := by
  unfold Obligations.ScalarAndVectorFrames
  intro i w s hadm hfte hwrites
  obtain ⟨hw, hdiv⟩ | ⟨hwf, hw, hleg⟩ := hwrites
  · exact scalar_completes hadm hfte hw hdiv
  · exact vector_completes hadm hfte hwf hw hleg

end Sys2Proof.FrameProofs
end

section
/-!
PROOFS. Branches and jumps (05 R110; 06 R150, R151) and the control instructions (06 R152, 14 R330); the obligations O6 and O7.
-/
namespace Sys2Proof.BranchProofs
open Sys2Proof Sys2Proof.Machine Sys2Proof.Laws Sys2Proof.FrameProofs

variable {σ : State} {i : Instr} {dst : Word} {links : Bool} {taken : Prop}

/-! A taken branch (05 R110). -/

/-- What a taken branch or jump does first: a call writes LK (06 R150, R151). -/
def linking (links : Bool) : State → State := if links then State.linkNext else id

theorem linking_true (σ : State) : linking true σ = σ.onThr fun t => { t with lk := t.pc + 4 } := rfl

/-- A branch to a good target changes the thread's pc, and its fetch buffers as the target asks (05 R102, R110). -/
theorem jumpTo_lands {link : State → State} (hfetch : fetchable dst.toNat = true) (halign : dst.toNat % 4 = 0) :
    ∃ f : Thread → Thread, σ.jumpTo dst link = (link σ).onThr f ∧
      ∀ t, f t = { t with cur := (f t).cur, nxt := (f t).nxt, fetches := (f t).fetches, pc := dst, issue0 := none } := by
  unfold State.jumpTo
  rw [if_pos (by simp [hfetch, halign])]
  refine ⟨_, rfl, fun t => ?_⟩
  dsimp only
  split
  all_goals rfl

theorem jumpTo_traps {link : State → State} (hbad : fetchable dst.toNat = false ∨ dst.toNat % 4 ≠ 0) :
    σ.jumpTo dst link = σ.trap Cause.badAddress dst := by
  unfold State.jumpTo
  rw [if_neg]
  obtain h | h := hbad
  · simp [h]
  · simp [h]

theorem thr_linking (links : Bool) (σ : State) : (linking links σ).thr = { σ.thr with lk := if links then σ.thr.pc + 4 else σ.thr.lk } := by
  cases links with
  | false => rfl
  | true => rw [linking_true, State.thr_onThr, if_pos rfl]

theorem g_linking (links : Bool) (σ : State) (k : Nat) : (linking links σ).g k = σ.g k := by
  cases links with
  | false => rfl
  | true => rw [linking_true, State.g_onThr _ _ _ rfl]

theorem keepsOthers_linking (links : Bool) (σ : State) : σ.keepsOthers (linking links σ) := by
  cases links with
  | false => exact State.keepsOthers_refl σ
  | true => rw [linking_true]; exact State.keepsOthers_onThr σ _

theorem mem_linking (links : Bool) (σ : State) : (linking links σ).mem = σ.mem := by
  cases links
  all_goals rfl

/-- `i` goes to `dst` when `taken`, and links as `links` says; a bad target traps and links nothing (05 R110; 06 R150, R151). -/
def Goes (σ : State) (i : Instr) (taken : Prop) (dst : Word) (links : Bool) : Prop :=
  (taken → fetchable dst.toNat = true → dst.toNat % 4 = 0 → σ.admits i →
    ∃ t, exec i σ = .next t ∧ t.thr.pc = dst ∧ t.thr.lk = (if links then σ.thr.pc + 4 else σ.thr.lk) ∧ (∀ k, t.g k = σ.g k) ∧
      (∀ k, t.p k = σ.p k) ∧ t.thr.tsw = σ.thr.tsw ∧ t.thr.trap = σ.thr.trap ∧ σ.keepsOthers t ∧ σ.keepsMemory t) ∧
  (taken → (fetchable dst.toNat = false ∨ dst.toNat % 4 ≠ 0) → σ.leads i (σ.trap Cause.badAddress dst)) ∧
  (¬taken → σ.leads i σ.retire)

/-- A branch taken under a condition. -/
theorem goes_branch {k : State → State} {c : Bool} (he : exec i σ = .next (plain i.named k σ)) (ha : i.afterPrefix = false)
    (hk : k σ = if c then σ.jumpTo dst (linking links) else σ.retire) (hc : c = true ↔ taken) : Goes σ i taken dst links := by
  refine ⟨fun ht hfetch halign hadm => ?_, fun ht hbad => ?_, fun ht => ?_⟩
  · obtain ⟨f, hjump, hf⟩ := jumpTo_lands (σ := σ) (link := linking links) hfetch halign
    have hnext : exec i σ = .next ((linking links σ).onThr f) := by
      rw [plain_next he rfl ha hadm, hk, if_pos (hc.mpr ht), hjump]
    have hthr : ((linking links σ).onThr f).thr = f { σ.thr with lk := if links then σ.thr.pc + 4 else σ.thr.lk } := by
      rw [State.thr_onThr, thr_linking]
    refine ⟨_, hnext, ?_, ?_, fun k => ?_, fun k => ?_, ?_, ?_, ?_, fun a => ?_⟩
    · rw [hthr, hf]
    · rw [hthr, hf]
    · rw [State.g_onThr _ _ _ (by rw [hf]), g_linking]
    · rw [State.p, hthr, hf]; rfl
    · rw [hthr, hf]
    · rw [hthr, hf]
    · exact State.keepsOthers_trans (keepsOthers_linking links σ) (State.keepsOthers_onThr _ _)
    · rw [State.onThr_mem, mem_linking]
  · exact leads_plain he rfl ha (by rw [hk, if_pos (hc.mpr ht), jumpTo_traps hbad])
  · exact leads_plain he rfl ha (by rw [hk, if_neg (fun h => ht (hc.mp h))])

/-- A jump that is always taken. -/
theorem goes_jump {k : State → State} (he : exec i σ = .next (plain i.named k σ)) (ha : i.afterPrefix = false)
    (hk : k σ = σ.jumpTo dst (linking links)) : Goes σ i True dst links :=
  goes_branch (c := true) he ha hk (iff_of_true rfl trivial)

/-- Settles O6: each branch by its condition, each jump by its target. -/
theorem branchesAndJumpsGo : Obligations.BranchesAndJumpsGo := by
  unfold Obligations.BranchesAndJumpsGo
  intro σ x y z p s rel goes
  have hgoes : goes = Goes σ := rfl
  rw [hgoes]
  exact ⟨goes_jump (exec_br σ) rfl rfl, goes_jump (exec_call σ) rfl rfl, goes_branch (exec_bp σ) rfl rfl Iff.rfl,
    goes_branch (exec_bnp σ) rfl rfl (by simp), goes_branch (exec_bz σ) rfl rfl beq_iff_eq, goes_branch (exec_bnz σ) rfl rfl bne_iff_ne,
    goes_jump (exec_jr σ) rfl rfl, goes_jump (exec_jrl σ) rfl rfl, goes_jump (exec_ret σ) rfl rfl⟩

/-! Control (06 R152, 14 R330). -/

/-- Settles O7: each of the four acts as a plain instruction. -/
theorem controlInstructions : Obligations.ControlInstructions := by
  unfold Obligations.ControlInstructions
  intro σ n
  refine ⟨leads_plain (exec_nop σ) rfl rfl rfl, fun hadm => ⟨_, plain_next (exec_yield σ) rfl rfl hadm, ?_, ?_⟩,
    leads_plain (exec_brk σ) rfl rfl rfl, leads_plain (exec_trap σ) rfl rfl rfl⟩
  · rw [State.thr_retire, State.thr_onThr]
  · exact State.keepsOthers_trans (State.keepsOthers_onThr σ _) (keepsOthers_retire _)

end Sys2Proof.BranchProofs
end

section
/-!
PROOFS. Special registers (06 R137 to R141, 14 R326, 04 R84, R87): what SRD reads and what SWR writes; the obligations O8 and O9.
-/
namespace Sys2Proof.SpecialProofs
open Sys2Proof Sys2Proof.Machine Sys2Proof.Laws Sys2Proof.SumProofs Sys2Proof.FloatScalarProofs Sys2Proof.FrameProofs

variable {σ : State} {n : Nat}

theorem low_eq (v : Word) (n : Nat) (hn : n ≤ 64) : low n v = v &&& BitVec.ofNat 64 (2 ^ n - 1) := ofNat_mod_two_pow v n hn

/-! Reads (06 R137 to R141). -/

/-- SRD by a number, where the register's content is known (06 R141). -/
theorem srd_reads {v : Word} (d : Reg) (hn : n < 2 ^ 12) (hv : σ.special n = v) : σ.puts (.srd d (BitVec.ofNat 12 n)) d v := by
  have h := puts_srd d (BitVec.ofNat 12 n) σ
  rwa [BitVec.toNat_ofNat, Nat.mod_eq_of_lt hn, hv] at h

theorem special_tid (hboot : (σ.module (cidModule σ.cur.1)).bootMode = false) :
    σ.special 0x005 = BitVec.ofNat 64 (σ.cur.1 * 256 + σ.cur.2) := by
  have hshown : σ.shownCid σ.cur.1 = σ.cur.1 := if_neg (by simp [hboot])
  exact congrArg (fun c => BitVec.ofNat 64 (threadName c σ.cur.2)) hshown

theorem special_imask (j : Fin 9) : σ.special (0x010 + j.val) = low 46 ((σ.masks (cidModule σ.cur.1) σ.thr.dom).getD j.val 0) := by
  fin_cases j
  all_goals rfl

theorem special_ttbl (k : Fin 8) : σ.special (0x110 + k.val) = (σ.core σ.cur.1).ttbl σ.thr.dom k.val := by
  fin_cases k
  all_goals rfl

theorem special_prgn (k : Fin 8) : σ.special (0x140 + k.val) = Tab.get 0 (σ.core σ.cur.1).prgn k.val := by
  fin_cases k
  all_goals rfl

theorem special_cprgn (k : Fin 8) : σ.special (0x148 + k.val) = Tab.get 0 (σ.cluster (cidCluster σ.cur.1)).cprgn k.val := by
  fin_cases k
  all_goals rfl

/-- A number of the supervisor range that is not assigned reads as zero (06 R137). -/
theorem special_unassigned (h : 0x107 ≤ n ∧ n ≤ 0x10F ∨ 0x11A ≤ n ∧ n ≤ 0x11F) : σ.special n = 0 := by
  obtain ⟨hlo, hhi⟩ | ⟨hlo, hhi⟩ := h
  all_goals
    interval_cases n
    all_goals rfl

/-- Settles O8: each number by what `special` gives for it. -/
theorem specialRegisterReads : Obligations.SpecialRegisterReads := by
  unfold Obligations.SpecialRegisterReads
  intro d k j σ t cid c rd
  refine ⟨srd_reads d (by decide) (low_eq _ 26 (by decide)), srd_reads d (by decide) rfl, srd_reads d (by decide) (low_eq _ 10 (by decide)),
    srd_reads d (by decide) rfl, srd_reads d (by decide) rfl, fun hboot => srd_reads d (by decide) (special_tid hboot), srd_reads d (by decide) rfl,
    srd_reads d (by decide) rfl, srd_reads d (by decide) rfl, srd_reads d (by decide) rfl, srd_reads d (by decide) rfl,
    srd_reads d (by decide) rfl, srd_reads d (by decide) rfl, srd_reads d (by decide) rfl,
    srd_reads d (by omega) ((special_imask j).trans (low_eq _ 46 (by decide))), srd_reads d (by decide) rfl, srd_reads d (by decide) rfl,
    srd_reads d (by decide) rfl, srd_reads d (by decide) rfl, srd_reads d (by decide) rfl, srd_reads d (by decide) rfl,
    srd_reads d (by decide) rfl, srd_reads d (by omega) (special_ttbl k), srd_reads d (by omega) (special_prgn k),
    srd_reads d (by omega) (special_cprgn k), srd_reads d (by decide) rfl, srd_reads d (by decide) rfl,
    fun n h => srd_reads d (by omega) (special_unassigned h)⟩

/-! Writes (06 R138 to R141, 14 R326). -/

/-- SWR, admitted, writes the special register (06 R141). -/
theorem leads_swr (a : Reg) (r : BitVec 12) (σ : State) : σ.leads (.swr a r) (σ.setSpecial r.toNat (σ.g a)).retire := by
  intro hadm
  obtain ⟨hpriv, -, hregs⟩ := hadm
  exact congrArg Host.Outcome.next (issue_acts hpriv nofun hregs)

/-- SWR by a number, where the write is known (06 R141). -/
theorem swr_writes {a : Reg} {t : State} (hn : n < 2 ^ 12) (ht : σ.setSpecial n (σ.g a) = t) : σ.leads (.swr a (BitVec.ofNat 12 n)) t.retire := by
  have h := leads_swr a (BitVec.ofNat 12 n) σ
  rwa [BitVec.toNat_ofNat, Nat.mod_eq_of_lt hn, ht] at h

theorem setSpecial_jstat (σ : State) (v : Word) :
    σ.setSpecial 0x008 v = σ.onThr fun t => { t with jkind := v.toNat / 2 ^ 8 % 16, jentry := v.toNat % 64 } := by
  have hlow : field v.toNat 0 6 = v.toNat % 64 := field_zero _ _
  rw [← hlow]; rfl

theorem setSpecial_tcause (σ : State) (v : Word) :
    σ.setSpecial 0x002 v = σ.onThr fun t => { t with trap := { t.trap with tcause := v &&& 0x3FF } } := by
  rw [← show low 10 v = v &&& 0x3FF from low_eq v 10 (by decide)]; rfl

theorem setSpecial_tepc (σ : State) (v : Word) :
    σ.setSpecial 0x004 v = σ.onThr fun t => { t with trap := { t.trap with tepc := v &&& ~~~3 } } := by
  rw [← div4]; rfl

/-- A read-only number, and one that is not assigned, keeps its value (06 R138 to R141). -/
theorem setSpecial_readOnly (v : Word) (h : 0x005 ≤ n ∧ n ≤ 0x007 ∨ n = 0x009 ∨ 0x010 ≤ n ∧ n ≤ 0x018 ∨ n = 0x101 ∨ 0x107 ≤ n ∧ n ≤ 0x10F ∨
    0x119 ≤ n ∧ n ≤ 0x11F) : σ.setSpecial n v = σ := by
  obtain ⟨hlo, hhi⟩ | rfl | ⟨hlo, hhi⟩ | rfl | ⟨hlo, hhi⟩ | ⟨hlo, hhi⟩ := h
  case inr.inl => rfl
  case inr.inr.inr.inl => rfl
  all_goals
    interval_cases n
    all_goals rfl

/-- The trap table that a write begins with: one that was never written holds zeros (14 R324). -/
def wholeTable (l : List Word) : List Word := if l.length = 8 then l else List.replicate 8 0

theorem length_wholeTable (l : List Word) : (wholeTable l).length = 8 := by
  unfold wholeTable
  split
  · assumption
  · rfl

theorem ttbl_setSpecial (v : Word) (k : Fin 8) : ((σ.setSpecial (0x110 + k.val) v).core σ.cur.1).ttbl σ.thr.dom k.val = v := by
  have hcore : σ.setSpecial (0x110 + k.val) v = σ.onCore σ.cur.1 fun c =>
      { c with traps := Tab.set c.traps σ.thr.dom (listSet (wholeTable (Tab.get [] c.traps σ.thr.dom)) k.val v) } := by
    fin_cases k
    all_goals rfl
  rw [hcore, State.core_onCore_same, Core.ttbl, Tab.get_set_same, listSet_getD, length_wholeTable, if_pos ⟨rfl, k.isLt⟩]

theorem prgn_setSpecial (v : Word) (k : Fin 8) :
    Tab.get 0 ((σ.setSpecial (0x140 + k.val) v).core σ.cur.1).prgn k.val = v &&& 0xFFFF1F1F1FFF1FFF := by
  have hcore : σ.setSpecial (0x140 + k.val) v = σ.onCore σ.cur.1 fun c => { c with prgn := Tab.set c.prgn k.val (v &&& prgnMask) } := by
    fin_cases k
    all_goals rfl
  rw [hcore, State.core_onCore_same, Tab.get_set_same]; rfl

theorem cprgn_setSpecial (v : Word) (k : Fin 8) :
    Tab.get 0 ((σ.setSpecial (0x148 + k.val) v).cluster (cidCluster σ.cur.1)).cprgn k.val = v &&& 0xFFFF1F1F1FFF1FFF := by
  have hcluster : σ.setSpecial (0x148 + k.val) v =
      σ.onCluster (cidCluster σ.cur.1) fun c => { c with cprgn := Tab.set c.cprgn k.val (v &&& prgnMask) } := by
    fin_cases k
    all_goals rfl
  rw [hcluster, State.onCluster, State.cluster, Tab.get_set_same, Tab.get_set_same]; rfl

theorem retries_setSpecial (v : Word) : Tab.get ⟨0, 0, 0, 0⟩ ((σ.setSpecial 0x118 v).core σ.cur.1).retries σ.thr.dom =
    ⟨v.toNat / 2 ^ 48, v.toNat / 2 ^ 32 % 2 ^ 16, v.toNat / 2 ^ 16 % 2 ^ 16, v.toNat % 2 ^ 16⟩ := by
  have hcore : σ.setSpecial 0x118 v = σ.onCore σ.cur.1 fun c => { c with retries := Tab.set c.retries σ.thr.dom (retriesOf v) } := rfl
  have htop : field v.toNat 48 16 = v.toNat / 2 ^ 48 := Nat.mod_eq_of_lt (by have := v.isLt; omega)
  rw [hcore, State.core_onCore_same, Tab.get_set_same, retriesOf, htop, field_zero]; rfl

/-- Completing leaves everything of the core but its register file and its slots. -/
theorem core_retire {s : State} {cid : Nat} (hcid : s.cur.1 = cid) :
    s.retire.core cid = { s.core cid with rf := (s.retire.core cid).rf, slots := (s.retire.core cid).slots } := by
  subst hcid
  obtain ⟨-, -, hcore, -⟩ := keepsOthers_retire s
  exact hcore

/-! What no SWR changes (06 R141). -/

/-- K, RG, the general registers and memory are the same in two states. -/
structure KeepsMode (s t : State) : Prop where
  cur : t.cur = s.cur
  k : t.thr.k = s.thr.k
  rg : t.thr.rg = s.thr.rg
  g : ∀ j, t.g j = s.g j
  memory : t.mem = s.mem

theorem keepsMode_onThr {f : Thread → Thread} (hbase : (f σ.thr).base = σ.thr.base) (hk : (f σ.thr).k = σ.thr.k)
    (hrg : (f σ.thr).rg = σ.thr.rg) : KeepsMode σ (σ.onThr f) :=
  ⟨rfl, by rw [State.thr_onThr, hk], by rw [State.thr_onThr, hrg], fun j => State.g_onThr σ j f hbase, rfl⟩

theorem keepsMode_onCore {cid : Nat} {f : Core → Core} (hrf : ∀ c, (f c).rf = c.rf) (hslots : ∀ c, (f c).slots = c.slots) :
    KeepsMode σ (σ.onCore cid f) := by
  have hregs : ∀ c, ((σ.onCore cid f).core c).rf = (σ.core c).rf := fun c => by
    rw [State.core_onCore]
    split
    · next h => rw [hrf, h]
    · rfl
  have hthread : ∀ c j, (σ.onCore cid f).thread c j = σ.thread c j := fun c j => by
    rw [State.thread, State.core_onCore, State.thread, Core.slot]
    split
    · next h => rw [hslots, h]; rfl
    · rfl
  have hthr : (σ.onCore cid f).thr = σ.thr := hthread _ _
  refine ⟨rfl, by rw [hthr], by rw [hthr], fun j => ?_, rfl⟩
  rw [State.g, State.gOf, hregs, hthread]; rfl

theorem mergeMask_bit {mask : Word} {k : Nat} (hk : mask.getLsbD k = false) (hlt : k < 64) (a b : Word) :
    (mergeMask mask a b).getLsbD k = a.getLsbD k := by
  rw [mergeMask, BitVec.getLsbD_or, BitVec.getLsbD_and, BitVec.getLsbD_and, BitVec.getLsbD_not, hk]
  simp [hlt]

theorem keepsMode_retire (s : State) : KeepsMode s s.retire :=
  ⟨rfl, by rw [State.thr_retire]; rfl, by rw [State.thr_retire]; rfl, fun j => State.g_retire s j, rfl⟩

theorem setSpecial_keepsMode (σ : State) (n : Nat) (v : Word) : KeepsMode σ (σ.setSpecial n v) := by
  unfold State.setSpecial
  split
  case h_1 => exact keepsMode_onThr rfl (mergeMask_bit (by decide) (by decide) _ _) (mergeMask_bit (by decide) (by decide) _ _)
  case h_17 => exact keepsMode_onCore (fun _ => rfl) fun _ => rfl
  case h_18 =>
    dsimp only
    split_ifs
    · exact keepsMode_onCore (fun _ => rfl) fun _ => rfl
    · exact keepsMode_onCore (fun _ => rfl) fun _ => rfl
    · exact ⟨rfl, rfl, rfl, fun _ => rfl, rfl⟩
    · exact ⟨rfl, rfl, rfl, fun _ => rfl, rfl⟩
  all_goals exact keepsMode_onThr rfl rfl rfl

/-- Settles O9: each number by what `setSpecial` makes of it, and no number changes the mode. -/
theorem specialRegisterWrites : Obligations.SpecialRegisterWrites := by
  unfold Obligations.SpecialRegisterWrites
  refine ⟨fun a k σ => ?_, fun a r σ hadm => ?_⟩
  · intro v wr wt rw
    refine ⟨swr_writes (by decide) rfl, swr_writes (by decide) rfl, swr_writes (by decide) (setSpecial_tcause σ v), swr_writes (by decide) rfl,
      swr_writes (by decide) (setSpecial_tepc σ v), swr_writes (by decide) (setSpecial_jstat σ v), swr_writes (by decide) rfl,
      swr_writes (by decide) rfl, swr_writes (by decide) rfl, swr_writes (by decide) rfl,
      fun n h => swr_writes (by omega) (setSpecial_readOnly v h), swr_writes (by decide) rfl, swr_writes (by decide) rfl,
      swr_writes (by decide) rfl, swr_writes (by decide) rfl, swr_writes (by decide) rfl, swr_writes (by decide) rfl,
      fun hadm => ⟨_, swr_writes (by omega) rfl hadm, ?_⟩, fun hadm => ⟨_, swr_writes (by omega) rfl hadm, ?_⟩,
      fun hadm => ⟨_, swr_writes (by omega) rfl hadm, ?_⟩, fun hadm => ⟨_, swr_writes (n := 0x118) (by decide) rfl hadm, ?_⟩⟩
    · rw [core_retire (congrArg Prod.fst (setSpecial_keepsMode σ _ v).cur)]
      exact ttbl_setSpecial v k
    · rw [core_retire (congrArg Prod.fst (setSpecial_keepsMode σ _ v).cur)]
      exact prgn_setSpecial v k
    · exact cprgn_setSpecial v k
    · rw [core_retire (congrArg Prod.fst (setSpecial_keepsMode σ _ v).cur)]
      exact retries_setSpecial v
  · have hset := setSpecial_keepsMode σ r.toNat (σ.g a)
    have hret := keepsMode_retire (σ.setSpecial r.toNat (σ.g a))
    exact ⟨_, leads_swr a r σ hadm, hret.k.trans hset.k, hret.rg.trans hset.rg, fun j => (hret.g j).trans (hset.g j),
      fun b => by rw [hret.memory, hset.memory]⟩

end Sys2Proof.SpecialProofs
end
